-- ==== Sys2Proof/Word.lean ====
section
/-!
DEFINITION. The word types of the machine and their plainest arithmetic: a register lane and every
scalar register hold 64 bits (R62, R84), memory is addressed by byte (R3).
-/

namespace Sys2Proof

/-- One lane of a vector register, or one scalar register (R62, R84). -/
abbrev Word := BitVec 64

/-- One byte of memory (R3). -/
abbrev Byte := BitVec 8

/-- A lane mask: bit l is lane l; bits at or above W read as 0 (R62). -/
abbrev Mask := BitVec 64

/-- The mask with lanes 0 to n - 1 set. -/
def Mask.low (n : Nat) : Mask := BitVec.ofNat 64 (2 ^ n - 1)

/-- Is lane `l` set in the mask? -/
def Mask.has (m : Mask) (l : Nat) : Bool := m.getLsbD l

end Sys2Proof
end

