-- ==== Sys2Proof/Syntax.lean ====
section
/-!
DEFINITION. The instruction set as syntax: operand codes (R18, R19), the modifier layouts (R22 to
R32), and the one inductive `Instr` with a constructor for every row of the opcode table: the Xothes
instructions, and the steps of the device's other agents (spec/95_what_each_step_holds.md).
-/

namespace Sys2Proof

/-- A team is named by its context and its 32-bit team id (R51). -/
structure TKey where
  ctx : Nat
  tid : Nat
  deriving DecidableEq, Repr

/-- A warp is named by its team and its number in the team (R48). -/
structure WKey where
  ctx : Nat
  tid : Nat
  w : Nat
  deriving DecidableEq, Repr

/-- The team of a warp. -/
def WKey.team (k : WKey) : TKey := ⟨k.ctx, k.tid⟩

/-- A 64 KiB page of intermediate address as a context faults on it: `page` is IA bits 51:16 (R255). -/
structure PageKey where
  ctx : Nat
  page : Nat
  deriving DecidableEq, Repr

/-- One stream of one memory stack: STREAM = 16 * pseudo-channel + bank (R216). -/
structure Stream where
  stack : Nat
  stream : Nat
  deriving DecidableEq, Repr

/-- A user-mode queue of a context (R269). -/
structure QKey where
  ctx : Nat
  q : Nat
  deriving DecidableEq, Repr

/-- The special registers of Table 2-3, in code order from 0x150 (R19). -/
inductive Special where
  | lane | warp | team | node | inst | ctx | core | flags | clk | cause | mask | serial
  | lc0 | lc1 | lc2 | zero
  deriving DecidableEq, Repr

/-- An operand code of Table 2-2 (R18): a vector, scalar, predicate or special register, or an indexed
vector `vb[xk]` whose base register is 8 * base8. -/
inductive Operand where
  | v (n : BitVec 8)
  | s (n : BitVec 6)
  | p (n : BitVec 4)
  | special (r : Special)
  | vx (x : BitVec 2) (base8 : BitVec 5)
  deriving DecidableEq, Repr

/-- The element types of R24, in code order from 0x0. -/
inductive Typ where
  | s8 | s16 | s32 | s64 | z8 | z16 | z32 | z64 | f16 | bf16 | f32 | f64 | e4m3 | e5m2 | mxf4
  deriving DecidableEq, Repr

/-- The rounding modes of R25, in code order. -/
inductive Rnd where
  | rn | rz | rp | rm | rna
  deriving DecidableEq, Repr

/-- The scopes of R28, in code order. -/
inductive Scope where
  | wp | tm | dv | cl | sy
  deriving DecidableEq, Repr

/-- The order modifiers of R28, in code order. -/
inductive Ord where
  | rlx | acq | rel | ar
  deriving DecidableEq, Repr

/-- The cache hints of R28, in code order: `.l1`, `.l2`, `.ev`, `.nt`. -/
inductive Cache where
  | l1 | l2 | ev | nt
  deriving DecidableEq, Repr

/-- The atomic operations of R28, in code order. -/
inductive Atop where
  | add | min | max | and | or | xor | exch | cas
  deriving DecidableEq, Repr

/-- The matrix formats of R30, in code order. -/
inductive Fmt where
  | bf16 | f16 | e4m3 | e5m2 | mxf4
  deriving DecidableEq, Repr

/-- The path codes of R29 and Table 4-6, in code order. -/
inductive Path where
  | ld | st | sp | cp | mx | rm
  deriving DecidableEq, Repr

/-- The M-A layout (R23). -/
structure MA where
  ib : Bool
  sub : BitVec 5
  sat : Bool
  rnd : Rnd
  pk : BitVec 2
  ty : Typ
  deriving DecidableEq, Repr

/-- The M-C layout of the conversions (R26). -/
structure MC where
  spk : BitVec 2
  sty : Typ
  sat : Bool
  rnd : Rnd
  pk : BitVec 2
  ty : Typ
  deriving DecidableEq, Repr

/-- The M-K layout of the CORDIC group (R27). -/
structure MK where
  iter : BitVec 6
  rnd : Rnd
  pk : BitVec 2
  ty : Typ
  deriving DecidableEq, Repr

/-- The M-M layout of memory access (R28). -/
structure MM where
  atop : Atop
  cache : Cache
  scope : Scope
  ord : Ord
  pk : BitVec 2
  ty : Typ
  deriving DecidableEq, Repr

/-- The M-F layout of `fencex` (R29); bit k of `src` is path code k. -/
structure MF where
  scope : Scope
  dst : Path
  src : BitVec 6
  deriving DecidableEq, Repr

/-- The M-X layout of the matrix group (R30). -/
structure MX where
  sub : BitVec 6
  acc : BitVec 5
  arr : Bool
  fmt : Fmt
  deriving DecidableEq, Repr

/-- The copy scopes of R209, in code order. -/
inductive CScope where
  | dv | tm | cl | sy
  deriving DecidableEq, Repr

/-- The M-Y layout of the copy engine (R31, R209). -/
structure MY where
  scope : CScope
  cwg : Bool
  cwadd : Bool
  ch : BitVec 2
  dig : Bool
  span : BitVec 3
  deriving DecidableEq, Repr

/-- The guard: predicate GP, negated when GN is set (R11, R17). -/
structure Guard where
  p : BitVec 4
  neg : Bool
  deriving DecidableEq, Repr

/-- The fields every instruction word has (R11), with the modifiers in the layout `L` of its group.
IMM is kept whole: the opcode decides how it is read (R14). -/
structure Ops (L : Type) where
  guard : Guard
  nf : Bool
  stall : BitVec 4
  yld : Bool
  d : Operand
  a : Operand
  b : Operand
  mod : L
  imm : BitVec 28
  deriving DecidableEq, Repr

/-- The kinds of access a peer makes to this device's memory (R207, R210). -/
inductive RemoteKind where
  | read
  | write (data : List Byte)
  | reduce (op : Atop) (ty : Typ) (data : List Byte)
  deriving DecidableEq, Repr

/-- An access of a peer device, served at this device's L2: the peer, a causal id, the intermediate
address with the pointer tag it carries, and whether the peer's range checks tags (R207, R259). -/
structure RemoteAccess where
  dev : Nat
  cause : Word
  ia : Nat
  len : Nat
  tag : BitVec 4
  tc : Bool
  kind : RemoteKind
  deriving DecidableEq, Repr

/-- The header of a relay message: its key (TAG, channel, source rank, destination rank, slot), its
occurrence, its step number and its length (R301, R306); the causal id of the operation that sent it and the
devices it goes from and to (Table 14-3). -/
structure RelayMsg where
  tag : Word
  chan : Nat
  src : Nat
  dst : Nat
  slot : Nat
  occ : Nat
  step : Nat
  len : Nat
  cause : Word
  srcDev : Nat
  dstDev : Nat
  deriving DecidableEq, Repr

/-- What the header of a `cbar` message says beside its TAG and channel: the rank it comes from, its step
number, its causal id and its devices (R301, R311, Table 14-3). -/
structure CbarFrom where
  rank : Nat
  step : Nat
  cause : Word
  srcDev : Nat
  dstDev : Nat
  deriving DecidableEq, Repr

/-- What an intact Ralbex flit carries to this device (R303, R306, R207). -/
inductive LinkMsg where
  | access (r : RemoteAccess)
  | sendRequest (m : RelayMsg)
  | credit (m : RelayMsg)
  | payload (m : RelayMsg) (data : List Byte)
  | ack (m : RelayMsg)
  | cbar (tag : Word) (rank : CbarFrom) (chan : Nat)
  deriving DecidableEq, Repr

/-- What the verification of a staged firmware image finds (R372, steps 3 and 4). -/
structure FwVerdict where
  signatureGood : Bool
  foundryKind : Bool
  svn : Nat
  handLo : Nat
  handHi : Nat
  major : Nat
  minor : Nat
  deriving DecidableEq, Repr

/-- What the sensors give at one 10 microsecond step of one die (R373, R374): its power averaged over 100
microseconds, the module's, its junction temperature in degrees, and its highest power of the last 100 microseconds;
powers in W. -/
structure PowerReading where
  die : Nat
  diePower : Nat
  modulePower : Nat
  temp : Nat
  peakPower : Nat
  deriving DecidableEq, Repr

/-- What a scrub finds in a granule (R342). -/
inductive EccResult where
  | clean | corrected | uncorrectable
  deriving DecidableEq, Repr

/-- One host access through window B of function `fn` (R368). -/
structure HostAccess where
  fn : Nat
  off : Nat
  len : Nat
  write : Option (List Byte)
  deriving DecidableEq, Repr

/-- The signature algorithms a requester may offer (R370). -/
inductive SpdmAlg where
  | hssLms | other (code : Nat)
  deriving DecidableEq, Repr

/-- One constructor per row of the opcode table. The Xothes instructions carry their operand fields;
the steps of the other agents carry what names the step. -/
inductive Instr where
  /-- NOP (R81). -/
  | nop (o : Ops (BitVec 16))
  /-- BRA (R65). -/
  | bra (o : Ops (BitVec 16))
  /-- BRX (R65). -/
  | brx (o : Ops (BitVec 16))
  /-- CALL (R65). -/
  | call (o : Ops (BitVec 16))
  /-- CALLX (R65). -/
  | callx (o : Ops (BitVec 16))
  /-- RET (R65). -/
  | ret (o : Ops (BitVec 16))
  /-- BC (R66). -/
  | bc (o : Ops (BitVec 16))
  /-- BANY (R67). -/
  | bany (o : Ops (BitVec 16))
  /-- BALL (R67). -/
  | ball (o : Ops (BitVec 16))
  /-- VIF (R69). -/
  | vif (o : Ops (BitVec 16))
  /-- VELSE (R69). -/
  | velse (o : Ops (BitVec 16))
  /-- VEND (R69). -/
  | vend (o : Ops (BitVec 16))
  /-- VBRK (R73). -/
  | vbrk (o : Ops (BitVec 16))
  /-- VCONT (R73). -/
  | vcont (o : Ops (BitVec 16))
  /-- LBRK (R73). -/
  | lbrk (o : Ops (BitVec 16))
  /-- LOOP (R71). -/
  | loop (o : Ops (BitVec 16))
  /-- LOOPX (R71). -/
  | loopx (o : Ops (BitVec 16))
  /-- YIELD (R81). -/
  | yield (o : Ops (BitVec 16))
  /-- SLEEP (R81). -/
  | sleep (o : Ops (BitVec 16))
  /-- EXIT (R82). -/
  | exit (o : Ops (BitVec 16))
  /-- BAR (R79). -/
  | bar (o : Ops (BitVec 16))
  /-- BARA (R79). -/
  | bara (o : Ops (BitVec 16))
  /-- BARW (R79). -/
  | barw (o : Ops (BitVec 16))
  /-- WAITC (R77). -/
  | waitc (o : Ops (BitVec 16))
  /-- WAITP (R78). -/
  | waitp (o : Ops (BitVec 16))
  /-- TRAP (R336). -/
  | trap (o : Ops (BitVec 16))
  /-- BKPT (R336). -/
  | bkpt (o : Ops (BitVec 16))
  /-- LI (R15). -/
  | li (o : Ops MA)
  /-- LIH (R15). -/
  | lih (o : Ops MA)
  /-- SADD (R83). -/
  | sadd (o : Ops MA)
  /-- SSUB (R83). -/
  | ssub (o : Ops MA)
  /-- SMUL (R83). -/
  | smul (o : Ops MA)
  /-- SMULH (R83). -/
  | smulh (o : Ops MA)
  /-- SAND (R83). -/
  | sand (o : Ops MA)
  /-- SOR (R83). -/
  | sor (o : Ops MA)
  /-- SXOR (R83). -/
  | sxor (o : Ops MA)
  /-- SNOT (R83). -/
  | snot (o : Ops MA)
  /-- SSHL (R83). -/
  | sshl (o : Ops MA)
  /-- SSHR (R83). -/
  | sshr (o : Ops MA)
  /-- SSRA (R83). -/
  | ssra (o : Ops MA)
  /-- SMIN (R83). -/
  | smin (o : Ops MA)
  /-- SMAX (R83). -/
  | smax (o : Ops MA)
  /-- SCLZ (R83). -/
  | sclz (o : Ops MA)
  /-- SPOPC (R83). -/
  | spopc (o : Ops MA)
  /-- SCMP (R83). -/
  | scmp (o : Ops MA)
  /-- SSEL (R83). -/
  | ssel (o : Ops MA)
  /-- SMOV (R83). -/
  | smov (o : Ops MA)
  /-- SEXT (R83). -/
  | sext (o : Ops MA)
  /-- SBFE (R83). -/
  | sbfe (o : Ops MA)
  /-- IADD (R130). -/
  | iadd (o : Ops MA)
  /-- ISUB (R130). -/
  | isub (o : Ops MA)
  /-- IMUL24 (R130). -/
  | imul24 (o : Ops MA)
  /-- IMUL (R130). -/
  | imul (o : Ops MA)
  /-- IMULH (R130). -/
  | imulh (o : Ops MA)
  /-- IMAD24 (R130). -/
  | imad24 (o : Ops MA)
  /-- IABS (R130). -/
  | iabs (o : Ops MA)
  /-- INEG (R130). -/
  | ineg (o : Ops MA)
  /-- IMIN (R130). -/
  | imin (o : Ops MA)
  /-- IMAX (R130). -/
  | imax (o : Ops MA)
  /-- IAND (R130). -/
  | iand (o : Ops MA)
  /-- IOR (R130). -/
  | ior (o : Ops MA)
  /-- IXOR (R130). -/
  | ixor (o : Ops MA)
  /-- INOT (R130). -/
  | inot (o : Ops MA)
  /-- ISHL (R130). -/
  | ishl (o : Ops MA)
  /-- ISHR (R130). -/
  | ishr (o : Ops MA)
  /-- ISRA (R130). -/
  | isra (o : Ops MA)
  /-- IROT (R130). -/
  | irot (o : Ops MA)
  /-- ICLZ (R130). -/
  | iclz (o : Ops MA)
  /-- IPOPC (R130). -/
  | ipopc (o : Ops MA)
  /-- IBREV (R130). -/
  | ibrev (o : Ops MA)
  /-- IBFE (R130). -/
  | ibfe (o : Ops MA)
  /-- IBFI (R130). -/
  | ibfi (o : Ops MA)
  /-- ISEL (R130). -/
  | isel (o : Ops MA)
  /-- ICMP (R131). -/
  | icmp (o : Ops MA)
  /-- IADDC (R131). -/
  | iaddc (o : Ops MA)
  /-- ISAD (R130). -/
  | isad (o : Ops MA)
  /-- IAVG (R130). -/
  | iavg (o : Ops MA)
  /-- IDP4 (R131). -/
  | idp4 (o : Ops MA)
  /-- IEXT (R130). -/
  | iext (o : Ops MA)
  /-- ILOP3 (R131). -/
  | ilop3 (o : Ops MA)
  /-- ISHFD (R131). -/
  | ishfd (o : Ops MA)
  /-- FADD (R132). -/
  | fadd (o : Ops MA)
  /-- FSUB (R132). -/
  | fsub (o : Ops MA)
  /-- FMUL (R132). -/
  | fmul (o : Ops MA)
  /-- FMA (R132). -/
  | fma (o : Ops MA)
  /-- FNMA (R132). -/
  | fnma (o : Ops MA)
  /-- FMS (R132). -/
  | fms (o : Ops MA)
  /-- FNMS (R132). -/
  | fnms (o : Ops MA)
  /-- FMIN (R133). -/
  | fmin (o : Ops MA)
  /-- FMAX (R133). -/
  | fmax (o : Ops MA)
  /-- FABS (R132). -/
  | fabs (o : Ops MA)
  /-- FNEG (R132). -/
  | fneg (o : Ops MA)
  /-- FCPSGN (R132). -/
  | fcpsgn (o : Ops MA)
  /-- FCMP (R133). -/
  | fcmp (o : Ops MA)
  /-- FCLASS (R133). -/
  | fclass (o : Ops MA)
  /-- FRCP (R132). -/
  | frcp (o : Ops MA)
  /-- FRND (R132). -/
  | frnd (o : Ops MA)
  /-- FSCALE (R132). -/
  | fscale (o : Ops MA)
  /-- FEXPT (R132). -/
  | fexpt (o : Ops MA)
  /-- FMANT (R132). -/
  | fmant (o : Ops MA)
  /-- FDOT2 (R134). -/
  | fdot2 (o : Ops MA)
  /-- FSAT (R132). -/
  | fsat (o : Ops MA)
  /-- CVT (R135). -/
  | cvt (o : Ops MC)
  /-- CVTMX (R136). -/
  | cvtmx (o : Ops MC)
  /-- CVTSC (R137). -/
  | cvtsc (o : Ops MC)
  /-- FLGR (R124). -/
  | flgr (o : Ops MA)
  /-- FLGC (R124). -/
  | flgc (o : Ops MA)
  /-- CSIN (R138). -/
  | csin (o : Ops MK)
  /-- CCOS (R138). -/
  | ccos (o : Ops MK)
  /-- CATAN (R138). -/
  | catan (o : Ops MK)
  /-- CEXP2 (R138). -/
  | cexp2 (o : Ops MK)
  /-- CLOG2 (R138). -/
  | clog2 (o : Ops MK)
  /-- CTANH (R138). -/
  | ctanh (o : Ops MK)
  /-- CRSQ (R138). -/
  | crsq (o : Ops MK)
  /-- CSQRT (R138). -/
  | csqrt (o : Ops MK)
  /-- SHFL (R141). -/
  | shfl (o : Ops MA)
  /-- BCAST (R142). -/
  | bcast (o : Ops MA)
  /-- VOTE (R142). -/
  | vote (o : Ops MA)
  /-- MATCH (R142). -/
  | matchX (o : Ops MA)
  /-- REDX (R143). -/
  | redx (o : Ops MA)
  /-- SCANX (R144). -/
  | scanx (o : Ops MA)
  /-- PERM (R145). -/
  | perm (o : Ops MA)
  /-- MOV (R105). -/
  | mov (o : Ops MA)
  /-- MOVI (R105). -/
  | movi (o : Ops MA)
  /-- SHAPE (R108). -/
  | shape (o : Ops (BitVec 16))
  /-- MKAFF (R106). -/
  | mkaff (o : Ops (BitVec 16))
  /-- EXPAND (R107). -/
  | expand (o : Ops (BitVec 16))
  /-- XSET (R109). -/
  | xset (o : Ops (BitVec 16))
  /-- XMOV (R110). -/
  | xmov (o : Ops (BitVec 16))
  /-- FLD (R161). -/
  | fld (o : Ops MX)
  /-- MMA (R162). -/
  | mma (o : Ops MX)
  /-- ACCZ (R163). -/
  | accz (o : Ops MX)
  /-- ACCLD (R164). -/
  | accld (o : Ops MX)
  /-- ACCST (R164). -/
  | accst (o : Ops MX)
  /-- ACCRD (R165). -/
  | accrd (o : Ops MX)
  /-- ACCWR (R165). -/
  | accwr (o : Ops MX)
  /-- BTON (R151). -/
  | bton (o : Ops MX)
  /-- BTPASS (R151). -/
  | btpass (o : Ops MX)
  /-- BTQ (R151). -/
  | btq (o : Ops MX)
  /-- FLDSC (R161). -/
  | fldsc (o : Ops MX)
  /-- ACCCP (R163). -/
  | acccp (o : Ops MX)
  /-- LDS (R185). -/
  | lds (o : Ops MM)
  /-- STS (R185). -/
  | sts (o : Ops MM)
  /-- ATOMS (R186). -/
  | atoms (o : Ops MM)
  /-- SPINV (R187). -/
  | spinv (o : Ops (BitVec 16))
  /-- SPSTAT (R188). -/
  | spstat (o : Ops (BitVec 16))
  /-- LDSX (R185). -/
  | ldsx (o : Ops MM)
  /-- STSX (R185). -/
  | stsx (o : Ops MM)
  /-- REDS (R186). -/
  | reds (o : Ops MM)
  /-- SPFILL (R187). -/
  | spfill (o : Ops (BitVec 16))
  /-- LD (R203). -/
  | ld (o : Ops MM)
  /-- ST (R203). -/
  | st (o : Ops MM)
  /-- ATOM (R204). -/
  | atom (o : Ops MM)
  /-- RED (R204). -/
  | red (o : Ops MM)
  /-- LDR (R207). -/
  | ldr (o : Ops MM)
  /-- STR (R207). -/
  | str (o : Ops MM)
  /-- REDR (R207). -/
  | redr (o : Ops MM)
  /-- PREF (R205). -/
  | pref (o : Ops MM)
  /-- FENCE (R199). -/
  | fence (o : Ops MM)
  /-- FENCEX (R200). -/
  | fencex (o : Ops MF)
  /-- L1INV (R201). -/
  | l1inv (o : Ops (BitVec 16))
  /-- L1WB (R201). -/
  | l1wb (o : Ops (BitVec 16))
  /-- SLD (R203). -/
  | sld (o : Ops MM)
  /-- SST (R203). -/
  | sst (o : Ops MM)
  /-- SATOM (R204). -/
  | satom (o : Ops MM)
  /-- CPY (R210). -/
  | cpy (o : Ops MY)
  /-- CPYS (R210). -/
  | cpys (o : Ops MY)
  /-- CPYG (R210). -/
  | cpyg (o : Ops MY)
  /-- CPYGAT (R211). -/
  | cpygat (o : Ops MY)
  /-- CPYQ (R215). -/
  | cpyq (o : Ops MY)
  /-- TAGST (R265). -/
  | tagst (o : Ops MM)
  /-- TAGLD (R265). -/
  | tagld (o : Ops MM)
  /-- TAGSET (R266). -/
  | tagset (o : Ops MM)
  /-- WATCH (R267). -/
  | watch (o : Ops (BitVec 16))
  /-- UNWATCH (R267). -/
  | unwatch (o : Ops (BitVec 16))
  /-- WATCHQ (R267). -/
  | watchq (o : Ops (BitVec 16))
  /-- EMIT (R292). -/
  | emit (o : Ops (BitVec 16))
  /-- EMITN (R292). -/
  | emitn (o : Ops (BitVec 16))
  /-- EMITQ (R292). -/
  | emitq (o : Ops (BitVec 16))
  /-- FSOPEN (R293). -/
  | fsopen (o : Ops (BitVec 16))
  /-- FSCLOSE (R293). -/
  | fsclose (o : Ops (BitVec 16))
  /-- FSWAIT (R293). -/
  | fswait (o : Ops (BitVec 16))
  /-- FSJOIN (R293). -/
  | fsjoin (o : Ops (BitVec 16))
  /-- FSSTAT (R293). -/
  | fsstat (o : Ops (BitVec 16))
  /-- SIGDEC (R294). -/
  | sigdec (o : Ops (BitVec 16))
  /-- SIGADD (R294). -/
  | sigadd (o : Ops (BitVec 16))
  /-- SIGWAIT (R294). -/
  | sigwait (o : Ops (BitVec 16))
  /-- CSEND (R306). -/
  | csend (o : Ops (BitVec 16))
  /-- CRECV (R306). -/
  | crecv (o : Ops (BitVec 16))
  /-- CRRS (R307). -/
  | crrs (o : Ops (BitVec 16))
  /-- CCOPY (R308). -/
  | ccopy (o : Ops (BitVec 16))
  /-- CWAIT (R309). -/
  | cwait (o : Ops (BitVec 16))
  /-- CPEER (R311). -/
  | cpeer (o : Ops (BitVec 16))
  /-- CBAR (R311). -/
  | cbar (o : Ops (BitVec 16))
  /-- CDONE (R310). -/
  | cdone (o : Ops (BitVec 16))
  /-- CRANK (R311). -/
  | crank (o : Ops (BitVec 16))
  /-- EVT (R365). -/
  | evt (o : Ops (BitVec 16))
  /-- CLKR (R365). -/
  | clkr (o : Ops (BitVec 16))
  /-- CAUSER (R365). -/
  | causer (o : Ops (BitVec 16))
  /-- RNG (R146). -/
  | rng (o : Ops MA)
  /-- EVTP (R365). -/
  | evtp (o : Ops (BitVec 16))
  /-- SYSR (R337). -/
  | sysr (o : Ops (BitVec 16))
  /-- SYSW (R337). -/
  | sysw (o : Ops (BitVec 16))
  /-- ICINV (R338). -/
  | icinv (o : Ops (BitVec 16))
  /-- DBGH (R336). -/
  | dbgh (o : Ops (BitVec 16))
  /-- PWRQ (R339). -/
  | pwrq (o : Ops (BitVec 16))
  /-- ILLEGAL_OPCODE (R33): Fetch of a reserved or permanently illegal opcode traps precisely. -/
  | illegalOpcode (w : BitVec 96)
  /-- REG_RELOAD (R97): The reload of a spilled register completes and fills its row. -/
  | regReload (k : WKey) (v : Nat)
  /-- SIBLING_HALT (R56): A halt broadcast reaches a sibling warp, which stops after its skid. -/
  | siblingHalt (k : WKey)
  /-- FAULT_RECORD_DRAIN (R318): A record held in the hub buffer is written once the ring has room. -/
  | faultRecordDrain (ctx : Nat)
  /-- TEAM_HALT_COMPLETE (R317): The halt completes, and the team is discarded or kept under ATTACH. -/
  | teamHaltComplete (k : TKey)
  /-- LATE_FAULT (R321): A late TAG_STORE or PERMISSION fault arrives and acts on the issuing team by its state. -/
  | lateFault (id : Nat)
  /-- TEAM_ADMIT (R281): The foundry admits and places a waiting team or wave with its edge reservation. -/
  | teamAdmit (id : Nat)
  /-- DRAIN_EXPIRY (R325): A draining team has not retired by D − Ts and is saved. -/
  | drainExpiry (k : TKey)
  /-- TEAM_SAVE (R326): The team is stopped and its frame written once its operations have completed. -/
  | teamSave (k : TKey)
  /-- QUARANTINE_WRITE (R328): A copy read that returns after the stop is written to the quarantine region. -/
  | quarantineWrite (k : TKey)
  /-- TEAM_RESTORE (R331): A saved team is reloaded, its quarantine drained and its pending records re-issued. -/
  | teamRestore (k : TKey)
  /-- TEAM_START (R49): After the pool is cleared, a team's warps become eligible with start-up state. -/
  | teamStart (k : TKey)
  /-- REQUEST_COMPLETE (R191): A memory request completes, its slot frees and its path counter falls. -/
  | requestComplete (id : Nat)
  /-- TAG_PROBE_VERDICT (R194): A store's tag verdict returns from L2 and completes the store or raises TAG_STORE. -/
  | tagProbeVerdict (id : Nat)
  /-- PAGE_WALK (R249): A page walk ends in a leaf, MISSING or MALFORMED. -/
  | pageWalk (id : Nat)
  /-- HUB_STAGE_REPORT (R255): A fault-filter report reaches the hub stage and opens or joins an entry. -/
  | hubStageReport (core : Nat) (p : PageKey)
  /-- FAULT_WINDOW_CLOSE (R255): A 2,400-hub-cycle window ends and a page-fault record is written. -/
  | faultWindowClose (p : PageKey)
  /-- REPLAY_PAGE (R257): A replay word without ALL re-walks one page. -/
  | replayPage (p : PageKey)
  /-- REPLAY_ALL (R257): A replay word with ALL re-walks every open page of the context. -/
  | replayAll (ctx : Nat)
  /-- REPLAY_WALK_RESULT (R257): A replay's re-walk ends, closing the entry or writing a repeat record. -/
  | replayWalkResult (p : PageKey)
  /-- RD (R218): A base die takes a read packet. -/
  | rd (q : Stream)
  /-- WR (R218): A base die takes a full-granule write packet. -/
  | wr (q : Stream)
  /-- MWR (R219): A base die takes a masked write, merging partial granules by read-modify-write. -/
  | mwr (q : Stream)
  /-- RDATA (R217): A read reply arrives at the hub and frees its stream tag. -/
  | rdata (q : Stream) (tag : Nat)
  /-- WACK (R219): A write acknowledgement arrives at the hub and frees its stream tag. -/
  | wack (q : Stream) (tag : Nat)
  /-- PARITY_UPDATE (R174): A relief-word read-modify-write is performed. -/
  | parityUpdate (core group : Nat)
  /-- BANK_RETIRE (R177): A bank passes the corrected-error threshold and is retired, degrading its group. -/
  | bankRetire (core bank : Nat)
  /-- POOL_COMPACTOR_MOVE (R183): The pool compactor moves a team's allocation. -/
  | poolCompactorMove (k : TKey)
  /-- MMA_START (R148): An accepted mma starts on its array. -/
  | mmaStart (core arr : Nat)
  /-- MMA_COMPLETE (R167): The array checks its checksums and updates the tile. -/
  | mmaComplete (core arr : Nat)
  /-- MX_OP_COMPLETE (R166): A fragment-port or tile-port operation completes and MX falls. -/
  | mxOpComplete (core id : Nat)
  /-- BATON_HANDOFF (R151): A warp waiting in bton takes the baton passed or freed to it. -/
  | batonHandoff (k : WKey)
  /-- BARRIER_WAKE (R79): A warp waiting on a completed phase becomes ready. -/
  | barrierWake (k : WKey)
  /-- SLEEP_EXPIRY (R81): A sleeping warp's count ends. -/
  | sleepExpiry (k : WKey)
  /-- SIGWAIT_REREAD (R294): A waiting sigwait re-reads its signal after a write or 4 µs. -/
  | sigwaitReread (k : WKey)
  /-- SCOPE_REPLY (R293): The foundry's reply to a scope instruction ends the warp's round trip. -/
  | scopeReply (k : WKey)
  /-- EMIT_RECORD_ARRIVAL (R292): Emitted records reach the foundry and are counted pending on their node. -/
  | emitRecordArrival (k : WKey)
  /-- GATHER_TIMEOUT (R282): TIMEOUT passes with records pending, and a partial wave forms. -/
  | gatherTimeout (ctx firing node : Nat)
  /-- COPY_COMMAND_START (R208): A channel starts its next queued copy command. -/
  | copyCommandStart (core ch : Nat)
  /-- COPY_DATA_RETURN (R210): Read data of a copy command returns and is written to its destination. -/
  | copyDataReturn (core ch : Nat)
  /-- COPY_COMMAND_COMPLETE (R213): A command's writes are performed, its digest and completion add written and CP falls. -/
  | copyCommandComplete (core ch : Nat)
  /-- REMOTE_ACCESS_SERVE (R207): A remote access from a peer is served at this device's L2. -/
  | remoteAccessServe (r : RemoteAccess)
  /-- QNOTIFY (R270): A write to QNOTIFY raises WRITE unless it lowers it. -/
  | qnotify (q : QKey) (v : BitVec 32)
  /-- NOTIFY_WORD_READ (R270): The foundry reads a queue's notify word after a write or 4 µs. -/
  | notifyWordRead (q : QKey)
  /-- QCTL_WRITE (R269): A QCTL write is accepted or rejected with RESERVED_SET. -/
  | qctlWrite (q : QKey) (v : Word)
  /-- QSTAT_ERR_CLEAR (R269): Writing 1 to ERR resumes decode at READ + 1. -/
  | qstatErrClear (q : QKey)
  /-- LAUNCH (R273): Decode of a LAUNCH packet opens a packet scope and starts its teams. -/
  | launchPacket (q : QKey)
  /-- GRAPH (R276): Decode of a GRAPH packet fires a maquette with its root records. -/
  | graphPacket (q : QKey)
  /-- WAIT (R273): Decode of a WAIT packet on up to 8 signals. -/
  | waitPacket (q : QKey)
  /-- SIGNAL (R273): Decode of a SIGNAL packet that sets, adds or subtracts a signal word. -/
  | signalPacket (q : QKey)
  /-- CAST (R353): Decode of a CAST packet that saves or restores a cast. -/
  | castPacket (q : QKey)
  /-- BAD_KIND (R271): A packet with a reserved KIND is rejected. -/
  | badKind (q : QKey)
  /-- WAIT_PACKET_SATISFIED (R273): A WAIT packet's signals become satisfied and it completes. -/
  | waitPacketSatisfied (id : Nat)
  /-- COLLECTIVE_START (R299): A collective's relay teams start and it goes live. -/
  | collectiveStart (id : Nat)
  /-- RELAY_SEND_REQUEST (R306): A request to send arrives and is matched or held. -/
  | relaySendRequest (m : RelayMsg)
  /-- RELAY_PAYLOAD (R306): A matched payload arrives and is written into the receive slice. -/
  | relayPayload (m : RelayMsg) (data : List Byte)
  /-- RELAY_ACK (R306): A receiving device's acknowledgement completes a send. -/
  | relayAck (m : RelayMsg)
  /-- RELAY_OP_COMPLETE (R305): A relay data operation completes. -/
  | relayOpComplete (id : Nat)
  /-- CBAR_ARRIVAL (R311): A cbar arrival from another relay team is counted. -/
  | cbarArrival (tag : Word) (rank : CbarFrom) (chan : Nat)
  /-- COLL_WATCHDOG (R313): A collective's watchdog period expires, naming the first late participant. -/
  | collWatchdog (tag : Word)
  /-- RALBEX_FLIT (R303): A Ralbex flit arrives and is checked, or replayed on failure. -/
  | ralbexFlit (port : Nat) (intact : Bool) (m : LinkMsg)
  /-- LINK_RETRAIN (R303): A link retrains, agreeing new keys. -/
  | linkRetrain (port : Option Nat)
  /-- CONTEXT_CONTROL_WRITE (R268): Write of the context control register, ignored while teams are resident. -/
  | contextControlWrite (ctx : Nat) (v : Word)
  /-- CORE_SET_WRITE (R268): Write of the core-set register, ignored while teams are resident. -/
  | coreSetWrite (ctx j : Nat) (v : Word)
  /-- CTXRESET (R334): Writing 1 begins a context reset. -/
  | ctxReset (ctx : Nat)
  /-- CONTEXT_RESET_COMPLETE (R334): A context's requests have drained and its state is cleared. -/
  | contextResetComplete (ctx : Nat)
  /-- FQCTL_WRITE (R318): A write of FQCTL; LOGSZ above 12 is rejected, and setting EN clears RFAIL. -/
  | fqctlWrite (ctx : Nat) (v : Word)
  /-- FQREAD_WRITE (R318): The driver advances FQREAD, freeing ring space. -/
  | fqreadWrite (ctx : Nat) (v : BitVec 32)
  /-- HALT (R322): Debug command that halts a running team. -/
  | dbgHalt (k : TKey)
  /-- RESUME (R322): Debug command that makes a halted team's warps eligible. -/
  | dbgResume (k : TKey)
  /-- STEP (R322): Debug command that issues one instruction of one warp. -/
  | dbgStep (k : TKey) (w : Nat)
  /-- SNAP (R322): Debug command that writes a halted team's state into its frame. -/
  | dbgSnap (k : TKey)
  /-- LOAD (R322): Debug command that loads the frame back into the halted team. -/
  | dbgLoad (k : TKey)
  /-- DISCARD (R322): Debug command that discards a halted team. -/
  | dbgDiscard (k : TKey)
  /-- DBGCMD_UNDEFINED_OP (R322): A DBGCMD with an undefined OP completes with status STATE. -/
  | dbgcmdUndefinedOp (ctx : Nat) (v : Word)
  /-- DBGCTL_WRITE (R322): A write of ATTACH. -/
  | dbgctlWrite (ctx : Nat) (attach : Bool)
  /-- TRANSLATION_DROP (R250): Translation command OP 0 drops cached entries of a span. -/
  | translationDrop (v : Word)
  /-- TRANSLATION_WRITEBACK_INVALIDATE (R250): Translation command OP 1 also writes back and invalidates the span's L2 lines. -/
  | translationWritebackInvalidate (v : Word)
  /-- TRANSLATION_OP_RESERVED (R250): A translation command with OP 2 or 3 is rejected and sets REJ. -/
  | translationOpReserved (v : Word)
  /-- TRANSLATION_COMMAND_COMPLETE (R250): An accepted translation command completes and STATUS reads 1. -/
  | translationCommandComplete
  /-- RANGE_REGISTER_COMMIT (R369): A write of word 1 commits all four staged words of a range register. -/
  | rangeRegisterCommit (ctx k : Nat) (v : Word)
  /-- FUNCTION_BINDING_WRITE (R367): A write of the function-binding table, ignored unless the context is idle after reset. -/
  | functionBindingWrite (j : Nat) (v : Word)
  /-- RELAY_PARTITION_WRITE (R295): A write of the relay-partition register, held while a collective is live. -/
  | relayPartitionWrite (v : Word)
  /-- RELAY_PARTITION_APPLY (R295): A held relay-partition value takes effect once no collective is live. -/
  | relayPartitionApply
  /-- COLLECTIVE_CANCEL (R313): A write of a TAG to the collective-cancel register cancels that collective. -/
  | collectiveCancel (tag : Word)
  /-- RISK_SAMPLE (R348): Every 1 ms the management controller computes RISK. -/
  | riskSample (temp : Nat)
  /-- FIRMWARE_LIVE_UPDATE (R372): FWCMD OP 1 quiesces decode and starts a live foundry update. -/
  | firmwareLiveUpdate
  /-- FIRMWARE_SLOT_SELECT (R372): FWCMD OP 2 selects the inactive slot at next power-on. -/
  | firmwareSlotSelect
  /-- FIRMWARE_CMD_IGNORED (R372): An FWCMD with another OP, or written while busy, is ignored. -/
  | firmwareCmdIgnored (op : BitVec 4)
  /-- FIRMWARE_VERIFY_COMPLETE (R372): Verification ends; on success the handover runs and the new image starts. -/
  | firmwareVerifyComplete (v : FwVerdict)
  /-- FIRST_HEARTBEAT (R372): The new image writes its first heartbeat and becomes active. -/
  | firstHeartbeat
  /-- HEARTBEAT_TIMEOUT (R372): No heartbeat within 20 ms, so the update rolls back. -/
  | heartbeatTimeout
  /-- THROTTLE (R373): A 10 µs step lowers or raises a die's clock by 25 MHz. -/
  | throttle (r : PowerReading)
  /-- THERMAL_RESET (R374): A junction temperature of 115 °C holds the device in reset. -/
  | thermalReset (temp : Nat)
  /-- L2_MODE (R343): A crossing of the hub's SRAM rail threshold starts a change of L2 code. -/
  | l2Mode (hub millivolts : Nat)
  /-- L2_MODE_CHANGE_COMPLETE (R343): A change of L2 code completes. -/
  | l2ModeChangeComplete (hub : Nat)
  /-- SCRUB (R342): The daily scrub corrects or poisons an HBM4E granule. -/
  | scrub (pa : Nat) (e : EccResult)
  /-- TIME_SYNC (R362): IEEE 1588 time received on the management port disciplines the stamping points. -/
  | timeSync (point : Nat) (offset : Int) (unc : Nat)
  /-- STELE_RECORD_WRITE (R356): A recorder record is written to its stele segment. -/
  | steleRecordWrite (emitter : Nat)
  /-- STELE_ERASE (R364): STERASE starts an erase, or sets REJ outside reset. -/
  | steleErase
  /-- STELE_ERASE_COMPLETE (R364): The erase of all four segments completes. -/
  | steleEraseComplete
  /-- DEVICE_RESET (R375): A device reset repeats bring-up steps 2 to 6 and keeps the stele. -/
  | deviceReset (cause : Nat)
  /-- POWER_ON (R375): Power is applied and the device starts in order. -/
  | powerOn
  /-- POWER_LOSS (R364): Loss of power clears the stele and STHEAD. -/
  | powerLoss
  /-- HOST_WINDOW_B_ACCESS (R368): A host read or write through window B is performed at L2. -/
  | hostWindowBAccess (a : HostAccess)
  /-- REGISTER_WRITE (R369): A write to a window-A register without a row of its own. -/
  | registerWrite (fn off : Nat) (data : List Byte)
  /-- GET_VERSION (R370): SPDM GET_VERSION request. -/
  | getVersion
  /-- GET_CAPABILITIES (R370): SPDM GET_CAPABILITIES request. -/
  | getCapabilities
  /-- NEGOTIATE_ALGORITHMS (R370): SPDM NEGOTIATE_ALGORITHMS request. -/
  | negotiateAlgorithms (offer : List SpdmAlg)
  /-- GET_DIGESTS (R370): SPDM GET_DIGESTS request. -/
  | getDigests
  /-- GET_CERTIFICATE (R370): SPDM GET_CERTIFICATE request. -/
  | getCertificate (offset len : Nat)
  /-- CHALLENGE (R371): SPDM CHALLENGE, signed with a never-reused HSS index. -/
  | challenge (nonce : List Byte)
  /-- GET_MEASUREMENTS (R370): SPDM GET_MEASUREMENTS request. -/
  | getMeasurements (index : Nat) (sign : Bool) (nonce : List Byte)
  /-- KEY_EXCHANGE (R370): SPDM KEY_EXCHANGE request. -/
  | keyExchange (session : Nat) (exchange : List Byte)
  /-- FINISH (R370): SPDM FINISH request. -/
  | spdmFinish (session : Nat) (verify : List Byte)
  /-- END_SESSION (R370): SPDM END_SESSION request. -/
  | endSession (session : Nat)
  /-- WRITE_BACK_ACKNOWLEDGE (R195): L2 acknowledges a masked write-back of Dirty L1 bytes, letting a waiting release, fencex, l1wb or team completion proceed. -/
  | writeBackAcknowledge (core id : Nat)
  /-- SCRATCHPAD_ACCESS_COMPLETE (R175): An SP-path instruction finishes its service, writes its destination and lowers SP, or raises a deferred SP_UNWRITTEN. -/
  | scratchpadAccessComplete (core : Nat)
  /-- ICINV_ACKNOWLEDGE (R338): Every core has acknowledged an icinv, and the waiting warp becomes ready. -/
  | icinvAcknowledge (k : WKey)
  /-- RENDEZVOUS_CREDIT (R306): A message telling a sender that its matching receive has been posted arrives, letting the send move its payload and restarting the watchdog. -/
  | rendezvousCredit (m : RelayMsg)
  /-- STAMPING_POINT_LOCK_LOSS (R362): A stamping point loses its lock to IEEE 1588 time, and from 1 s later it reports UNC 0xFFFF. -/
  | stampingPointLockLoss (point : Nat)
  /-- SEQUENTIAL_FETCH_PAST_CODE (R37): Sequential fetch reaches code_base + code_size and traps with MISALIGNED_TARGET at that address. -/
  | sequentialFetchPastCode
  deriving DecidableEq, Repr

end Sys2Proof
end

