-- ==== Sys2Proof/Decode.lean ====
section
/-!
DEFINITION. Decoding a 96-bit instruction word (R11 to R34) and encoding it again, both written from
Table 2-1, the layouts of R23 to R32 and the opcode map of Table 2-5. Reserved operand codes,
reserved bits and reserved field codes are refused by name; whether the fields suit the opcode is
checked by Sys2Proof.WellFormed. The words of a few instructions, worked out in the spec, are the
tests of Sys2Proof/Tests/Slice0.lean.
-/

namespace Sys2Proof

/-! ## Field codes -/

/-- The TYPE codes (R24); 0xF is reserved. -/
def typOfCode (c : BitVec 4) : Option Typ :=
  [Typ.s8, .s16, .s32, .s64, .z8, .z16, .z32, .z64, .f16, .bf16, .f32, .f64, .e4m3, .e5m2, .mxf4][c.toNat]?

/-- The code of a type (R24). -/
def Typ.code : Typ → BitVec 4
  | .s8 => 0 | .s16 => 1 | .s32 => 2 | .s64 => 3 | .z8 => 4 | .z16 => 5 | .z32 => 6 | .z64 => 7
  | .f16 => 8 | .bf16 => 9 | .f32 => 10 | .f64 => 11 | .e4m3 => 12 | .e5m2 => 13 | .mxf4 => 14

/-- The RND codes (R25); 5 to 7 are refused. -/
def rndOfCode (c : BitVec 3) : Option Rnd :=
  [Rnd.rn, .rz, .rp, .rm, .rna][c.toNat]?

/-- The code of a rounding mode (R25). -/
def Rnd.code : Rnd → BitVec 3
  | .rn => 0 | .rz => 1 | .rp => 2 | .rm => 3 | .rna => 4

/-- The SCOPE codes (R28); 5 to 7 are refused. -/
def scopeOfCode (c : BitVec 3) : Option Scope :=
  [Scope.wp, .tm, .dv, .cl, .sy][c.toNat]?

/-- The code of a scope (R28). -/
def Scope.code : Scope → BitVec 3
  | .wp => 0 | .tm => 1 | .dv => 2 | .cl => 3 | .sy => 4

/-- The ORD codes (R28). -/
def ordOfCode (c : BitVec 2) : Ord :=
  if c = 0 then .rlx else if c = 1 then .acq else if c = 2 then .rel else .ar

/-- The code of an order (R28). -/
def Ord.code : Ord → BitVec 2
  | .rlx => 0 | .acq => 1 | .rel => 2 | .ar => 3

/-- The CACHE codes (R28). -/
def cacheOfCode (c : BitVec 2) : Cache :=
  if c = 0 then .l1 else if c = 1 then .l2 else if c = 2 then .ev else .nt

/-- The code of a cache hint (R28). -/
def Cache.code : Cache → BitVec 2
  | .l1 => 0 | .l2 => 1 | .ev => 2 | .nt => 3

/-- The ATOP codes (R28). -/
def atopOfCode (c : BitVec 3) : Atop :=
  if c = 0 then .add else if c = 1 then .min else if c = 2 then .max else if c = 3 then .and
  else if c = 4 then .or else if c = 5 then .xor else if c = 6 then .exch else .cas

/-- The code of an atomic operation (R28). -/
def Atop.code : Atop → BitVec 3
  | .add => 0 | .min => 1 | .max => 2 | .and => 3 | .or => 4 | .xor => 5 | .exch => 6 | .cas => 7

/-- The FMT codes (R30); 5 to 7 are refused. -/
def fmtOfCode (c : BitVec 3) : Option Fmt :=
  [Fmt.bf16, .f16, .e4m3, .e5m2, .mxf4][c.toNat]?

/-- The code of a matrix format (R30). -/
def Fmt.code : Fmt → BitVec 3
  | .bf16 => 0 | .f16 => 1 | .e4m3 => 2 | .e5m2 => 3 | .mxf4 => 4

/-- The path codes (R29); 6 and 7 are refused. -/
def pathOfCode (c : BitVec 3) : Option Path :=
  [Path.ld, .st, .sp, .cp, .mx, .rm][c.toNat]?

/-- The code of a path (R29). -/
def Path.code : Path → BitVec 3
  | .ld => 0 | .st => 1 | .sp => 2 | .cp => 3 | .mx => 4 | .rm => 5

/-- The copy SCOPE codes (R209); 4 to 7 are refused. -/
def cscopeOfCode (c : BitVec 3) : Option CScope :=
  [CScope.dv, .tm, .cl, .sy][c.toNat]?

/-- The code of a copy scope (R209). -/
def CScope.code : CScope → BitVec 3
  | .dv => 0 | .tm => 1 | .cl => 2 | .sy => 3

/-- The special registers from 0x150 (Table 2-3). -/
def specialOfCode (c : BitVec 4) : Special :=
  ([Special.lane, .warp, .team, .node, .inst, .ctx, .core, .flags, .clk, .cause, .mask, .serial,
    .lc0, .lc1, .lc2, .zero][c.toNat]?).getD .zero

/-- The low four bits of a special register's code (Table 2-3). -/
def Special.code : Special → BitVec 4
  | .lane => 0 | .warp => 1 | .team => 2 | .node => 3 | .inst => 4 | .ctx => 5 | .core => 6
  | .flags => 7 | .clk => 8 | .cause => 9 | .mask => 10 | .serial => 11 | .lc0 => 12 | .lc1 => 13
  | .lc2 => 14 | .zero => 15

/-- The operand codes of Table 2-2; 0x160 to 0x17F are reserved (R18). -/
def operandOfCode (c : BitVec 9) : Option Operand :=
  if c.toNat < 0x100 then some (.v (c.setWidth 8))
  else if c.toNat < 0x140 then some (.s (c.setWidth 6))
  else if c.toNat < 0x150 then some (.p (c.setWidth 4))
  else if c.toNat < 0x160 then some (.special (specialOfCode (c.setWidth 4)))
  else if c.toNat < 0x180 then none
  else some (.vx (c.extractLsb' 5 2) (c.setWidth 5))

/-- The code of an operand (Table 2-2). -/
def Operand.code : Operand → BitVec 9
  | .v n => 0#1 ++ n
  | .s n => 0b100#3 ++ n
  | .p n => 0b10100#5 ++ n
  | .special r => 0b10101#5 ++ r.code
  | .vx x b => 0b11#2 ++ x ++ b

/-! ## Modifier layouts -/

/-- How a layout is read from MOD and written to it. -/
structure Layout (L : Type) where
  dec : BitVec 16 → Option L
  enc : L → BitVec 16

/-- A bit as a one-bit field. -/
def bit (b : Bool) : BitVec 1 := BitVec.ofBool b

/-- M-A (R23). -/
def layMA : Layout MA where
  dec m := do
    let rnd ← rndOfCode (m.extractLsb' 6 3)
    let ty ← typOfCode (m.extractLsb' 0 4)
    pure ⟨m.getLsbD 15, m.extractLsb' 10 5, m.getLsbD 9, rnd, m.extractLsb' 4 2, ty⟩
  enc l := bit l.ib ++ l.sub ++ bit l.sat ++ l.rnd.code ++ l.pk ++ l.ty.code

/-- M-C (R26). -/
def layMC : Layout MC where
  dec m := do
    let sty ← typOfCode (m.extractLsb' 10 4)
    let rnd ← rndOfCode (m.extractLsb' 6 3)
    let ty ← typOfCode (m.extractLsb' 0 4)
    pure ⟨m.extractLsb' 14 2, sty, m.getLsbD 9, rnd, m.extractLsb' 4 2, ty⟩
  enc l := l.spk ++ l.sty.code ++ bit l.sat ++ l.rnd.code ++ l.pk ++ l.ty.code

/-- M-K (R27); bit 15 is reserved. -/
def layMK : Layout MK where
  dec m := do
    let rnd ← rndOfCode (m.extractLsb' 6 3)
    let ty ← typOfCode (m.extractLsb' 0 4)
    if m.getLsbD 15 then none else pure ⟨m.extractLsb' 9 6, rnd, m.extractLsb' 4 2, ty⟩
  enc l := 0#1 ++ l.iter ++ l.rnd.code ++ l.pk ++ l.ty.code

/-- M-M (R28). -/
def layMM : Layout MM where
  dec m := do
    let scope ← scopeOfCode (m.extractLsb' 8 3)
    let ty ← typOfCode (m.extractLsb' 0 4)
    pure ⟨atopOfCode (m.extractLsb' 13 3), cacheOfCode (m.extractLsb' 11 2), scope,
      ordOfCode (m.extractLsb' 6 2), m.extractLsb' 4 2, ty⟩
  enc l := l.atop.code ++ l.cache.code ++ l.scope.code ++ l.ord.code ++ l.pk ++ l.ty.code

/-- M-F (R29); bits 15:12 are reserved. -/
def layMF : Layout MF where
  dec m := do
    let scope ← scopeOfCode (m.extractLsb' 9 3)
    let dst ← pathOfCode (m.extractLsb' 6 3)
    if m.extractLsb' 12 4 = 0#4 then pure ⟨scope, dst, m.extractLsb' 0 6⟩ else none
  enc l := 0#4 ++ l.scope.code ++ l.dst.code ++ l.src

/-- M-X (R30); bit 3 is reserved. -/
def layMX : Layout MX where
  dec m := do
    let fmt ← fmtOfCode (m.extractLsb' 0 3)
    if m.getLsbD 3 then none else pure ⟨m.extractLsb' 10 6, m.extractLsb' 5 5, m.getLsbD 4, fmt⟩
  enc l := l.sub ++ l.acc ++ bit l.arr ++ 0#1 ++ l.fmt.code

/-- M-Y (R31, R209); bits 15:11 are reserved. -/
def layMY : Layout MY where
  dec m := do
    let scope ← cscopeOfCode (m.extractLsb' 8 3)
    if m.extractLsb' 11 5 = 0#5 then
      pure ⟨scope, m.getLsbD 7, m.getLsbD 6, m.extractLsb' 4 2, m.getLsbD 3, m.extractLsb' 0 3⟩
    else none
  enc l := 0#5 ++ l.scope.code ++ bit l.cwg ++ bit l.cwadd ++ l.ch ++ bit l.dig ++ l.span

/-- M-S (R32): the instruction's own description defines the bits. -/
def layMS : Layout (BitVec 16) where
  dec m := some m
  enc l := l

/-! ## Words -/

/-- What decoding a word gives: an instruction; or an operand field, modifier or reserved bit that
traps with ILLEGAL_OPERAND; or an opcode that traps with ILLEGAL_OPCODE (R33, R35). -/
inductive Decoded where
  | instr (i : Instr)
  | illegalOperand
  | illegalOpcode
  deriving DecidableEq, Repr

/-- The fields of a word as bits (Table 2-1). -/
structure RawOps where
  guard : Guard
  nf : Bool
  resv : Bool
  stall : BitVec 4
  yld : Bool
  d : BitVec 9
  a : BitVec 9
  b : BitVec 9
  mod : BitVec 16
  imm : BitVec 28

/-- The fields of a word (Table 2-1). -/
def rawOps (w : BitVec 96) : RawOps where
  guard := ⟨w.extractLsb' 10 4, w.getLsbD 14⟩
  nf := w.getLsbD 58
  resv := w.getLsbD 59 || w.extractLsb' 65 3 != 0#3
  stall := w.extractLsb' 60 4
  yld := w.getLsbD 64
  d := w.extractLsb' 15 9
  a := w.extractLsb' 24 9
  b := w.extractLsb' 33 9
  mod := w.extractLsb' 42 16
  imm := w.extractLsb' 68 28

/-- The instruction of the fields in a layout; reserved bits (R13), operand codes (R18) and modifier
codes are refused. -/
def RawOps.build {L : Type} (r : RawOps) (l : Layout L) (mk : Ops L → Instr) : Decoded :=
  match operandOfCode r.d, operandOfCode r.a, operandOfCode r.b, l.dec r.mod, r.resv with
  | some d, some a, some b, some m, false =>
    .instr (mk ⟨r.guard, r.nf, r.stall, r.yld, d, a, b, m, r.imm⟩)
  | _, _, _, _, _ => .illegalOperand

/-- The word of the fields of an instruction (Table 2-1). -/
def Ops.pack {L : Type} (o : Ops L) (opc : BitVec 10) (enc : L → BitVec 16) : BitVec 96 :=
  o.imm ++ 0#3 ++ bit o.yld ++ o.stall ++ 0#1 ++ bit o.nf ++ enc o.mod ++ o.b.code ++ o.a.code ++
    o.d.code ++ bit o.guard.neg ++ o.guard.p ++ opc

/-- Opcodes 0x000 to 0x03F (Table 2-5). -/
def decodeControl (opc : Nat) (r : RawOps) : Decoded :=
  match opc with
  | 0x001 => r.build layMS Instr.nop
  | 0x002 => r.build layMS Instr.bra
  | 0x003 => r.build layMS Instr.brx
  | 0x004 => r.build layMS Instr.call
  | 0x005 => r.build layMS Instr.callx
  | 0x006 => r.build layMS Instr.ret
  | 0x007 => r.build layMS Instr.bc
  | 0x008 => r.build layMS Instr.bany
  | 0x009 => r.build layMS Instr.ball
  | 0x00A => r.build layMS Instr.vif
  | 0x00B => r.build layMS Instr.velse
  | 0x00C => r.build layMS Instr.vend
  | 0x00D => r.build layMS Instr.vbrk
  | 0x00E => r.build layMS Instr.loop
  | 0x00F => r.build layMS Instr.loopx
  | 0x010 => r.build layMS Instr.yield
  | 0x011 => r.build layMS Instr.sleep
  | 0x012 => r.build layMS Instr.exit
  | 0x013 => r.build layMS Instr.bar
  | 0x014 => r.build layMS Instr.bara
  | 0x015 => r.build layMS Instr.barw
  | 0x016 => r.build layMS Instr.waitc
  | 0x017 => r.build layMS Instr.waitp
  | 0x018 => r.build layMS Instr.trap
  | 0x019 => r.build layMS Instr.bkpt
  | 0x01A => r.build layMS Instr.vcont
  | 0x01B => r.build layMS Instr.lbrk
  | _ => .illegalOpcode

/-- Opcodes 0x040 to 0x07F (Table 2-5). -/
def decodeScalar (opc : Nat) (r : RawOps) : Decoded :=
  match opc with
  | 0x040 => r.build layMA Instr.li
  | 0x041 => r.build layMA Instr.lih
  | 0x042 => r.build layMA Instr.sadd
  | 0x043 => r.build layMA Instr.ssub
  | 0x044 => r.build layMA Instr.smul
  | 0x045 => r.build layMA Instr.smulh
  | 0x046 => r.build layMA Instr.sand
  | 0x047 => r.build layMA Instr.sor
  | 0x048 => r.build layMA Instr.sxor
  | 0x049 => r.build layMA Instr.snot
  | 0x04A => r.build layMA Instr.sshl
  | 0x04B => r.build layMA Instr.sshr
  | 0x04C => r.build layMA Instr.ssra
  | 0x04D => r.build layMA Instr.smin
  | 0x04E => r.build layMA Instr.smax
  | 0x04F => r.build layMA Instr.sclz
  | 0x050 => r.build layMA Instr.spopc
  | 0x051 => r.build layMA Instr.scmp
  | 0x052 => r.build layMA Instr.ssel
  | 0x053 => r.build layMA Instr.smov
  | 0x054 => r.build layMA Instr.sext
  | 0x055 => r.build layMA Instr.sbfe
  | _ => .illegalOpcode

/-- Opcodes 0x080 to 0x0FF (Table 2-5). -/
def decodeInteger (opc : Nat) (r : RawOps) : Decoded :=
  match opc with
  | 0x080 => r.build layMA Instr.iadd
  | 0x081 => r.build layMA Instr.isub
  | 0x082 => r.build layMA Instr.imul24
  | 0x083 => r.build layMA Instr.imul
  | 0x084 => r.build layMA Instr.imulh
  | 0x085 => r.build layMA Instr.imad24
  | 0x086 => r.build layMA Instr.iabs
  | 0x087 => r.build layMA Instr.ineg
  | 0x088 => r.build layMA Instr.imin
  | 0x089 => r.build layMA Instr.imax
  | 0x08A => r.build layMA Instr.iand
  | 0x08B => r.build layMA Instr.ior
  | 0x08C => r.build layMA Instr.ixor
  | 0x08D => r.build layMA Instr.inot
  | 0x08E => r.build layMA Instr.ishl
  | 0x08F => r.build layMA Instr.ishr
  | 0x090 => r.build layMA Instr.isra
  | 0x091 => r.build layMA Instr.irot
  | 0x092 => r.build layMA Instr.iclz
  | 0x093 => r.build layMA Instr.ipopc
  | 0x094 => r.build layMA Instr.ibrev
  | 0x095 => r.build layMA Instr.ibfe
  | 0x096 => r.build layMA Instr.ibfi
  | 0x097 => r.build layMA Instr.isel
  | 0x098 => r.build layMA Instr.icmp
  | 0x099 => r.build layMA Instr.iaddc
  | 0x09A => r.build layMA Instr.isad
  | 0x09B => r.build layMA Instr.iavg
  | 0x09C => r.build layMA Instr.idp4
  | 0x09D => r.build layMA Instr.iext
  | 0x09E => r.build layMA Instr.ilop3
  | 0x09F => r.build layMA Instr.ishfd
  | _ => .illegalOpcode

/-- Opcodes 0x100 to 0x17F (Table 2-5). -/
def decodeFloat (opc : Nat) (r : RawOps) : Decoded :=
  match opc with
  | 0x100 => r.build layMA Instr.fadd
  | 0x101 => r.build layMA Instr.fsub
  | 0x102 => r.build layMA Instr.fmul
  | 0x103 => r.build layMA Instr.fma
  | 0x104 => r.build layMA Instr.fmin
  | 0x105 => r.build layMA Instr.fmax
  | 0x106 => r.build layMA Instr.fabs
  | 0x107 => r.build layMA Instr.fneg
  | 0x108 => r.build layMA Instr.fcmp
  | 0x109 => r.build layMA Instr.fclass
  | 0x10A => r.build layMA Instr.frcp
  | 0x10B => r.build layMA Instr.frnd
  | 0x10C => r.build layMA Instr.fcpsgn
  | 0x10D => r.build layMA Instr.fscale
  | 0x10E => r.build layMA Instr.fexpt
  | 0x10F => r.build layMA Instr.fmant
  | 0x110 => r.build layMC Instr.cvt
  | 0x111 => r.build layMC Instr.cvtmx
  | 0x112 => r.build layMC Instr.cvtsc
  | 0x113 => r.build layMA Instr.flgr
  | 0x114 => r.build layMA Instr.flgc
  | 0x115 => r.build layMA Instr.fdot2
  | 0x116 => r.build layMA Instr.fnma
  | 0x117 => r.build layMA Instr.fms
  | 0x118 => r.build layMA Instr.fnms
  | 0x119 => r.build layMA Instr.fsat
  | _ => .illegalOpcode

/-- Opcodes 0x180 to 0x1BF (Table 2-5). -/
def decodeCordic (opc : Nat) (r : RawOps) : Decoded :=
  match opc with
  | 0x180 => r.build layMK Instr.csin
  | 0x181 => r.build layMK Instr.ccos
  | 0x182 => r.build layMK Instr.catan
  | 0x183 => r.build layMK Instr.cexp2
  | 0x184 => r.build layMK Instr.clog2
  | 0x185 => r.build layMK Instr.ctanh
  | 0x186 => r.build layMK Instr.crsq
  | 0x187 => r.build layMK Instr.csqrt
  | _ => .illegalOpcode

/-- Opcodes 0x1C0 to 0x1FF (Table 2-5). -/
def decodeCross (opc : Nat) (r : RawOps) : Decoded :=
  match opc with
  | 0x1C0 => r.build layMA Instr.shfl
  | 0x1C1 => r.build layMA Instr.bcast
  | 0x1C2 => r.build layMA Instr.vote
  | 0x1C3 => r.build layMA Instr.matchX
  | 0x1C4 => r.build layMA Instr.redx
  | 0x1C5 => r.build layMA Instr.scanx
  | 0x1C6 => r.build layMA Instr.perm
  | 0x1C7 => r.build layMA Instr.mov
  | 0x1C8 => r.build layMA Instr.movi
  | 0x1C9 => r.build layMS Instr.shape
  | 0x1CA => r.build layMS Instr.mkaff
  | 0x1CB => r.build layMS Instr.expand
  | 0x1CC => r.build layMS Instr.xset
  | 0x1CD => r.build layMS Instr.xmov
  | _ => .illegalOpcode

/-- Opcodes 0x200 to 0x23F (Table 2-5). -/
def decodeMatrix (opc : Nat) (r : RawOps) : Decoded :=
  match opc with
  | 0x200 => r.build layMX Instr.fld
  | 0x201 => r.build layMX Instr.mma
  | 0x202 => r.build layMX Instr.accz
  | 0x203 => r.build layMX Instr.accld
  | 0x204 => r.build layMX Instr.accst
  | 0x205 => r.build layMX Instr.accrd
  | 0x206 => r.build layMX Instr.accwr
  | 0x207 => r.build layMX Instr.bton
  | 0x208 => r.build layMX Instr.btpass
  | 0x209 => r.build layMX Instr.btq
  | 0x20A => r.build layMX Instr.fldsc
  | 0x20B => r.build layMX Instr.acccp
  | _ => .illegalOpcode

/-- Opcodes 0x240 to 0x27F (Table 2-5). -/
def decodeScratch (opc : Nat) (r : RawOps) : Decoded :=
  match opc with
  | 0x240 => r.build layMM Instr.lds
  | 0x241 => r.build layMM Instr.sts
  | 0x242 => r.build layMM Instr.atoms
  | 0x243 => r.build layMS Instr.spinv
  | 0x244 => r.build layMS Instr.spstat
  | 0x245 => r.build layMM Instr.ldsx
  | 0x246 => r.build layMM Instr.stsx
  | 0x247 => r.build layMM Instr.reds
  | 0x248 => r.build layMS Instr.spfill
  | _ => .illegalOpcode

/-- Opcodes 0x280 to 0x2FF (Table 2-5). -/
def decodeGlobal (opc : Nat) (r : RawOps) : Decoded :=
  match opc with
  | 0x280 => r.build layMM Instr.ld
  | 0x281 => r.build layMM Instr.st
  | 0x282 => r.build layMM Instr.atom
  | 0x283 => r.build layMM Instr.red
  | 0x284 => r.build layMM Instr.ldr
  | 0x285 => r.build layMM Instr.str
  | 0x286 => r.build layMM Instr.redr
  | 0x287 => r.build layMM Instr.pref
  | 0x288 => r.build layMM Instr.fence
  | 0x289 => r.build layMF Instr.fencex
  | 0x28A => r.build layMS Instr.l1inv
  | 0x28B => r.build layMS Instr.l1wb
  | 0x28C => r.build layMM Instr.sld
  | 0x28D => r.build layMM Instr.sst
  | 0x28E => r.build layMM Instr.satom
  | _ => .illegalOpcode

/-- Opcodes 0x300 to 0x33F (Table 2-5). -/
def decodeCopy (opc : Nat) (r : RawOps) : Decoded :=
  match opc with
  | 0x300 => r.build layMY Instr.cpy
  | 0x301 => r.build layMY Instr.cpys
  | 0x302 => r.build layMY Instr.cpyg
  | 0x303 => r.build layMY Instr.cpygat
  | 0x304 => r.build layMM Instr.tagst
  | 0x305 => r.build layMM Instr.tagld
  | 0x306 => r.build layMM Instr.tagset
  | 0x307 => r.build layMS Instr.watch
  | 0x308 => r.build layMS Instr.unwatch
  | 0x309 => r.build layMS Instr.watchq
  | 0x30A => r.build layMY Instr.cpyq
  | _ => .illegalOpcode

/-- Opcodes 0x340 to 0x37F (Table 2-5). -/
def decodeGraph (opc : Nat) (r : RawOps) : Decoded :=
  match opc with
  | 0x340 => r.build layMS Instr.emit
  | 0x341 => r.build layMS Instr.emitn
  | 0x342 => r.build layMS Instr.fsopen
  | 0x343 => r.build layMS Instr.fsclose
  | 0x344 => r.build layMS Instr.fswait
  | 0x345 => r.build layMS Instr.fsjoin
  | 0x346 => r.build layMS Instr.sigdec
  | 0x347 => r.build layMS Instr.sigwait
  | 0x348 => r.build layMS Instr.sigadd
  | 0x349 => r.build layMS Instr.fsstat
  | 0x34A => r.build layMS Instr.emitq
  | _ => .illegalOpcode

/-- Opcodes 0x380 to 0x3BF (Table 2-5). -/
def decodeRelay (opc : Nat) (r : RawOps) : Decoded :=
  match opc with
  | 0x380 => r.build layMS Instr.csend
  | 0x381 => r.build layMS Instr.crecv
  | 0x382 => r.build layMS Instr.crrs
  | 0x383 => r.build layMS Instr.ccopy
  | 0x384 => r.build layMS Instr.cwait
  | 0x385 => r.build layMS Instr.cpeer
  | 0x386 => r.build layMS Instr.cbar
  | 0x387 => r.build layMS Instr.cdone
  | 0x388 => r.build layMS Instr.crank
  | _ => .illegalOpcode

/-- Opcodes 0x3C0 to 0x3DF (Table 2-5). -/
def decodeRecorder (opc : Nat) (r : RawOps) : Decoded :=
  match opc with
  | 0x3C0 => r.build layMS Instr.evt
  | 0x3C1 => r.build layMS Instr.clkr
  | 0x3C2 => r.build layMS Instr.causer
  | 0x3C3 => r.build layMA Instr.rng
  | 0x3C4 => r.build layMS Instr.evtp
  | _ => .illegalOpcode

/-- Opcodes 0x3E0 to 0x3FF (Table 2-5). -/
def decodeSystem (opc : Nat) (r : RawOps) : Decoded :=
  match opc with
  | 0x3E0 => r.build layMS Instr.sysr
  | 0x3E1 => r.build layMS Instr.sysw
  | 0x3E2 => r.build layMS Instr.icinv
  | 0x3E3 => r.build layMS Instr.dbgh
  | 0x3E4 => r.build layMS Instr.pwrq
  | _ => .illegalOpcode

/-- The instruction an opcode and its fields stand for (R33, R34). -/
def decodeFields (opc : Nat) (r : RawOps) : Decoded :=
  if opc < 0x040 then decodeControl opc r
  else if opc < 0x080 then decodeScalar opc r
  else if opc < 0x100 then decodeInteger opc r
  else if opc < 0x180 then decodeFloat opc r
  else if opc < 0x1C0 then decodeCordic opc r
  else if opc < 0x200 then decodeCross opc r
  else if opc < 0x240 then decodeMatrix opc r
  else if opc < 0x280 then decodeScratch opc r
  else if opc < 0x300 then decodeGlobal opc r
  else if opc < 0x340 then decodeCopy opc r
  else if opc < 0x380 then decodeGraph opc r
  else if opc < 0x3C0 then decodeRelay opc r
  else if opc < 0x3E0 then decodeRecorder opc r
  else decodeSystem opc r

/-- The word of an instruction (R11, Table 2-5); none for the rows that are not words. -/
def encode : Instr → Option (BitVec 96)
  | .illegalOpcode w => some w
  | .nop o => some (o.pack 0x001#10 layMS.enc)
  | .bra o => some (o.pack 0x002#10 layMS.enc)
  | .brx o => some (o.pack 0x003#10 layMS.enc)
  | .call o => some (o.pack 0x004#10 layMS.enc)
  | .callx o => some (o.pack 0x005#10 layMS.enc)
  | .ret o => some (o.pack 0x006#10 layMS.enc)
  | .bc o => some (o.pack 0x007#10 layMS.enc)
  | .bany o => some (o.pack 0x008#10 layMS.enc)
  | .ball o => some (o.pack 0x009#10 layMS.enc)
  | .vif o => some (o.pack 0x00A#10 layMS.enc)
  | .velse o => some (o.pack 0x00B#10 layMS.enc)
  | .vend o => some (o.pack 0x00C#10 layMS.enc)
  | .vbrk o => some (o.pack 0x00D#10 layMS.enc)
  | .loop o => some (o.pack 0x00E#10 layMS.enc)
  | .loopx o => some (o.pack 0x00F#10 layMS.enc)
  | .yield o => some (o.pack 0x010#10 layMS.enc)
  | .sleep o => some (o.pack 0x011#10 layMS.enc)
  | .exit o => some (o.pack 0x012#10 layMS.enc)
  | .bar o => some (o.pack 0x013#10 layMS.enc)
  | .bara o => some (o.pack 0x014#10 layMS.enc)
  | .barw o => some (o.pack 0x015#10 layMS.enc)
  | .waitc o => some (o.pack 0x016#10 layMS.enc)
  | .waitp o => some (o.pack 0x017#10 layMS.enc)
  | .trap o => some (o.pack 0x018#10 layMS.enc)
  | .bkpt o => some (o.pack 0x019#10 layMS.enc)
  | .vcont o => some (o.pack 0x01A#10 layMS.enc)
  | .lbrk o => some (o.pack 0x01B#10 layMS.enc)
  | .li o => some (o.pack 0x040#10 layMA.enc)
  | .lih o => some (o.pack 0x041#10 layMA.enc)
  | .sadd o => some (o.pack 0x042#10 layMA.enc)
  | .ssub o => some (o.pack 0x043#10 layMA.enc)
  | .smul o => some (o.pack 0x044#10 layMA.enc)
  | .smulh o => some (o.pack 0x045#10 layMA.enc)
  | .sand o => some (o.pack 0x046#10 layMA.enc)
  | .sor o => some (o.pack 0x047#10 layMA.enc)
  | .sxor o => some (o.pack 0x048#10 layMA.enc)
  | .snot o => some (o.pack 0x049#10 layMA.enc)
  | .sshl o => some (o.pack 0x04A#10 layMA.enc)
  | .sshr o => some (o.pack 0x04B#10 layMA.enc)
  | .ssra o => some (o.pack 0x04C#10 layMA.enc)
  | .smin o => some (o.pack 0x04D#10 layMA.enc)
  | .smax o => some (o.pack 0x04E#10 layMA.enc)
  | .sclz o => some (o.pack 0x04F#10 layMA.enc)
  | .spopc o => some (o.pack 0x050#10 layMA.enc)
  | .scmp o => some (o.pack 0x051#10 layMA.enc)
  | .ssel o => some (o.pack 0x052#10 layMA.enc)
  | .smov o => some (o.pack 0x053#10 layMA.enc)
  | .sext o => some (o.pack 0x054#10 layMA.enc)
  | .sbfe o => some (o.pack 0x055#10 layMA.enc)
  | .iadd o => some (o.pack 0x080#10 layMA.enc)
  | .isub o => some (o.pack 0x081#10 layMA.enc)
  | .imul24 o => some (o.pack 0x082#10 layMA.enc)
  | .imul o => some (o.pack 0x083#10 layMA.enc)
  | .imulh o => some (o.pack 0x084#10 layMA.enc)
  | .imad24 o => some (o.pack 0x085#10 layMA.enc)
  | .iabs o => some (o.pack 0x086#10 layMA.enc)
  | .ineg o => some (o.pack 0x087#10 layMA.enc)
  | .imin o => some (o.pack 0x088#10 layMA.enc)
  | .imax o => some (o.pack 0x089#10 layMA.enc)
  | .iand o => some (o.pack 0x08A#10 layMA.enc)
  | .ior o => some (o.pack 0x08B#10 layMA.enc)
  | .ixor o => some (o.pack 0x08C#10 layMA.enc)
  | .inot o => some (o.pack 0x08D#10 layMA.enc)
  | .ishl o => some (o.pack 0x08E#10 layMA.enc)
  | .ishr o => some (o.pack 0x08F#10 layMA.enc)
  | .isra o => some (o.pack 0x090#10 layMA.enc)
  | .irot o => some (o.pack 0x091#10 layMA.enc)
  | .iclz o => some (o.pack 0x092#10 layMA.enc)
  | .ipopc o => some (o.pack 0x093#10 layMA.enc)
  | .ibrev o => some (o.pack 0x094#10 layMA.enc)
  | .ibfe o => some (o.pack 0x095#10 layMA.enc)
  | .ibfi o => some (o.pack 0x096#10 layMA.enc)
  | .isel o => some (o.pack 0x097#10 layMA.enc)
  | .icmp o => some (o.pack 0x098#10 layMA.enc)
  | .iaddc o => some (o.pack 0x099#10 layMA.enc)
  | .isad o => some (o.pack 0x09A#10 layMA.enc)
  | .iavg o => some (o.pack 0x09B#10 layMA.enc)
  | .idp4 o => some (o.pack 0x09C#10 layMA.enc)
  | .iext o => some (o.pack 0x09D#10 layMA.enc)
  | .ilop3 o => some (o.pack 0x09E#10 layMA.enc)
  | .ishfd o => some (o.pack 0x09F#10 layMA.enc)
  | .fadd o => some (o.pack 0x100#10 layMA.enc)
  | .fsub o => some (o.pack 0x101#10 layMA.enc)
  | .fmul o => some (o.pack 0x102#10 layMA.enc)
  | .fma o => some (o.pack 0x103#10 layMA.enc)
  | .fmin o => some (o.pack 0x104#10 layMA.enc)
  | .fmax o => some (o.pack 0x105#10 layMA.enc)
  | .fabs o => some (o.pack 0x106#10 layMA.enc)
  | .fneg o => some (o.pack 0x107#10 layMA.enc)
  | .fcmp o => some (o.pack 0x108#10 layMA.enc)
  | .fclass o => some (o.pack 0x109#10 layMA.enc)
  | .frcp o => some (o.pack 0x10A#10 layMA.enc)
  | .frnd o => some (o.pack 0x10B#10 layMA.enc)
  | .fcpsgn o => some (o.pack 0x10C#10 layMA.enc)
  | .fscale o => some (o.pack 0x10D#10 layMA.enc)
  | .fexpt o => some (o.pack 0x10E#10 layMA.enc)
  | .fmant o => some (o.pack 0x10F#10 layMA.enc)
  | .cvt o => some (o.pack 0x110#10 layMC.enc)
  | .cvtmx o => some (o.pack 0x111#10 layMC.enc)
  | .cvtsc o => some (o.pack 0x112#10 layMC.enc)
  | .flgr o => some (o.pack 0x113#10 layMA.enc)
  | .flgc o => some (o.pack 0x114#10 layMA.enc)
  | .fdot2 o => some (o.pack 0x115#10 layMA.enc)
  | .fnma o => some (o.pack 0x116#10 layMA.enc)
  | .fms o => some (o.pack 0x117#10 layMA.enc)
  | .fnms o => some (o.pack 0x118#10 layMA.enc)
  | .fsat o => some (o.pack 0x119#10 layMA.enc)
  | .csin o => some (o.pack 0x180#10 layMK.enc)
  | .ccos o => some (o.pack 0x181#10 layMK.enc)
  | .catan o => some (o.pack 0x182#10 layMK.enc)
  | .cexp2 o => some (o.pack 0x183#10 layMK.enc)
  | .clog2 o => some (o.pack 0x184#10 layMK.enc)
  | .ctanh o => some (o.pack 0x185#10 layMK.enc)
  | .crsq o => some (o.pack 0x186#10 layMK.enc)
  | .csqrt o => some (o.pack 0x187#10 layMK.enc)
  | .shfl o => some (o.pack 0x1C0#10 layMA.enc)
  | .bcast o => some (o.pack 0x1C1#10 layMA.enc)
  | .vote o => some (o.pack 0x1C2#10 layMA.enc)
  | .matchX o => some (o.pack 0x1C3#10 layMA.enc)
  | .redx o => some (o.pack 0x1C4#10 layMA.enc)
  | .scanx o => some (o.pack 0x1C5#10 layMA.enc)
  | .perm o => some (o.pack 0x1C6#10 layMA.enc)
  | .mov o => some (o.pack 0x1C7#10 layMA.enc)
  | .movi o => some (o.pack 0x1C8#10 layMA.enc)
  | .shape o => some (o.pack 0x1C9#10 layMS.enc)
  | .mkaff o => some (o.pack 0x1CA#10 layMS.enc)
  | .expand o => some (o.pack 0x1CB#10 layMS.enc)
  | .xset o => some (o.pack 0x1CC#10 layMS.enc)
  | .xmov o => some (o.pack 0x1CD#10 layMS.enc)
  | .fld o => some (o.pack 0x200#10 layMX.enc)
  | .mma o => some (o.pack 0x201#10 layMX.enc)
  | .accz o => some (o.pack 0x202#10 layMX.enc)
  | .accld o => some (o.pack 0x203#10 layMX.enc)
  | .accst o => some (o.pack 0x204#10 layMX.enc)
  | .accrd o => some (o.pack 0x205#10 layMX.enc)
  | .accwr o => some (o.pack 0x206#10 layMX.enc)
  | .bton o => some (o.pack 0x207#10 layMX.enc)
  | .btpass o => some (o.pack 0x208#10 layMX.enc)
  | .btq o => some (o.pack 0x209#10 layMX.enc)
  | .fldsc o => some (o.pack 0x20A#10 layMX.enc)
  | .acccp o => some (o.pack 0x20B#10 layMX.enc)
  | .lds o => some (o.pack 0x240#10 layMM.enc)
  | .sts o => some (o.pack 0x241#10 layMM.enc)
  | .atoms o => some (o.pack 0x242#10 layMM.enc)
  | .spinv o => some (o.pack 0x243#10 layMS.enc)
  | .spstat o => some (o.pack 0x244#10 layMS.enc)
  | .ldsx o => some (o.pack 0x245#10 layMM.enc)
  | .stsx o => some (o.pack 0x246#10 layMM.enc)
  | .reds o => some (o.pack 0x247#10 layMM.enc)
  | .spfill o => some (o.pack 0x248#10 layMS.enc)
  | .ld o => some (o.pack 0x280#10 layMM.enc)
  | .st o => some (o.pack 0x281#10 layMM.enc)
  | .atom o => some (o.pack 0x282#10 layMM.enc)
  | .red o => some (o.pack 0x283#10 layMM.enc)
  | .ldr o => some (o.pack 0x284#10 layMM.enc)
  | .str o => some (o.pack 0x285#10 layMM.enc)
  | .redr o => some (o.pack 0x286#10 layMM.enc)
  | .pref o => some (o.pack 0x287#10 layMM.enc)
  | .fence o => some (o.pack 0x288#10 layMM.enc)
  | .fencex o => some (o.pack 0x289#10 layMF.enc)
  | .l1inv o => some (o.pack 0x28A#10 layMS.enc)
  | .l1wb o => some (o.pack 0x28B#10 layMS.enc)
  | .sld o => some (o.pack 0x28C#10 layMM.enc)
  | .sst o => some (o.pack 0x28D#10 layMM.enc)
  | .satom o => some (o.pack 0x28E#10 layMM.enc)
  | .cpy o => some (o.pack 0x300#10 layMY.enc)
  | .cpys o => some (o.pack 0x301#10 layMY.enc)
  | .cpyg o => some (o.pack 0x302#10 layMY.enc)
  | .cpygat o => some (o.pack 0x303#10 layMY.enc)
  | .tagst o => some (o.pack 0x304#10 layMM.enc)
  | .tagld o => some (o.pack 0x305#10 layMM.enc)
  | .tagset o => some (o.pack 0x306#10 layMM.enc)
  | .watch o => some (o.pack 0x307#10 layMS.enc)
  | .unwatch o => some (o.pack 0x308#10 layMS.enc)
  | .watchq o => some (o.pack 0x309#10 layMS.enc)
  | .cpyq o => some (o.pack 0x30A#10 layMY.enc)
  | .emit o => some (o.pack 0x340#10 layMS.enc)
  | .emitn o => some (o.pack 0x341#10 layMS.enc)
  | .fsopen o => some (o.pack 0x342#10 layMS.enc)
  | .fsclose o => some (o.pack 0x343#10 layMS.enc)
  | .fswait o => some (o.pack 0x344#10 layMS.enc)
  | .fsjoin o => some (o.pack 0x345#10 layMS.enc)
  | .sigdec o => some (o.pack 0x346#10 layMS.enc)
  | .sigwait o => some (o.pack 0x347#10 layMS.enc)
  | .sigadd o => some (o.pack 0x348#10 layMS.enc)
  | .fsstat o => some (o.pack 0x349#10 layMS.enc)
  | .emitq o => some (o.pack 0x34A#10 layMS.enc)
  | .csend o => some (o.pack 0x380#10 layMS.enc)
  | .crecv o => some (o.pack 0x381#10 layMS.enc)
  | .crrs o => some (o.pack 0x382#10 layMS.enc)
  | .ccopy o => some (o.pack 0x383#10 layMS.enc)
  | .cwait o => some (o.pack 0x384#10 layMS.enc)
  | .cpeer o => some (o.pack 0x385#10 layMS.enc)
  | .cbar o => some (o.pack 0x386#10 layMS.enc)
  | .cdone o => some (o.pack 0x387#10 layMS.enc)
  | .crank o => some (o.pack 0x388#10 layMS.enc)
  | .evt o => some (o.pack 0x3C0#10 layMS.enc)
  | .clkr o => some (o.pack 0x3C1#10 layMS.enc)
  | .causer o => some (o.pack 0x3C2#10 layMS.enc)
  | .rng o => some (o.pack 0x3C3#10 layMA.enc)
  | .evtp o => some (o.pack 0x3C4#10 layMS.enc)
  | .sysr o => some (o.pack 0x3E0#10 layMS.enc)
  | .sysw o => some (o.pack 0x3E1#10 layMS.enc)
  | .icinv o => some (o.pack 0x3E2#10 layMS.enc)
  | .dbgh o => some (o.pack 0x3E3#10 layMS.enc)
  | .pwrq o => some (o.pack 0x3E4#10 layMS.enc)
  | _ => none
/-- Decoding a word: total, and every refusal has a name. -/
def decodeWord (w : BitVec 96) : Decoded :=
  decodeFields (w.extractLsb' 0 10).toNat (rawOps w)

/-- The instruction the fetch unit hands on for a word: an opcode that is not assigned decodes to the
instruction that traps (R33). None when a field is refused. -/
def decode (w : BitVec 96) : Option Instr :=
  match decodeWord w with
  | .instr i => some i
  | .illegalOpcode => some (.illegalOpcode w)
  | .illegalOperand => none

/-- A relay-group opcode (R34, Table 2-4). -/
def isRelayOpcode (w : BitVec 96) : Bool :=
  0x380 ≤ (w.extractLsb' 0 10).toNat && (w.extractLsb' 0 10).toNat < 0x3C0

/-! ## Bytes -/

/-- The bytes of a word as stored: three little-endian 32-bit words, bits 31:0 lowest (R3, R12). -/
def wordBytes (w : BitVec 96) : List Byte :=
  (List.range 12).map fun k => w.extractLsb' (8 * k) 8

/-- The little-endian value of a list of bytes (R3). -/
def leNat : List Byte → Nat
  | [] => 0
  | b :: bs => b.toNat + 256 * leNat bs

/-- Decoding the twelve bytes at an instruction's address. -/
def decodeBytes (bs : List Byte) : Option Instr :=
  if bs.length = 12 then decode (BitVec.ofNat 96 (leNat bs)) else none

/-- The instruction that this decoder reads from an instruction whose bits are `w`, numbered as the
opcode table numbers them. The bytes are laid out as the hardware stores them and read back. Rows of
the table that are no instruction words have no bits, and `w` is then read as a word. -/
def decodeTableWord (_nbits w : Nat) : Option Instr :=
  decodeBytes (wordBytes (BitVec.ofNat 96 w))

end Sys2Proof
end

