-- ==== Sys2Proof/WellFormed.lean ====
section
/-!
DEFINITION. The checks an instruction meets at decode: check 4 (operand classes, modifier values,
unused fields, R13 to R32 and each group's encoding table), check 5 (orders, R28, R222), and what
checks 6 and 7 of R35 need (W = 32, full active mask). Every Xothes instruction has one `Sig`: its
guard, its checks, and the vector registers it reads and writes. `WellFormed` is checks 4 and 5; the
register count N (R21) and the row demand (R94) depend on the kernel and are `Sig.fits`.
-/

namespace Sys2Proof

/-! ## Types -/

/-- Width of an element in bits (R24). -/
def Typ.width : Typ → Nat
  | .s8 | .z8 | .e4m3 | .e5m2 => 8
  | .s16 | .z16 | .f16 | .bf16 => 16
  | .s32 | .z32 | .f32 => 32
  | .s64 | .z64 | .f64 => 64
  | .mxf4 => 4

/-- Is the type signed two's complement (R118)? -/
def Typ.signed : Typ → Bool
  | .s8 | .s16 | .s32 | .s64 => true
  | _ => false

/-- Is the type an integer type (R118)? -/
def Typ.isInt : Typ → Bool
  | .s8 | .s16 | .s32 | .s64 | .z8 | .z16 | .z32 | .z64 => true
  | _ => false

/-- f16, bf16, f32 or f64: the floating-point types of the lane instructions (Table 7-1). -/
def Typ.isFlt : Typ → Bool
  | .f16 | .bf16 | .f32 | .f64 => true
  | _ => false

/-- The sub-element count a PK code stands for (R23). -/
def pkCount (pk : BitVec 2) : Nat := 2 ^ pk.toNat

/-- Width times count is at most 64 bits (R24). -/
def fitsLane (t : Typ) (pk : BitVec 2) : Bool := t.width * pkCount pk ≤ 64

/-- The set INT (Table 7-1). -/
def inINT (t : Typ) (pk : BitVec 2) : Bool := t.isInt && fitsLane t pk

/-- The set IW (Table 7-1). -/
def inIW (t : Typ) (pk : BitVec 2) : Bool :=
  match t with
  | .s32 | .z32 => pk.toNat ≤ 1
  | .s64 | .z64 => pk = 0
  | _ => false

/-- The set FLT (Table 7-1). -/
def inFLT (t : Typ) (pk : BitVec 2) : Bool := t.isFlt && fitsLane t pk

/-- The set FLT1 (Table 7-1). -/
def inFLT1 (t : Typ) (pk : BitVec 2) : Bool := t.isFlt && pk = 0

/-- INT, and f16, bf16, f32, f64 with width times count at most 64 (R105, Tables 9-2 and 10-7). -/
def inMove (t : Typ) (pk : BitVec 2) : Bool := (t.isInt || t.isFlt) && fitsLane t pk

/-- s32, z32, s64, z64 (Tables 9-2 and 10-7). -/
def Typ.isAtomicInt : Typ → Bool
  | .s32 | .z32 | .s64 | .z64 => true
  | _ => false

/-! ## Operand classes (R20) -/

/-- An unused field holds code 0x000 (R13). -/
def Operand.isNone (x : Operand) : Bool := x == .v 0

/-- A v code. -/
def Operand.isV : Operand → Bool
  | .v _ => true
  | _ => false

/-- A v or indexed code. -/
def Operand.isVx : Operand → Bool
  | .v _ | .vx _ _ => true
  | _ => false

/-- A source of a lane-wise vector instruction: v, indexed, s or special. -/
def Operand.isSrc : Operand → Bool
  | .p _ => false
  | _ => true

/-- An s code. -/
def Operand.isS : Operand → Bool
  | .s _ => true
  | _ => false

/-- An s code or %zero. -/
def Operand.isSZ : Operand → Bool
  | .s _ | .special .zero => true
  | _ => false

/-- An s code or a special register that reads one value for the warp: not %lane, not %flags. -/
def Operand.isSU : Operand → Bool
  | .s _ => true
  | .special .lane | .special .flags => false
  | .special _ => true
  | _ => false

/-- v, indexed or %zero: the vector index of a memory operand. -/
def Operand.isVxZ : Operand → Bool
  | .v _ | .vx _ _ | .special .zero => true
  | _ => false

/-- A p code. -/
def Operand.isP : Operand → Bool
  | .p _ => true
  | _ => false

/-- A p code other than p0: a destination (R20). -/
def Operand.isPD : Operand → Bool
  | .p n => n != 0
  | _ => false

/-- The C operand in IMM[8:0]; IMM[27:9] must be 0 (R14). -/
def cOperand (imm : BitVec 28) : Option Operand :=
  if imm.toNat < 512 then operandOfCode (imm.setWidth 9) else none

/-- The C operand belongs to a class. -/
def cIs (imm : BitVec 28) (f : Operand → Bool) : Bool := (cOperand imm).any f

/-! ## Signatures -/

/-- What the checks of R35 and the register interlocks need to know of an instruction: its guard,
whether the guard is lane-wise (Table 2-4) or not taken (R63), checks 4 and 5, the vector operands it
reads and the one it writes with their group sizes, and the needs of checks 6 and 7. -/
structure Sig where
  guard : Guard
  lanewise : Bool := false
  always : Bool := false
  ok4 : Bool
  ok5 : Bool := true
  reads : List (Operand × Nat) := []
  dest : List (Operand × Nat) := []
  w32 : Bool := false
  full : Bool := false
  relay : Bool := false

/-- The guard is p0, not negated (R63). -/
def Guard.isTrivial (g : Guard) : Bool := g.p == 0 && !g.neg

/-- Fields that a group leaves unused. -/
def Ops.noA {L : Type} (o : Ops L) : Bool := o.a.isNone
def Ops.noB {L : Type} (o : Ops L) : Bool := o.b.isNone
def Ops.noD {L : Type} (o : Ops L) : Bool := o.d.isNone
def Ops.noImm {L : Type} (o : Ops L) : Bool := o.imm == 0

/-- The floating-point immediate of f16 and bf16 leaves IMM[27:16] 0 (R14). -/
def immFits (t : Typ) (imm : BitVec 28) : Bool :=
  match t with
  | .f16 | .bf16 => imm.toNat < 65536
  | _ => true

/-- B is an immediate where the entry allows it, or a register operand and IMM unused (R14, R127). -/
def bOrImm (o : Ops MA) (ib : Bool) (cls : Operand → Bool) : Bool :=
  if o.mod.ib then ib && o.noB && immFits o.mod.ty o.imm else cls o.b && o.noImm

/-- The vector operands among a list of operands. -/
def vecs (l : List Operand) : List (Operand × Nat) :=
  (l.filter Operand.isVx).map fun x => (x, 1)

/-- B as a register operand, when IB is clear. -/
def regB (o : Ops MA) : List Operand := if o.mod.ib then [] else [o.b]

/-- A warp-wide instruction of M-S layout without vector operands. -/
def sigS (o : Ops (BitVec 16)) (ok : Bool) : Sig :=
  { guard := o.guard, ok4 := !o.nf && ok }

/-- A warp-wide instruction without vector operands, whatever its layout. -/
def sigPlain (g : Guard) (ok : Bool) : Sig :=
  { guard := g, ok4 := ok }

/-- A signature with the order check of its row (check 5). -/
def Sig.withOrd (g : Sig) (ok : Bool) : Sig :=
  { g with ok5 := ok }

/-- A signature that reads vector operands. -/
def Sig.reading (g : Sig) (l : List Operand) : Sig :=
  { g with reads := vecs l }

/-- One of the seven control instructions that take no guard (R63). -/
def sigAlways (o : Ops (BitVec 16)) (ok : Bool) : Sig :=
  { guard := o.guard, always := true, ok4 := !o.nf && o.guard.isTrivial && ok }

/-- A scalar instruction (R83): D, A and B classes, types, IB, SAT and SUB. -/
def sigScalar (o : Ops MA) (dOk : Bool) (binary sat : Bool) (types : Typ → Bool) (sub : Bool) : Sig :=
  { guard := o.guard
    ok4 := !o.nf && dOk && o.a.isSU && o.mod.ty.isInt && types o.mod.ty && o.mod.pk == 0 &&
      o.mod.rnd == .rn && (sat || !o.mod.sat) && sub &&
      (if binary then bOrImm o true Operand.isSU else !o.mod.ib && o.noB && o.noImm) }

/-- The plain scalar instruction: any integer type, SUB 0. -/
def sigScalar0 (o : Ops MA) (binary sat : Bool) : Sig :=
  sigScalar o o.d.isSZ binary sat (fun _ => true) (o.mod.sub == 0)

/-- A lane-wise integer instruction of Table 7-3 (R127, R130). -/
def sigInt (o : Ops MA) (types : Bool) (sub sat ib binary : Bool) (dRead : Bool := false) : Sig :=
  { guard := o.guard, lanewise := true
    ok4 := !o.nf && o.d.isVx && o.a.isSrc && types && o.mod.rnd == .rn && (sat || !o.mod.sat) && sub &&
      (if binary then bOrImm o ib Operand.isSrc else !o.mod.ib && o.noB && o.noImm)
    reads := vecs (o.a :: ((if binary then regB o else []) ++ if dRead then [o.d] else []))
    dest := vecs [o.d] }

/-- A lane-wise floating-point instruction of Table 7-4 (R132). -/
def sigFlt (o : Ops MA) (types : Bool) (sub rnd ib binary : Bool) (flags : Bool := true)
    (dRead : Bool := false) : Sig :=
  { guard := o.guard, lanewise := true
    ok4 := (flags || !o.nf) && o.d.isVx && o.a.isSrc && types && !o.mod.sat &&
      (rnd || o.mod.rnd == .rn) && sub &&
      (if binary then bOrImm o ib Operand.isSrc else !o.mod.ib && o.noB && o.noImm)
    reads := vecs (o.a :: ((if binary then regB o else []) ++ if dRead then [o.d] else []))
    dest := vecs [o.d] }

/-- The four fused multiply-adds: A, B and C are sources (R14, Table 7-4). -/
def sigFma (o : Ops MA) : Sig :=
  { guard := o.guard, lanewise := true
    ok4 := o.d.isVx && o.a.isSrc && o.b.isSrc && cIs o.imm Operand.isSrc && inFLT o.mod.ty o.mod.pk &&
      !o.mod.ib && !o.mod.sat && o.mod.sub == 0
    reads := vecs ([o.a, o.b] ++ (cOperand o.imm).toList)
    dest := vecs [o.d] }

/-- A comparison (R131, R133): D is a v destination, or a p destination and PK 0. -/
def sigCmp (o : Ops MA) (types cond nfOk : Bool) : Sig :=
  { guard := o.guard, lanewise := true
    ok4 := (nfOk || !o.nf) && (o.d.isVx || (o.d.isPD && o.mod.pk == 0)) && o.a.isSrc && types &&
      o.mod.rnd == .rn && !o.mod.sat && cond && bOrImm o true Operand.isSrc
    reads := vecs (o.a :: regB o)
    dest := vecs [o.d] }

/-- A CORDIC instruction (R27, R138). -/
def sigCordic (o : Ops MK) : Sig :=
  { guard := o.guard, lanewise := true
    ok4 := o.d.isVx && o.a.isSrc && o.noB && o.noImm && inFLT1 o.mod.ty o.mod.pk &&
      decide (4 ≤ o.mod.iter.toNat) && decide (o.mod.iter.toNat ≤ 40)
    reads := vecs [o.a]
    dest := vecs [o.d] }

/-- A reduction or scan (Table 7-7): `ex` allows SUB bit 3. -/
def sigReduce (o : Ops MA) (ex : Bool) : Sig :=
  let op := (o.mod.sub.setWidth 3).toNat
  let flt := o.mod.ty.isFlt
  { guard := o.guard, lanewise := true
    ok4 := (flt || !o.nf) && o.d.isVx && o.a.isSrc && !o.mod.ib && o.noB && o.noImm &&
      (if flt then inFLT o.mod.ty o.mod.pk && decide (op ≤ 2) else inINT o.mod.ty o.mod.pk && decide (op ≤ 5)) &&
      (!o.mod.sat || (!flt && op == 0)) && (o.mod.rnd == .rn || (flt && op == 0)) &&
      decide (o.mod.sub.toNat < if ex then 16 else 8)
    reads := vecs [o.a]
    dest := vecs [o.d] }

/-- The orders a load, a store or an atomic may carry (Tables 9-2, 10-7, R222). -/
def ordLoad (x : Ord) : Bool := x == .rlx || x == .acq
def ordStore (x : Ord) : Bool := x == .rlx || x == .rel

/-- A lane-wise memory access. `cacheOk`: CACHE may be other than 0. `data`: D is read. `result`: D is
written. `aCls`, `bCls`: the classes of the base and the index. -/
def sigMem (o : Ops MM) (cacheOk data result : Bool) (types atop : Bool) (ord : Bool)
    (aOk : Bool) (cas : Bool := false) : Sig :=
  { guard := o.guard, lanewise := true
    ok4 := !o.nf && o.d.isVx && aOk && o.b.isVxZ && types && atop && (cacheOk || o.mod.cache == .l1) &&
      (!cas || cIs o.imm Operand.isSrc)
    ok5 := ord
    reads := vecs ([o.b] ++ (if data then [o.d] else []) ++ if cas then (cOperand o.imm).toList else [])
    dest := if result then vecs [o.d] else [] }

/-- The types of an atomic (Tables 9-2 and 10-7): integers at x1 for every operation; the floating
types given, for add only. -/
def atomicTypes (m : MM) (f64 : Bool) : Bool :=
  m.pk == 0 && (m.ty.isAtomicInt || (m.atop == .add && (m.ty == .f32 || (f64 && m.ty == .f64))))

/-- ATOP 0 to 5 (reductions). -/
def atopReduce (x : Atop) : Bool := x != .exch && x != .cas

/-- A scalar memory access (Table 10-6). -/
def sigSMem (o : Ops MM) (types atop ord : Bool) (cas : Bool := false) : Sig :=
  { guard := o.guard
    ok4 := !o.nf && o.d.isS && o.a.isSU && o.b.isSZ && types && atop && (!cas || cIs o.imm Operand.isS)
    ok5 := ord }

/-- A matrix instruction without register groups (R160): ACC, ARR, FMT, SUB and TOFF as allowed. -/
def sigMx (o : Ops MX) (ok acc arr fmt toff : Bool) (sub : Bool) (full : Bool := false)
    (reads dest : List (Operand × Nat) := []) : Sig :=
  { guard := o.guard
    ok4 := !o.nf && ok && (acc || o.mod.acc == 0) && (arr || !o.mod.arr) && (fmt || o.mod.fmt == .bf16) &&
      sub && (if toff then (o.imm.setWidth 22 : BitVec 22) == 0 else o.noImm)
    reads := reads
    dest := dest
    w32 := true
    full := full }

/-- Two register pairs or groups overlap. -/
def overlaps (a : Nat) (n : Nat) (b : Nat) (m : Nat) : Bool := decide (a < b + m) && decide (b < a + n)

/-- The number of a v code. -/
def Operand.vNum : Operand → Nat
  | .v n => n.toNat
  | _ => 0

/-- The scale operands of an mxf4 `mma`: SA in IMM[8:0], SB in IMM[17:9] (Table 8-4). -/
def mmaScale (imm : BitVec 28) (second : Bool) : Option Operand :=
  operandOfCode (imm.extractLsb' (if second then 9 else 0) 9)

/-- The checks of `mma` (R160): in mxf4 the scale pairs are v codes that do not overlap their groups. -/
def sigMma (o : Ops MX) : Sig :=
  let mx := o.mod.fmt == .mxf4
  let sa := (mmaScale o.imm false).getD (.p 0)
  let sb := (mmaScale o.imm true).getD (.p 0)
  let scales := if mx then
      sa.isV && sb.isV && !overlaps sa.vNum 2 o.a.vNum 24 && !overlaps sb.vNum 2 o.b.vNum 24 &&
        o.imm.extractLsb' 18 4 == 0#4
    else (o.imm.setWidth 22 : BitVec 22) == 0
  { guard := o.guard
    ok4 := !o.nf && o.noD && o.a.isV && o.b.isV && scales && decide (o.mod.sub.toNat ≤ 1)
    reads := [(o.a, 24), (o.b, 24)] ++ if mx then [(sa, 2), (sb, 2)] else []
    w32 := true
    full := true }

/-- A copy command (R209): the record operand is present with DIG or CWADD. -/
def sigCopy (o : Ops MY) (spanOk : Bool) : Sig :=
  { guard := o.guard
    ok4 := !o.nf && o.d.isS && o.a.isS && o.b.isS && spanOk &&
      (if o.mod.dig || o.mod.cwadd then cIs o.imm Operand.isS else o.noImm) }

/-- A relay instruction (R304): W = 32 and a relay warp. -/
def sigRelay (o : Ops (BitVec 16)) (ok : Bool) : Sig :=
  { guard := o.guard, ok4 := !o.nf && ok, w32 := true, relay := true }

/-- The system registers that `sysr` reads and `sysw` writes (Table 15-10). -/
def sysReadable (r : Nat) : Bool := decide (r ≤ 4)
def sysWritable (r : Nat) : Bool := r == 0x20 || r == 0x21

/-- The types `crrs` reduces (R307): xor only on integers. -/
def crrsTypes (t : Option Typ) (op : Nat) : Bool :=
  match t with
  | some .s32 | some .z32 | some .s64 | some .z64 => true
  | some .bf16 | some .f32 => op != 3
  | _ => false

/-- The checks of `cvt` (R26, R135), `cvtmx` (R136) and `cvtsc` (R137). -/
def cvtOk (m : MC) : Bool :=
  fitsLane m.ty m.pk && fitsLane m.sty m.spk && m.pk == m.spk && m.ty != .mxf4 && m.sty != .mxf4 &&
    (m.rnd == .rn || !(m.ty.isInt && m.sty.isInt))
def cvtmxOk (m : MC) : Bool :=
  m.ty == .mxf4 && m.pk == 0 && !m.sat &&
    ((m.sty == .f32 && m.spk == 1) || ((m.sty == .f16 || m.sty == .bf16) && m.spk == 2))
def isNarrow8 (t : Typ) : Bool := t == .e4m3 || t == .e5m2
def isWideFlt (t : Typ) : Bool := t == .f16 || t == .bf16 || t == .f32
def cvtscOk (m : MC) : Bool :=
  fitsLane m.ty m.pk && fitsLane m.sty m.spk && m.pk == m.spk &&
    ((isNarrow8 m.ty && isWideFlt m.sty) || (isWideFlt m.ty && isNarrow8 m.sty))

/-- Registers in the source group of `cvtmx` (R136). -/
def cvtmxGroup (m : MC) : Nat := if m.sty == .f32 then 16 else 8

/-- MOD of an M-S layout holds nothing above its low `n` bits. -/
def modBelow (o : Ops (BitVec 16)) (n : Nat) : Bool := decide (o.mod.toNat < 2 ^ n)

/-- The sub-field of an M-S modifier. -/
def mfield (o : Ops (BitVec 16)) (lo n : Nat) : Nat := (o.mod.extractLsb' lo n).toNat

/-- The type the M-A integer instruction works on is in INT. -/
def intT (o : Ops MA) : Bool := inINT o.mod.ty o.mod.pk
def iwT (o : Ops MA) : Bool := inIW o.mod.ty o.mod.pk
def fltT (o : Ops MA) : Bool := inFLT o.mod.ty o.mod.pk
def sub0 (o : Ops MA) : Bool := o.mod.sub == 0
def subLe (o : Ops MA) (n : Nat) : Bool := decide (o.mod.sub.toNat ≤ n)

/-- The signature of every Xothes instruction; none for the steps of the other agents. -/
def Instr.sig : Instr → Option Sig
  | .nop o => some (sigS o (o.noD && o.noA && o.noB && o.mod == 0 && o.noImm))
  | .bra o => some (sigS o (o.noD && o.noA && o.noB && o.mod == 0))
  | .brx o => some (sigS o (o.noD && o.a.isSU && o.noB && o.mod == 0 && o.noImm))
  | .call o => some (sigS o (o.d.isSZ && o.noA && o.noB && o.mod == 0))
  | .callx o => some (sigS o (o.d.isSZ && o.a.isSU && o.noB && o.mod == 0 && o.noImm))
  | .ret o => some (sigS o (o.noD && o.a.isSU && o.noB && o.mod == 0 && o.noImm))
  | .bc o => some (sigS o (o.noD && o.a.isSU && o.b.isSU && decide (o.mod.toNat ≤ 9)))
  | .bany o => some (sigS o (o.noD && o.a.isP && o.noB && modBelow o 1))
  | .ball o => some (sigS o (o.noD && o.a.isP && o.noB && modBelow o 1))
  | .vif o => some (sigAlways o (o.noD && o.a.isP && o.noB && modBelow o 1 && o.noImm))
  | .velse o => some (sigAlways o (o.noD && o.noA && o.noB && o.mod == 0 && o.noImm))
  | .vend o => some (sigAlways o (o.noD && o.noA && o.noB && o.mod == 0 && o.noImm))
  | .vbrk o => some (sigAlways o (o.noD && o.a.isP && o.noB && modBelow o 1 && o.noImm))
  | .vcont o => some (sigAlways o (o.noD && o.a.isP && o.noB && modBelow o 1 && o.noImm))
  | .lbrk o => some (sigS o (o.noD && o.noA && o.noB && o.mod == 0 && o.noImm))
  | .loop o => some (sigAlways o (o.noD && o.noA && o.noB && modBelow o 9 && o.mod != 0))
  | .loopx o => some (sigAlways o (o.noD && o.a.isSU && o.noB && modBelow o 9 && o.mod != 0 && o.noImm))
  | .yield o => some (sigS o (o.noD && o.noA && o.noB && o.mod == 0 && o.noImm))
  | .sleep o => some (sigS o (o.noD && o.a.isSU && o.noB && o.mod == 0))
  | .exit o => some (sigS o (o.noD && o.noA && o.noB && o.mod == 0 && o.noImm))
  | .bar o => some (sigS o (o.noD && o.noA && o.noB && modBelow o 3 && o.noImm))
  | .bara o => some (sigS o (o.noD && o.noA && o.noB && modBelow o 3 && o.noImm))
  | .barw o => some (sigS o (o.noD && o.noA && o.noB && modBelow o 3 && o.noImm))
  | .waitc o => some (sigS o (o.noD && o.noA && o.noB && o.mod == 0 && decide (o.imm.toNat < 2 ^ 24)))
  | .waitp o => some (sigS o (o.noD && o.a.isSU && o.noB && decide (o.mod.toNat ≤ 5) && o.noImm))
  | .trap o => some (sigS o (o.noD && o.noA && o.noB && o.mod == 0 && decide (o.imm.toNat < 65536)))
  | .bkpt o => some (sigS o (o.noD && o.noA && o.noB && o.mod == 0 && decide (o.imm.toNat < 65536)))
  | .li o => some (sigPlain o.guard (!o.nf && o.d.isS && o.noA && o.noB && o.mod.ib && sub0 o &&
      o.mod.ty == .s8 && o.mod.pk == 0 && !o.mod.sat && o.mod.rnd == .rn))
  | .lih o => some (sigPlain o.guard (!o.nf && o.d.isS && o.noA && o.noB && o.mod.ib &&
      decide (1 ≤ o.mod.sub.toNat) && subLe o 3 && o.mod.ty == .s8 && o.mod.pk == 0 && !o.mod.sat &&
      o.mod.rnd == .rn && decide (o.imm.toNat < 65536)))
  | .sadd o => some (sigScalar0 o true true)
  | .ssub o => some (sigScalar0 o true true)
  | .smul o => some (sigScalar0 o true true)
  | .smulh o => some (sigScalar0 o true false)
  | .sand o => some (sigScalar0 o true false)
  | .sor o => some (sigScalar0 o true false)
  | .sxor o => some (sigScalar0 o true false)
  | .snot o => some (sigScalar0 o false false)
  | .sshl o => some (sigScalar0 o true false)
  | .sshr o => some (sigScalar0 o true false)
  | .ssra o => some (sigScalar0 o true false)
  | .smin o => some (sigScalar0 o true false)
  | .smax o => some (sigScalar0 o true false)
  | .sclz o => some (sigScalar0 o false false)
  | .spopc o => some (sigScalar0 o false false)
  | .scmp o => some (sigScalar o (o.d.isSZ || o.d.isPD) true false (fun _ => true) (subLe o 5))
  | .ssel o => some (sigScalar o o.d.isSZ true false (fun _ => true) true)
  | .smov o => some (sigScalar0 o false false)
  | .sext o => some (sigScalar o o.d.isSZ true false (fun t => t == .s64 || t == .z64) (sub0 o))
  | .sbfe o => some (sigScalar o o.d.isSZ true false (fun t => t == .s64 || t == .z64) (sub0 o))
  | .iadd o => some (sigInt o (intT o) (sub0 o) true true true)
  | .isub o => some (sigInt o (intT o) (sub0 o) true true true)
  | .imul24 o => some (sigInt o (iwT o) (sub0 o) false true true)
  | .imul o => some (sigInt o (intT o) (sub0 o) true true true)
  | .imulh o => some (sigInt o (intT o) (sub0 o) false true true)
  | .imad24 o => some (sigInt o (iwT o) (sub0 o) false true true true)
  | .iabs o => some (sigInt o (intT o && o.mod.ty.signed) (sub0 o) true false false)
  | .ineg o => some (sigInt o (intT o) (sub0 o) true false false)
  | .imin o => some (sigInt o (intT o) (sub0 o) false true true)
  | .imax o => some (sigInt o (intT o) (sub0 o) false true true)
  | .iand o => some (sigInt o (intT o) (sub0 o) false true true)
  | .ior o => some (sigInt o (intT o) (sub0 o) false true true)
  | .ixor o => some (sigInt o (intT o) (sub0 o) false true true)
  | .inot o => some (sigInt o (intT o) (sub0 o) false false false)
  | .ishl o => some (sigInt o (intT o) (sub0 o) false true true)
  | .ishr o => some (sigInt o (intT o) (sub0 o) false true true)
  | .isra o => some (sigInt o (intT o) (sub0 o) false true true)
  | .irot o => some (sigInt o (intT o) (subLe o 1) false true true)
  | .iclz o => some (sigInt o (intT o) (sub0 o) false false false)
  | .ipopc o => some (sigInt o (intT o) (sub0 o) false false false)
  | .ibrev o => some (sigInt o (intT o) (sub0 o) false false false)
  | .ibfe o => some (sigInt o (iwT o) (sub0 o) false true true)
  | .ibfi o => some { guard := o.guard, lanewise := true
                      ok4 := !o.nf && o.d.isVx && o.a.isSrc && o.b.isSrc && cIs o.imm Operand.isSrc &&
                        iwT o && sub0 o && !o.mod.ib && !o.mod.sat && o.mod.rnd == .rn
                      reads := vecs ([o.a, o.b] ++ (cOperand o.imm).toList), dest := vecs [o.d] }
  | .isel o => some { guard := o.guard, lanewise := true
                      ok4 := !o.nf && o.d.isVx && o.a.isSrc && o.b.isSrc && cIs o.imm Operand.isP &&
                        intT o && sub0 o && !o.mod.ib && !o.mod.sat && o.mod.rnd == .rn
                      reads := vecs [o.a, o.b], dest := vecs [o.d] }
  | .icmp o => some (sigCmp o (intT o) (subLe o 5) false)
  | .iaddc o => some (sigInt o ((o.mod.ty == .z32 || o.mod.ty == .z64) && o.mod.pk == 0)
      ((o.mod.sub.setWidth 4 : BitVec 4) != 0) false true true)
  | .isad o => some (sigInt o (intT o) (subLe o 1) false true true (o.mod.sub == 1))
  | .iavg o => some (sigInt o (intT o) (subLe o 1) false true true)
  | .idp4 o => some (sigInt o ((o.mod.ty == .s32 || o.mod.ty == .z32) && decide (o.mod.pk.toNat ≤ 1))
      (subLe o 3) true false true true)
  | .iext o => some (sigInt o (intT o) (sub0 o) false true true)
  | .ilop3 o => some { guard := o.guard, lanewise := true
                       ok4 := !o.nf && o.d.isVx && o.a.isV && o.noB && o.mod.ib && o.mod.ty == .z64 &&
                         o.mod.pk == 0 && sub0 o && !o.mod.sat && o.mod.rnd == .rn && decide (o.imm.toNat < 256)
                       reads := (o.a, 2) :: vecs [o.d], dest := vecs [o.d] }
  | .ishfd o => some (sigInt o (intT o) (subLe o 1) false true true true)
  | .fadd o => some (sigFlt o (fltT o) (sub0 o) true true true)
  | .fsub o => some (sigFlt o (fltT o) (sub0 o) true true true)
  | .fmul o => some (sigFlt o (fltT o) (sub0 o) true true true)
  | .fma o => some (sigFma o)
  | .fnma o => some (sigFma o)
  | .fms o => some (sigFma o)
  | .fnms o => some (sigFma o)
  | .fmin o => some (sigFlt o (fltT o) (subLe o 1) false true true)
  | .fmax o => some (sigFlt o (fltT o) (subLe o 1) false true true)
  | .fabs o => some (sigFlt o (fltT o) (sub0 o) false false false false)
  | .fneg o => some (sigFlt o (fltT o) (sub0 o) false false false false)
  | .fcpsgn o => some (sigFlt o (fltT o) (sub0 o) false true true false)
  | .fcmp o => some (sigCmp o (fltT o) (subLe o 7) true)
  | .fclass o => some (sigFlt o (fltT o) (sub0 o) false false false)
  | .frcp o => some (sigFlt o (fltT o) (sub0 o) true false false)
  | .frnd o => some (sigFlt o (fltT o) (subLe o 1) true false false)
  | .fscale o => some (sigFlt o (fltT o) (sub0 o) true false true)
  | .fexpt o => some (sigFlt o (fltT o) (sub0 o) false false false)
  | .fmant o => some (sigFlt o (fltT o) (sub0 o) false false false)
  | .fdot2 o => some (sigFlt o ((o.mod.ty == .f16 || o.mod.ty == .bf16) && o.mod.pk == 2) (sub0 o) true
      false true true true)
  | .fsat o => some (sigFlt o (fltT o) (sub0 o) false false false)
  | .cvt o => some { guard := o.guard, lanewise := true
                     ok4 := o.d.isVx && o.a.isSrc && o.noB && o.noImm && cvtOk o.mod
                     reads := vecs [o.a], dest := vecs [o.d] }
  | .cvtmx o => some { guard := o.guard, lanewise := true
                       ok4 := o.d.isV && o.a.isV && o.b.isV && o.noImm && cvtmxOk o.mod &&
                         !overlaps o.b.vNum 1 o.d.vNum 2
                       reads := [(o.a, cvtmxGroup o.mod)], dest := [(o.d, 2), (o.b, 1)] }
  | .cvtsc o => some { guard := o.guard, lanewise := true
                       ok4 := o.d.isVx && o.a.isSrc && (o.b.isV || o.b.isS || o.b.isSU || o.b == .special .lane ||
                         o.b == .special .flags) && o.noImm && cvtscOk o.mod
                       reads := vecs [o.a, o.b], dest := vecs [o.d] }
  | .flgr o => some { guard := o.guard, lanewise := true
                      ok4 := !o.nf && o.d.isVx && o.noA && o.noB && o.noImm && !o.mod.ib && subLe o 1 &&
                        !o.mod.sat && o.mod.rnd == .rn && o.mod.pk == 0 && o.mod.ty == .s8
                      dest := vecs [o.d] }
  | .flgc o => some { guard := o.guard, lanewise := true
                      ok4 := !o.nf && o.noD && o.noA && sub0 o && !o.mod.sat && o.mod.rnd == .rn &&
                        o.mod.pk == 0 && o.mod.ty == .s8 &&
                        (if o.mod.ib then o.noB && decide (o.imm.toNat < 64) else o.b.isSrc && o.noImm)
                      reads := vecs (regB o) }
  | .csin o => some (sigCordic o)
  | .ccos o => some (sigCordic o)
  | .catan o => some (sigCordic o)
  | .cexp2 o => some (sigCordic o)
  | .clog2 o => some (sigCordic o)
  | .ctanh o => some (sigCordic o)
  | .crsq o => some (sigCordic o)
  | .csqrt o => some (sigCordic o)
  | .shfl o => some (sigInt o (intT o) (subLe o 3) false true true)
  | .bcast o => some { guard := o.guard, lanewise := true
                       ok4 := !o.nf && o.d.isVx && o.a.isSrc && intT o && sub0 o && !o.mod.sat &&
                         o.mod.rnd == .rn && bOrImm o true Operand.isSU
                       reads := vecs [o.a], dest := vecs [o.d] }
  | .vote o => some { guard := o.guard, lanewise := true
                      ok4 := !o.nf && o.d.isSZ && o.a.isP && o.noB && o.noImm && !o.mod.ib && !o.mod.sat &&
                        o.mod.rnd == .rn && o.mod.pk == 0 && o.mod.ty == .s8 && o.mod.sub.extractLsb' 2 2 == 0#2 }
  | .matchX o => some (sigInt o (o.mod.ty.isInt && o.mod.pk == 0) (sub0 o) false false false)
  | .redx o => some (sigReduce o false)
  | .scanx o => some (sigReduce o true)
  | .perm o => some (sigInt o (o.mod.ty == .z64 && o.mod.pk == 0) (sub0 o) false true true true)
  | .mov o => some (sigInt o (inMove o.mod.ty o.mod.pk) (sub0 o) false false false)
  | .movi o => some { guard := o.guard, lanewise := true
                      ok4 := !o.nf && o.d.isVx && o.noA && o.noB && o.mod.ib && sub0 o && !o.mod.sat &&
                        o.mod.rnd == .rn && inMove o.mod.ty o.mod.pk && immFits o.mod.ty o.imm
                      dest := vecs [o.d] }
  | .shape o => some { guard := o.guard
                       ok4 := !o.nf && o.d.isSZ && decide (o.mod.toNat ≤ 2) && o.noB && o.noImm &&
                         (if o.mod == 2 then o.noA else o.a.isV)
                       dest := if o.mod == 2 then [] else vecs [o.a] }
  | .mkaff o => some { guard := o.guard, lanewise := true
                       ok4 := !o.nf && o.d.isV && o.a.isSU && o.b.isSU && o.mod == 0 && o.noImm
                       dest := vecs [o.d] }
  | .expand o => some { guard := o.guard, lanewise := true
                        ok4 := !o.nf && o.d.isV && o.noA && o.noB && o.mod == 0 && o.noImm
                        dest := vecs [o.d] }
  | .xset o => some { guard := o.guard
                      ok4 := !o.nf && o.noD && (o.a.isV || o.a.isSU) && modBelow o 3 &&
                        (if o.mod.getLsbD 2 then o.b.isS && o.noImm else o.noB && decide (o.imm.toNat < 256))
                      reads := vecs [o.a] }
  | .xmov o => some { guard := o.guard
                      ok4 := !o.nf && o.noA && o.noB && o.noImm && modBelow o 6 &&
                        (match mfield o 4 2 with
                        | 0 => o.d.isV && mfield o 2 2 == 0
                        | 1 => o.d.isSZ && mfield o 2 2 == 0
                        | 2 => o.noD
                        | _ => false)
                      dest := if mfield o 4 2 == 0 then vecs [o.d] else [] }
  | .fld o => some (sigMx o (o.d.isV && o.a.isS && o.b.isSZ) false false true false (o.mod.sub == 0) true []
      [(o.d, 24)])
  | .mma o => some (sigMma o)
  | .accz o => some (sigMx o (o.noD && o.noA && o.noB) true false false true (o.mod.sub == 0))
  | .accld o => some (sigMx o (o.noD && o.a.isS && o.b.isSZ &&
      (o.mod.fmt == .bf16 || (o.mod.sub == 1 && o.mod.fmt == .f16))) true false true true
      (decide (o.mod.sub.toNat ≤ 1)))
  | .accst o => some (sigMx o (o.noD && o.a.isS && o.b.isSZ &&
      (o.mod.fmt == .bf16 || (o.mod.sub == 1 && o.mod.fmt == .f16))) true false true true
      (decide (o.mod.sub.toNat ≤ 1)))
  | .accrd o => some (sigMx o (o.d.isV && o.noA && o.noB) true false false true (decide (o.mod.sub.toNat < 12))
      true [] [(o.d, 12)])
  | .accwr o => some (sigMx o (o.noD && o.a.isV && o.noB) true false false true (decide (o.mod.sub.toNat < 12))
      true [(o.a, 12)] [])
  | .bton o => some (sigMx o (o.noD && o.noA && o.noB) false true false false (o.mod.sub == 0))
  | .btpass o => some (sigMx o (o.noD && o.noB && (if o.mod.sub.getLsbD 0 then o.a.isS else o.noA)) false true
      false false (decide (o.mod.sub.toNat ≤ 2)))
  | .btq o => some (sigMx o (o.d.isSZ && o.noA && o.noB) false true false false (o.mod.sub == 0))
  | .fldsc o => some (sigMx o (o.d.isV && o.a.isS && o.b.isSZ && o.mod.fmt == .mxf4) false false true false
      (o.mod.sub == 0) true [] [(o.d, 2)])
  | .acccp o => some (sigMx o (o.noD && o.noA && o.noB) true false false true (decide (o.mod.sub.toNat < 32)))
  | .lds o => some (sigMem o false false true (inMove o.mod.ty o.mod.pk) (o.mod.atop == .add)
      (ordLoad o.mod.ord) o.a.isSU)
  | .sts o => some (sigMem o false true false (inMove o.mod.ty o.mod.pk) (o.mod.atop == .add)
      (ordStore o.mod.ord) o.a.isSU)
  | .atoms o => some (sigMem o false true true (atomicTypes o.mod false) true true o.a.isSU (o.mod.atop == .cas))
  | .ldsx o => some (sigMem o false false true (inMove o.mod.ty o.mod.pk) (o.mod.atop == .add)
      (ordLoad o.mod.ord) o.a.isS)
  | .stsx o => some (sigMem o false true false (inMove o.mod.ty o.mod.pk) (o.mod.atop == .add)
      (ordStore o.mod.ord) o.a.isS)
  | .reds o => some (sigMem o false true false (atomicTypes o.mod false) (atopReduce o.mod.atop)
      (ordStore o.mod.ord) o.a.isSU)
  | .spinv o => some (sigS o (o.noD && o.a.isS && o.b.isS && o.mod == 0 && o.noImm))
  | .spfill o => some (sigS o (o.d.isS && o.a.isS && o.b.isS && o.mod == 0 && o.noImm))
  | .spstat o => some (sigS o (o.d.isSZ && decide (o.mod.toNat ≤ 2) && (if o.mod == 2 then o.a.isS else o.noA) &&
      o.noB && o.noImm))
  | .ld o => some (sigMem o true false true (inMove o.mod.ty o.mod.pk) (o.mod.atop == .add)
      (ordLoad o.mod.ord) o.a.isSU)
  | .st o => some (sigMem o true true false (inMove o.mod.ty o.mod.pk) (o.mod.atop == .add)
      (ordStore o.mod.ord) o.a.isSU)
  | .atom o => some (sigMem o true true true (atomicTypes o.mod true) true true o.a.isSU (o.mod.atop == .cas))
  | .red o => some (sigMem o true true false (atomicTypes o.mod true) (atopReduce o.mod.atop)
      (ordStore o.mod.ord) o.a.isSU)
  | .ldr o => some (sigMem o false false true (inMove o.mod.ty o.mod.pk) (o.mod.atop == .add)
      (ordLoad o.mod.ord) o.a.isSU)
  | .str o => some (sigMem o false true false (inMove o.mod.ty o.mod.pk) (o.mod.atop == .add)
      (ordStore o.mod.ord) o.a.isSU)
  | .redr o => some (sigMem o false true false (atomicTypes o.mod true) (atopReduce o.mod.atop)
      (ordStore o.mod.ord) o.a.isSU)
  | .pref o => some { guard := o.guard, lanewise := true
                      ok4 := !o.nf && o.noD && o.a.isSU && o.b.isVxZ && o.mod.atop == .add &&
                        (o.mod.cache == .l1 || o.mod.cache == .l2) && o.mod.scope == .wp && o.mod.pk == 0 &&
                        o.mod.ty == .s8
                      ok5 := o.mod.ord == .rlx
                      reads := vecs [o.b] }
  | .fence o => some { guard := o.guard
                       ok4 := !o.nf && o.noD && o.noA && o.noB && o.noImm && o.mod.atop == .add &&
                         o.mod.cache == .l1 && o.mod.pk == 0 && o.mod.ty == .s8
                       ok5 := o.mod.ord != .rlx }
  | .fencex o => some { guard := o.guard
                        ok4 := !o.nf && o.noD && o.noA && o.noB && o.noImm && o.mod.src != 0 }
  | .l1inv o => some (sigS o (o.noD && o.noA && o.noB && o.mod == 0 && o.noImm))
  | .l1wb o => some (sigS o (o.noD && o.noA && o.noB && o.mod == 0 && o.noImm))
  | .sld o => some (sigSMem o (o.mod.ty.isInt && o.mod.pk == 0) (o.mod.atop == .add) (ordLoad o.mod.ord))
  | .sst o => some (sigSMem o (o.mod.ty.isInt && o.mod.pk == 0) (o.mod.atop == .add) (ordStore o.mod.ord))
  | .satom o => some (sigSMem o (o.mod.ty.isAtomicInt && o.mod.pk == 0) true true (o.mod.atop == .cas))
  | .cpy o => some (sigCopy o true)
  | .cpys o => some (sigCopy o true)
  | .cpyg o => some (sigCopy o (o.mod.span == 0))
  | .cpygat o => some (sigCopy o true)
  | .cpyq o => some { guard := o.guard
                      ok4 := !o.nf && o.d.isSZ && o.noA && o.noB && o.noImm && o.mod.scope == .dv && !o.mod.cwg &&
                        !o.mod.cwadd && !o.mod.dig && o.mod.span == 0 }
  | .tagst o => some (sigMem o false true false (o.mod.pk == 0 && o.mod.ty == .s8) (o.mod.atop == .add)
      (ordStore o.mod.ord) o.a.isSU)
  | .tagld o => some (sigMem o false false true (o.mod.pk == 0 && o.mod.ty == .s8) (o.mod.atop == .add)
      (ordLoad o.mod.ord) o.a.isSU)
  | .tagset o => some { guard := o.guard, lanewise := true
                        ok4 := !o.nf && o.d.isVx && o.a.isSrc && o.b.isSrc && o.noImm && o.mod.atop == .add &&
                          o.mod.cache == .l1 && o.mod.scope == .wp && o.mod.pk == 0 && o.mod.ty == .s8
                        ok5 := o.mod.ord == .rlx
                        reads := vecs [o.a, o.b], dest := vecs [o.d] }
  | .watch o => some (sigS o (o.d.isSZ && o.a.isS && o.b.isS && modBelow o 7 && mfield o 2 3 != 0 &&
      mfield o 5 2 != 3 && cIs o.imm Operand.isP))
  | .unwatch o => some (sigS o (o.noD && o.noA && o.noB && o.noImm && decide (o.mod.toNat ≤ 4)))
  | .watchq o => some (sigS o (o.d.isSZ && o.noA && o.noB && o.noImm && modBelow o 2))
  | .emit o => some { guard := o.guard, lanewise := true
                      ok4 := !o.nf && o.noD && o.a.isSrc && o.noB && modBelow o 2 && o.noImm
                      reads := vecs [o.a] }
  | .emitn o => some (sigS o (o.noD && o.a.isS && o.b.isS && modBelow o 2 && o.noImm))
  | .emitq o => some (sigS o (o.d.isSZ && o.noA && o.noB && modBelow o 2 && o.noImm))
  | .fsopen o => some (sigS o (o.d.isSZ && o.a.isSZ && o.noB && o.mod == 0 && cIs o.imm Operand.isPD))
  | .fsclose o => some (sigS o (o.noD && o.a.isS && o.noB && modBelow o 2 && o.noImm))
  | .fswait o => some (sigS o (o.d.isSZ && o.a.isS && o.noB && o.mod == 0 && o.noImm))
  | .fsjoin o => some (sigS o (o.noD && o.a.isSZ && o.noB && o.mod == 0 && o.noImm))
  | .fsstat o => some (sigS o (o.d.isSZ && o.a.isS && o.noB && o.mod == 0 && o.noImm))
  | .sigdec o => some (Sig.withOrd (sigS o (o.noD && o.a.isS && o.noB && modBelow o 5 && decide (mfield o 0 3 ≤ 4) && o.noImm)) (mfield o 3 2 == 0 || mfield o 3 2 == 2))
  | .sigadd o => some (Sig.withOrd (sigS o (o.noD && o.a.isS && o.b.isSZ && modBelow o 5 && decide (mfield o 0 3 ≤ 4) &&
      o.noImm)) (mfield o 3 2 == 0 || mfield o 3 2 == 2))
  | .sigwait o => some (Sig.withOrd (sigS o (o.d.isSZ && o.a.isS && o.b.isSZ && modBelow o 8 && decide (mfield o 0 3 ≤ 4) &&
      decide (mfield o 5 3 ≤ 5) && o.noImm)) (decide (mfield o 3 2 ≤ 1)))
  | .csend o => some (sigRelay o (o.noD && o.a.isS && o.b.isS && modBelow o 8 && cIs o.imm Operand.isS))
  | .crecv o => some (sigRelay o (o.noD && o.a.isS && o.b.isS && modBelow o 8 && cIs o.imm Operand.isS))
  | .crrs o => some (sigRelay o ((if o.mod.getLsbD 15 then o.d.isS else o.noD) && o.a.isS && o.b.isS &&
      !o.mod.getLsbD 14 && crrsTypes (typOfCode (o.mod.extractLsb' 10 4)) (mfield o 8 2) &&
      cIs o.imm Operand.isS))
  | .ccopy o => some (sigRelay o (o.d.isS && o.a.isS && o.b.isS && modBelow o 4 && o.noImm))
  | .cwait o => some (sigRelay o (o.noD && modBelow o 1 && (if o.mod == 1 then o.a.isS else o.noA) && o.noB &&
      decide (o.imm.toNat < 64)))
  | .cpeer o => some (sigRelay o (o.d.isSZ && o.a.isSZ && o.noB && decide (o.mod.toNat ≤ 2) && o.noImm))
  | .cbar o => some (sigRelay o (o.noD && o.noA && o.noB && o.mod == 0 && o.noImm))
  | .cdone o => some (sigRelay o (o.noD && o.noA && o.noB && o.mod == 0 && o.noImm))
  | .crank o => some (sigRelay o (o.d.isSZ && o.noA && o.noB && decide (o.mod.toNat ≤ 3) && o.noImm))
  | .evt o => some (sigS o (o.noD && (o.a == .special .zero || (o.a.isS && decide (o.a.code.toNat ≤ 0x13C))) &&
      o.b.isSZ && o.mod == 0 && decide (o.imm.toNat < 65536)))
  | .clkr o => some (sigS o (o.d.isSZ && o.noA && o.noB && modBelow o 1 && o.noImm))
  | .causer o => some (sigS o (o.d.isSZ && o.noA && o.noB && modBelow o 1 && o.noImm))
  | .rng o => some (sigInt o (o.mod.ty == .z64 && o.mod.pk == 0) (sub0 o) false true true)
  | .evtp o => some (Sig.reading (sigS o (o.noD && o.a.isV && o.b.isSZ && o.mod == 0 && decide (o.imm.toNat < 65536))) [o.a])
  | .sysr o => some (sigS o (o.d.isSZ && o.noA && o.noB && o.noImm && sysReadable o.mod.toNat))
  | .sysw o => some (sigS o (o.noD && o.a.isS && o.noB && o.noImm && sysWritable o.mod.toNat))
  | .icinv o => some (sigS o (o.noD && o.a.isS && o.b.isS && o.mod == 0 && o.noImm))
  | .dbgh o => some (sigS o (o.noD && o.noA && o.noB && o.mod == 0 && o.noImm))
  | .pwrq o => some (sigS o (o.d.isSZ && o.noA && o.noB && modBelow o 1 && o.noImm))
  | _ => none

/-- Checks 4 and 5 of R35 as far as they do not depend on the kernel. -/
def Instr.wellFormed (i : Instr) : Bool :=
  match i.sig with
  | some g => g.ok4 && g.ok5
  | none =>
    match i with
    | .illegalOpcode w => decodeWord w == .illegalOpcode
    | _ => true

/-- A well-formed instruction. -/
abbrev WellFormed (i : Instr) : Prop := i.wellFormed = true

/-! ## Register count and row demand -/

/-- The last register of every group is below N, and so is every indexed base (R21). -/
def namedBelow (n : Nat) : Operand × Nat → Bool
  | (.v r, k) => decide (r.toNat + k ≤ n)
  | (.vx _ b, _) => decide (8 * b.toNat < n)
  | _ => true

/-- The vector registers a list of named operands names directly, and its indexed codes (R94). -/
def namedCodes (l : List (Operand × Nat)) : List Nat :=
  l.flatMap fun (x, k) =>
    match x with
    | .v r => (List.range k).map (r.toNat + ·)
    | .vx x b => [0x180 + 32 * x.toNat + b.toNat]
    | _ => []

/-- The number of distinct entries. -/
def countDistinct (l : List Nat) : Nat := l.eraseDups.length

/-- The row demand (R94). -/
def Sig.demand (g : Sig) : Nat := countDistinct (namedCodes (g.reads ++ g.dest))

/-- The register count N and the general budget G admit the instruction (R21, R94). -/
def Sig.fits (g : Sig) (n gen : Nat) : Bool :=
  (g.reads ++ g.dest).all (namedBelow n) && decide (g.demand ≤ gen)

end Sys2Proof
end

