-- ==== Sys2Proof/Machine/Bits.lean ====
section
/-!
DEFINITION. Bit-field, sign-extension and byte-order helpers used by the meanings: fields of words,
elements of lanes (R84), the fill of a narrow result (R24), little-endian byte lists (R3), and the
canonical sparse maps in which memory and its tags are kept.
-/

namespace Sys2Proof.Machine

/-! ## Fields -/

/-- Bits hi:lo of a word, as a number. -/
def fieldOf (w : Word) (hi lo : Nat) : Nat := (w.toNat >>> lo) % 2 ^ (hi + 1 - lo)

/-- A word with a number placed at bit `lo`. -/
def atBit (n lo : Nat) : Word := BitVec.ofNat 64 (n <<< lo)

/-- A Boolean as a number. -/
def b2n (b : Bool) : Nat := if b then 1 else 0

/-- Sign extension of the branch or byte offset in IMM to 64 bits (R14). -/
def sextImm (imm : BitVec 28) : Word := imm.signExtend 64

/-- The smallest of a list of numbers. -/
def minOf : List Nat → Option Nat
  | [] => none
  | x :: xs => match minOf xs with
    | none => some x
    | some y => some (Nat.min x y)

/-! ## Elements of a lane (R24, R84) -/

/-- Bits that the elements of a type and count occupy in a lane. -/
def laneBits (t : Typ) (pk : BitVec 2) : Nat := t.width * pkCount pk

/-- Sub-element e of width w, as a number (R84). -/
def elemOf (x : Word) (w e : Nat) : Nat := (x.toNat >>> (e * w)) % 2 ^ w

/-- A w-bit pattern read as a signed number. -/
def toSigned (w n : Nat) : Int := if n < 2 ^ (w - 1) then (n : Int) else (n : Int) - 2 ^ w

/-- A w-bit pattern read as the integer type gives it (R118). -/
def readInt (t : Typ) (n : Nat) : Int := if t.signed then toSigned t.width n else (n : Int)

/-- The low w bits of an integer. -/
def wrapInt (w : Nat) (x : Int) : Nat := (x % (2 ^ w : Int)).toNat

/-- The least and the greatest value of an integer type (R118). -/
def Typ.least (t : Typ) : Int := if t.signed then -(2 ^ (t.width - 1)) else 0
def Typ.greatest (t : Typ) : Int := if t.signed then 2 ^ (t.width - 1) - 1 else 2 ^ t.width - 1

/-- Clamping to the type's range (R118). -/
def clampInt (t : Typ) (x : Int) : Int :=
  if x < Typ.least t then Typ.least t else if Typ.greatest t < x then Typ.greatest t else x

/-- The result pattern of an integer operation: clamped with SAT, else wrapped (R118). -/
def narrowInt (t : Typ) (sat : Bool) (x : Int) : Nat :=
  wrapInt t.width (if sat then clampInt t x else x)

/-- Packing sub-element patterns of width w into a lane. -/
def packElems (w : Nat) : List Nat → Nat
  | [] => 0
  | x :: xs => x % 2 ^ w + (packElems w xs) <<< w

/-- A w-bit pattern extended to a lane by the type's signedness. -/
def extendTo64 (t : Typ) (n : Nat) : Word :=
  if t.signed then BitVec.ofInt 64 (toSigned t.width (n % 2 ^ t.width)) else BitVec.ofNat 64 (n % 2 ^ t.width)

/-- The fill of a result (R24, R128): at x1 an integer type extends by its signedness and a
floating-point type clears the upper bits; at x2, x4 and x8 the bits above are cleared. -/
def fillLane (t : Typ) (pk : BitVec 2) (elems : List Nat) : Word :=
  if pk = 0 then extendTo64 t (elems.headD 0) else BitVec.ofNat 64 (packElems t.width elems)

/-- The fill of raw bits of a type and count (R24, R128). -/
def fillBits (t : Typ) (pk : BitVec 2) (n : Nat) : Word :=
  if pk = 0 then extendTo64 t n else BitVec.ofNat 64 (n % 2 ^ laneBits t pk)

/-! ## Bytes (R3) -/

/-- The n low bytes of a number, lowest first. -/
def natBytes (n : Nat) : Nat → List Byte
  | 0 => []
  | k + 1 => BitVec.ofNat 8 n :: natBytes (n / 256) k

/-- The eight bytes of a word. -/
def bytes8 (w : Word) : List Byte := natBytes w.toNat 8

/-- The word of up to eight bytes. -/
def wordOf (bs : List Byte) : Word := BitVec.ofNat 64 (leNat bs)

/-- The words of a byte list, eight bytes each; the list's length bounds the recursion. -/
def wordsOf (bs : List Byte) : List Word :=
  (List.range ((bs.length + 7) / 8)).map fun k => wordOf ((bs.drop (8 * k)).take 8)

/-- A mask of `n` bytes from byte `off` of a sector. -/
def byteMask (off n : Nat) : BitVec 128 := BitVec.ofNat 128 ((2 ^ n - 1) <<< off)

/-- Replacing the bytes of a list from `off`. -/
def putBytes (bs : List Byte) (off : Nat) (new : List Byte) : List Byte :=
  bs.take off ++ new.take (bs.length - off) ++ bs.drop (off + new.length)

/-- Choosing each byte of a sector from the new data where the mask is set. -/
def mergeBytes (old new : List Byte) (mask : BitVec 128) : List Byte :=
  (List.range old.length).map fun k => if mask.getLsbD k then new.getD k 0 else old.getD k 0

/-! ## Sparse maps

A list of (key, value) pairs with strictly rising keys and no entry equal to the default value: equal
maps are equal lists. -/

/-- The value at a key. -/
def sget {α : Type} (dflt : α) : List (Nat × α) → Nat → α
  | [], _ => dflt
  | (k, v) :: l, a => if k = a then v else if a < k then dflt else sget dflt l a

/-- Writing a value at a key; the default value removes the entry. -/
def sset {α : Type} [DecidableEq α] (dflt : α) : List (Nat × α) → Nat → α → List (Nat × α)
  | [], a, x => if x = dflt then [] else [(a, x)]
  | (k, v) :: l, a, x =>
    if a < k then (if x = dflt then (k, v) :: l else (a, x) :: (k, v) :: l)
    else if k = a then (if x = dflt then l else (a, x) :: l)
    else (k, v) :: sset dflt l a x

/-- The canonical form: keys at or above a bound, strictly rising, and no default value. -/
def swf {α : Type} [DecidableEq α] (dflt : α) : Nat → List (Nat × α) → Bool
  | _, [] => true
  | lo, (k, v) :: l => decide (lo ≤ k) && decide (v ≠ dflt) && swf dflt (k + 1) l

/-- A set of numbers as a rising list: insertion and removal. -/
def setInsert : List Nat → Nat → List Nat
  | [], a => [a]
  | k :: l, a => if a < k then a :: k :: l else if k = a then k :: l else k :: setInsert l a
def setErase (l : List Nat) (a : Nat) : List Nat := l.filter (· != a)

/-! ## Records kept by number -/

/-- The entry whose key is n, or the default. -/
def getBy {α : Type} (key : α → Nat) (dflt : α) (l : List α) (n : Nat) : α :=
  (l.find? fun x => key x == n).getD dflt

/-- Replacing the entry with the same key, or inserting it in rising order. -/
def putBy {α : Type} (key : α → Nat) (x : α) : List α → List α
  | [] => [x]
  | y :: l => if key x < key y then x :: y :: l else if key y = key x then x :: l else y :: putBy key x l

/-- Changing the entries that meet a test. -/
def updIf {α : Type} (p : α → Bool) (f : α → α) (l : List α) : List α :=
  l.map fun x => if p x then f x else x

/-- Replacing the element at an index. -/
def setAt {α : Type} (l : List α) (n : Nat) (x : α) : List α := l.set n x

end Sys2Proof.Machine
end

