-- ==== Sys2Proof/Machine/Flags.lean ====
section
/-!
DEFINITION. Number formats, rounding and flags (chapter 6): floating-point values as exact dyadic
numbers, the one rounding of a result (R119), overflow, underflow and saturation (R120), and the
sticky flags a value raises (R112, R113, R122).
-/

namespace Sys2Proof.Machine

/-! ## Flags (Table 6-4) -/

/-- The flags of one lane: DN IV DZ OF UF NX in bits 5 to 0. -/
abbrev Fl := BitVec 6

def flNX : Fl := 1
def flUF : Fl := 2
def flOF : Fl := 4
def flDZ : Fl := 8
def flIV : Fl := 16
def flDN : Fl := 32

/-- A flag when a condition holds. -/
def flIf (b : Bool) (f : Fl) : Fl := if b then f else 0

/-! ## Formats (R111) -/

/-- A floating-point format: exponent and mantissa bits, bias, and whether the exponent of all ones
holds infinity and NaN (R111). e4m3 and E2M1 have no infinity (R114, R115). -/
structure FpFmt where
  ebits : Nat
  mbits : Nat
  bias : Nat
  ieee : Bool
  deriving DecidableEq, Repr

def fmtF64 : FpFmt := ⟨11, 52, 1023, true⟩
def fmtF32 : FpFmt := ⟨8, 23, 127, true⟩
def fmtF16 : FpFmt := ⟨5, 10, 15, true⟩
def fmtBf16 : FpFmt := ⟨8, 7, 127, true⟩
def fmtE4m3 : FpFmt := ⟨4, 3, 7, false⟩
def fmtE5m2 : FpFmt := ⟨5, 2, 15, true⟩
def fmtE2m1 : FpFmt := ⟨2, 1, 1, false⟩

/-- The format of a floating-point type (Table 6-1). -/
def fpOf : Typ → FpFmt
  | .f16 => fmtF16 | .bf16 => fmtBf16 | .f64 => fmtF64
  | .e4m3 => fmtE4m3 | .e5m2 => fmtE5m2 | .mxf4 => fmtE2m1
  | _ => fmtF32

/-- Bits of the format. -/
def FpFmt.width (f : FpFmt) : Nat := 1 + f.ebits + f.mbits

/-- The exponent of the least normal number, and the exponent field of all ones. -/
def FpFmt.emin (f : FpFmt) : Int := 1 - (f.bias : Int)
def FpFmt.eones (f : FpFmt) : Nat := 2 ^ f.ebits - 1

/-- The code of the largest finite magnitude (Table 6-1): in e4m3 the code below the NaN. -/
def FpFmt.maxCode (f : FpFmt) : Nat :=
  if f.ieee then f.eones * 2 ^ f.mbits - 1
  else if f.ebits = 4 then 0x7E else 2 ^ (f.ebits + f.mbits) - 1

/-- The canonical NaN (R113); E2M1 has none and stores +0 (R120). -/
def FpFmt.nan (f : FpFmt) : Nat :=
  if f.ieee then f.eones * 2 ^ f.mbits + 2 ^ (f.mbits - 1) else if f.ebits = 4 then 0x7F else 0

/-- The sign bit's weight. -/
def FpFmt.signBit (f : FpFmt) (neg : Bool) : Nat := if neg then 2 ^ (f.ebits + f.mbits) else 0

/-- The code of infinity; NaN stands for it in e4m3 (R120). -/
def FpFmt.inf (f : FpFmt) (neg : Bool) : Nat :=
  if f.ieee then f.signBit neg + f.eones * 2 ^ f.mbits else f.nan

/-! ## Values -/

/-- The value of a code: NaN (signalling or quiet), an infinity, or (-1)^neg * m * 2^e exactly. -/
inductive FpVal where
  | nan (signalling : Bool)
  | inf (neg : Bool)
  | num (neg : Bool) (m : Nat) (e : Int)
  deriving DecidableEq, Repr

/-- Fields of a code. -/
def FpFmt.neg (f : FpFmt) (c : Nat) : Bool := c / 2 ^ (f.ebits + f.mbits) % 2 == 1
def FpFmt.efield (f : FpFmt) (c : Nat) : Nat := c / 2 ^ f.mbits % 2 ^ f.ebits
def FpFmt.mant (f : FpFmt) (c : Nat) : Nat := c % 2 ^ f.mbits

/-- The value of a code (R111, R113, R114). -/
def FpFmt.val (f : FpFmt) (c : Nat) : FpVal :=
  let s := f.neg c
  let e := f.efield c
  let m := f.mant c
  if f.ieee && e == f.eones then
    if m = 0 then .inf s else .nan (m / 2 ^ (f.mbits - 1) == 0)
  else if !f.ieee && f.ebits == 4 && e == 15 && m == 7 then .nan false
  else if e = 0 then .num s m (f.emin - f.mbits)
  else .num s (2 ^ f.mbits + m) ((e : Int) - f.bias - f.mbits)

/-- A subnormal code (R112). -/
def FpFmt.isSub (f : FpFmt) (c : Nat) : Bool := f.efield c == 0 && f.mant c != 0

/-- The flags of reading an operand: DN for a subnormal, IV for a signalling NaN (R112, R113). -/
def FpFmt.readFl (f : FpFmt) (c : Nat) : Fl :=
  flIf (f.isSub c) flDN ||| flIf (f.val c == .nan true) flIV

/-- Is a value NaN? -/
def FpVal.isNaN : FpVal → Bool
  | .nan _ => true
  | _ => false

/-- Negation. -/
def FpVal.flip : FpVal → FpVal
  | .nan s => .nan s
  | .inf n => .inf (!n)
  | .num n m e => .num (!n) m e

/-! ## Rounding (R119, R120) -/

/-- num/den * 2^e shifted to units of 2^q: quotient and remainder with the divisor. -/
def scaleTo (num den : Nat) (e q : Int) : Nat × Nat × Nat :=
  let d := e - q
  let n' := if 0 ≤ d then num * 2 ^ d.toNat else num
  let d' := if 0 ≤ d then den else den * 2 ^ (-d).toNat
  (n' / d', n' % d', d')

/-- Rounding a magnitude of a sign, given as quotient, remainder and divisor, to an integer (R119). -/
def roundMag (rnd : Rnd) (neg : Bool) (q r d : Nat) : Nat :=
  if r = 0 then q
  else match rnd with
    | .rn => if d < 2 * r ∨ (2 * r = d ∧ q % 2 = 1) then q + 1 else q
    | .rna => if d ≤ 2 * r then q + 1 else q
    | .rz => q
    | .rp => if neg then q else q + 1
    | .rm => if neg then q + 1 else q

/-- floor (log2 (num / den)), for num and den above 0. -/
def ratLog2 (num den : Nat) : Int :=
  let a : Int := (Nat.log2 num : Int) - Nat.log2 den
  let below := if 0 ≤ a then decide (num < den * 2 ^ a.toNat) else decide (num * 2 ^ (-a).toNat < den)
  if below then a - 1 else a

/-- A rounded result: its code and flags. -/
structure FpRes where
  code : Nat
  fl : Fl
  deriving DecidableEq, Repr

/-- What an overflow gives (R120). -/
def FpFmt.overflow (f : FpFmt) (rnd : Rnd) (sat neg : Bool) : Nat :=
  let big := f.signBit neg + f.maxCode
  if sat then big
  else match rnd with
    | .rn | .rna => f.inf neg
    | .rz => big
    | .rp => if neg then big else f.inf neg
    | .rm => if neg then f.inf neg else big

/-- The code of n * 2^q, where q is at least the exponent of the least subnormal and n is at most
2^(mbits + 1). -/
def FpFmt.encode (f : FpFmt) (neg : Bool) (n : Nat) (q : Int) : Nat :=
  let n' := if n = 2 ^ (f.mbits + 1) then 2 ^ f.mbits else n
  let q' := if n = 2 ^ (f.mbits + 1) then q + 1 else q
  if n' < 2 ^ f.mbits then f.signBit neg + n'
  else f.signBit neg + ((q' + f.bias + f.mbits).toNat) * 2 ^ f.mbits + (n' - 2 ^ f.mbits)

/-- Rounding (-1)^neg * num/den * 2^e once to a format, num and den above 0 (R119, R120): overflow is judged under
an unbounded exponent range, and so is tininess after rounding, in which the value is rounded to full precision
(DESIGN CHOICE, assumption 118). -/
def FpFmt.roundPos (f : FpFmt) (rnd : Rnd) (sat neg : Bool) (num den : Nat) (e : Int) : FpRes :=
  let lg := ratLog2 num den + e
  -- unbounded exponent range
  let qu := lg - f.mbits
  let (a, r, d) := scaleTo num den e qu
  let nu := roundMag rnd neg a r d
  let expu := if nu = 2 ^ (f.mbits + 1) then lg + 1 else lg
  -- subnormals counted as representable
  let q := if lg < f.emin then f.emin - f.mbits else qu
  let (a2, r2, d2) := scaleTo num den e q
  let n := roundMag rnd neg a2 r2 d2
  let code := f.encode false n q
  let tiny := decide (expu < f.emin)
  if f.emin ≤ lg ∧ code > f.maxCode then ⟨f.overflow rnd sat neg, flOF ||| flNX⟩
  else ⟨f.signBit neg + code, flIf (r2 != 0) flNX ||| flIf (tiny && r2 != 0) flUF⟩

/-- Rounding an exact value (R119, R120). A NaN gives the canonical NaN; an infinite value is exact,
and with SAT becomes the largest finite value. -/
def FpFmt.round (f : FpFmt) (rnd : Rnd) (sat : Bool) : FpVal → FpRes
  | .nan _ => ⟨f.nan, 0⟩
  | .inf neg => ⟨if sat then f.signBit neg + f.maxCode else f.inf neg, 0⟩
  | .num neg m e => if m = 0 then ⟨f.signBit neg, 0⟩ else f.roundPos rnd sat neg m 1 e

/-! ## Exact arithmetic -/

/-- The exact product; 0 times infinity is NaN with IV (R122). -/
def fpMul (x y : FpVal) : FpVal × Fl :=
  match x, y with
  | .nan _, _ => (.nan false, 0)
  | _, .nan _ => (.nan false, 0)
  | .inf s, .inf t => (.inf (s != t), 0)
  | .inf s, .num t m _ => if m = 0 then (.nan false, flIV) else (.inf (s != t), 0)
  | .num s m _, .inf t => if m = 0 then (.nan false, flIV) else (.inf (s != t), 0)
  | .num s m e, .num t n d => (.num (s != t) (m * n) (e + d), 0)

/-- The signs of the infinities, and the zeros' signs, among terms. -/
def FpVal.infNeg : FpVal → Option Bool
  | .inf s => some s
  | _ => none
def FpVal.exp : FpVal → Int
  | .num _ m e => if m = 0 then 0 else e
  | _ => 0
def FpVal.negative : FpVal → Bool
  | .num s _ _ => s
  | .inf s => s
  | .nan _ => false

/-- A finite value in units of 2^q, for q at most its exponent. -/
def FpVal.units (q : Int) : FpVal → Int
  | .num s m e =>
    let n : Int := if m = 0 then 0 else m * 2 ^ (e - q).toNat
    if s then -n else n
  | _ => 0

/-- The least exponent of a list. -/
def minExp (l : List FpVal) : Int := l.foldl (fun a x => if x.exp < a then x.exp else a) 0

/-- The exact sum of terms, before rounding: opposite infinities give NaN with IV whatever the other terms
are (R122, R134); a NaN term gives NaN;
an exact zero takes the common sign of zeros, else + (- under rm) (R122, R132). -/
def fpSum (rnd : Rnd) (l : List FpVal) : FpVal × Fl :=
  let infs := l.filterMap FpVal.infNeg
  if infs.contains true && infs.contains false then (.nan false, flIV)
  else if l.any FpVal.isNaN then (.nan false, 0)
  else match infs with
    | s :: _ => (.inf s, 0)
    | [] =>
      let q := minExp l
      let t := l.foldl (fun a x => a + x.units q) (0 : Int)
      if t ≠ 0 then (.num (decide (t < 0)) t.natAbs q, 0)
      else
        let zeros := l.all fun x => x.units q == 0
        let neg := if zeros && l.all FpVal.negative then true
          else if zeros && l.all (fun x => !x.negative) then false
          else rnd == .rm
        (.num neg 0 0, 0)

/-- Rounding an exact value with the flags its forming raised. -/
def FpFmt.finish (f : FpFmt) (rnd : Rnd) (sat : Bool) (x : FpVal × Fl) : FpRes :=
  let r := f.round rnd sat x.1
  ⟨r.code, x.2 ||| r.fl⟩

/-- a + b on codes (R132), as redx, scanx and the atomic adds also use it. -/
def FpFmt.add (f : FpFmt) (rnd : Rnd) (a b : Nat) : FpRes :=
  let r := f.finish rnd false (fpSum rnd [f.val a, f.val b])
  ⟨r.code, r.fl ||| f.readFl a ||| f.readFl b⟩

/-- The order of numbers and infinities: (-1 for -inf, 0, 1), the value scaled, and the sign of zero.
`x` is below `y`; -0 is below +0 when `zeros` is set (R133). -/
def fpBelow (zeros : Bool) (x y : FpVal) : Bool :=
  match x, y with
  | .inf a, .inf b => a && !b
  | .inf a, _ => a
  | _, .inf b => !b
  | .num s m e, .num t n d =>
    let q := minExp [x, y]
    let a := FpVal.units q (.num s m e)
    let b := FpVal.units q (.num t n d)
    if a = b then zeros && s && !t && decide (m = 0) else decide (a < b)
  | _, _ => false

/-- fmin and fmax on codes (R133). -/
def FpFmt.minMax (f : FpFmt) (max prop : Bool) (a b : Nat) : FpRes :=
  let x := f.val a
  let y := f.val b
  let fl := f.readFl a ||| f.readFl b
  if x.isNaN || y.isNaN then
    if prop || (x.isNaN && y.isNaN) then ⟨f.nan, fl⟩ else ⟨if x.isNaN then b else a, fl⟩
  else
    let second := if max then fpBelow true x y else fpBelow true y x
    ⟨if second then b else a, fl⟩

/-- Rounding a value to an integer under an unbounded range (R118): the integer and whether it
differs. -/
def fpToInt (rnd : Rnd) (neg : Bool) (m : Nat) (e : Int) : Int × Bool :=
  let (q, r, d) := scaleTo m 1 e 0
  let n := roundMag rnd neg q r d
  ((if neg then -(n : Int) else n), r != 0)

/-- Conversion to an integer type (R118): code and flags. -/
def fpToType (t : Typ) (rnd : Rnd) : FpVal → FpRes
  | .nan _ => ⟨0, flIV⟩
  | .inf neg => ⟨wrapInt t.width (if neg then Typ.least t else Typ.greatest t), flIV⟩
  | .num neg m e =>
    let (n, inexact) := fpToInt rnd neg m e
    let c := clampInt t n
    ⟨wrapInt t.width c, if c = n then flIf inexact flNX else flIV⟩

/-- An integer as an exact value. -/
def fpOfInt (n : Int) : FpVal := .num (decide (n < 0)) n.natAbs 0

/-- A value times 2^k. -/
def FpVal.scale (k : Int) : FpVal → FpVal
  | .num s m e => .num s m (e + k)
  | x => x

end Sys2Proof.Machine
end

