-- ==== Sys2Proof/Config.lean ====
section
/-!
DEFINITION. What the spec leaves to the implementation, to chance or to the outside world: opaque
constants without a body, so that no proof can see a value (each is named in the assumption log), and
the few figures of the device that are fixed numbers of the spec.
-/

namespace Sys2Proof.Config

/-! ## Free values (assumptions 2, 4, 5) -/

/-- Which of `n` steps that are due happens next, by step count; taken modulo n (assumption 2). -/
opaque schedule : Nat → Nat → Nat

/-- Nanoseconds that pass in a step, by step count (assumption 2). -/
opaque elapsed : Nat → Nat

/-- A value the spec does not state, drawn in order (assumption 5). -/
opaque freeNat : Nat → Nat

/-- A byte of host memory as the host link returns it: PCIe address and draw (assumption 4). -/
opaque hostByte : Nat → Nat → Byte

/-- A byte of a peer's memory as the links return it: device, address, draw (assumption 4). -/
opaque peerByte : Nat → Nat → Nat → Byte

/-- The fault code a peer returns for an access, 0 for none: device, address, draw (R207). -/
opaque peerFault : Nat → Nat → Nat → Nat

/-- Does a peer device answer over Ralbex (R305, R352)? -/
opaque reachable : Nat → Nat → Bool

/-- A peer's topology word (R350), by device id. -/
opaque peerTopology : Nat → Word

/-- Do the switches grant an in-switch reduction (R303), by collective tag? -/
opaque switchGrant : Word → Bool

/-! ## Implementation choices (assumption 8) -/

/-- The L1 set of a 512-byte line (R192: 32 sets; the spec names no index function). -/
opaque l1Set : Nat → Nat

/-- The L2 slice and set of a 512-byte line, by physical or intermediate address: taken modulo the 65,536
sets of the 128 slices (R196). -/
opaque l2Set : Bool → Nat → Nat

/-- The hub that walks a page (R255). -/
opaque walkHub : Nat → Nat

/-- The hub whose slices are home to a 512-byte line (R196: not architectural). -/
opaque lineHub : Bool → Nat → Nat

/-- The stack and stream of a physical sector (R216 names the stream, not the map). -/
opaque stackOf : Nat → Nat
opaque streamOf : Nat → Nat

/-- The sector of a stream that a physical sector is (R216). -/
opaque streamSector : Nat → Nat

/-- The fused device id (R350). -/
opaque devId : BitVec 12

/-- The fused SRAM-rail threshold V_th in millivolts (R343: 620 nominal). -/
opaque vth : Nat

/-- The fused minimum security version of firmware (R372). -/
opaque minSvn : Nat

/-- The device identity key (R371): of each LMS tree (0 the top one, k + 1 the one under leaf k of the top one) its
identifier; of each of its leaves the randomizer, and the private values by number. -/
opaque lmsId : Nat → BitVec 128
opaque lmsRandom : Nat → Nat → BitVec 256
opaque lmsSecret : Nat → Nat → Nat → BitVec 256

/-- Where window C holds, after the stele's 64 GiB, the wait table of a hub and the stele registers (R368): STHEAD and
STDROP of hub h by h and 4 + h, STERASE by 8, STSTAT by 9. -/
opaque waitTableAt : Nat → Nat
opaque steleRegisterAt : Nat → Nat

/-- Measurement, certificate and identity bytes the device was made with (R370). -/
opaque measurement : Nat → List Byte
opaque certificate : List Byte

/-- The digest of the image that a firmware slot ships with: of the foundry or of the management controller,
in slot B or A (R370, R372). -/
opaque shipped : Bool → Bool → List Byte

/-- Power of a core set in units of 100 mW (R339), by draw. -/
opaque powerOf : Nat → Nat

/-! ## Figures of the spec -/

/-- Bytes of physical memory that software can use: 756 GiB (R8). -/
def memTop : Nat := 756 * 2 ^ 30

/-- The size of intermediate address space (chapter 12). -/
def iaTop : Nat := 2 ^ 52

/-- Cores, cores per die, cores per hub (R5). -/
def cores : Nat := 576
def coresPerDie : Nat := 72
def coresPerHub : Nat := 144

/-- Granules in a core's pool: 2 MiB of 4 KiB granules (R7). -/
def poolGranules : Nat := 512

end Sys2Proof.Config
end

