-- ==== Sys2Proof/Machine/State.lean ====
section
/-!
DEFINITION. The state of the whole device as plain data: every register, memory, queue and transfer
in progress that the spec gives the machine, the reasons a step can stop, and the state after reset.
A list keyed by number (cores, contexts, hubs, queues) holds only the entries that differ from reset:
an absent entry is the reset value (assumption 3).
-/

namespace Sys2Proof.Machine

/-! ## Registers of a warp (chapters 3 to 5) -/

/-- The shape of a register (R87): uniform, affine, general. -/
inductive Shape where
  | u | a | g
  deriving DecidableEq, Repr

/-- One vector register with its armature entry (R84, R87, R88), its dirty bit (R100) and the poison
of its lanes (R345). `lanes` holds W words when the shape is general and is empty otherwise; a spilled
register keeps its words here beside its backing slot (assumption 6). `recon` marks the
poisoned lanes whose poison is reconstruction poison (R179). -/
structure VReg where
  shape : Shape := .u
  spilled : Bool := false
  pend : Bool := false
  row : Nat := 0
  rank : Nat := 0
  stride : BitVec 32 := 0
  base : Word := 0
  lanes : List Word := []
  poison : Mask := 0
  recon : Mask := 0
  dirty : Bool := false
  deriving DecidableEq, Repr

/-- An index register x0 to x3 (R101): W 16-bit indexes, the bound, the shape and the 16-bit stride of
an affine one. Reset (R86): index 0 in every lane, bound 0, shape U. -/
structure XReg where
  idx : List (BitVec 16) := []
  bound : BitVec 8 := 0
  shape : Shape := .u
  stride : BitVec 16 := 0
  deriving DecidableEq, Repr

/-- One mask-stack entry (R62, R69), with the number of accesses the warp had issued when it was
pushed, which is what `vend` orders (R70). -/
structure MaskEntry where
  save : Mask
  alt : Mask
  e : Bool
  opened : Nat
  deriving DecidableEq, Repr

/-- One live loop level (R62, R71). -/
structure LoopLevel where
  start : Word
  fin : Word
  sdepth : Nat
  brk : Mask
  cont : Mask
  deriving DecidableEq, Repr

/-- A watch slot (R261, Table 12-11): an IA range, its kinds (bit 0 read, 1 write, 2 atomic), its
scope (0 wp, 1 tm, 2 dv), its lane mask, its HITS count, and the number that operations had reached when
it was armed: it watches those issued after; and the time of the arming (R267). -/
structure WatchSlot where
  lo : Nat
  hi : Nat
  kinds : BitVec 3
  scope : Nat
  lanes : Mask
  hits : Nat
  armedAt : Nat := 0
  armedOn : Nat := 0
  deriving DecidableEq, Repr

/-- A wait-table entry (R363, Table 17-3): WKIND, OBJ, A0 to A2 and SINCE. The remaining fields of the
entry are those of the warp or launch that waits. -/
structure WaitEntry where
  kind : Nat
  obj : Word := 0
  a0 : Word := 0
  a1 : Word := 0
  a2 : Word := 0
  since : Word := 0
  deriving DecidableEq, Repr

/-- What the foundry's reply to a scope instruction writes (R293): the destination, its value, and the
predicate `fsopen` sets or clears. -/
structure ScopeReply where
  dst : Operand
  value : Word
  pred : Option (BitVec 4 × Bool)
  deriving DecidableEq, Repr

/-- A task record: node reference, instance, the scope it is counted in, the causal id of the emitter,
the edge slot it holds (R276, R281, R285). -/
structure Record where
  node : Nat
  inst : Nat
  scope : Word
  cause : Word
  edge : Option Nat
  deriving DecidableEq, Repr

/-- What a warp that does not issue is doing (Table 3-2, Table 15-11). `run`: it may issue.
`barWait b`: its arrival at barrier b is counted and it waits for the phase (R79). `bton a`: it waits
for the baton of array a (R151). `sleep`: its `sleep` has not run out (R81). `sigWait`: a `sigwait`
re-reads its signal (R294). `emitTrip`: records on their way to a firing. `scopeTrip`, `emitTrip`, `sigTrip`, `icinv`: a round trip (R293, R292, R338).
`scopeWait`: an `fswait` whose scope is not done. `cbar`: it waits in `cbar` (R311). `exited`: it has
executed `exit` and its slot is not yet freed (R57). -/
inductive Activity where
  | run
  | barWait (b : Nat)
  | bton (arr : Bool)
  | sleep
  | sigWait (o : Ops (BitVec 16))
  | scopeTrip (r : ScopeReply)
  | scopeWait (dst : Operand) (handle : Word)
  | emitTrip (firing : Nat) (records : List Record)
  | sigTrip
  | icinv (ia n : Nat)
  | cbar
  | exited
  deriving DecidableEq, Repr

/-- How far the release action of the warp's next instruction has come (R198): not begun; waiting for
the acknowledgement of write-backs; waiting for its read of the host link; done. -/
inductive Release where
  | idle
  | waiting (writeBacks : List Nat)
  | reading
  | done
  deriving DecidableEq, Repr

/-- An arrival of `bara` or `bar` that waits (R79): the barrier, the LD, ST and SP operations before it,
and then, in a paired team, the write-backs of its release. -/
structure Arrival where
  bar : Nat
  ops : List Nat
  writeBacks : Option (List Nat) := none
  deriving DecidableEq, Repr

/-- The state of one warp (R18, R19, R62, R84 to R101, R121, R261). -/
structure Warp where
  /-- %warp: the number in the team (R48). -/
  num : Nat
  /-- The core it runs on and its slot 0 to 63 there (R7, R48). -/
  core : Nat
  slot : Nat
  /-- %serial (R50) and the causal id (R360). -/
  serial : Word
  cause : Word
  /-- The program counter; start: the kernel entry (R49). -/
  pc : Word
  /-- s0 to s63, with the mask of poisoned ones (R62, R345). -/
  s : List Word
  sPoison : Mask := 0
  /-- p0 to p15; p0 reads all ones (R62). -/
  p : List Mask
  /-- The active mask and the mask stack, innermost entry first (R62, R69). -/
  mask : Mask
  stack : List MaskEntry := []
  /-- The loop buffer: instructions fetched in the body of the outermost live level, by IA (R75). -/
  loopBuf : List (Nat × BitVec 96) := []
  /-- Instructions of the loop buffer with an uncorrectable error, by IA (R342). -/
  badLoop : List Nat := []
  /-- The live loop levels, innermost first (R71), and lc0 to lc2. -/
  loops : List LoopLevel := []
  lc : List Word := [0, 0, 0]
  /-- The oldest-first lists of the operations each path counter counts, true when completed but held
  behind an older one (R76). -/
  ldq : List (Nat × Bool) := []
  stq : List (Nat × Bool) := []
  spq : List (Nat × Bool) := []
  cpq : List (Nat × Bool) := []
  mxq : List (Nat × Bool) := []
  rmq : List (Nat × Bool) := []
  /-- Barrier arrivals: pending and ticket of each barrier (R62, R79). -/
  arrivals : List (Bool × BitVec 32)
  /-- The sleep remainder in cycles, as it stood at the model's clock `sleepFrom` (R62, R81). -/
  sleepLeft : Nat := 0
  sleepFrom : Nat := 0
  /-- v0 to v(N - 1) (R84) and x0 to x3 (R101). -/
  v : List VReg
  x : List XReg
  /-- %flags of each lane: DN IV DZ OF UF NX in bits 5:0 (R121). -/
  flags : List (BitVec 6)
  /-- Spill and reload counts (R108). -/
  spills : Nat := 0
  reloads : Nat := 0
  /-- The register a reload is under way for, and the registers the waiting instruction names (R97). -/
  reloading : Option (Nat × List Nat) := none
  /-- The registers reloaded for the instruction that waits: one that a non-uniform index names need not
  stay resident until it issues (R102). -/
  served : List Nat := []
  /-- The four watch slots (R261). -/
  watch : List (Option WatchSlot) := [none, none, none, none]
  /-- What the warp is doing, its wait-table entry, and its release action. -/
  act : Activity := .run
  wait : Option WaitEntry := none
  release : Release := .idle
  /-- The wait that a halt or a save has stopped, which is taken up again (R327). -/
  stopped : Option WaitEntry := none
  /-- The acquiring access that later LD, ST and SP accesses wait for (R198). -/
  acquiring : List Nat := []
  /-- Parked on a recoverable page fault (R254). -/
  parked : Bool := false
  /-- Stopped by a halt, and the instructions issued since the broadcast (R315, R56). `stopping`: it issues
  nothing more, and stops once its round trip has completed (R327). -/
  halted : Bool := false
  stopping : Bool := false
  skid : Nat := 0
  /-- The instructions it has issued. -/
  issued : Nat := 0
  /-- Its age: the cycles in which it was ready and not chosen since its last issue; and when it became
  aged (R53). -/
  age : Nat := 0
  agedAt : Option Nat := none
  /-- BEDGE: a back edge is pending (R72). -/
  bedge : Bool := false
  /-- The current scope after `fsjoin`; none means the launch scope (R285). -/
  joined : Option Word := none
  /-- STEP of a relay warp, its `cbar` count, the IA ranges written by its operations that have completed
  since its last step completion (R301, R309, R311). -/
  stepNo : BitVec 32 := 0
  /-- When the `cbar` that it waits in, or waited in last, was executed (R313). -/
  cbarFrom : Nat := 0
  cbars : Nat := 0
  relayWritten : List (Nat × Nat) := []
  /-- The LD, ST and SP accesses the warp has issued, and the windows of them that a `vend` has closed
  and that are not all performed (R70, R227): from the first number to before the second. -/
  issuedAcc : Nat := 0
  /-- The copy and the matrix operations the warp has issued: a counter wait covers all but the last k
  (R240). -/
  cpIssued : Nat := 0
  mxIssued : Nat := 0
  /-- The last such operation that a counter wait has covered, of each path (R240). -/
  cpJoined : Nat := 0
  mxJoined : Nat := 0
  regions : List (Nat × Nat) := []
  /-- Barrier arrivals that wait for earlier accesses (R79). -/
  arriving : List Arrival := []
  deriving DecidableEq, Repr

/-! ## Teams (chapters 3, 8, 9, 13, 15) -/

/-- A kernel descriptor (R274, Table 13-7), already checked. -/
structure Kernel where
  va : Word
  codeBase : Nat
  codeSize : Nat
  entry : Nat
  expect : Nat
  lease : BitVec 16
  emit : List Nat
  regg : Nat
  spg : Nat
  tiles : Nat
  paired : Bool
  g : Nat
  n : Nat
  warps : Nat
  width : Nat
  idem : Bool
  deriving DecidableEq, Repr

/-- A scratchpad word (R171, R180, R345): its check bits hold no error unless `poison`. -/
structure SpWord where
  data : BitVec 32
  valid : Bool
  poison : Bool
  /-- Its poison is reconstruction poison (R179). -/
  recon : Bool := false
  deriving DecidableEq, Repr

/-- Where a completion word lies: an offset of the team's scratchpad, an IA of device memory, an address of a peer
or of the host (R213). -/
inductive WordPlace where
  | scratch (off : Nat)
  | memory (ia : Nat)
  | peer (dev ia : Nat)
  | host (ia : Nat)
  deriving DecidableEq, Repr

/-- A word of the scratchpad as one path may still read it: what a write of another path replaced, until
a `fencex` makes that write visible (R200 step 3, R238, R240). The reading path; the writing path, the
warp and the number of the operation among those the warp has issued on it; the value before; the warps
that have joined the operation through its completion word; that word once it is incremented. -/
structure StaleWord where
  word : Nat
  reader : Path
  writer : Path
  op : Nat
  warp : Nat
  nth : Nat
  old : SpWord
  joined : List Nat := []
  cw : Option WordPlace := none
  deriving DecidableEq, Repr

/-- A team barrier (R79). -/
structure Barrier where
  phase : BitVec 32 := 0
  arrived : List Nat := []
  deriving DecidableEq, Repr

/-- A baton (R150). -/
inductive Baton where
  | free
  | held (w : Nat)
  | passed (w : Nat)
  deriving DecidableEq, Repr

/-- A tile: its core of the pair (0 or 1), its number, its 9,216 elements row by row and the poisoned
ones (R153, R345). A tile that is not listed holds +0 everywhere. -/
structure Tile where
  half : Nat
  num : Nat
  elems : List (BitVec 32)
  poison : List Nat := []
  /-- The poisoned elements whose poison is reconstruction poison (R179). -/
  recon : List Nat := []
  deriving DecidableEq, Repr

/-- Where a team is in its life (R49, R57, R315 to R331). `starting`: its pool is being cleared.
`running`. `draining`: chosen for DRAIN. `halting`: the broadcast is out. `halted`: the halt is
complete. `saving`: its warps are stopping for a save. `saved`. `flushed`: waiting to restart.
`retired`: its pool is released and its global writes are not all acknowledged. -/
inductive TeamPhase where
  | starting | running | draining | halting | halted | saving | saved | flushed | retired
  deriving DecidableEq, Repr

/-- A fault as it is captured: what Table 15-2 records of it. -/
structure FaultInfo where
  code : Nat
  pc : Word
  cause : Word
  addr : Word := 0
  wobj : Word := 0
  wkind : Nat := 0
  serial : Word := 0
  warp : Nat := 0
  lane : Nat := 255
  aux : Nat := 0
  /-- Instructions of the warp issued after the faulting one (R168). -/
  skid : Nat := 0
  precise : Bool := false
  deferred : Bool := false
  late : Bool := false
  deriving DecidableEq, Repr

/-- A MISCOMPARE whose record is not written yet (R168): its tile, and whether it halted the team. -/
structure HeldFault where
  half : Nat
  tile : Nat
  info : FaultInfo
  first : Bool
  deriving DecidableEq, Repr

/-- The relay role of a relay team (R300): its collective and its channel. -/
structure RelayRole where
  tag : Word
  chan : Nat
  deriving DecidableEq, Repr

/-- One team (R9, R51). -/
structure Team where
  ctx : Nat
  tid : Nat
  kernel : Kernel
  phase : TeamPhase := .starting
  /-- Its core, or the even core of its pair (R48). -/
  core : Nat
  cause : Word
  parent : Word
  /-- The launch it belongs to, its instance number and node reference (R275, R276). -/
  packet : Option Nat
  inst : Nat
  nodeRef : Nat
  /-- Launch scope of the team, or of each task of a wave by lane (R285). -/
  scopes : List Word
  /-- The records of a wave or TEAM node: instances by lane (R275). -/
  records : List Nat := []
  /-- The delivered s0, s1, s2 and s3 (Table 13-8, R300). -/
  args : List Word
  relay : Option RelayRole := none
  warps : List Warp
  barriers : List Barrier
  /-- Batons by 2 * half + array (R150). -/
  batons : List Baton
  /-- The scratchpad: listed words at rising word offsets; an unlisted word is 0, invalid (R169).
  Stamps other than 0 by 2 KiB block (R159). -/
  sp : List (Nat × SpWord) := []
  stamps : List (Nat × BitVec 3) := []
  /-- Group rows whose relief word has an uncorrectable error: core, group, row (R171, R179). -/
  reliefBad : List (Nat × Nat × Nat) := []
  /-- Older values of scratchpad words that a path may still read, the latest write first (R240). -/
  stale : List StaleWord := []
  tiles : List Tile := []
  /-- Tiles (core of the pair, number) on which a MISCOMPARE has been found: operations accepted since are
  discarded until the team goes on (R168). -/
  deadTiles : List (Nat × Nat) := []
  /-- MISCOMPARE records that wait for the end of the halt, when it is known how many operations were discarded
  (R168): the tile, the fault, whether it halted the team. -/
  heldFaults : List HeldFault := []
  /-- spstat counts (Table 9-4). -/
  confl : Nat := 0
  recon : Nat := 0
  /-- Remaining reservation on each out-edge, and its firing's edges (R281). -/
  reserved : List Nat := [0, 0, 0, 0]
  /-- Range registers leased for the team (R251, R252). -/
  leases : BitVec 16
  /-- ISSUED, EXPECT, flushable, the counts of Table 15-10, the run time (R323, R337). -/
  issued : Nat := 0
  expect : Nat
  flushable : Bool := true
  saves : Nat := 0
  drains : Nat := 0
  flushes : Nat := 0
  /-- The time it has run while resident up to `since`, when it last began to run (R323, Table 15-5);
  when its drain began (R325); chosen for pre-emption under R296. -/
  runTime : Nat := 0
  since : Nat := 0
  drainFrom : Nat := 0
  forced : Bool := false
  /-- IA of its frame (R332). -/
  frame : Nat
  frameSize : Nat
  /-- The debugger's single step (R322): the warp that may issue one instruction. -/
  stepping : Option Nat := none
  /-- The frame is marked halted (R316, R321), and the team was halted before its save began (R322); faulted
  status recorded (R285). -/
  saveHalted : Bool := false
  wasHalted : Bool := false
  faulted : Bool := false
  discarded : Bool := false
  /-- The hub whose foundry keeps it, as minted in serials (R50, R288). -/
  serialHub : Nat
  deriving DecidableEq, Repr

/-! ## Memory operations, caches, links (chapters 9, 10, 12) -/

/-- What a memory operation does (Tables 10-6, 12-9). -/
inductive OpKind where
  | load | store | atomic | reduce | prefetch | tagStore | tagLoad | writeBackAll
  | remoteLoad | remoteStore | remoteReduce
  deriving DecidableEq, Repr

/-- One lane's access of an operation: the lane, the virtual address with its pointer tag, the target
address, the data and compare words, the register that receives the result, and the range register of
the access with its KIND (0 lease, 1 demand, 2 peer, 3 host), PEER and TC (R245). -/
structure LaneAccess where
  lane : Nat
  va : Word
  ia : Nat
  data : Word := 0
  cmp : Word := 0
  reg : Nat := 0
  range : Nat := 0
  rkind : Nat := 0
  peer : Nat := 0
  tc : Bool := false
  poison : Bool := false
  recon : Bool := false
  /-- Already performed (a request that parked may be partly done, R254); the fault it met, 0 for
  none. `stored`: the bytes of a store in write-back form are in the L1, and its verdict is awaited
  (R194). -/
  done : Bool := false
  stored : Bool := false
  code : Nat := 0
  deriving DecidableEq, Repr

/-- An issued memory operation that has not completed (R190, R191, R206). -/
structure MemOp where
  id : Nat
  key : WKey
  core : Nat
  kind : OpKind
  pc : Word
  word : BitVec 96
  cause : Word
  serial : Word
  lanes : List LaneAccess
  size : Nat
  pk : BitVec 2
  ty : Typ
  atop : Atop
  cache : Cache
  ord : Ord
  scope : Scope
  /-- A scalar form writes s(D): its register (R203). -/
  sdst : Option Nat := none
  /-- The destination becomes uniform: one address, and a full mask (R91, R92). -/
  uniform : Bool := false
  /-- For a store: write-through (R194). -/
  through : Bool := false
  /-- The pages whose walk has ended in a leaf since issue, and the pages its requests are parked on
  (R254). -/
  walked : List Nat := []
  parked : List Nat := []
  /-- The write-backs an `l1wb` waits for (R191). -/
  writeBacks : List Nat := []
  /-- Its number among the warp's accesses, and the windows of accesses it waits for (R70, R227). -/
  seq : Nat
  after : List (Nat × Nat) := []
  /-- Its number among the instructions its warp has issued (R168). -/
  nth : Nat := 0
  /-- The data is dropped when it returns: the team was flushed or discarded (R324, R317). `flushed`: its
  instance was flushed (R321). -/
  dropped : Bool := false
  flushed : Bool := false
  /-- Only the parked access of a signal instruction, which is executed again after the replay (R294). -/
  again : Bool := false
  /-- Re-issued from a pending record; its warp stays parked until its pages are there (R254, R330). -/
  restored : Bool := false
  deriving DecidableEq, Repr

/-- An L1 sector (R192): address in units of 128 bytes, the data, the mask of bytes written and not
written back, the mask of valid bytes, the owner of the dirty bytes, the tag copies, poison. A Clean
sector has dirty mask 0 and valid mask all ones. -/
structure L1Sector where
  sector : Nat
  data : List Byte
  dirty : BitVec 128
  valid : BitVec 128
  owner : Option TKey
  tags : Option (List (BitVec 4))
  poison : Bool
  deriving DecidableEq, Repr

/-- A masked write on its way to L2: its ticket, its bytes, the owning team. A write-back from the L1
(R195), or the write of a copy command of scope tm, which is performed with respect to its team first
(`copy`: its command, `chan`: its warp and channel, R209, R213). -/
structure WriteBack where
  id : Nat
  sector : Nat
  data : List Byte
  mask : BitVec 128
  poison : Bool
  owner : TKey
  copy : Option Nat := none
  chan : Option (Nat × Nat) := none
  deriving DecidableEq, Repr

/-- An SP-path operation (R172 to R175). Each core's lane port serves the lanes whose words lie there; a
lane is `done` when it has been served. -/
structure SpOp where
  id : Nat
  key : WKey
  instr : Instr
  pc : Word
  cause : Word
  serial : Word
  /-- Lanes in increasing order: lane, byte offset (in `ia`), data, compare, register. -/
  lanes : List LaneAccess
  size : Nat
  uniform : Bool := false
  /-- The layout word of `ldsx` and `stsx`. -/
  layout : Word := 0
  seq : Nat
  after : List (Nat × Nat) := []
  dropped : Bool := false
  nth : Nat := 0
  /-- Service cycles, and words served by reconstruction; the unwritten words it has read, and the lowest
  byte read of a block with another stamp, with that stamp (R173, R180, R159). -/
  cycles : Nat := 0
  rebuilt : Nat := 0
  unwritten : List Nat := []
  mismatch : Option (Nat × BitVec 3) := none
  /-- The cycles of the ports that serve it, by core, when it issued (R175; model's own). -/
  sent : List (Nat × Nat) := []
  deriving DecidableEq, Repr

/-- A matrix operation accepted by a core's sequencer (R148), with the operands captured at issue. -/
structure MxOp where
  id : Nat
  key : WKey
  half : Nat
  instr : Instr
  pc : Word
  cause : Word
  serial : Word
  tile : Nat := 0
  tile2 : Nat := 0
  arr : Bool := false
  started : Bool := false
  /-- Layout word and offset operand (R158). -/
  layout : Word := 0
  offset : Word := 0
  /-- Registers read at issue, each W words, in group order, with their poison: A then B then SA, SB
  for `mma`; the band for `accwr`. -/
  regs : List (List Word) := []
  poison : List Mask := []
  recon : List Mask := []
  /-- First destination register. -/
  dst : Nat := 0
  nth : Nat := 0
  dropped : Bool := false
  deriving DecidableEq, Repr

/-- A copy command (R209 to R214): its three operands and its record operand, its length, and how many
bytes it has moved. -/
structure CopyCmd where
  id : Nat
  key : WKey
  instr : Instr
  pc : Word
  /-- The causal id that its records carry, and the one minted for it, which its flits carry (R361). -/
  cause : Word
  minted : Word := 0
  serial : Word
  d : Word
  a : Word
  b : Word
  record : Word
  len : Nat
  nth : Nat := 0
  running : Bool := false
  moved : Nat := 0
  /-- With DIG: the SHA-256 hash value after the whole blocks moved so far (empty: the initial one), and the
  bytes moved after them (R212). -/
  hash : List (BitVec 32) := []
  tail : List Byte := []
  /-- The rows of a gather that have begun and have not all moved, with their addresses: an index is read once
  (R211). -/
  rows : List (Nat × Word) := []
  /-- Stopped at its missing page: the page it holds on (R210, R254). -/
  held : Option Nat := none
  /-- In warn mode: the unwritten words it has read, and the lowest mismatched byte with the span asked for
  and the block's stamp (R159, R180). -/
  unwritten : List Nat := []
  mismatch : Option (Nat × BitVec 3 × BitVec 3) := none
  deriving DecidableEq, Repr

/-- Copy data read before a save stopped its command: destination and bytes (R328). -/
structure Quarantine where
  cmd : Nat
  key : TKey
  scratch : Bool
  addr : Nat
  bytes : List Byte
  span : BitVec 3
  poison : Bool
  recon : Bool := false
  /-- The source address after its last byte: the next bytes of one sector's read join it. -/
  next : Nat := 0
  /-- Of a global destination: the offset of its first byte in the command, and the pointer tag and TC that its
  write is checked with (R259). -/
  off : Nat := 0
  tag : BitVec 4 := 0
  tc : Bool := false
  /-- It has been written to the quarantine region. -/
  written : Bool := false
  /-- The warp of its command. -/
  warp : Nat := 0
  deriving DecidableEq, Repr

/-- A page that a core's fault filter has to report (R255): the access of its first parked request as
Table 12-6 records it, and the union of the accesses merged since. -/
structure PageReport where
  page : PageKey
  cause : Word
  serial : Word
  va : Word
  range : Nat
  acc : BitVec 4
  deriving DecidableEq, Repr

/-- A group row whose relief word is not up to date (R174): its group, team and row, and the cycles since
the data write. -/
structure ParityRow where
  group : Nat
  key : TKey
  row : Nat
  age : Nat := 0
  deriving DecidableEq, Repr

/-- One core (R7): what differs from reset. -/
structure Core where
  num : Nat
  retired : Bool := false
  /-- DEGR, GRET and the retired bank of each group (Table 9-5); reset 0. -/
  degr : BitVec 4 := 0
  gret : BitVec 4 := 0
  rbank : List Nat := [0, 0, 0, 0]
  /-- The L1, most recently used sector first (R192). -/
  l1 : List L1Sector := []
  wbs : List WriteBack := []
  /-- The instruction cache: instruction words by IA, the most recently used first (R7, R38). -/
  icache : List (Nat × BitVec 96) := []
  /-- Cached instructions with an uncorrectable error, by IA (R342). -/
  badCode : List Nat := []
  /-- SP-path operations of the core's warps; and the arrivals at its lane port, in order: the core whose
  warp issued the operation, and its number (R170, R175). -/
  spOps : List SpOp := []
  port : List (Nat × Nat) := []
  mxOps : List MxOp := []
  /-- Stale rows awaiting their parity update, by group, in order (R174). -/
  parity : List ParityRow := []
  /-- Cycles of its lane port so far, by which an operation is known to wait for 4 of them (R175; model's own). -/
  spTime : Nat := 0
  channels : List (List CopyCmd) := [[], [], [], []]
  /-- Pages the fault filter has to report, each with the access that faulted first (R255, R256). -/
  filter : List PageReport := []
  corrected : Nat := 0
  /-- Corrected errors of the scratchpad's data banks, with their times (R177, R179). -/
  bankErrors : List (Nat × Nat) := []
  /-- A bank whose retirement removes its group, while the core's teams are being saved (R178). -/
  retiring : Option Nat := none
  deriving DecidableEq, Repr

/-- An L2 sector (R196): by physical or intermediate address (R368), in units of 128 bytes; the physical
sector it was filled from, by which sectors of one location are known (R220); the dirty bytes, the
poison, and the team a write-back's bytes came from (R386). -/
structure L2Sector where
  phys : Bool
  sector : Nat
  pa : Nat
  data : List Byte
  dirty : BitVec 128
  poison : Bool
  owner : Option TKey
  /-- The cause tag of the request that wrote it last, which its write packet carries (R216, R361). -/
  cause : BitVec 20 := 0
  deriving DecidableEq, Repr

/-- A cached valid entry of the page table (R250): its level, the IA bits that lead to it, and the PA of
the page when it is a leaf, else of the next table. `bad`: it has an uncorrectable error (R342). -/
structure TlbEntry where
  level : Nat
  page : Nat
  pa : Nat
  leaf : Bool := true
  bad : Bool := false
  deriving DecidableEq, Repr

/-- The kinds of base-die packet (R216). -/
inductive PacketKind where
  | rd | wr | mwr
  deriving DecidableEq, Repr

/-- A request packet to a base die (R216, Table 12 of chapter 10): its kind, tag (none while it waits
in the hub for one, R217), granules, sector of physical memory, cause tag, data and byte mask; and the
L2 sector a read fills. -/
structure Packet where
  kind : PacketKind
  tag : Option Nat
  gmask : BitVec 4
  pa : Nat
  cause : BitVec 20
  data : List Byte := []
  mask : BitVec 128 := 0
  poison : Bool := false
  fill : Option (Bool × Nat) := none
  deriving DecidableEq, Repr

/-- A reply on its way to the hub (R216): RDATA carries data and POISON, WACK carries RMW; with the
sector and the cause tag of its request. -/
structure Reply where
  read : Bool
  tag : Nat
  gmask : BitVec 4
  pa : Nat
  cause : BitVec 20
  data : List Byte
  flag : Bool
  fill : Option (Bool × Nat)
  deriving DecidableEq, Repr

/-- One stream of a base die: requests waiting or sent, in order, and replies not yet arrived. -/
structure StreamState where
  key : Stream
  requests : List Packet := []
  replies : List Reply := []
  deriving DecidableEq, Repr

/-! ## Page faults (chapter 12) -/

/-- A hub-stage entry (R255): the first faulting access, the union of accesses, when it was opened and
whether its window is open, REPEAT, a replay under way. -/
structure PageFault where
  page : PageKey
  hub : Nat
  cause : Word
  serial : Word
  va : Word
  range : Nat
  acc : BitVec 4
  since : Nat
  windowOpen : Bool := true
  recorded : Bool := false
  repeats : Nat := 0
  replay : Bool := false
  deriving DecidableEq, Repr

/-! ## Contexts, queues, graphs (chapters 13, 15) -/

/-- One queue (R269, Table 13-2); reset 0. -/
structure Queue where
  num : Nat
  base : Word := 0
  ctl : Word := 0
  read : BitVec 32 := 0
  write : BitVec 32 := 0
  err : Bool := false
  status : BitVec 8 := 0
  /-- Decode has stopped at a slot whose VALID is 0 until the next notice (R270). -/
  stalled : Bool := false
  /-- A GRAPH decode that waits (R276): its foundry entry's index, the entry, the packet's causal id. -/
  held : Option (Option Nat × WaitEntry × Word) := none
  /-- The PARENT of the packet whose decode waits. -/
  heldParent : Word := 0
  /-- Packets of each higher class's context decoded since the packet at READ began to wait (R287). -/
  passed : List (Nat × Nat) := []
  deriving DecidableEq, Repr

/-- A finish-scope entry (R284, R285, R293). STATUS: 0 clean, 1 faulted, 2 cancelled. -/
structure ScopeEntry where
  idx : Nat
  gen : Nat
  parent : Word
  count : Nat
  closed : Bool
  status : Nat
  detach : Bool
  faults : Nat
  fserial : Word
  packet : Option Nat
  allocated : Bool
  deriving DecidableEq, Repr

/-- An edge of a live firing (R278, R281): capacity, bound, consumer, FREE and the accepted count. -/
structure Edge where
  qbase : Word
  cap : Nat
  bound : Nat
  consumer : Nat
  free : Nat
  accepted : Nat
  deriving DecidableEq, Repr

/-- A node of a live firing (R277), with its pending records in arrival order. -/
structure Node where
  kernel : Kernel
  argBase : Word
  argStride : Nat
  out : List (Option Nat)
  timeout : Nat
  thresh : Nat
  lane : Bool
  pending : List Record
  /-- When its last record arrived (R282). -/
  last : Nat := 0
  deriving DecidableEq, Repr

/-- A live firing of a maquette (R276). -/
structure Firing where
  id : Nat
  packet : Nat
  maquette : Word
  nodes : List Node
  edges : List Edge
  deriving DecidableEq, Repr

/-- A launch that waits for admission (R281): a team of a LAUNCH packet, a TEAM record, a wave, or a
saved or flushed team that waits to come back (R60). -/
structure Launch where
  id : Nat
  ctx : Nat
  packet : Nat
  kernel : Kernel
  inst : Nat
  args : List Word
  scopes : List Word
  records : List Record
  firing : Option Nat
  node : Nat
  parent : Word
  /-- The foundry wait-table entry it holds (R363), and the leases it has given notice of (R253). -/
  waitIdx : Option Nat := none
  wait : Option WaitEntry := none
  noticed : List Nat := []
  /-- The flushed team that it starts again (R324). -/
  restart : Option Nat := none
  deriving DecidableEq, Repr

/-- A shard of a cast (R351, R352, Table 16-7): its local VA, length, OFF and candidate devices; the
partner and the flags REDUCED, FAILED, POISONED, MISMATCH; its digest. -/
structure CastShard where
  va : Word
  len : Nat
  off : Nat
  cands : List Nat
  partner : Nat := 0xFFF
  reduced : Bool := false
  failed : Bool := false
  poisoned : Bool := false
  mismatch : Bool := false
  digest : List Byte := List.replicate 32 0
  /-- The bytes copied so far, and their digest in progress (R212, R353). -/
  moved : Nat := 0
  hash : List (BitVec 32) := []
  tail : List Byte := []
  deriving DecidableEq, Repr

/-- A CAST packet's work (R351 to R355): `placed` when the partners of a save have been chosen, or the manifest of a
restore has been checked; `copied` when the shards have been copied. The parity holder's device, the buffers of the
parity collective with their sizes, whether the parity is reduced; the manifest that a restore has read. -/
structure CastRun where
  restore : Bool
  manifest : Word
  pos : Word
  expVA : Word
  gen : Nat
  npos : Nat
  feed : Bool
  board : Bool
  rack : Bool
  shards : List CastShard
  parity : Option Nat := none
  parityBufs : List (Word × Nat) := []
  parityReduced : Bool := false
  placed : Bool := false
  copied : Bool := false
  image : List Byte := []
  deriving DecidableEq, Repr

/-- A packet that has been decoded and has not completed (R272, R273). -/
structure PacketRun where
  id : Nat
  ctx : Nat
  queue : Nat
  index : BitVec 32
  /-- 1 LAUNCH, 2 GRAPH, 3 WAIT, 4 SIGNAL, 5 CAST. -/
  kind : Nat
  cause : Word
  parent : Word
  barrier : Bool
  acqsc : Nat
  relsc : Nat
  signal : Word
  scope : Word
  started : Bool
  /-- It is no longer held behind BARRIER. -/
  begun : Bool := false
  /-- LAUNCH: teams not yet admitted (next index, total). -/
  next : Nat := 0
  total : Nat := 0
  kernel : Option Kernel := none
  argVA : Word := 0
  collective : Option Word := none
  /-- WAIT: OR, and the signal addresses. -/
  orWait : Bool := false
  waits : List Word := []
  /-- GRAPH: the firing and its root records that have not been gathered. -/
  firing : Nat := 0
  roots : List Record := []
  /-- The SIGNAL effect (address, value, OP) that is still to be performed; the CAST. -/
  pendingEffect : List Word := []
  cast : Option CastRun := none
  deriving DecidableEq, Repr

/-- A context (R10, R268, R318, R322, R332, R334): what differs from reset. -/
structure Context where
  num : Nat
  /-- Context control (Table 13-1): QUOTA 8, DRAIN 20, EN 0, VFY 1, CHK 0, CLASS 7. -/
  control : Word := 0x0000000814000017#64
  coreSet : BitVec 576 := 0
  queues : List Queue := []
  /-- The range registers, and the staged words 0, 2 and 3 of each (R245, R369). -/
  ranges : List (BitVec 256) := List.replicate 16 0
  staged : List (List Word) := List.replicate 16 [0, 0, 0]
  /-- USE of each range register (R252). -/
  uses : List Nat := List.replicate 16 0
  fqBase : Word := 0
  fqCtl : Word := 0
  fqWrite : BitVec 32 := 0
  fqRead : BitVec 32 := 0
  rfail : Bool := false
  noring : Nat := 0
  /-- Records waiting in the hub buffer for ring space (R318). -/
  held : List (List Word) := []
  scopes : List ScopeEntry := []
  saveBase : Word := 0
  saveSize : Word := 0
  attach : Bool := false
  dbgStat : Nat := 0
  dbgFrame : Word := 0
  resetting : Bool := false
  lost : Bool := false
  /-- The last team id given (R51), the warps started per hub (R50). -/
  lastTid : Nat := 0
  serials : List Nat := [0, 0, 0, 0]
  firings : List Firing := []
  deriving DecidableEq, Repr

/-! ## Collectives (chapter 14) -/

/-- What a relay data operation is (R305). -/
inductive RelayKind where
  | send | recv | reduce | copy
  deriving DecidableEq, Repr

/-- A relay data operation that has not completed (R305 to R309). Slices are absolute VAs. -/
structure RelayOp where
  id : Nat
  key : WKey
  tag : Word
  chan : Nat
  kind : RelayKind
  /-- The causal id that its records carry, and the one minted for it, which its flits carry (R361). -/
  cause : Word
  minted : Word := 0
  pc : Word
  serial : Word
  step : Nat
  slot : Nat
  /-- Peer rank of a send or receive half, and the forward peer of a `crrs.snd`. -/
  peer : Nat
  fwd : Option Nat
  /-- Occurrence of the receive and of the send under their keys (R306). -/
  occR : Nat
  occS : Nat
  /-- The offsets of the slice (of a `ccopy` the source slice) and of a `ccopy`'s destination slice, which a fault
  names; source and destination slices (VA), and their length. -/
  off : Nat
  offD : Nat := 0
  src : Word
  dst : Word
  len : Nat
  op : BitVec 2
  ty : Typ
  /-- Progress: the operation has started (a send's request is out, a receive is posted); a receive's
  message is matched and its credit is out; the payload is in; a send's payload is out; it is
  acknowledged. -/
  posted : Bool := false
  matched : Bool := false
  received : Bool := false
  sent : Bool := false
  acked : Bool := false
  /-- The fault it met: code, RELAY subcode, the poisoned address. -/
  failed : Option (Nat × Nat × Option Nat) := none
  /-- A `ccopy` met it at its destination slice. -/
  failedDst : Bool := false
  since : Nat := 0
  deriving DecidableEq, Repr

/-- A collective (R298, R299, R313). -/
structure Collective where
  tag : Word
  ctx : Nat
  packet : Nat
  desc : Word
  progKernel : Kernel
  peers : List Nat
  args : List Word
  bufs : List Word
  sizes : List Nat
  rank : Nat
  nranks : Nat
  cols : Nat
  wdt : Nat
  e2e : Bool
  chans : Nat
  isr : Bool
  cause : Word
  live : Bool := false
  cancelled : Bool := false
  /-- Requests to send that have no posted receive yet (R306). -/
  requests : List RelayMsg := []
  /-- Messages that arrived while its relay teams are halted (R302). -/
  held : List LinkMsg := []
  /-- Occurrences used per key: sends and receives (chan, peer, slot, count). -/
  sends : List (Nat × Nat × Nat × Nat) := []
  recvs : List (Nat × Nat × Nat × Nat) := []
  /-- `cbar` arrivals per relay team: rank, channel, count (R311). -/
  cbars : List (Nat × Nat × Nat) := []
  /-- Step number of the last message from each rank (R313). -/
  lastStep : List (Nat × Nat) := []
  repeats : Nat := 0
  /-- Time of the last progress. -/
  progress : Nat := 0
  deriving DecidableEq, Repr

/-! ## The recorder (chapter 17) -/

/-- A stele record without TIME and UNC filled by the emitter: 64 bytes as eight words (Table 17-1),
and whether it is must-keep. -/
structure EventRecord where
  words : List Word
  keep : Bool
  deriving DecidableEq, Repr

/-- An emitter (R356, R357): cores are 0 to 575; hub h engine e is 576 + 16 * h + e; the management
controller is 1000. -/
structure Emitter where
  num : Nat
  buffer : List EventRecord := []
  dropped : Nat := 0
  firstKind : Nat := 0
  lastKind : Nat := 0
  firstTime : Word := 0
  /-- Stamping point (R362): its counter at the last correction, what the servo has still to slew it by, UNC, lock
  state, time of lock loss. -/
  base : Nat := 0
  slew : Int := 0
  unc : Nat := 0xFFFF
  locked : Bool := false
  everLocked : Bool := false
  lostAt : Option Nat := none
  /-- When the servo last corrected it. -/
  synced : Nat := 0
  deriving DecidableEq, Repr

/-- A stele segment (R356, R364): records oldest first, HEAD, STDROP. -/
structure SteleSegment where
  records : List (List Word) := []
  head : Nat := 0
  drop : Nat := 0
  deriving DecidableEq, Repr

/-- A hub die (R5, R343, R346, R360): what differs from reset. -/
structure Hub where
  num : Nat
  causes : Nat := 0
  stele : SteleSegment := {}
  retiredFrames : List Nat := []
  /-- Frames that were retired when the list was full (R346). -/
  unlisted : Nat := 0
  decTed : Bool := false
  changing : Option Bool := none
  reverse : Bool := false
  rail : Nat := 0
  deriving DecidableEq, Repr

/-! ## Management (chapters 16 and 18) -/

/-- A firmware slot (R372). -/
structure FwSlot where
  major : Nat
  minor : Nat
  svn : Nat
  handover : Nat
  valid : Bool
  /-- The image's digest; none is the image the slot shipped with, whose digest is the device's own. -/
  digest : Option (List Byte)
  deriving DecidableEq, Repr

/-- A signed answer whose index has been committed and which has not left the device (R371): the request, the body, the
message signed, the indexes in the top tree and below it. -/
structure SignedAnswer where
  req : Nat
  body : List Byte
  message : List Byte
  top : Nat
  low : Nat
  deriving DecidableEq, Repr

/-- A stream of the link's encryption: the key programmed for it, and whether it is in use (R366). -/
structure IdeStream where
  key : List Byte := []
  going : Bool := false
  deriving DecidableEq, Repr

/-- A message of IDE_KM over a session: for stream 0, the link's, or a selective stream 1 to 8 (R366). -/
inductive KeyOp where
  | program (key : List Byte)
  | go
  | stop
  deriving DecidableEq, Repr
structure KeyMessage where
  session : Nat
  stream : Nat
  op : KeyOp
  deriving DecidableEq, Repr

/-- Where a live update is (R372): none, verifying, awaiting the first heartbeat. -/
inductive FwPhase where
  | idle | verify | heartbeat
  deriving DecidableEq, Repr

/-- A counted event of the risk estimate (R348): its time and its term. -/
inductive RiskEvent where
  | ce | vc | mc | retrain | replay
  deriving DecidableEq, Repr

/-- The host commands that wait while foundry firmware is replaced (R372): DBGCMD by operation, team and
warp; DBGCMD with an undefined OP; CTXRESET; replay words; translation commands. -/
inductive HostCommand where
  | halt (k : TKey)
  | resume (k : TKey)
  | step (k : TKey) (w : Nat)
  | snap (k : TKey)
  | load (k : TKey)
  | discard (k : TKey)
  | badDebug (ctx : Nat) (v : Word)
  | reset (ctx : Nat)
  | replayPage (p : PageKey)
  | replayAll (ctx : Nat)
  | translation (v : Word)
  deriving DecidableEq, Repr

/-- The management controller and the device registers of window A (chapter 18). -/
structure Mgmt where
  /-- Power is applied (R364, R375). -/
  powered : Bool := true
  /-- The last step of the start that has been taken, 0 to 6 (R375). -/
  started : Nat := 6
  inReset : Bool := false
  relayPart : Word := 0
  relayHeld : Option Word := none
  transRoot : Word := 0
  transBusy : Option Word := none
  transStatus : Bool := false
  transRej : Bool := false
  risk : BitVec 8 := 0
  riskCtl : Word := 0
  riskPkt : Word := 0
  /-- The last 1,000 samples of RISK, the latest first; the risk packet that is pending: its queue and,
  once it is posted, its sequence number (R349). -/
  samples : List Nat := []
  riskPending : Option (QKey × Option (BitVec 32)) := none
  riskEvents : List (Nat × RiskEvent) := []
  /-- Corrected storage errors by structure, in the codes of Table 17-9 (R342). -/
  corrections : List Nat := List.replicate 9 0
  /-- RACK, BOARD, FEED of the topology word; DEVID is fused (R350). -/
  topology : Word := 0
  modCap : Nat := 6000
  dieCap : List Nat := List.replicate 8 1100
  dieClk : List Nat := List.replicate 8 1900
  throttleSteps : Nat := 0
  fwImg : Word := 0
  fwLen : Word := 0
  fwPhase : FwPhase := .idle
  fwResult : Nat := 0
  fwActive : Bool := false
  fwBootFallback : Bool := false
  /-- Slots A and B of the foundry image, the selection for the next power-on. -/
  fwSlots : List FwSlot
  fwSelect : Option Bool := none
  fwCandidate : Option FwVerdict := none
  handover : Nat
  /-- When the new image started (R372). -/
  fwStarted : Nat := 0
  /-- Slots A and B of the management-controller image, the active one, the selection for the next
  power-on. -/
  mgSlots : List FwSlot
  mgActive : Bool := false
  mgSelect : Option Bool := none
  /-- Commands held during an update, in order of arrival (R372); and halts that await room for their record
  (R318). -/
  heldCommands : List HostCommand := []
  haltsWaiting : List HostCommand := []
  /-- Measurement 3: the boot image's digest and those it was extended with, in order (R370); an empty list
  stands for the running image alone. -/
  measured : List (List Byte) := []
  /-- Function-binding bytes (R367); WBBASE and WBLIMIT by function (R368). -/
  binding : List (BitVec 8) := List.replicate 64 0
  wbBase : List (Nat × Word) := []
  wbLimit : List (Nat × Word) := []
  /-- The next signature's index in the top tree, in one-time-programmable counters, and in the tree below it, in
  non-volatile memory; the answers that have not left (R371). -/
  sigTop : Nat := 0
  sigLow : Nat := 0
  signing : List SignedAnswer := []
  negotiated : Bool := false
  sessions : List (Nat × Bool) := []
  /-- The streams of link encryption, and the key messages that have arrived (R366). -/
  ide : List IdeStream := List.replicate 9 {}
  keyMessages : List KeyMessage := []
  steleErasing : Bool := false
  steleRej : Bool := false
  /-- Retrain and replay counts per port 0 to 17; the PCIe link is 18 (R388). -/
  replays : List (Nat × Nat) := []
  retrains : List (Nat × Nat) := []
  deriving DecidableEq, Repr

/-- What the device sends outward: to the host link, to peers, to the host's DOE mailbox, MSI-X
(R366, R207, R306, R370). Outputs are only appended. -/
inductive Output where
  | pcieRead
  | pcieWrite (addr : Nat) (data : List Byte)
  | pcieAtomic (addr : Nat) (op : Atop) (a b : Word) (size : Nat)
  | windowB (ok : Bool) (data : List Byte)
  | aerUnsupported (fn : Nat)
  | remote (dev : Nat) (r : RemoteAccess)
  | remoteReply (dev : Nat) (data : List Byte) (fault : Nat)
  | relay (dev : Nat) (m : LinkMsg)
  | replayRequest (port : Nat)
  | msix (fn vector : Nat)
  | spdm (request : Nat) (ok : Bool) (body : List Byte)
  deriving DecidableEq, Repr

/-- A stored granule of Table 16-1 outside the scratchpad: half a lane of a vector register or half a scalar
register, a tile's element, a 64-bit word of an L1 or L2 sector, the tag of an L1 or L2 line, an instruction of a
core's cache or of a warp's loop buffer, a cached page-table entry, an entry of the tag store cache by the PA of its
tags, a granule of the memory stacks by PA, a word of a record of a stele segment. -/
inductive Stored where
  | register (k : WKey) (v lane : Nat) (high : Bool)
  | scalar (k : WKey) (n : Nat) (high : Bool)
  | tile (k : TKey) (half num elem : Nat)
  | l1 (core sector word : Nat)
  | l1Tag (core line : Nat)
  | l2 (phys : Bool) (sector word : Nat)
  | l2Tag (phys : Bool) (line : Nat)
  | code (core ia : Nat)
  | loop (k : WKey) (ia : Nat)
  | translation (e : TlbEntry)
  | tagCache (pa : Nat)
  | hbm (pa : Nat)
  | stele (hub n word : Nat)
  deriving DecidableEq, Repr

/-- The unit that executes a verified instruction (Table 3-3): the quad's vector pipeline, its CORDIC unit, its
load/store unit as it generates addresses, its scalar ALUs. -/
inductive ExecUnit where
  | vector | cordic | address | alu
  deriving DecidableEq, Repr

/-- A wrong result of one execution (0, 1 or 2) of a verified instruction: on physical lane `phys` or that ALU,
in pass 0 or 1, in one sub-element (R340). -/
structure Glitch where
  execution : Nat
  phys : Nat
  pass : Nat
  sub : Nat
  deriving DecidableEq, Repr

/-- A silicon error that is about to show (R167, R179, R340): which core and unit it strikes. Nothing in the
device makes one: the list is part of the environment. `logic` spoils executions of the next verified
instruction that the unit of the quad executes and that it disturbs. `array` makes the checksum of the next `mma` of the array fail, once or twice. `scratch` stands in a
word of a team's scratchpad, or in the relief word of its group row, until a read shows it; `storage` in
another structure of Table 16-1. -/
inductive Upset where
  | logic (core quad : Nat) (unit : ExecUnit) (glitches : List Glitch)
  | array (core arr : Nat) (persists : Bool)
  | scratch (k : TKey) (word : Nat) (relief fixable : Bool)
  | storage (x : Stored) (fixable : Bool)
  deriving DecidableEq, Repr

/-- A late fault that has been found and not yet delivered (R321). -/
structure LateFault where
  id : Nat
  key : TKey
  info : FaultInfo
  /-- The serial of the instance that raised it was flushed (R324). -/
  flushed : Bool := false
  /-- The poisoned address, of a fault that consumed poison (R346). -/
  ia : Option Nat := none
  deriving DecidableEq, Repr

/-- An entry of a hub's cause map that an engine operation holds (R361). -/
structure CauseEntry where
  hub : Nat
  idx : Nat
  op : Nat
  cause : Word
  deriving DecidableEq, Repr

/-- The whole machine. -/
structure State where
  /-- Steps taken; the argument of the schedule (model's own, assumption 2). -/
  tick : Nat
  /-- The model's clock in ns, from which TIME is read (model's own, assumption 2). -/
  clock : Nat
  /-- Free values drawn so far (model's own, assumption 5). -/
  draws : Nat
  /-- Operations, packets and launches numbered so far (model's own). -/
  nextId : Nat
  /-- The warp that issues in this step (model's own). -/
  cur : Option WKey
  /-- Host, link and sensor inputs that have arrived, in order (model's own, assumption 4). -/
  inputs : List Instr
  /-- Silicon errors about to show (environment, assumption 9). -/
  upsets : List Upset
  /-- Everything sent outward, oldest first. -/
  outputs : List Output
  /-- Memory by physical byte address below 756 GiB, in canonical form. -/
  mem : List Host.Cell
  /-- Memory tags other than 0 by granule (PA div 32), rising (R258). -/
  tags : List (Nat × BitVec 4)
  /-- Poisoned physical sectors (PA div 128), rising (R345). -/
  poisoned : List Nat
  l2 : List L2Sector
  /-- Code sectors (IA div 128) as they were before a write that no `icinv` has covered yet, the latest
  first: fetch may still return their words (R38). -/
  codeOld : List (Nat × List Byte)
  tlb : List TlbEntry
  streams : List StreamState
  cores : List Core
  hubs : List Hub
  emitters : List Emitter
  ctxs : List Context
  teams : List Team
  launches : List Launch
  packets : List PacketRun
  /-- Memory operations in flight, in issue order. -/
  ops : List MemOp
  pageFaults : List PageFault
  lateFaults : List LateFault
  quarantine : List Quarantine
  collectives : List Collective
  relayOps : List RelayOp
  /-- Requests to send that arrived before their collective is live (R306). -/
  relayWaiting : List LinkMsg
  /-- Copy commands and memory operations of saved teams: pending records (R328, R329). -/
  savedOps : List MemOp
  savedCopies : List CopyCmd
  /-- The entries of the cause maps that engine operations hold, by hub and index; the entry of a warp is that of
  its slot (R361). -/
  causes : List CauseEntry
  /-- The queue last served in each class (R287). -/
  lastServed : List (Nat × QKey)
  mgmt : Mgmt
  deriving DecidableEq, Repr

/-- The reasons a step can stop with a fault. Both are raised only in states no run reaches, and both
are safe: the machine stops where the hardware has no behaviour to go on with. -/
inductive Fault where
  /-- Raised by every Xothes instruction when no warp issues it (`State.cur` names none). Safe. -/
  | noIssuingWarp
  /-- Raised when the issuing warp or its team is not in the state. Safe. -/
  | noSuchWarp
  deriving DecidableEq, Repr

/-- The reasons a step can be refused. -/
inductive Refusal where
  /-- An instruction without a meaning, rejected by its arm of `exec`. Safe. -/
  | notModelled (mnemonic : String)
  /-- Raised by a step of another agent that is not due in this state (the thing it completes is not in
  progress): the term describes nothing that can happen here. Safe. -/
  | eventNotPending (mnemonic : String)
  deriving DecidableEq, Repr

/-- The foundry firmware slots after reset: version 4.2 in slot A (R1, R372); slot B holds no valid
image, SVN 0, handover version 1 (DESIGN CHOICE, assumption 7). -/
def fwSlotsReset : List FwSlot :=
  [⟨4, 2, 0, 1, true, none⟩, ⟨0, 0, 0, 0, false, none⟩]

/-- The management-controller slots after reset: version 2.7 in slot A (R1); slot B holds no valid image
(DESIGN CHOICE, assumption 7). -/
def mgSlotsReset : List FwSlot :=
  [⟨2, 7, 0, 1, true, none⟩, ⟨0, 0, 0, 0, false, none⟩]

/-- The machine right after reset (R375): no work, every register at its reset value, caches empty,
memory with nothing listed. -/
def State.reset : State where
  tick := 0
  clock := 0
  draws := 0
  nextId := 1
  cur := none
  inputs := []
  upsets := []
  outputs := []
  mem := []
  tags := []
  poisoned := []
  l2 := []
  codeOld := []
  tlb := []
  streams := []
  cores := []
  hubs := []
  emitters := []
  ctxs := []
  teams := []
  launches := []
  packets := []
  ops := []
  pageFaults := []
  lateFaults := []
  quarantine := []
  collectives := []
  relayOps := []
  relayWaiting := []
  savedOps := []
  savedCopies := []
  causes := []
  lastServed := []
  mgmt := { fwSlots := fwSlotsReset, handover := 1, mgSlots := mgSlotsReset }

end Sys2Proof.Machine
end

