-- ==== Sys2Proof/Machine/Access.lean ====
section
/-!
DEFINITION. Reading and changing the parts of the state: teams, warps, cores, hubs, contexts,
emitters, collectives; the fields of the context registers; numbering and free values.
-/

namespace Sys2Proof.Machine

/-! ## Lookups and updates -/

/-- Is this the team named by the key? -/
def Team.is (t : Team) (k : TKey) : Bool := t.ctx == k.ctx && t.tid == k.tid

/-- The key of a team. -/
def Team.key (t : Team) : TKey := ⟨t.ctx, t.tid⟩

/-- The team named by a key. -/
def State.team? (s : State) (k : TKey) : Option Team := s.teams.find? (·.is k)

/-- Changing a team. -/
def State.modTeam (s : State) (k : TKey) (f : Team → Team) : State :=
  { s with teams := updIf (·.is k) f s.teams }

/-- The warp of a number in a team. -/
def Team.warp? (t : Team) (n : Nat) : Option Warp := t.warps.find? (·.num == n)

/-- The warp named by a key. -/
def State.warp? (s : State) (k : WKey) : Option Warp := (s.team? k.team).bind (·.warp? k.w)

/-- Changing a warp of a team. -/
def Team.modWarp (t : Team) (n : Nat) (f : Warp → Warp) : Team :=
  { t with warps := updIf (·.num == n) f t.warps }

/-- Changing a warp. -/
def State.modWarp (s : State) (k : WKey) (f : Warp → Warp) : State :=
  s.modTeam k.team (·.modWarp k.w f)

/-- A core; an absent one is at reset. -/
def State.core (s : State) (c : Nat) : Core := getBy Core.num { num := c } s.cores c

/-- Changing a core. -/
def State.modCore (s : State) (c : Nat) (f : Core → Core) : State :=
  { s with cores := putBy Core.num { f (s.core c) with num := c } s.cores }

/-- A hub; an absent one is at reset. -/
def State.hub (s : State) (h : Nat) : Hub := getBy Hub.num { num := h } s.hubs h

/-- Changing a hub. -/
def State.modHub (s : State) (h : Nat) (f : Hub → Hub) : State :=
  { s with hubs := putBy Hub.num { f (s.hub h) with num := h } s.hubs }

/-- A context; an absent one is at reset. -/
def State.ctx (s : State) (n : Nat) : Context := getBy Context.num { num := n } s.ctxs n

/-- Changing a context. -/
def State.modCtx (s : State) (n : Nat) (f : Context → Context) : State :=
  { s with ctxs := putBy Context.num { f (s.ctx n) with num := n } s.ctxs }

/-- An emitter; an absent one is at reset. -/
def State.emitter (s : State) (e : Nat) : Emitter := getBy Emitter.num { num := e } s.emitters e

/-- Changing an emitter. -/
def State.modEmitter (s : State) (e : Nat) (f : Emitter → Emitter) : State :=
  { s with emitters := putBy Emitter.num { f (s.emitter e) with num := e } s.emitters }

/-- A queue of a context; an absent one is at reset. -/
def Context.queue (c : Context) (q : Nat) : Queue := getBy Queue.num { num := q } c.queues q

/-- A queue. -/
def State.queue (s : State) (k : QKey) : Queue := (s.ctx k.ctx).queue k.q

/-- Changing a queue. -/
def State.modQueue (s : State) (k : QKey) (f : Queue → Queue) : State :=
  s.modCtx k.ctx fun c => { c with queues := putBy Queue.num { f (c.queue k.q) with num := k.q } c.queues }

/-- Changing a memory operation. -/
def State.modOp (s : State) (id : Nat) (f : MemOp → MemOp) : State :=
  { s with ops := updIf (·.id == id) f s.ops }

/-- A decoded packet. -/
def State.packet? (s : State) (id : Nat) : Option PacketRun := s.packets.find? (·.id == id)

/-- Changing a decoded packet. -/
def State.modPacket (s : State) (id : Nat) (f : PacketRun → PacketRun) : State :=
  { s with packets := updIf (·.id == id) f s.packets }

/-- The live collective of a tag (R296): there is at most one. -/
def State.coll? (s : State) (tag : Word) : Option Collective := s.collectives.find? fun c => c.live && c.tag == tag

/-- Changing the live collective of a tag. -/
def State.modColl (s : State) (tag : Word) (f : Collective → Collective) : State :=
  { s with collectives := updIf (fun c => c.live && c.tag == tag) f s.collectives }

/-- Changing a relay operation. -/
def State.modRelayOp (s : State) (id : Nat) (f : RelayOp → RelayOp) : State :=
  { s with relayOps := updIf (·.id == id) f s.relayOps }

/-- Sending something outward. -/
def State.output (s : State) (o : Output) : State := { s with outputs := s.outputs ++ [o] }

/-! ## Numbers and free values -/

/-- The next operation number. -/
def State.takeId (s : State) : Nat × State := (s.nextId, { s with nextId := s.nextId + 1 })

/-- A free value (assumption 5) and the state after the draw. -/
def State.draw (s : State) : Nat × State := (Config.freeNat s.draws, { s with draws := s.draws + 1 })

/-! ## Device numbers (R5) -/

/-- The hub that serves a core. -/
def hubOfCore (c : Nat) : Nat := c / Config.coresPerHub

/-- The home hub of a context (R288). -/
def homeHub (ctx : Nat) : Nat := ctx % 4

/-- The emitter of an engine of a hub die (R356). -/
def hubEmitter (h engine : Nat) : Nat := 576 + 16 * h + engine

/-- The emitter of the management controller. -/
def mgmtEmitter : Nat := 1000

/-! ## Fields of the context registers -/

/-- CLASS, CHK (1 warn), VFY, EN, DRAIN, QUOTA of the context control register (Table 13-1). -/
def Context.cls (c : Context) : Nat := fieldOf c.control 2 0
def Context.warn (c : Context) : Bool := c.control.getLsbD 3
def Context.verified (c : Context) : Bool := c.control.getLsbD 4
def Context.enabled (c : Context) : Bool := c.control.getLsbD 7
def Context.drainUs (c : Context) : Nat := Nat.min 200 (Nat.max 2 (fieldOf c.control 31 24))
def Context.quota (c : Context) : Nat := Nat.max 1 (fieldOf c.control 39 32)

/-- A range register as its fields (Table 12-1). -/
structure Range where
  idx : Nat
  base : Nat
  limit : Nat
  offset : Nat
  kind : Nat
  tc : Bool
  pex : Bool
  pat : Bool
  pwr : Bool
  prd : Bool
  res : Bool
  en : Bool
  peer : Nat
  deriving DecidableEq, Repr

/-- The fields of range register k (Table 12-1): BASE and LIMIT as byte addresses. -/
def rangeOf (k : Nat) (r : BitVec 256) : Range where
  idx := k
  base := (r.extractLsb' 16 40).toNat * 65536
  limit := (r.extractLsb' 80 40).toNat * 65536
  offset := (r.extractLsb' 128 64).toNat
  kind := (r.extractLsb' 77 2).toNat
  tc := r.getLsbD 76
  pex := r.getLsbD 75
  pat := r.getLsbD 74
  pwr := r.getLsbD 73
  prd := r.getLsbD 72
  res := r.getLsbD 71
  en := r.getLsbD 79
  peer := (r.extractLsb' 192 12).toNat

/-- The range registers of a context. -/
def Context.rangeList (c : Context) : List Range :=
  (c.ranges.zipIdx).map fun (r, k) => rangeOf k r

/-- The address part of a virtual address, and its pointer tag (R244). -/
def vaAddr (va : Word) : Nat := fieldOf va 55 0
def vaTag (va : Word) : BitVec 4 := va.extractLsb' 56 4

/-- The enabled range register that holds every byte of an access (R244, R246). -/
def Context.findRange (c : Context) (va : Word) (size : Nat) : Option Range :=
  if fieldOf va 63 60 ≠ 0 then none
  else c.rangeList.find? fun r => r.en && decide (r.base ≤ vaAddr va) && decide (vaAddr va + size ≤ r.limit)

/-- The target address of a virtual address in its range (R246). -/
def Range.target (r : Range) (va : Word) : Nat := vaAddr va - r.base + r.offset

/-! ## Teams and cores -/

/-- W of a kernel. -/
def Kernel.w (k : Kernel) : Nat := k.width

/-- Scratchpad bytes of a team: the granules of the partition word, twice for a pair (R169, R170). -/
def Kernel.scratch (k : Kernel) : Nat := k.spg * 4096 * (if k.paired then 2 else 1)

/-- The full mask of W lanes. -/
def fullMask (w : Nat) : Mask := Mask.low w

/-- The lanes of a mask in increasing order, below W. -/
def maskLanes (w : Nat) (m : Mask) : List Nat := (List.range w).filter m.has

/-- Which half of a pair a warp runs on: 0 for an unpaired team (R48, R150). -/
def Team.half (t : Team) (w : Warp) : Nat := w.core - t.core

/-- The cores a team runs on. -/
def Team.cores (t : Team) : List Nat := if t.kernel.paired then [t.core, t.core + 1] else [t.core]

/-- The hub that serves a team (R288). -/
def Team.hub (t : Team) : Nat := hubOfCore t.core

/-- Is the warp live: not exited (R79, R150)? -/
def Warp.live (w : Warp) : Bool := w.act != .exited

/-- A warp that cannot go on however its wait stands: halted, or of a team that is saved or flushed. -/
def Team.still (t : Team) (w : Warp) : Bool := w.halted || t.phase == .saved || t.phase == .flushed

/-- The team holds pool, slots and warps on a core: it is resident. -/
def Team.resident (t : Team) : Bool :=
  match t.phase with
  | .starting | .running | .draining | .halting | .halted | .saving => true
  | _ => false

/-- The team's warps may issue: it runs, or its halt or save has not reached the warp yet (R56). -/
def Team.issuing (t : Team) : Bool :=
  match t.phase with
  | .running | .draining | .halting => true
  | _ => false

/-- The path list of a warp (R76). -/
def Warp.queue (w : Warp) : Path → List (Nat × Bool)
  | .ld => w.ldq | .st => w.stq | .sp => w.spq | .cp => w.cpq | .mx => w.mxq | .rm => w.rmq

/-- Changing the path list of a warp. -/
def Warp.setQueue (w : Warp) (p : Path) (q : List (Nat × Bool)) : Warp :=
  match p with
  | .ld => { w with ldq := q } | .st => { w with stq := q } | .sp => { w with spq := q }
  | .cp => { w with cpq := q } | .mx => { w with mxq := q } | .rm => { w with rmq := q }

/-- The value of a path counter (R76). -/
def Warp.counter (w : Warp) (p : Path) : Nat := (w.queue p).length

/-- An operation issues on a path: the counter rises by 1 (R76). -/
def Warp.countUp (w : Warp) (p : Path) (id : Nat) : Warp :=
  let w1 := w.setQueue p (w.queue p ++ [(id, false)])
  match p with
  | .cp => { w1 with cpIssued := w.cpIssued + 1 }
  | .mx => { w1 with mxIssued := w.mxIssued + 1 }
  | _ => w1

/-- No counter goes above this; an instruction that would raise it further is not ready (R76). -/
def counterTop : Nat := 1023

/-- Can the path counter take another operation (R76)? -/
def Warp.roomOn (w : Warp) (p : Path) : Bool := decide (w.counter p < counterTop)

/-- A counter wait that leaves a path at k covers all but the k operations issued last on it (R240). -/
def Warp.joinWait (w : Warp) (p : Path) (k : Nat) : Warp :=
  match p with
  | .cp => { w with cpJoined := Nat.max w.cpJoined (w.cpIssued - k) }
  | .mx => { w with mxJoined := Nat.max w.mxJoined (w.mxIssued - k) }
  | _ => w

/-- The number of an outstanding operation among those the warp has issued on its path. -/
def Warp.nthOf (w : Warp) (p : Path) (id : Nat) : Nat :=
  let younger := ((w.queue p).map (·.1)).reverse.takeWhile (· != id)
  (match p with | .cp => w.cpIssued | .mx => w.mxIssued | _ => 0) - younger.length

/-- Dropping the completed operations at the front of a path list. -/
def popDone : List (Nat × Bool) → List (Nat × Bool)
  | [] => []
  | (i, d) :: l => if d then popDone l else (i, d) :: l

/-- An operation completes: the counter falls once every older one has completed (R76). -/
def Warp.countDown (w : Warp) (p : Path) (id : Nat) : Warp :=
  w.setQueue p (popDone ((w.queue p).map fun e => if e.1 == id then (e.1, true) else e))

/-- The path that counts an operation (Table 10-1). -/
def OpKind.path : OpKind → Option Path
  | .load | .atomic | .tagLoad => some .ld
  | .store | .reduce | .tagStore | .writeBackAll => some .st
  | .remoteLoad | .remoteStore | .remoteReduce => some .rm
  | .prefetch => none

/-- Is an operation one of the LD and ST accesses that `vend` and the scopes order? -/
def OpKind.ordered (k : OpKind) : Bool := (k.path == some .ld || k.path == some .st) && k != .writeBackAll

/-- Is an access performed with respect to the core (R227)? A read when its value is bound; a write
when its bytes are in the L1 or, past it, performed at L2. -/
def LaneAccess.performed (a : LaneAccess) : Bool := a.done || a.stored

/-- Accesses of a warp that are issued and not performed with respect to its core, by number (R70,
R227). -/
def State.openAccesses (s : State) (k : WKey) (core : Nat) : List Nat :=
  (s.ops.filter fun o => o.key == k && o.kind.ordered && o.lanes.any fun a => !a.performed).map (·.seq) ++
    ((s.core core).spOps.filter fun x => x.key == k && x.lanes.any fun a => !a.done).map (·.seq)

/-- Does a list of windows still hold an access that is not performed? -/
def State.regionOpen (s : State) (k : WKey) (core : Nat) (regions : List (Nat × Nat)) : Bool :=
  !regions.isEmpty && (s.openAccesses k core).any fun n => regions.any fun r => decide (r.1 ≤ n) && decide (n < r.2)

/-- The windows that still hold an access that is not performed. -/
def State.openRegions (s : State) (k : WKey) (core : Nat) (regions : List (Nat × Nat)) : List (Nat × Nat) :=
  regions.filter fun r => (s.openAccesses k core).any fun n => decide (r.1 ≤ n) && decide (n < r.2)

/-- Is a core enabled and not retired? -/
def State.coreUp (s : State) (c : Nat) : Bool := decide (c < Config.cores) && !(s.core c).retired

/-- Is a core one of the relay cores: the K highest-numbered cores up of its die (R295)? -/
def State.isRelayCore (s : State) (c : Nat) : Bool :=
  let d := c / Config.coresPerDie
  let k := Nat.min 8 (fieldOf s.mgmt.relayPart (4 * d + 3) (4 * d))
  let above := ((List.range Config.coresPerDie).map (d * Config.coresPerDie + ·)).filter fun x => decide (c < x) && s.coreUp x
  s.coreUp c && decide (above.length < k)

/-- Every step of the start has been taken (R375). -/
def Mgmt.ready (m : Mgmt) : Bool := m.started == 6

/-- The foundry serves: its firmware is not being replaced (R372), and the device has started and is not held in
reset. -/
def State.serving (s : State) : Bool := s.mgmt.fwPhase == .idle && s.mgmt.ready

/-- The context of a debug command. -/
def HostCommand.debugCtx : HostCommand → Option Nat
  | .halt k | .resume k | .step k _ | .snap k | .load k | .discard k => some k.ctx
  | .badDebug ctx _ => some ctx
  | .reset _ | .replayPage _ | .replayAll _ | .translation _ => none

/-- Is it a write of the translation-command register? -/
def HostCommand.isTranslation : HostCommand → Bool
  | .translation _ => true
  | _ => false

/-- DBGSTAT reads BUSY while a debug command is held. -/
def State.showBusy (s : State) (c : HostCommand) : State :=
  match c.debugCtx with
  | some n => s.modCtx n fun x => { x with dbgStat := 1 }
  | none => s

/-- Holding a HALT until its record has room (R318). -/
def State.awaitRoom (s : State) (c : HostCommand) : State :=
  let s1 := s.showBusy c
  { s1 with mgmt := { s1.mgmt with haltsWaiting := s1.mgmt.haltsWaiting ++ [c] } }

/-- Holding a host command until the update of the foundry firmware ends (R372). STATUS reads 0 while a translation
command is held (R250). -/
def State.holdCommand (s : State) (c : HostCommand) : State :=
  let s1 := s.showBusy c
  let s2 := if c.isTranslation then { s1 with mgmt := { s1.mgmt with transStatus := false, transRej := false } } else s1
  { s2 with mgmt := { s2.mgmt with heldCommands := s2.mgmt.heldCommands ++ [c] } }

/-- A host command: performed, or held, during an update and behind what was held in it. -/
def State.command (s : State) (c : HostCommand) (go : Host.Outcome State Fault Refusal) :
    Host.Outcome State Fault Refusal :=
  if s.mgmt.fwPhase == .idle && s.mgmt.heldCommands.isEmpty then
    match go with
    | .refused _ => .next (s.awaitRoom c)
    | o => o
  else .next (s.holdCommand c)

/-- A special-purpose count that saturates at 2^n - 1. -/
def satAdd (n a b : Nat) : Nat := Nat.min (2 ^ n - 1) (a + b)

/-! ## L1 sectors and their write-backs (R192, R195) -/

/-- The L1 sector of an address in units of 128 bytes, if present. -/
def Core.l1? (c : Core) (sec : Nat) : Option L1Sector := c.l1.find? (·.sector == sec)

/-- Putting a sector into its line at the most recently used place; with `.ev` the whole line goes to the
least recently used one (Table 10-4). -/
def Core.l1Put (c : Core) (x : L1Sector) (last : Bool) : Core :=
  let rest := c.l1.filter (·.sector != x.sector)
  { c with l1 :=
      if last then rest.filter (·.sector / 4 != x.sector / 4) ++ x :: rest.filter (·.sector / 4 == x.sector / 4)
      else x :: rest }

/-- Removing a sector: it becomes Invalid. -/
def Core.l1Drop (c : Core) (sec : Nat) : Core := { c with l1 := c.l1.filter (·.sector != sec) }

/-- Every byte. -/
def allBytes : BitVec 128 := BitVec.allOnes 128

/-- A Dirty sector, and a Clean one (Table 10-3). -/
def L1Sector.isDirty (x : L1Sector) : Bool := x.dirty != 0

/-- A sector after its dirty bytes have been written back: Clean when every byte is valid; a sector
that held only its own written bytes cannot be Clean and becomes Invalid (assumption 17). -/
def L1Sector.cleaned (x : L1Sector) : Option L1Sector :=
  if x.valid = allBytes then some { x with dirty := 0, owner := none } else none

/-- A masked write of a core on its way to L2. -/
def State.newWrite (s : State) (core : Nat) (b : WriteBack) : State :=
  let (id, s1) := s.takeId
  s1.modCore core fun c => { c with wbs := c.wbs ++ [{ b with id := id }] }

/-- Sending the dirty bytes of a sector to L2 (R195). -/
def State.sendWriteBack (s : State) (core : Nat) (x : L1Sector) : Nat × State :=
  let (id, s1) := s.takeId
  (id, s1.modCore core fun c =>
    { c with wbs := c.wbs ++ [⟨id, x.sector, x.data, x.dirty, x.poison, x.owner.getD ⟨0, 0⟩, none, none⟩] })

/-- Writing back one sector that stays in the L1 (R195). -/
def State.cleanSector (s : State) (core : Nat) (x : L1Sector) : Nat × State :=
  let (id, s1) := s.sendWriteBack core x
  (id, s1.modCore core fun c =>
    { c with l1 := c.l1.filterMap fun y => if y.sector == x.sector then y.cleaned else some y })

/-- Writing back every dirty sector that meets a test: the write-backs started. -/
def State.cleanAll (s : State) (core : Nat) (p : L1Sector → Bool) : List Nat × State :=
  ((s.core core).l1.filter fun x => x.isDirty && p x).foldl
    (fun acc x => let r := acc.2.cleanSector core x; (acc.1 ++ [r.1], r.2)) ([], s)

/-- The write-backs of a team that L2 has not acknowledged: those started now and those under way
already (R198). -/
def Core.teamWrites (c : Core) (k : TKey) : List Nat :=
  (c.wbs.filter fun b => b.owner == k && b.copy.isNone).map (·.id)

/-! ## Scratchpad words that a path may still read old (R200, R238, R240) -/

/-- The operation that replaced the value is joined by a warp, or on a path whose writes a `fencex` names
without a join. -/
def StaleWord.joinedBy (x : StaleWord) (w : Warp) : Bool :=
  match x.writer with
  | .cp => (x.warp == w.num && decide (x.nth ≤ w.cpJoined)) || x.joined.contains w.num
  | .mx => x.warp == w.num && decide (x.nth ≤ w.mxJoined)
  | _ => true

/-- Dropping, for one reading path, each entry that meets a test and the entries of its word that are
older still. -/
def dropStale (dst : Path) (hit : StaleWord → Bool) : List StaleWord → List Nat → List StaleWord
  | [], _ => []
  | x :: l, gone =>
    if x.reader == dst && (gone.contains x.word || hit x) then
      dropStale dst hit l (if gone.contains x.word then gone else x.word :: gone)
    else x :: dropStale dst hit l gone

/-- Do two byte ranges meet? -/
def meets (a n b m : Nat) : Bool := decide (a < b + m) && decide (b < a + n)

/-- An acquire read of completion words joins the commands that incremented them (R240). -/
def Team.joinWords (t : Team) (warp : Nat) (own : Bool) (at_ : List WordPlace) : Team :=
  { t with stale := t.stale.map fun x =>
      match x.cw with
      | some a => if at_.contains a && (!own || x.warp == warp) then { x with joined := warp :: x.joined } else x
      | none => x }

/-- Does the completion word at a place share bytes with an access at another? -/
def WordPlace.touches (w p : WordPlace) (size : Nat) : Bool :=
  match w, p with
  | .scratch a, .scratch b => meets a 8 b size
  | .memory a, .memory b => meets a 8 b size
  | .peer d a, .peer e b => d == e && meets a 8 b size
  | .host a, .host b => meets a 8 b size
  | _, _ => false

/-- A plain write to a completion word: reading it joins nothing any more (R240). -/
def Team.breakWords (t : Team) (at_ : WordPlace) (size : Nat) : Team :=
  { t with stale := t.stale.map fun x =>
      match x.cw with
      | some a => if a.touches at_ size then { x with cw := none } else x
      | none => x }

/-- The place of an access outside the scratchpad. -/
def wordPlace (rkind peer ia : Nat) : WordPlace :=
  if rkind = 3 then .host ia else if rkind = 2 then .peer peer ia else .memory ia
def LaneAccess.wordPlace (a : LaneAccess) : WordPlace := Machine.wordPlace a.rkind a.peer a.ia

/-- Step 3 of `fencex` (R200): the writes of the named paths that the warp has joined are visible to the
reading path. -/
def Team.drain (t : Team) (w : Warp) (src : Path → Bool) (dst : Path) : Team :=
  { t with stale := dropStale dst (fun x => src x.writer && x.joinedBy w) t.stale [] }

/-- The sectors owned by a team. -/
def ownedBy (k : TKey) (x : L1Sector) : Bool := x.owner == some k

end Sys2Proof.Machine
end

