-- ==== Sys2Proof/Machine/Recorder.lean ====
section
/-!
DEFINITION. The recorder (chapter 17): stamping points, event records (Table 17-1), the emitters'
buffers, the stele segments, causal ids.
-/

namespace Sys2Proof.Machine

/-! ## Time (R362) -/

/-- The counter of a stamping point: it counts ns from the last correction on, faster or slower by at most 200 ppm
until the correction is made, and so never steps backward. -/
def Emitter.counter (m : Emitter) (clock : Nat) : Nat :=
  let e := clock - m.synced
  let k := Nat.min m.slew.natAbs (e * 200 / 1000000)
  if m.slew < 0 then m.base + e - k else m.base + e + k

/-- TIME of a stamping point. -/
def State.timeAt (s : State) (e : Nat) : Word := BitVec.ofNat 64 ((s.emitter e).counter s.clock)

/-- UNC of a stamping point: 0xFFFF when it never had a lock or lost it more than 1 s ago (R362). -/
def State.uncAt (s : State) (e : Nat) : Nat :=
  let m := s.emitter e
  match m.lostAt with
  | some t => if s.clock ≤ t + 1000000000 then m.unc else 0xFFFF
  | none => if m.locked then m.unc else 0xFFFF

/-! ## Records (R358, R359) -/

/-- Where a record comes from: the emitter and the ENGINE and QUAD codes of Table 17-1. -/
structure Src where
  emitter : Nat
  engine : Nat
  quad : Nat := 0
  deriving DecidableEq, Repr

/-- An engine of a core. -/
def coreSrc (c engine : Nat) (quad : Nat := 0) : Src := ⟨c, engine, quad⟩

/-- An engine of a hub die. -/
def hubSrc (h engine : Nat) : Src := ⟨hubEmitter h engine, engine, 0⟩

/-- The management controller. -/
def mgmtSrc : Src := ⟨mgmtEmitter, 13, 0⟩

/-- The hub whose stele segment an emitter's records reach (R356); the management controller's reach
hub 0 (assumption 15). -/
def segmentOf (e : Nat) : Nat :=
  if e < 576 then e / 144 else if e = mgmtEmitter then 0 else (e - 576) / 16

/-- Word 3 of a record: UNC, AUX, KIND, KEEP, ENGINE, QUAD, CORE, DIE, HUBS (Table 17-1). -/
def recordHead (src : Src) (unc aux kind : Nat) (keep : Bool) : Word :=
  let onCore := src.emitter < 576
  let core := if onCore then src.emitter else 0x3FF
  let die := if onCore then src.emitter / 72 else segmentOf src.emitter
  atBit (unc % 65536) 48 ||| atBit (aux % 65536) 32 ||| atBit kind 22 ||| atBit (b2n keep) 21 |||
    atBit src.engine 17 ||| atBit src.quad 15 ||| atBit core 5 ||| atBit die 2 ||| atBit (b2n (!onCore)) 1

/-- The eight words of a record stamped now. -/
def State.recordWords (s : State) (src : Src) (kind : Nat) (keep : Bool) (aux : Nat) (cid parent : Word)
    (payload : List Word) : List Word :=
  [cid, parent, s.timeAt src.emitter, recordHead src (s.uncAt src.emitter) aux kind keep,
    payload.getD 0 0, payload.getD 1 0, payload.getD 2 0, payload.getD 3 0]

/-- KIND of a record. -/
def EventRecord.kind (r : EventRecord) : Nat := fieldOf (r.words.getD 3 0) 31 22

/-! ## The stele (R356, R357, R364) -/

/-- Records a segment holds. -/
def steleSlots : Nat := 2 ^ 28

/-- Writing a record to a segment: the oldest gives way when the segment is full. -/
def SteleSegment.append (g : SteleSegment) (r : List Word) : SteleSegment :=
  { g with records := (if g.records.length < steleSlots then g.records else g.records.drop 1) ++ [r]
           head := g.head + 1 }

/-- Writing a record to a hub's segment. -/
def State.toStele (s : State) (h : Nat) (r : List Word) : State :=
  s.modHub h fun u => { u with stele := u.stele.append r }

/-- The payload of a DROP record (Table 17-2). -/
def dropPayload (m : Emitter) : List Word :=
  [BitVec.ofNat 64 m.dropped, atBit m.firstKind 0 ||| atBit m.lastKind 16, m.firstTime, 0]

/-- Writing an emitter's oldest record to its segment (R357). -/
def State.writeOldest (s : State) (e : Nat) : State :=
  let m := s.emitter e
  match m.buffer with
  | [] => s
  | r :: rest =>
    (s.toStele (segmentOf e) r.words).modEmitter e fun m => { m with buffer := rest }

/-- Counting a dropped ordinary record (R357). -/
def State.countDrop (s : State) (e : Nat) (r : EventRecord) : State :=
  let s1 := s.modEmitter e fun m =>
    { m with dropped := m.dropped + 1
             firstKind := if m.dropped = 0 then r.kind else m.firstKind
             firstTime := if m.dropped = 0 then r.words.getD 2 0 else m.firstTime
             lastKind := r.kind }
  s1.modHub (segmentOf e) fun u => { u with stele := { u.stele with drop := satAdd 64 u.stele.drop 1 } }

/-- Records of a kind of buffer held by an emitter. -/
def Emitter.held (m : Emitter) (keep : Bool) : Nat := (m.buffer.filter fun r => r.keep == keep).length

/-- Making room for a must-keep record: the emitting agent stalls until space frees, so the oldest
records are written (R357); the buffer's length bounds the recursion. -/
def State.makeRoom (s : State) (e : Nat) : Nat → State
  | 0 => s
  | k + 1 => if (s.emitter e).held true < 8 then s else State.makeRoom (s.writeOldest e) e k

/-- Putting a must-keep record into its emitter's buffer. -/
def State.pushKeep (s : State) (e : Nat) (r : EventRecord) : State :=
  (s.makeRoom e 40).modEmitter e fun m => { m with buffer := m.buffer ++ [r] }

/-- The DROP record that goes before the next ordinary record when records were dropped; it carries the count and
resets it (assumption 129). -/
def State.pushDrop (s : State) (e : Nat) : State :=
  let m := s.emitter e
  if m.dropped = 0 then s
  else (s.pushKeep e ⟨s.recordWords ⟨e, 15, 0⟩ 0x00D true 0 0 0 (dropPayload m), true⟩).modEmitter e fun m =>
    { m with dropped := 0 }

/-- Putting a record into its emitter's buffer. -/
def State.push (s : State) (e : Nat) (r : EventRecord) : State :=
  if r.keep then s.pushKeep e r
  else if (s.emitter e).held false < 32 then
    (s.pushDrop e).modEmitter e fun m => { m with buffer := m.buffer ++ [r] }
  else s.countDrop e r

/-- Is a kind must-keep (Table 17-2)? -/
def keepKind (kind : Nat) : Bool := decide (kind ≤ 0x00F)

/-- Emitting a record (R356 to R359). -/
def State.emit (s : State) (src : Src) (kind aux : Nat) (cid parent : Word) (payload : List Word) : State :=
  let keep := keepKind kind
  s.push src.emitter ⟨s.recordWords src kind keep aux cid parent payload, keep⟩

/-- AUX bits 13:8: the context concerned (R388). -/
def auxCtx (ctx : Nat) : Nat := ctx <<< 8

/-! ## Causal ids (R360) -/

/-- Minting a causal id at a hub: device id, hub, count. -/
def State.mint (s : State) (h : Nat) : Word × State :=
  let n := (s.hub h).causes
  ((Config.devId ++ BitVec.ofNat 2 h ++ BitVec.ofNat 50 n : BitVec 64),
    s.modHub h fun u => { u with causes := n + 1 })

/-- The quad a warp slot belongs to (R7). -/
def quadOf (slot : Nat) : Nat := slot / 16

/-! ## The wait table (R363) -/

/-- CTX and WKIND of a wait as AUX holds them. -/
def waitAux (ctx : Nat) (w : WaitEntry) : Nat := w.kind % 256 + auxCtx ctx

/-- A wait begins: WAIT_BEGIN with A0, A1, A2 and OBJ (Table 17-9). -/
def State.emitWaitBegin (s : State) (src : Src) (ctx : Nat) (cid parent : Word) (w : WaitEntry) : State :=
  s.emit src 0x002 (waitAux ctx w) cid parent [w.a0, w.a1, w.a2, w.obj]

/-- A wait ends: WAIT_END with SERIAL and OBJ (Table 17-9). -/
def State.emitWaitEnd (s : State) (src : Src) (ctx : Nat) (cid parent serial : Word) (w : WaitEntry) : State :=
  s.emit src 0x003 (waitAux ctx w) cid parent [serial &&& 0xFFFFFFFFFFFF#64, w.obj, 0, 0]

end Sys2Proof.Machine
end

