-- ==== Sys2Proof/Machine/L2.lean ====
section
/-!
DEFINITION. Memory behind the cores: physical bytes, memory tags and poison (R8, R258, R345), the
base-die packet streams (R216 to R219), the page walk (R248, R249), and the L2 sectors (R196) with
their fills, writes, evictions and lost write-backs (R386).
-/

namespace Sys2Proof.Machine

/-! ## Physical memory -/

/-- What an unlisted byte of memory reads as (assumption 10). -/
def unlisted : Byte := 0

/-- The memory tag of a granule (PA div 32, R258). -/
def State.tagOf (s : State) (g : Nat) : BitVec 4 := sget 0 s.tags g

/-- Writing a memory tag. -/
def State.setTag (s : State) (g : Nat) (t : BitVec 4) : State := { s with tags := sset 0 s.tags g t }

/-- A byte of the carve-out above 756 GiB: the tags of two granules, the even one in the low nibble
(R258). -/
def State.tagByte (s : State) (c : Nat) : Byte := s.tagOf (2 * c + 1) ++ s.tagOf (2 * c)

/-- A byte of physical memory: of the store below 756 GiB, of the carve-out above it. -/
def State.memByte (s : State) (a : Nat) : Byte :=
  if a < Config.memTop then sget unlisted s.mem a else s.tagByte (a - Config.memTop)

/-- n bytes of physical memory. -/
def State.memBytes (s : State) (a n : Nat) : List Byte := (List.range n).map fun k => s.memByte (a + k)

/-- Writing bytes into a memory list from an address. -/
def memPut : List Host.Cell → Nat → List Byte → List Host.Cell
  | m, _, [] => m
  | m, a, b :: bs => memPut (sset unlisted m a b) (a + 1) bs

/-- Memory is in canonical form: addresses strictly rising, no entry equal to what an unlisted address
reads as. -/
def Memory.wf (m : List Host.Cell) : Bool := swf unlisted 0 m

/-- Writing bytes into the carve-out from its byte c: two tags for each byte. -/
def tagPut : List (Nat × BitVec 4) → Nat → List Byte → List (Nat × BitVec 4)
  | m, _, [] => m
  | m, c, b :: bs => tagPut (sset 0 (sset 0 m (2 * c) (b.setWidth 4)) (2 * c + 1) (b.extractLsb' 4 4)) (c + 1) bs

/-- Is a physical sector poisoned (R345)? -/
def State.physPoison (s : State) (ps : Nat) : Bool := s.poisoned.contains ps

/-! ## Base-die streams (R216 to R219) -/

/-- Stacks of the device, and streams of a stack (R8, R216). -/
def stackCount : Nat := 12
def streamsPerStack : Nat := 1024

/-- The stream that holds a physical sector (R216; the map is the implementation's, assumption 8). -/
def streamKey (ps : Nat) : Stream := ⟨Config.stackOf ps % stackCount, Config.streamOf ps % streamsPerStack⟩

/-- The state of a stream; an absent one is empty. -/
def State.stream (s : State) (q : Stream) : StreamState := (s.streams.find? (·.key == q)).getD { key := q }

/-- Replacing the state of a stream; an empty one is not listed. -/
def State.setStream (s : State) (x : StreamState) : State :=
  let rest := s.streams.filter (·.key != x.key)
  { s with streams := if x.requests.isEmpty && x.replies.isEmpty then rest else x :: rest }

/-- Tags in use: of requests sent and replies not yet arrived (R217). -/
def StreamState.tagsUsed (x : StreamState) : List Nat :=
  x.requests.filterMap (·.tag) ++ x.replies.map (·.tag)

/-- The lowest free tag of a stream (R217). -/
def StreamState.freeTag (x : StreamState) : Option Nat :=
  (List.range 8).find? fun t => !x.tagsUsed.contains t

/-- Giving the first waiting request the lowest free tag (R217). -/
def StreamState.assign (x : StreamState) : StreamState :=
  match x.freeTag with
  | none => x
  | some t =>
    match x.requests.span (·.tag.isSome) with
    | (sent, p :: rest) => { x with requests := sent ++ { p with tag := some t } :: rest }
    | (_, []) => x

/-- Presenting a request to its stream, in order (R217). -/
def State.send (s : State) (p : Packet) : State :=
  let x := s.stream (streamKey p.pa)
  s.setStream { x with requests := x.requests ++ [p] }.assign

/-- The granules a byte mask touches, and whether it covers a granule whole. -/
def granule (m : BitVec 128) (g : Nat) : BitVec 32 := m.extractLsb' (32 * g) 32
def granuleMask (m : BitVec 128) : BitVec 4 :=
  BitVec.ofNat 4 ((List.range 4).foldl (fun a g => a + if granule m g = 0 then 0 else 2 ^ g) 0)
def wholeGranules (m : BitVec 128) : Bool :=
  (List.range 4).all fun g => granule m g == 0 || granule m g == BitVec.allOnes 32

/-- The write packet of masked bytes: WR when only whole granules are carried, else MWR (R216, R219). -/
def writePacket (ps : Nat) (cause : BitVec 20) (data : List Byte) (mask : BitVec 128) (poison : Bool) : Packet :=
  { kind := if wholeGranules mask then .wr else .mwr, tag := none, gmask := granuleMask mask, pa := ps,
    cause := cause, data := data, mask := mask, poison := poison }

/-- The bytes and poison of a physical sector in memory. -/
def State.physData (s : State) (ps : Nat) : List Byte × Bool := (s.memBytes (128 * ps) 128, s.physPoison ps)

/-- A write performed on a sector and its poison: a write of the whole sector clears poison, a part
leaves it (R345). -/
def applyWrite (old : List Byte × Bool) (p : Packet) : List Byte × Bool :=
  (mergeBytes old.1 p.data p.mask, p.poison || (old.2 && p.mask != BitVec.allOnes 128))

/-- A physical sector as the base die will hold it once the writes before now have taken effect
(R218). -/
def State.physNow (s : State) (ps : Nat) : List Byte × Bool :=
  ((s.stream (streamKey ps)).requests.filter fun p => p.pa == ps && p.kind != .rd).foldl applyWrite
    (s.physData ps)

/-- Performing a write packet at the base die (R218, R219). -/
def State.physWrite (s : State) (p : Packet) : State :=
  let new := applyWrite (s.physData p.pa) p
  let low := decide (128 * p.pa < Config.memTop)
  { s with mem := if low then memPut s.mem (128 * p.pa) new.1 else s.mem
           tags := if low then s.tags else tagPut s.tags (128 * p.pa - Config.memTop) new.1
           poisoned := if new.2 then setInsert s.poisoned p.pa else setErase s.poisoned p.pa }

/-- A write under way means that data read before it may not enter L2 any more: outstanding fills from
the physical sector are dropped. -/
def Packet.cancel (ps : Nat) (p : Packet) : Packet := if p.pa == ps then { p with fill := none } else p
def Reply.cancel (ps : Nat) (r : Reply) : Reply := if r.pa == ps then { r with fill := none } else r
def State.cancelFills (s : State) (ps : Nat) : State :=
  { s with streams := s.streams.map fun x =>
      { x with requests := x.requests.map (Packet.cancel ps), replies := x.replies.map (Reply.cancel ps) } }

/-! ### Headers (Table 10-12) -/

/-- The code of a request's KIND. -/
def PacketKind.code : PacketKind → Nat
  | .rd => 1 | .wr => 2 | .mwr => 3

/-- A 64-bit header (Table 10-12): KIND, STREAM, TAG, GMASK, SECTOR, CAUSE, and the flag of a reply. -/
def packetHeader (kind : Nat) (ps tag : Nat) (gmask : BitVec 4) (cause : BitVec 20) (flag : Bool) : Word :=
  atBit kind 60 ||| atBit (streamKey ps).stream 50 ||| atBit (tag % 8) 47 ||| atBit gmask.toNat 43 |||
    atBit (Config.streamSector ps % 2 ^ 19) 24 ||| atBit cause.toNat 4 ||| atBit (b2n flag) 3

/-- The header of a request that has its tag, and of a reply. -/
def Packet.header (p : Packet) : Word := packetHeader p.kind.code p.pa (p.tag.getD 0) p.gmask p.cause false
def Reply.header (r : Reply) : Word := packetHeader (if r.read then 8 else 9) r.pa r.tag r.gmask r.cause r.flag

/-! ## L2 sectors (R196) -/

/-- The sector of an address space (`phys`: physical) if L2 holds it. -/
def State.l2? (s : State) (phys : Bool) (sec : Nat) : Option L2Sector :=
  s.l2.find? fun x => x.phys == phys && x.sector == sec

/-- Replacing a sector that L2 holds, at the most recently used place. -/
def State.l2Touch (s : State) (x : L2Sector) : State :=
  { s with l2 := x :: s.l2.filter fun y => !(y.phys == x.phys && y.sector == x.sector) }

/-- L2's sector of a physical sector, when it holds one under any intermediate address (R220), or under its
physical tag: the two are not coherent with each other (R368). -/
def State.l2Of (s : State) (phys : Bool) (ps : Nat) : Option L2Sector := s.l2.find? fun x => x.phys == phys && x.pa == ps

/-- The bytes and poison of a physical sector as an access finds them now: L2's, or memory's after the
writes under way. -/
def State.physLive (s : State) (phys : Bool) (ps : Nat) : List Byte × Bool :=
  match s.l2Of phys ps with
  | some x => (x.data, x.poison)
  | none => s.physNow ps

/-- A sector after a masked write at L2: a write of the whole sector clears its poison (R345). -/
def L2Sector.write (x : L2Sector) (data : List Byte) (mask : BitVec 128) (poison : Bool) (owner : Option TKey)
    (cause : BitVec 20 := 0) : L2Sector :=
  { x with data := mergeBytes x.data data mask
           dirty := x.dirty ||| mask
           poison := poison || (x.poison && mask != BitVec.allOnes 128)
           owner := owner
           cause := cause }

/-- A masked write of a sector that L2 holds; the sectors of other intermediate addresses of the same location
follow it (R220). -/
def State.l2Store (s : State) (x : L2Sector) (data : List Byte) (mask : BitVec 128) (poison : Bool)
    (owner : Option TKey) (cause : BitVec 20 := 0) : State :=
  let y := x.write data mask poison owner cause
  let s1 := { s with l2 := updIf (fun z => z.phys == x.phys && z.pa == x.pa) (fun z => { z with data := y.data, poison := y.poison }) s.l2 }
  s1.l2Touch y

/-- Removing a sector from L2. -/
def State.l2Drop (s : State) (phys : Bool) (sec : Nat) : State :=
  { s with l2 := s.l2.filter fun y => !(y.phys == phys && y.sector == sec) }

/-! ## The page walk (R248, R249) -/

/-- What a walk ends in. `poisoned`: a table entry was poisoned. -/
inductive Walk where
  | leaf (pa : Nat) (level : Nat)
  | missing
  | malformed
  | poisoned (sector : Nat)
  deriving DecidableEq, Repr

/-- The index bits of a level (Table 12-3). -/
def walkIndex (ia level : Nat) : Nat :=
  match level with
  | 0 => (ia >>> 44) % 256
  | 1 => (ia >>> 32) % 4096
  | 2 => (ia >>> 21) % 2048
  | _ => (ia >>> 16) % 32

/-- The size of a page mapped at a level (Table 12-3). -/
def pageSize (level : Nat) : Nat := if level ≤ 1 then 2 ^ 32 else if level = 2 then 2 ^ 21 else 2 ^ 16

/-- The bytes and poison of a physical sector as L2 holds it under its physical tag, or memory. -/
def State.readPhys (s : State) (ps : Nat) : List Byte × Bool := s.physLive true ps

/-- A page-table entry and whether it is poisoned. -/
def State.pte (s : State) (pa : Nat) : Word × Bool :=
  let x := s.readPhys (pa / 128)
  (wordOf ((x.1.drop (pa % 128)).take 8), x.2)

/-- Is a 64 KiB physical frame on a retired-frame list (R346)? -/
def State.frameRetired (s : State) (pa : Nat) : Bool :=
  s.hubs.any fun h => h.retiredFrames.contains (pa / 65536)

/-- A leaf entry at a level (R249, R346). -/
def State.walkLeaf (s : State) (e : Word) (ia level : Nat) : Walk :=
  let base := fieldOf e 47 8 * 256
  let size := pageSize level
  if level = 0 then .malformed
  else if base % size ≠ 0 ∨ base + size > Config.memTop then .malformed
  else if s.frameRetired (base + ia % size) then .malformed
  else .leaf (base + ia % size) level

/-- The walk from a table at a level; `fuel` is the number of levels left (R249). -/
def State.walkFrom (s : State) (ia : Nat) : Nat → Nat → Nat → Walk
  | 0, _, _ => .malformed
  | fuel + 1, level, table =>
    let a := table + 8 * walkIndex ia level
    let (e, bad) := s.pte a
    if bad then .poisoned (a / 128)
    else if !e.getLsbD 0 then .missing
    else if fieldOf e 63 48 ≠ 0 ∨ fieldOf e 7 2 ≠ 0 then .malformed
    else if e.getLsbD 1 then s.walkLeaf e ia level
    else if level = 3 then .malformed
    else State.walkFrom s ia fuel (level + 1) (fieldOf e 47 8 * 256)

/-- The walk of an IA from the translation root (R249). -/
def State.walk (s : State) (ia : Nat) : Walk := s.walkFrom ia 4 0 s.mgmt.transRoot.toNat

/-- The bytes of IA that an entry of a level covers (Table 12-3). -/
def entrySpan (level : Nat) : Nat :=
  match level with
  | 0 => 2 ^ 44
  | 1 => 2 ^ 32
  | 2 => 2 ^ 21
  | _ => 2 ^ 16

/-- The cached entries of an IA: of its page, or of a table on the way to it (R250). What falls in a retired
frame is no translation, cached or not (R346). -/
def State.tlbHit (s : State) (ia : Nat) : Option TlbEntry :=
  s.tlb.find? fun t => t.leaf && t.page == ia / pageSize t.level && !s.frameRetired (t.pa + ia % pageSize t.level)
def State.tlbTables (s : State) (ia : Nat) : List TlbEntry :=
  s.tlb.filter fun t => !t.leaf && t.page == ia / entrySpan t.level

/-- Caching a valid entry. -/
def State.tlbPut (s : State) (e : TlbEntry) : State := if s.tlb.contains e then s else { s with tlb := e :: s.tlb }

/-- Caching a valid translation. -/
def State.tlbAdd (s : State) (ia pa level : Nat) : State :=
  s.tlbPut { level := level, page := ia / pageSize level, pa := pa - pa % pageSize level }

/-- The valid entries that lead to a further table on a walk from a table at a level. -/
def State.walkTables (s : State) (ia : Nat) : Nat → Nat → Nat → List TlbEntry
  | 0, _, _ => []
  | fuel + 1, level, table =>
    let (e, bad) := s.pte (table + 8 * walkIndex ia level)
    if bad || !e.getLsbD 0 || e.getLsbD 1 || decide (fieldOf e 63 48 ≠ 0 ∨ fieldOf e 7 2 ≠ 0 ∨ level = 3) then []
    else
      { level := level, page := ia / entrySpan level, pa := fieldOf e 47 8 * 256, leaf := false } ::
        State.walkTables s ia fuel (level + 1) (fieldOf e 47 8 * 256)

/-- A cached entry with an uncorrectable error is used: the access meets poison, and the entry is fetched again
(R342, assumption 124). -/
def State.spoiltEntry (s : State) (t : TlbEntry) : Walk × State :=
  (.poisoned (t.pa / 128), { s with tlb := s.tlb.filter (· != t) })

/-- A walk of an IA from a table of a level; its valid entries are cached (R249, R250). -/
def State.walkStart (s : State) (ia level table : Nat) : Walk × State :=
  let s1 := (s.walkTables ia (4 - level) level table).foldl State.tlbPut s
  match s.walkFrom ia (4 - level) level table with
  | .leaf pa l => (.leaf pa l, s1.tlbAdd ia pa l)
  | w => (w, s1)

/-- A walk of an IA: from the translation root, or from a table that a cached entry names, which may be
used or not (free, assumption 5). -/
def State.walkCached (s : State) (ia : Nat) : Walk × State :=
  match s.tlbTables ia with
  | [] => s.walkStart ia 0 s.mgmt.transRoot.toNat
  | ts =>
    let (n, s1) := s.draw
    match ts[n % (ts.length + 1)]? with
    | none => s1.walkStart ia 0 s.mgmt.transRoot.toNat
    | some t => if t.bad then s1.spoiltEntry t else s1.walkStart ia (t.level + 1) t.pa

/-- Translating an IA: a cached translation may be used or not (free, assumption 5). -/
def State.translate (s : State) (ia : Nat) : Walk × State :=
  match s.tlbHit ia with
  | none => s.walkCached ia
  | some t =>
    let (n, s1) := s.draw
    if n % 2 ≠ 0 then s1.walkCached ia
    else if t.bad then s1.spoiltEntry t
    else (.leaf (t.pa + ia % pageSize t.level) t.level, s1)

/-- Do two sectors of IA name one physical sector (R220)? Pages are at least 64 KiB, 512 sectors. -/
def State.sameSector (s : State) (a b : Nat) : Bool :=
  a == b || (a % 512 == b % 512 && (match s.walk (128 * a), s.walk (128 * b) with
    | .leaf p _, .leaf q _ => p == q
    | _, _ => false))

/-- Do two accesses of local memory, each within one sector, touch one location? -/
def State.meetsAt (s : State) (a n b m : Nat) : Bool :=
  meets a n b m || (a / 128 != b / 128 && meets (a % 128) n (b % 128) m && s.sameSector (a / 128) (b / 128))

/-- Do two accesses of local memory lie in one 512-byte line of it? -/
def State.sameLine (s : State) (a b : Nat) : Bool := s.sameSector (a / 512 * 4) (b / 512 * 4)

/-! ## Eviction and write-back (R196, R343, R386) -/

/-- Lines of 512 bytes that L2 holds, most recently used first. -/
def State.l2Lines (s : State) : List (Bool × Nat) := (s.l2.map fun x => (x.phys, x.sector / 4)).eraseDups

/-- The report of a write of Dirty data that was discarded (R386): a late PAGE_FATAL when its team is
known and not yet counted complete, else WB_LOST. -/
def State.lostWrite (s : State) (ia : Nat) (mask : BitVec 128) (owner : Option TKey) : State :=
  match owner.bind s.team? with
  | some t =>
    let (id, s1) := s.takeId
    { s1 with lateFaults := s1.lateFaults ++
        [⟨id, t.key, { code := 0x18, pc := 0, cause := 0, addr := BitVec.ofNat 64 ia, aux := 1, late := true }, false, none⟩] }
  | none =>
    let aux := match owner with | some k => auxCtx k.ctx | none => 0
    let tid := match owner with | some k => k.tid | none => 0
    s.emit (hubSrc (Config.lineHub false (ia / 512) % 4) 8) 0x00F aux 0 0
      [BitVec.ofNat 64 ia, mask.extractLsb' 0 64, mask.extractLsb' 64 64, BitVec.ofNat 64 tid]

/-- Writing the dirty bytes of an L2 sector toward memory (R196, R249, R386); data that was read before it, for
a fill under another address, enters L2 no more. -/
def State.l2WriteBack (s : State) (x : L2Sector) : State :=
  let put (s : State) (ps : Nat) : State := (s.cancelFills ps).send (writePacket ps x.cause x.data x.dirty x.poison)
  if x.dirty = 0 then s
  else if x.phys then put s x.sector
  else
    let (w, s1) := s.translate (128 * x.sector)
    match w with
    | .leaf pa _ => put s1 (pa / 128)
    | _ => s1.lostWrite (128 * x.sector) x.dirty x.owner

/-- Ways of a line's set that hold lines: 14 while its hub is in DEC-TED mode, and during a change of its code:
ways 7 and 15 are given up first, and come back last (R343). -/
def State.l2Ways (s : State) (l : Bool × Nat) : Nat :=
  let u := s.hub (Config.lineHub l.1 l.2 % 4)
  if u.decTed || u.changing.isSome then 14 else 16

/-- Removing the sectors of a line, written back first. -/
def State.l2Evict (s : State) (l : Bool × Nat) : State :=
  let gone := s.l2.filter fun x => x.phys == l.1 && x.sector / 4 == l.2
  let s1 := { s with l2 := s.l2.filter fun x => !(x.phys == l.1 && x.sector / 4 == l.2) }
  gone.foldl State.l2WriteBack s1

/-- The sets of the L2: 128 slices of 4 MiB with 16 ways of 512-byte lines (R196). -/
def l2Sets : Nat := 128 * 512

/-- The lines of a list that share a line's set, most recently used first: its hub's, with its index. -/
def sameSet (lines : List (Bool × Nat)) (l : Bool × Nat) : List (Bool × Nat) :=
  lines.filter fun x => Config.lineHub x.1 x.2 % 4 == Config.lineHub l.1 l.2 % 4 &&
    Config.l2Set x.1 x.2 % l2Sets == Config.l2Set l.1 l.2 % l2Sets

/-- Making room for a line: when its set is full, the set's least recently used line leaves
(DESIGN CHOICE, assumption 33). At most 14 lines in all fit in every set whatever the index function. -/
def State.l2Room (s : State) (phys : Bool) (line : Nat) : State :=
  let lines := s.l2Lines
  if lines.length ≤ 14 ∨ lines.contains (phys, line) then s
  else
    let set := sameSet lines (phys, line)
    if set.length < s.l2Ways (phys, line) then s
    else match set.getLast? with
      | some l => s.l2Evict l
      | none => s

/-- The sector that a fill of physical sector `ps` gives: what L2 holds of the location under another
address, else the data filled from memory. -/
def State.filled (s : State) (phys : Bool) (sec ps : Nat) (data : List Byte) (poison : Bool) : L2Sector :=
  match s.l2Of phys ps with
  | some y => ⟨phys, sec, ps, y.data, 0, y.poison, none, 0⟩
  | none => ⟨phys, sec, ps, data, 0, poison, none, 0⟩

/-- Installing a sector filled from memory. -/
def State.l2Install (s : State) (phys : Bool) (sec ps : Nat) (data : List Byte) (poison : Bool) : State :=
  (s.l2Room phys (sec / 4)).l2Touch (s.filled phys sec ps data poison)

/-! ## Code that has been written (R38) -/

/-- The bytes of a sector of IA as L2 or memory holds them now, when its page translates. -/
def State.iaNow (s : State) (sec : Nat) : Option (List Byte) :=
  match s.l2? false sec with
  | some x => some x.data
  | none => match s.walk (128 * sec) with
    | .leaf pa _ => some (s.physLive false (pa / 128)).1
    | _ => none

/-- Does a sector of IA lie in a range that code may be fetched from? -/
def State.isCode (s : State) (sec : Nat) : Bool :=
  s.ctxs.any fun c => c.rangeList.any fun r => r.en && r.pex && decide (r.kind ≤ 1) &&
    decide (r.offset ≤ 128 * sec) && decide (128 * sec < r.offset + (r.limit - r.base))

/-- Before a write to a sector of code, whoever makes it: what it held stays visible to fetch until an `icinv`
(R38). -/
def State.noteCode (s : State) (sec : Nat) : State :=
  if !s.isCode sec then s
  else match s.iaNow sec with
    | none => s
    | some bs => if s.codeOld.contains (sec, bs) then s else { s with codeOld := (sec, bs) :: s.codeOld }

/-! ## Reads and writes performed at L2 at once (foundry, recorder, host, fetch, frames) -/

/-- Bringing a sector of IA or physical space into L2; the walk that failed otherwise. -/
def State.l2Bring (s : State) (phys : Bool) (sec : Nat) : Except Walk L2Sector × State :=
  match s.l2? phys sec with
  | some x => (.ok x, s.l2Touch x)
  | none =>
    let (w, s1) := if phys then (Walk.leaf (128 * sec) 3, s) else s.translate (128 * sec)
    match w with
    | .leaf pa _ =>
      let d := s1.physNow (pa / 128)
      let s2 := (s1.cancelFills (pa / 128)).l2Install phys sec (pa / 128) d.1 d.2
      (.ok (s1.filled phys sec (pa / 128) d.1 d.2), s2)
    | w => (.error w, s1)

/-- The sectors that a byte range touches, with the offset and length in each. -/
def sectorsOf (a n : Nat) : List (Nat × Nat × Nat) :=
  if n = 0 then [] else
  (List.range ((a + n - 1) / 128 - a / 128 + 1)).map fun k =>
    let sec := a / 128 + k
    let lo := Nat.max a (128 * sec)
    let hi := Nat.min (a + n) (128 * sec + 128)
    (sec, lo - 128 * sec, hi - lo)

/-- What a read at L2 answers: bytes, and whether any byte came from a poisoned sector; or the walk
that failed and the first address of its sector. -/
inductive L2Read where
  | bytes (bs : List Byte) (poison : Option Nat)
  | failed (w : Walk) (ia : Nat)
  deriving DecidableEq, Repr

/-- Reading a list of sector parts, in order. -/
def State.l2ReadParts (s : State) (phys : Bool) : List (Nat × Nat × Nat) → L2Read × State
  | [] => (.bytes [] none, s)
  | (sec, off, len) :: l =>
    match s.l2Bring phys sec with
    | (.error w, s1) => (.failed w (128 * sec), s1)
    | (.ok x, s1) =>
      match State.l2ReadParts s1 phys l with
      | (.bytes bs p, s2) =>
        (.bytes ((x.data.drop off).take len ++ bs) (if x.poison then some (128 * sec) else p), s2)
      | r => r

/-- Reading bytes at L2. -/
def State.l2Read (s : State) (phys : Bool) (a n : Nat) : L2Read × State := s.l2ReadParts phys (sectorsOf a n)

/-- Performing a masked write of a sector at L2; the walk that failed otherwise. -/
def State.l2Write (s : State) (phys : Bool) (sec : Nat) (data : List Byte) (mask : BitVec 128)
    (poison : Bool := false) (owner : Option TKey := none) (cause : BitVec 20 := 0) : Option Walk × State :=
  match (if phys then s else s.noteCode sec).l2Bring phys sec with
  | (.error w, s1) => (some w, s1)
  | (.ok x, s1) => (none, s1.l2Store x data mask poison owner cause)

/-- A sector image holding bytes from an offset. -/
def sectorImage (off : Nat) (bs : List Byte) : List Byte := putBytes (List.replicate 128 0) off bs

/-- Writing the parts of a byte range at L2, in order; stops at the first sector whose walk fails. -/
def State.l2WriteParts (s : State) (phys : Bool) (bs : List Byte) : List (Nat × Nat × Nat) → Option Walk × State
  | [] => (none, s)
  | (sec, off, len) :: l =>
    match s.l2Write phys sec (sectorImage off (bs.take len)) (byteMask off len) with
    | (some w, s1) => (some w, s1)
    | (none, s1) => State.l2WriteParts s1 phys (bs.drop len) l

/-- Writing bytes at L2. -/
def State.l2Put (s : State) (phys : Bool) (a : Nat) (bs : List Byte) : Option Walk × State :=
  s.l2WriteParts phys bs (sectorsOf a bs.length)

/-- Writing bytes that carry poison marks, sector by sector: a sector that receives a marked byte is
poisoned (R345); nothing is written where a page does not translate (assumption 25). -/
def State.l2PutMarked (s : State) (a : Nat) (bs : List (Byte × Bool)) : State :=
  (sectorsOf a bs.length).foldl (fun s x =>
    let part := (bs.drop (128 * x.1 + x.2.1 - a)).take x.2.2
    (s.l2Write false x.1 (sectorImage x.2.1 (part.map (·.1))) (byteMask x.2.1 x.2.2) (part.any (·.2))).2) s

/-- Reading bytes with the poison marks of their sectors; none where a page does not translate. -/
def State.l2GetMarked (s : State) (a n : Nat) : List (Option (Byte × Bool)) × State :=
  (sectorsOf a n).foldl (fun acc x =>
    match acc.2.l2Bring false x.1 with
    | (.ok y, s1) => (acc.1 ++ ((y.data.drop x.2.1).take x.2.2).map (fun b => some (b, y.poison)), s1)
    | (.error _, s1) => (acc.1 ++ List.replicate x.2.2 none, s1)) ([], s)

/-- Every sector of a byte range can be brought into L2 (nothing is written). -/
def State.l2Ready (s : State) (a n : Nat) : Bool :=
  (sectorsOf a n).all fun (sec, _, _) =>
    (s.l2? false sec).isSome || (match s.walk (128 * sec) with | .leaf _ _ => true | _ => false)

/-- Reading one 64-bit word of IA at L2, 0 when it cannot be read. -/
def State.l2Word (s : State) (ia : Nat) : Option Word × State :=
  match s.l2Read false ia 8 with
  | (.bytes bs none, s1) => (some (wordOf bs), s1)
  | (_, s1) => (none, s1)

/-! ## Memory tags at L2 (R258 to R260) -/

/-- The physical granule of an IA; the walk that failed otherwise. -/
def State.granuleOf (s : State) (ia : Nat) : Except Walk Nat × State :=
  let (w, s1) := s.translate ia
  match w with
  | .leaf pa _ => (.ok (pa / 32), s1)
  | w => (.error w, s1)

/-- What a tag check finds (R259, R345). -/
inductive TagCheck where
  | same | differs | poisoned
  deriving DecidableEq, Repr

/-- The fault of a check: none, the code of a mismatch, or POISON. -/
def TagCheck.code (c : TagCheck) (differs : Nat) : Nat :=
  match c with
  | .same => 0
  | .differs => differs
  | .poisoned => 0x19

/-- Is the tag of a granule poisoned: does the sector of the carve-out that holds it carry poison (R345)? -/
def State.tagPoisoned (s : State) (g : Nat) : Bool := s.physPoison (Config.memTop / 128 + g / 256)

/-- The granules that a physical range covers. -/
def granulesOf (pa n : Nat) : List Nat := (List.range ((pa + n - 1) / 32 - pa / 32 + 1)).map (pa / 32 + ·)

/-- Does every granule that a physical range covers carry the pointer tag (R259)? A poisoned tag is poison. -/
def State.checkTags (s : State) (pa n : Nat) (t : BitVec 4) : TagCheck :=
  if (granulesOf pa n).any s.tagPoisoned then .poisoned
  else if (granulesOf pa n).all fun g => s.tagOf g == t then .same else .differs

end Sys2Proof.Machine
end

