-- ==== Sys2Proof/Machine/Awaits.lean ====
section
/-!
DEFINITION. What a wait-table entry names (Table 17-5): the awaited set of each kind of wait, computed
from the state as it is. The AWAIT fields are rewritten whenever they change (R363), so an entry read
from the table is the stored one with its awaited set of that moment.
-/

namespace Sys2Proof.Machine

/-! ## Counters and sleep -/

/-- The code of a path (Table 4-6). -/
def Path.code : Path → Nat
  | .ld => 0 | .st => 1 | .sp => 2 | .cp => 3 | .mx => 4 | .rm => 5

/-- The path of a code (Table 4-6). -/
def pathOfNat : Nat → Path
  | 0 => .ld | 1 => .st | 2 => .sp | 3 => .cp | 4 => .mx | _ => .rm

/-- The cycles of its core's die that a sleeping warp has left (R81). -/
def State.sleepRemain (s : State) (w : Warp) : Nat :=
  let clk := s.mgmt.dieClk.getD (w.core / Config.coresPerDie) 1900
  w.sleepLeft - (s.clock - w.sleepFrom) * clk / 1000

/-! ## Barriers (R79, R80) -/

/-- A barrier of a team. -/
def Team.barrier (t : Team) (b : Nat) : Barrier := t.barriers.getD b {}

/-- The entry of a barrier wait: barrier, awaited warps, PHASE, the lowest awaited warp's serial. -/
def Team.barrierWait (t : Team) (b : Nat) : WaitEntry :=
  let x := t.barrier b
  let awaited := t.warps.filter fun w => w.live && !x.arrived.contains w.num
  { kind := 1, obj := BitVec.ofNat 64 b
    a0 := awaited.foldl (fun m w => m ||| (1#64 <<< w.num)) 0
    a1 := x.phase.setWidth 64
    a2 := (awaited.head?.map (·.serial)).getD 0 }

/-! ## Batons (R151, Table 8-2) -/

/-- The baton of an array for a warp. -/
def Team.batonIdx (t : Team) (w : Warp) (arr : Bool) : Nat := 2 * t.half w + b2n arr
def Team.baton (t : Team) (w : Warp) (arr : Bool) : Baton := t.batons.getD (t.batonIdx w arr) .free

/-- The warps of a core that wait in `bton` on an array. -/
def Team.batonWaiters (t : Team) (core : Nat) (arr : Bool) : List Warp :=
  t.warps.filter fun w => w.core == core && w.act == .bton arr

/-- Holder or recipient. -/
def Baton.warp : Baton → Nat
  | .free => 0
  | .held n | .passed n => n

/-- The baton word (Table 8-2). -/
def Team.batonWord (t : Team) (w : Warp) (arr : Bool) : Word :=
  let b := t.baton w arr
  let st := match b with | .free => 0 | .held _ => 1 | .passed _ => 2
  atBit (t.batonWaiters w.core arr).length 16 ||| atBit b.warp 2 ||| atBit st 0

/-- The entry of a warp that waits in `bton`. -/
def Team.batonWait (t : Team) (w : Warp) (arr : Bool) : WaitEntry :=
  let b := t.baton w arr
  { kind := 4, obj := BitVec.ofNat 64 (b2n arr), a0 := BitVec.ofNat 64 b.warp
    a1 := match b with
      | .free => 0
      | _ => ((t.warp? b.warp).map (·.serial)).getD 0
    a2 := t.batonWord w arr }

/-! ## Finish scopes (R293) -/

/-- Handle of an entry (R284). -/
def ScopeEntry.handle (e : ScopeEntry) : Word := atBit e.gen 8 ||| atBit e.idx 0

/-- A handle is live: allocated, and its generation matches (R284). -/
def Context.scope? (c : Context) (h : Word) : Option ScopeEntry :=
  if h = 0 then none else c.scopes.find? fun e => e.allocated && e.handle == h

/-! ## Relay operations and `cbar` (R305, R310, R311) -/

/-- The device of a rank; the switch has none. -/
def Collective.dev (c : Collective) (rank : Nat) : Nat := c.peers.getD rank 0xFFF

/-- Operations of a warp that have not completed, oldest first. -/
def State.relayOf (s : State) (k : WKey) : List RelayOp := s.relayOps.filter (·.key == k)

/-- The rank that an operation sends to (R308, R309). -/
def RelayOp.sendTo (o : RelayOp) : Nat := match o.kind with | .reduce => o.fwd.getD 0 | _ => o.peer

/-- The peer of an operation as the wait table and the watchdog name it. -/
def RelayOp.awaits (o : RelayOp) : Nat := if o.kind == .reduce && o.received then o.sendTo else o.peer
def RelayOp.sending (o : RelayOp) : Bool := o.kind == .send || (o.kind == .reduce && o.received)

/-- A2 of a wait on an operation: step, slot, channel, kind (Table 17-5). -/
def RelayOp.word (o : RelayOp) : Word :=
  atBit o.step 32 ||| atBit o.slot 24 ||| atBit o.chan 21 ||| atBit (b2n o.sending) 19

/-- The wait of a warp that has 64 incomplete operations (WKIND 5). -/
def limitWait (c : Collective) (o : RelayOp) : WaitEntry :=
  { kind := 5, obj := c.tag, a0 := BitVec.ofNat 64 o.awaits, a1 := BitVec.ofNat 64 (c.dev o.awaits), a2 := o.word }

/-- The wait of `cwait` and `cdone` (WKIND 6). -/
def joinWait (c : Collective) (open_ : List RelayOp) (sig : Word) : WaitEntry :=
  match open_ with
  | o :: _ => { kind := 6, obj := sig, a0 := BitVec.ofNat 64 open_.length, a1 := BitVec.ofNat 64 o.awaits, a2 := o.word }
  | [] => { kind := 6, obj := c.tag }

/-- `cbar` instructions that a relay team has executed. -/
def Collective.arrivedAt (c : Collective) (rank chan : Nat) : Nat :=
  ((c.cbars.find? fun x => x.1 == rank && x.2.1 == chan).map (·.2.2)).getD 0

/-- Counting one more. -/
def Collective.arrive (c : Collective) (rank chan : Nat) : Collective :=
  { c with cbars := (rank, chan, c.arrivedAt rank chan + 1) :: c.cbars.filter fun x => !(x.1 == rank && x.2.1 == chan) }

/-- The relay teams that have executed fewer than n, as ranks in increasing order. -/
def Collective.lateAt (c : Collective) (n : Nat) : List Nat :=
  (List.range c.nranks).flatMap fun r => (List.range c.chans).filterMap fun ch =>
    if c.arrivedAt r ch < n then some r else none

/-- The wait of `cbar` (WKIND 7). -/
def cbarWait (c : Collective) (n : Nat) : WaitEntry :=
  { kind := 7, obj := c.tag, a0 := BitVec.ofNat 64 (c.lateAt n).length, a1 := BitVec.ofNat 64 ((c.lateAt n).headD 0)
    a2 := BitVec.ofNat 64 n }

/-! ## Parked warps (R254) -/

/-- The key of a warp of a team. -/
def Team.wkey (t : Team) (w : Warp) : WKey := ⟨t.ctx, t.tid, w.num⟩

/-- The 64 KiB page of an address. -/
def pageOf (ia : Nat) : Nat := ia / 65536

/-- The page an operation is parked on; of one re-issued from a pending record, that of its first access that
is not done. -/
def MemOp.awaitedPage (o : MemOp) : Option Nat :=
  match o.parked with
  | p :: _ => some p
  | [] => if o.restored then (o.lanes.find? fun a => !a.done && decide (a.rkind ≤ 1)).map fun a => pageOf a.ia else none

/-- The wait-table entry of a parked warp: the page of its first parked request and the REPEAT of the
page's hub entry (R254, Table 17-5). -/
def State.parkedEntry (s : State) (k : WKey) : Option WaitEntry :=
  (s.ops.findSome? fun o => if o.key == k && !o.dropped then o.awaitedPage else none).map fun p =>
    let repeats := ((s.pageFaults.find? fun f => f.page.ctx == k.ctx && f.page.page == p).map (·.repeats)).getD 0
    { kind := 9, obj := BitVec.ofNat 64 p, a0 := BitVec.ofNat 64 repeats }

/-! ## The awaited set now -/

/-- Of a set of paths, bit k for path code k, those on which the warp has operations outstanding (R198). -/
def Warp.stillAwaited (w : Warp) (paths : Word) : Word :=
  (List.range 6).foldl (fun (x : Word) k => if paths.getLsbD k && w.counter (pathOfNat k) != 0 then x ||| (1#64 <<< k) else x) 0

/-- The awaited set of a warp's entry as it is now (R80, R151, R293, R305, R363). -/
def State.awaitNow (s : State) (t : Team) (w : Warp) (e : WaitEntry) : WaitEntry :=
  let coll := t.relay.bind fun r => s.coll? r.tag
  let relay (f : Collective → List RelayOp → WaitEntry) : WaitEntry :=
    match coll with
    | some c => f c (s.relayOf (t.wkey w))
    | none => e
  let now : WaitEntry := match w.act, e.kind with
    | .barWait b, 1 => t.barrierWait b
    | .bton arr, 4 => t.batonWait w arr
    | .scopeWait _ h, 2 => { e with a0 := BitVec.ofNat 64 ((((s.ctx t.ctx).scope? h).map (·.count)).getD 0) }
    | .cbar, 7 => relay fun c _ => cbarWait c w.cbars
    | _, 5 => relay fun c l => match l with | o :: _ => limitWait c o | [] => e
    | _, 6 => relay fun c l => if l.isEmpty then e else joinWait c l e.obj
    | _, 8 => { e with a1 := BitVec.ofNat 64 (w.counter (pathOfNat e.obj.toNat)) }
    | _, 10 => { e with obj := w.stillAwaited e.obj }
    | _, 9 => (s.parkedEntry (t.wkey w)).getD e
    | _, 14 => { e with a0 := BitVec.ofNat 64 (s.sleepRemain w) }
    | _, _ => e
  { now with since := e.since }

end Sys2Proof.Machine
end

