-- ==== Sys2Proof/Machine/WatchFilter.lean ====
section
/-!
DEFINITION. The L2 watch filter (R261, R262): what a slot covers, who performs an access, and what a hit at
L2 does.
-/

namespace Sys2Proof.Machine

/-- Does a slot see an access of this kind to these bytes? -/
def WatchSlot.covers (x : WatchSlot) (kind ia n : Nat) : Bool :=
  x.kinds.getLsbD kind && decide (ia < x.hi) && decide (x.lo < ia + n)

/-- The armed slots of a warp, with their numbers. -/
def Warp.slots (w : Warp) : List (Nat × WatchSlot) :=
  w.watch.zipIdx.filterMap fun (x, k) => x.map fun x => (k, x)

/-- Who performs an access at L2: its team, whether it is an engine, its ENGINE code, warp serial (0 for
an engine), causal id and that id's parent. -/
structure Party where
  team : Option TKey
  isEngine : Bool
  code : Nat
  serial : Word
  cause : Word
  parent : Word
  issued : Option Nat := none

/-- The WATCH event of a hit by another agent (Table 17-9), and the slot's HITS. -/
def State.watchEvent (s : State) (t : Team) (w : Warp) (k : Nat) (p : Party) (kind at_ : Nat) : State :=
  let s1 := s.emit (hubSrc (Config.lineHub false (at_ / 512) % 4) 7) 0x007 (p.code + auxCtx t.ctx) p.cause p.parent
    [(w.serial &&& 0xFFFFFFFFFFFF#64) ||| atBit k 48 ||| atBit (2 ^ kind) 56, p.serial &&& 0xFFFFFFFFFFFF#64, p.cause,
      BitVec.ofNat 64 at_]
  s1.modWarp (t.wkey w) fun w =>
    { w with watch := (w.watch.zipIdx).map fun (x, j) =>
        if j = k then x.map fun x => { x with hits := satAdd 32 x.hits 1 } else x }

/-- The L2 filter (R262): an access performed at L2 against the dv slots of the device. The accesses of a
team's own warps were checked at issue; one of its engines hits with a deferred fault (the answer is
true); every other hit is an event. A slot watches operations issued after its arming; in the 200 hub
cycles after it, 84 ns at 2.4 GHz (R2), another agent's access hits or not (free, R267). -/
def State.watchL2 (s : State) (p : Party) (kind ia n : Nat) (lane : Option Nat) : Bool × State :=
  s.teams.foldl (fun acc t =>
    let own := p.team == some t.key
    if own && !p.isEngine then acc
    else t.warps.foldl (fun acc w => w.slots.foldl (fun acc (k, x) =>
      let seen := match lane with | some l => x.lanes.has l | none => true
      if x.scope == 2 && seen && x.covers kind ia n && p.issued.all (fun i => decide (x.armedAt ≤ i)) then
        if own then (true, acc.2)
        else
          let (d, s1) := if s.clock < x.armedOn + 84 then acc.2.draw else (0, acc.2)
          (acc.1, if d % 2 = 0 then s1.watchEvent t w k p kind (Nat.max ia x.lo) else s1)
      else acc) acc) acc) (false, s)

/-- An access of the foundry, or of the writer of a fault queue, at L2 (R261): an engine of the device that
belongs to no team. Where the access has no packet, its causal id reads 0 (assumption 103). -/
def State.foundrySaw (s : State) (kind ia n : Nat) (cause parent : Word) : State :=
  (s.watchL2 { team := none, isEngine := true, code := 10, serial := 0, cause := cause, parent := parent } kind ia n none).2

end Sys2Proof.Machine
end

