-- ==== Sys2Proof/Machine/Ops.lean ====
section
/-!
DEFINITION. The shared operations of the machine: waits and their entries (R363), the fault queue
(R318), fault records (R319), taking a fault (R315, R316), losing a context (R334), and resuming a
halted warp (R315, R322).
-/

namespace Sys2Proof.Machine

/-! ## Frames (R332) -/

/-- Rounding up to a multiple. -/
def roundUp (n m : Nat) : Nat := (n + m - 1) / m * m

/-- B, the size of a warp block (Table 15-5). -/
def Kernel.blockSize (k : Kernel) : Nat := roundUp (4096 + k.n * 16 + k.n * k.width * 8) 4096

/-- The IA of a warp's block in its team's frame. -/
def Team.block (t : Team) (w : Nat) : Nat := t.frame + 4096 + w * t.kernel.blockSize

/-- The IA of a register's backing slot (R96). -/
def Team.slotOf (t : Team) (w v : Nat) : Nat := t.block w + 4096 + t.kernel.n * 16 + v * t.kernel.width * 8

/-- The frame's size: header, warp blocks, scratchpad image, tiles, quarantine and pending regions. -/
def Kernel.frameSize (k : Kernel) : Nat :=
  4096 + k.warps * k.blockSize + k.scratch / 2048 * 2176 + k.tiles * (if k.paired then 2 else 1) * 36864 +
    65536 + 65536

/-- A round trip, or the release or acquire action of an instruction, is under way: it completes before
the warp stops (Table 15-11). -/
def Warp.inTrip (w : Warp) : Bool :=
  match w.act with
  | .scopeTrip _ | .emitTrip _ _ | .sigTrip | .icinv _ _ => true
  | .run => !w.parked && (match w.wait with | some e => e.kind == 10 || e.kind == 15 | none => false)
  | _ => false

/-! ## Causes of a warp -/

/-- The record source of a warp: its core's control thread, or another engine of the core. -/
def Warp.src (w : Warp) (engine : Nat := 0) : Src := coreSrc w.core engine (quadOf w.slot)

/-- The parent of a causal id in a team: the warp's own id has the team's, an engine operation's the
warp's (R360). -/
def parentOf (t : Team) (w : Warp) (cause : Word) : Word := if cause == w.cause then t.cause else w.cause

/-- The causal parent of what a warp's engine operation records: the warp, or the team where the record carries the
warp's own id (R360, R361). -/
def State.opParent (s : State) (k : WKey) (cause : Word) : Word :=
  match s.team? k.team, s.warp? k with
  | some t, some w => parentOf t w cause
  | _, _ => 0

/-! ## Waits (R363) -/

/-- A warp begins to wait: its entry is written and WAIT_BEGIN emitted; a warp that already waits has its
entry rewritten without a record. While a warp is parked its entry names the page (R254), and the wait of
its activity is kept beside it. -/
def State.beginWait (s : State) (k : WKey) (e : WaitEntry) : State :=
  match s.team? k.team, s.warp? k with
  | some t, some w =>
    if w.parked && e.kind != 9 then s.modWarp k fun w => { w with stopped := some e }
    else match w.wait with
    | some old => s.modWarp k fun w => { w with wait := some { e with since := old.since } }
    | none =>
      let e := { e with since := s.timeAt w.core }
      (s.emitWaitBegin w.src k.ctx w.cause t.cause e).modWarp k fun w => { w with wait := some e }
  | _, _ => s

/-- The warp's entry is given up: WKIND becomes 0 and WAIT_END is emitted, with what the entry names by then. -/
def State.dropWait (s : State) (k : WKey) : State :=
  match s.team? k.team, s.warp? k with
  | some t, some w =>
    match w.wait with
    | none => s
    | some e =>
      (s.emitWaitEnd w.src k.ctx w.cause t.cause w.serial (s.awaitNow t w e)).modWarp k fun w => { w with wait := none }
  | _, _ => s

/-- What the warp waited for has come; the entry of a parked warp stays. -/
def State.endWait (s : State) (k : WKey) : State :=
  match s.warp? k with
  | none => s
  | some w => if w.parked then s.modWarp k fun w => { w with stopped := none } else s.dropWait k

/-- A warp stops: its wait ends in the wait table and is remembered, so that the warp block records its
kind (R327, R363). -/
def State.suspendWait (s : State) (k : WKey) : State :=
  match s.warp? k with
  | none => s
  | some w =>
    let keep := if w.parked then none else w.wait
    let left := if w.wait.isSome then s.sleepRemain w else w.sleepLeft
    (s.dropWait k).modWarp k fun w =>
      { w with stopped := if keep.isSome then keep else w.stopped, sleepLeft := left, sleepFrom := s.clock }

/-- A stopped wait is taken up again: its entry is written afresh (R327). -/
def State.resumeWait (s : State) (k : WKey) : State :=
  match s.warp? k with
  | none => s
  | some w =>
    if w.parked then (match s.parkedEntry k with
      | some e =>
        (if w.wait.isSome then s else s.modWarp k fun w => { w with sleepFrom := s.clock }).beginWait k e
      | none => s)
    else
      let s1 := s.modWarp k fun w => { w with stopped := none, sleepFrom := s.clock }
      match w.stopped, s1.team? k.team with
      | some e, some t => if w.act == .run || w.act == .exited then s1 else s1.beginWait k (s1.awaitNow t w e)
      | _, _ => s1

/-- The entry of a parked warp follows what it is parked on. -/
def State.refreshParked (s : State) (k : WKey) : State :=
  match s.warp? k with
  | some w => if w.parked && w.wait.isSome then s.resumeWait k else s
  | none => s

/-! ## The fault queue (R318) -/

/-- FQCTL.EN, the ring's size in records, and whether the ring is full. -/
def Context.fqEn (c : Context) : Bool := c.fqCtl.getLsbD 8
def Context.fqSlots (c : Context) : Nat := 2 ^ (fieldOf c.fqCtl 15 12 + 6)
def Context.fqFull (c : Context) : Bool := decide ((c.fqWrite - c.fqRead).toNat ≥ c.fqSlots)

/-- Can a record be written now: no ring, or room in the ring or in the hub buffer of 32 records? -/
def State.fqRoom (s : State) (ctx : Nat) : Bool :=
  let c := s.ctx ctx
  !c.fqEn || (!c.fqFull && c.held.isEmpty) || decide (c.held.length < 32)

/-- The function a context is bound to, if any (R367), and its number among that function's contexts. -/
def State.functionOf (s : State) (ctx : Nat) : Option Nat :=
  let b := s.mgmt.binding.getD ctx 0
  if b.getLsbD 7 then some (b.toNat % 64) else none
def State.vectorOf (s : State) (ctx : Nat) : Nat :=
  ((List.range ctx).filter fun j => s.functionOf j == s.functionOf ctx).length

/-- Raising a context's MSI-X vector (R318, R366); a context bound to no function has none. -/
def State.raiseCtx (s : State) (ctx : Nat) : State :=
  match s.functionOf ctx with
  | some f => s.output (.msix f (s.vectorOf ctx))
  | none => s

/-- One more record written to the stele only (NORING, R318). -/
def State.countNoRing (s : State) (ctx : Nat) : State :=
  s.modCtx ctx fun c => { c with noring := satAdd 15 c.noring 1 }

/-- The bytes of a record of eight words. -/
def recordBytes (ws : List Word) : List Byte := ws.flatMap bytes8

/-- The ring write failed: EN clears, RFAIL sets, and the record counts as written to the stele only. -/
def State.ringFailed (s : State) (ctx : Nat) : State :=
  ((s.modCtx ctx fun c => { c with fqCtl := c.fqCtl &&& ~~~(0x100#64), rfail := true }).raiseCtx ctx).countNoRing ctx

/-- Writing a record into the ring's next slot (R318): a page that does not translate, or poison, fails
the ring. -/
def State.ringWrite (s : State) (ctx : Nat) (ws : List Word) : State :=
  let c := s.ctx ctx
  let ia := (c.fqBase &&& ~~~(0xFFF#64)).toNat + 64 * (c.fqWrite.toNat % c.fqSlots)
  match s.l2Bring false (ia / 128) with
  | (.error _, s1) => s1.ringFailed ctx
  | (.ok x, s1) =>
    if x.poison then s1.ringFailed ctx
    else
      let off := ia % 128
      let s2 := s1.l2Store x (sectorImage off (recordBytes ws)) (byteMask off 64) false none
      ((s2.foundrySaw 1 ia 64 0 0).modCtx ctx fun c => { c with fqWrite := c.fqWrite + 1 }).raiseCtx ctx

/-- Writing a record to a context's fault queue and to the stele (R318). The caller has checked that
there is room. -/
def State.postRecord (s : State) (ctx hub : Nat) (ws : List Word) (cid parent : Word) : State :=
  let src := hubSrc hub 10
  let s1 := s.emit src 0x001 0 cid parent (ws.take 4)
  let s2 := s1.emit src 0x001 1 cid parent (ws.drop 4)
  let c := s2.ctx ctx
  if !c.fqEn then s2.countNoRing ctx
  else if c.held.isEmpty && !c.fqFull then s2.ringWrite ctx ws
  else s2.modCtx ctx fun c => { c with held := c.held ++ [ws] }

/-! ## Fault records (R319, Table 15-2) -/

/-- The flags of a record: FLUSHED 31, LOST 30, HALTED 29, SKID 28, RETIRED 27, LATE 26, DEFERRED 25,
PRECISE 24. -/
structure RecordFlags where
  flushed : Bool := false
  lost : Bool := false
  halted : Bool := false
  skid : Bool := false
  retired : Bool := false

/-- The eight words of a fault record. -/
def faultWords (time : Word) (ctx tid hub : Nat) (f : FaultInfo) (g : RecordFlags) : List Word :=
  [ atBit f.code 0 ||| atBit ctx 8 ||| atBit hub 14 ||| atBit (b2n f.precise) 24 ||| atBit (b2n f.deferred) 25 |||
      atBit (b2n f.late) 26 ||| atBit (b2n g.retired) 27 ||| atBit (b2n g.skid) 28 ||| atBit (b2n g.halted) 29 |||
      atBit (b2n g.lost) 30 ||| atBit (b2n g.flushed) 31,
    atBit f.lane 8 ||| atBit f.warp 16 ||| atBit f.wkind 24 ||| atBit (f.aux % 65536) 32 ||| atBit (tid % 65536) 48,
    atBit (tid / 65536 % 65536) 0 ||| (f.serial <<< 16), f.wobj, f.addr, f.pc, f.cause, time ]

/-- The fault of a warp at its PC, with the wait in progress (R319). -/
def Warp.faultAt (w : Warp) (code : Nat) (lane : Nat := 255) (addr : Word := 0) (aux : Nat := 0) : FaultInfo :=
  { code := code, pc := w.pc, cause := w.cause, addr := addr, serial := w.serial, warp := w.num, lane := lane,
    aux := aux, wobj := (w.wait.map (·.obj)).getD 0, wkind := (w.wait.map (·.kind)).getD 0, precise := true }

/-- The causal parent of what has faulted: the team of a warp, the warp of an operation (R360). -/
def Team.faultParent (t : Team) (f : FaultInfo) : Word :=
  match t.warps.find? (·.serial == f.serial) with
  | some w => parentOf t w f.cause
  | none => if f.cause = 0 then 0 else t.cause

/-- Writing the fault record of a team (R319). -/
def State.recordFault (s : State) (t : Team) (f : FaultInfo) (g : RecordFlags) : State :=
  s.postRecord t.ctx t.hub (faultWords (s.timeAt (hubEmitter t.hub 10)) t.ctx t.tid t.hub f g) f.cause (t.faultParent f)

/-- The MISCOMPARE records that waited for the end of a team's halt are written (R168). -/
def State.writeHeld (s : State) (t : Team) : State :=
  (t.heldFaults.foldl (fun s h => s.recordFault t h.info { halted := h.first, skid := !h.first }) s).modTeam t.key fun t =>
    { t with heldFaults := [] }

/-! ## Scopes: the status a fault leaves (R285) -/

/-- Changing a scope entry. -/
def State.modScope (s : State) (ctx : Nat) (h : Word) (f : ScopeEntry → ScopeEntry) : State :=
  s.modCtx ctx fun c => { c with scopes := updIf (fun e => e.allocated && e.handle == h) f c.scopes }

/-- A team or task that faults: its scope's STATUS, FAULTS and FSERIAL (R285, Table 13-12). -/
def State.scopeFault (s : State) (ctx : Nat) (h serial : Word) : State :=
  s.modScope ctx h fun e =>
    { e with status := 1
             faults := satAdd 14 e.faults 1
             fserial := if e.faults = 0 then serial &&& 0xFFFFFFFFFFFF#64 else e.fserial }

/-- Every task of a team faults, once (R285). -/
def State.teamFaulted (s : State) (k : TKey) (serial : Word) : State :=
  match s.team? k with
  | none => s
  | some t =>
    if t.faulted then s
    else (t.scopes.foldl (fun s h => s.scopeFault k.ctx h serial) s).modTeam k fun t => { t with faulted := true }

/-! ## Losing a context (R334, R346) -/

/-- The Dirty sectors of a context's teams, which retire here, are written back (R195). -/
def State.cleanCtx (s : State) (ctx : Nat) : State :=
  s.cores.foldl (fun s c => (s.cleanAll c.num fun x => x.owner.any (·.ctx == ctx)).2) s

/-- Bytes that a store has left in its L1 and whose requests are parked leave D (R329). -/
def State.forgetStore (s : State) (o : MemOp) : State :=
  if o.kind == .store && !o.through then
    let lost := o.lanes.filter fun a => decide (a.rkind ≤ 1) && !a.done && a.stored && o.parked.contains (pageOf a.ia)
    ((lost.map (·.ia / 128)).eraseDups).foldl (fun s sec =>
      let mask := (lost.filter (·.ia / 128 == sec)).foldl (fun m a => m ||| byteMask (a.ia % 128) o.size) 0
      s.modCore o.core fun c =>
        { c with l1 := c.l1.filterMap fun x =>
            if x.sector == sec && x.owner == some o.key.team then
              (let y := { x with dirty := x.dirty &&& ~~~mask, valid := x.valid &&& ~~~mask }
               if y.dirty = 0 then y.cleaned else some y)
            else some x }) s
  else s

/-- An operation without its parked requests, on behalf of a warp that is gone. -/
def MemOp.orphan (o : MemOp) : MemOp :=
  { o with lanes := o.lanes.filter fun a => a.done || !(decide (a.rkind ≤ 1) && o.parked.contains (pageOf a.ia))
           parked := [], dropped := true }

/-- What is left of an operation in flight once its warp is gone: its requests that are not parked; nothing
when they have all been performed. -/
def MemOp.outlive (o : MemOp) : Option MemOp :=
  if o.parked.isEmpty then some o
  else if o.again || o.orphan.lanes.all (·.done) then none else some o.orphan

/-- Is this the number of an SP-path operation of a context? -/
def State.spOpOf (s : State) (ctx id : Nat) : Bool := s.cores.any fun c => c.spOps.any fun x => x.id == id && x.key.ctx == ctx

/-- Work of a context that its reset discards: teams, saved frames, launches, packets, copies, parked
requests, page faults, collectives, late faults. Requests in flight run on and find no warp. -/
def State.dropWork (s0 : State) (ctx : Nat) : State :=
  let s1 := (s0.teams.filter fun t => t.ctx == ctx && !t.heldFaults.isEmpty).foldl State.writeHeld s0
  let s := ((s1.ops.filter (·.key.ctx == ctx)).foldl State.forgetStore s1).cleanCtx ctx
  { s with teams := s.teams.filter (·.ctx != ctx)
           launches := s.launches.filter (·.ctx != ctx)
           packets := s.packets.filter (·.ctx != ctx)
           ops := s.ops.filterMap fun o => if o.key.ctx != ctx then some o else o.outlive
           pageFaults := s.pageFaults.filter (·.page.ctx != ctx)
           lateFaults := s.lateFaults.filter (·.key.ctx != ctx)
           quarantine := s.quarantine.filter (·.key.ctx != ctx)
           collectives := s.collectives.filter (·.ctx != ctx)
           relayOps := s.relayOps.filter (·.key.ctx != ctx)
           savedOps := s.savedOps.filter (·.key.ctx != ctx)
           savedCopies := s.savedCopies.filter (·.key.ctx != ctx)
           cores := s.cores.map fun c =>
             { c with spOps := c.spOps.filter (·.key.ctx != ctx)
                      mxOps := c.mxOps.filter (·.key.ctx != ctx)
                      port := c.port.filter fun p => !s.spOpOf ctx p.2
                      parity := c.parity.filter fun p => p.key.ctx != ctx
                      channels := c.channels.map fun q => q.filter (·.key.ctx != ctx)
                      filter := c.filter.filter (·.page.ctx != ctx) }
           cur := match s.cur with
             | some k => if k.ctx = ctx then none else some k
             | none => none }

/-- A counted event of the risk estimate (R348). -/
def State.riskEvent (s : State) (e : RiskEvent) : State :=
  { s with mgmt := { s.mgmt with riskEvents := s.mgmt.riskEvents ++ [(s.clock, e)] } }

/-- A corrected storage error (R342): counted per structure, toward the risk estimate, and recorded as an
ordinary event with its location. -/
def State.eccCorrected (s : State) (src : Src) (code at_ : Nat) : State :=
  let s1 := { s with mgmt := { s.mgmt with corrections := s.mgmt.corrections.set code (s.mgmt.corrections.getD code 0 + 1) } }
  (s1.emit src 0x026 0 0 0 [BitVec.ofNat 64 code, BitVec.ofNat 64 at_]).riskEvent .ce

/-- What L2 and the L1s hold of a frame leaves them, dirty bytes written back first, and fills from it are
dropped: from then on every access to it walks. -/
def State.dropFrame (s : State) (frame : Nat) : State :=
  let inside (sec : Nat) : Bool := match s.walk (128 * sec) with | .leaf pa _ => pa / 65536 == frame | _ => false
  let cleared (s : State) (c : Core) : State :=
    (s.cleanAll c.num fun x => inside x.sector).2.modCore c.num fun c => { c with l1 := c.l1.filter fun x => !inside x.sector }
  let s1 := s.cores.foldl cleared s
  let s2 := ((s1.l2.filter fun x => !x.phys && x.pa / 512 == frame).map fun x => (x.phys, x.sector / 4)).eraseDups.foldl State.l2Evict s1
  { s2 with streams := s2.streams.map fun x =>
      { x with requests := x.requests.map fun p => if p.pa / 512 == frame then p.cancel p.pa else p
               replies := x.replies.map fun r => if r.pa / 512 == frame then r.cancel r.pa else r } }

/-- Retiring the 64 KiB frame that holds a consumed sector (R346): the hub of its stack lists it, or
counts it unlisted when the list holds 512. A listed frame is in no cache any more, so that another context
that maps it takes PAGE_FATAL. -/
def State.retireFrame (s0 : State) (ps : Nat) : State :=
  let h := (streamKey ps).stack / 3
  let frame := ps / 512
  let u := s0.hub h
  if u.retiredFrames.contains frame then s0
  else
    let full := decide (u.retiredFrames.length ≥ 512)
    let s := if full then s0 else s0.dropFrame frame
    let s1 := s.modHub h fun u =>
      if full then { u with unlisted := u.unlisted + 1 } else { u with retiredFrames := u.retiredFrames ++ [frame] }
    s1.emit (hubSrc h 8) 0x00B (b2n full) 0 0 [BitVec.ofNat 64 (frame * 65536)]

/-- Does memory hold poison of a physical sector, in its bytes, in L2's copy of them or in their tags? -/
def State.holdsPoison (s : State) (ps : Nat) : Bool :=
  (s.physLive false ps).2 || (s.physLive true ps).2 || (List.range 4).any fun g => s.tagPoisoned (4 * ps + g)

/-- The poisoned physical sector that an access to a sector of IA met: its own, or one of the tables on the way
to it; none where the poison was a cache's alone. -/
def State.poisonAt (s : State) (sec : Nat) : List Nat :=
  match s.walk (128 * sec) with
  | .leaf pa _ => if s.holdsPoison (pa / 128) then [pa / 128] else []
  | .poisoned ps => [ps]
  | _ => []

/-- The physical sectors whose poison was consumed: that of the address when it is known and
translates; otherwise those of the poisoned sectors that it came from, which is free (the spec does not say how
the device knows the origin of poison that came through a register; assumption 16). -/
def State.poisonOrigins (s : State) (ia : Option Nat) : List Nat × State :=
  match ia with
  | some a => (s.poisonAt (a / 128), s)
  | none =>
    let (n, s1) := s.draw
    ((s.poisoned.zipIdx.filter fun x => n.testBit x.2).map (·.1), s1)

/-- The frames of further poisoned sectors that one consumption has met, by address, are retired too (R346). -/
def State.retireConsumed (s : State) (ias : List Nat) : State :=
  ((ias.map (· / 128)).eraseDups.flatMap s.poisonAt).foldl State.retireFrame s

/-- Consuming poison loses the context (R334, R346, R347): exactly one CONTEXT_LOST record and event,
the queues are frozen, the work is discarded and the frame retired. `ia`: the poisoned address when it
is known, else ADDR is a free value. -/
def State.loseContext (s : State) (t : Team) (f : FaultInfo) (ia : Option Nat) : State :=
  let c := s.ctx t.ctx
  if c.lost then s
  else
    let (n, s0) := if ia.isSome then (0, s) else s.draw
    let addr := match ia with | some a => BitVec.ofNat 64 a | none => BitVec.ofNat 64 n
    let (origins, s1) := s0.poisonOrigins ia
    let s2 := s1.recordFault t { f with code := 0x26, addr := addr, precise := false, deferred := false } { lost := true }
    let s3 := s2.emit (hubSrc t.hub 10) 0x005 (auxCtx t.ctx) f.cause (t.faultParent f) [addr]
    let s4 := origins.foldl State.retireFrame s3
    (s4.dropWork t.ctx).modCtx t.ctx fun c => { c with lost := true, firings := [] }

/-! ## Taking a fault (R315, R316) -/

/-- The phases in which a fault is the first of the team and starts its halt. -/
def TeamPhase.live (p : TeamPhase) : Bool :=
  match p with
  | .starting | .running | .draining | .saving => true
  | _ => false

/-- The team's halt begins: the broadcast is out. A save in progress finishes, and the team is then
saved as halted (R316). -/
def Team.beginHalt (t : Team) : Team :=
  match t.phase with
  | .saving => { t with saveHalted := true }
  | .starting | .running | .draining => { t with phase := .halting }
  | _ => t

/-- A debugger's step is over: its command is done (R322). -/
def State.stepDone (s : State) (ctx : Nat) : State :=
  s.modCtx ctx fun c => { c with dbgStat := if c.dbgStat = 1 then 0 else c.dbgStat }

/-- A fault in a relay team halts every relay team of its collective (R302). -/
def State.haltRelays (s : State) (t : Team) : State :=
  match t.relay with
  | none => s
  | some r =>
    { s with teams := updIf (fun u => u.ctx == t.ctx && (u.relay.map (·.tag)) == some r.tag) Team.beginHalt s.teams }

/-- The halt of a team at a fault of one of its warps; a team that a debugger steps halts again. The warp stops at
once, or, unless it is the one that issues, when its round trip has completed (R327). -/
def Team.haltAt (t : Team) (w : Nat) (trip : Bool) (skid : Nat) : Team :=
  { t.beginHalt with
    phase := if t.stepping.isSome then .halting else t.beginHalt.phase
    warps := updIf (·.num == w) (fun u => { u with halted := !trip, stopping := trip, skid := skid }) t.warps }

/-- Taking a fault in a warp: the fault record is written (HALTED when it halts the team, SKID when
the team was already halting or halted), or, for a MISCOMPARE on a tile, held; the warp stops, the halt is
broadcast to its team (and to the relay teams of its collective), and the scope takes STATUS faulted. Poison loses the context.
When neither the ring nor the hub buffer has room, the warp waits and nothing changes (R318). `ia` is
the poisoned address when one is known. -/
def State.takeFault (s : State) (k : WKey) (f : FaultInfo) (ia : Option Nat := none) (tile : Option (Nat × Nat) := none) :
    State :=
  match s.team? k.team with
  | none => s
  | some t =>
    if !s.fqRoom k.ctx then s
    else
      let first := t.phase.live && !(t.phase == .saving && t.saveHalted)
      let trip := s.cur != some k && (s.warp? k).any Warp.inTrip
      let s0 := if trip then s else s.suspendWait k
      let s1 : State := match tile with
        | some x => s0.modTeam k.team fun t => { t with heldFaults := t.heldFaults ++ [HeldFault.mk x.1 x.2 f first] }
        | none => s0.recordFault t f
          (if t.phase = .retired then { retired := true } else { halted := first, skid := !first })
      let s3 := ((s1.modTeam k.team fun t => t.haltAt k.w trip f.skid).haltRelays t).teamFaulted k.team f.serial
      if f.code = 0x19 ∨ f.code = 0x1B then s3.loseContext t f ia else s3

/-- A deferred fault of an instruction of a warp (R206). -/
def State.deferFault (s : State) (k : WKey) (f : FaultInfo) (ia : Option Nat := none) (tile : Option (Nat × Nat) := none) :
    State :=
  s.takeFault k { f with precise := false, deferred := true } ia tile

/-- Can a fault of this context be taken now (R318)? -/
def State.faultRoom (s : State) (k : WKey) : Bool := s.fqRoom k.ctx

/-! ## Resuming (R315, R322, R327) -/

/-- A halted warp becomes eligible at its resume PC. -/
def Warp.resume (w : Warp) : Warp := { w with halted := false, stopping := false, skid := 0 }

/-- Every warp of a halted team becomes eligible: the return from a halt (R322). -/
def Team.resume (t : Team) : Team :=
  { t with phase := .running, saveHalted := false, deadTiles := [], stepping := none, warps := t.warps.map Warp.resume }

end Sys2Proof.Machine
end

