-- ==== Sys2Proof/Machine/Operands.lean ====
section
/-!
DEFINITION. Operands: every operand form read and written. Special registers (R19), scalars, vector
registers by shape (R88), indexed operands (R102), immediates (R14); the shape of results (R89 to
R92); rows, spills and reloads (R94 to R100); guards (R17).
-/

namespace Sys2Proof.Machine

/-! ## Reading -/

/-- Register v of a warp. -/
def Warp.vreg (w : Warp) (n : Nat) : VReg := w.v.getD n {}

/-- The word of lane l of a register (R88). -/
def VReg.at (r : VReg) (l : Nat) : Word :=
  match r.shape with
  | .u => r.base
  | .a => r.base + BitVec.ofNat 64 l * r.stride.signExtend 64
  | .g => r.lanes.getD l 0

/-- The index of lane l of an index register (R101): one value for all lanes when its shape is U. -/
def XReg.at (x : XReg) (l : Nat) : Nat := (x.idx.getD (if x.shape = .u then 0 else l) 0).toNat

/-- Index register k. -/
def Warp.xreg (w : Warp) (k : BitVec 2) : XReg := w.x.getD k.toNat {}

/-- Scalar register n. -/
def Warp.sreg (w : Warp) (n : BitVec 6) : Word := w.s.getD n.toNat 0

/-- Predicate n; p0 reads all ones (R62). -/
def Warp.preg (w : Warp) (n : BitVec 4) : Mask := if n = 0 then BitVec.allOnes 64 else w.p.getD n.toNat 0

/-- What an executing instruction sees: the state, its warp, its team, and its effective mask. -/
structure Env where
  s : State
  k : WKey
  t : Team
  w : Warp
  m : Mask

/-- W of the executing warp, and its effective lanes in increasing order. -/
def Env.width (e : Env) : Nat := e.t.kernel.width
def Env.lanes (e : Env) : List Nat := maskLanes e.width e.m

/-- A special register that reads one value for the warp (Table 2-3). -/
def Env.special (e : Env) : Special → Word
  | .lane => 0
  | .warp => BitVec.ofNat 64 e.w.num
  | .team => BitVec.ofNat 64 e.t.tid
  | .node => BitVec.ofNat 64 e.t.nodeRef
  | .inst => BitVec.ofNat 64 e.t.inst
  | .ctx => BitVec.ofNat 64 e.t.ctx
  | .core => BitVec.ofNat 64 e.w.core
  | .flags => 0
  | .clk => e.s.timeAt e.w.core
  | .cause => e.w.cause
  | .mask => e.w.mask
  | .serial => e.w.serial
  | .lc0 => e.w.lc.getD 0 0
  | .lc1 => e.w.lc.getD 1 0
  | .lc2 => e.w.lc.getD 2 0
  | .zero => 0

/-- An operand that reads one value for the warp: s, special or %zero. -/
def Env.scalar (e : Env) : Operand → Word
  | .s n => e.w.sreg n
  | .special r => e.special r
  | _ => 0

/-- The register an operand names in lane l (R18, R102). -/
def Warp.regOf (w : Warp) : Operand → Nat → Option Nat
  | .v n, _ => some n.toNat
  | .vx x b, l => some (8 * b.toNat + (w.xreg x).at l)
  | _, _ => none

/-- The word of an operand in lane l: registers by shape, %lane and %flags by lane, predicates as 0 or
1, every other scalar the same in all lanes (R20, R88). -/
def Env.lane (e : Env) (o : Operand) (l : Nat) : Word :=
  match o with
  | .v n => (e.w.vreg n.toNat).at l
  | .vx x b => (e.w.vreg (8 * b.toNat + (e.w.xreg x).at l)).at l
  | .s n => e.w.sreg n
  | .p n => BitVec.ofNat 64 (b2n ((e.w.preg n).has l))
  | .special .lane => BitVec.ofNat 64 l
  | .special .flags => (e.w.flags.getD l 0).setWidth 64
  | .special r => e.special r

/-- Is the operand's word poisoned in lane l (R345)? -/
def Warp.poisonAt (w : Warp) (o : Operand) (l : Nat) : Bool :=
  match w.regOf o l with
  | some r => (w.vreg r).poison.has l
  | none => match o with
    | .s n => w.sPoison.has n.toNat
    | _ => false

/-- Is that poison the poison of a reconstruction (R179)? -/
def Warp.reconAt (w : Warp) (o : Operand) (l : Nat) : Bool :=
  match w.regOf o l with
  | some r => (w.vreg r).recon.has l
  | none => false

/-- The immediate B operand as one element (R14). -/
def immElem (t : Typ) (imm : BitVec 28) : Nat :=
  match t with
  | .f16 | .bf16 => imm.toNat % 65536
  | .f32 => imm.toNat * 16
  | .f64 => imm.toNat * 2 ^ 36
  | t => if t.signed then wrapInt t.width (imm.signExtend 64).toInt else imm.toNat % 2 ^ t.width

/-- The immediate B operand placed in every sub-element of a lane (R14). -/
def immLane (t : Typ) (pk : BitVec 2) (imm : BitVec 28) : Word :=
  BitVec.ofNat 64 (packElems t.width (List.replicate (pkCount pk) (immElem t imm)))

/-- The second operand of an M-A instruction in lane l: register or immediate. -/
def Env.laneB (e : Env) (o : Ops MA) (l : Nat) : Word :=
  if o.mod.ib then immLane o.mod.ty o.mod.pk o.imm else e.lane o.b l

/-- The third operand in lane l (R14). -/
def Env.laneC (e : Env) (imm : BitVec 28) (l : Nat) : Word := e.lane ((cOperand imm).getD (.special .zero)) l

/-! ## Guards (R17) -/

/-- The lanes where a lane-wise guard and the active mask hold. -/
def Warp.guardMask (w : Warp) (g : Guard) : Mask :=
  w.mask &&& (if g.neg then ~~~(w.preg g.p) else w.preg g.p)

/-- The warp-wide guard: g xor GN, g being 1 when an active lane has its bit set. -/
def Warp.guardWarp (w : Warp) (g : Guard) : Bool := (w.mask &&& w.preg g.p != 0) != g.neg

/-! ## Shapes of sources and results (R89, R90, R92) -/

/-- A source's shape, with base and stride when it is affine. -/
inductive SrcShape where
  | u
  | a (base stride : Word)
  | g
  deriving DecidableEq, Repr

/-- The shape of a vector register as a source. -/
def VReg.src (r : VReg) : SrcShape :=
  match r.shape with
  | .u => .u
  | .a => .a r.base (r.stride.signExtend 64)
  | .g => .g

/-- The source shape of an operand (R89). -/
def Warp.srcShape (w : Warp) : Operand → SrcShape
  | .v n => (w.vreg n.toNat).src
  | .vx x b => if (w.xreg x).shape = .u then (w.vreg (8 * b.toNat + (w.xreg x).at 0)).src else .g
  | .p n => if n = 0 then .u else .g
  | .special .lane => .a 0 1
  | .special .flags => .g
  | _ => .u

/-- The source shape of operand B (R89). -/
def Warp.srcShapeB (w : Warp) (o : Ops MA) : SrcShape := if o.mod.ib then .u else w.srcShape o.b

/-- A result: its shape before R91, base and stride of an affine one, its lanes and poison. -/
structure VRes where
  shape : Shape
  stride : BitVec 32 := 0
  vals : List Word
  poison : Mask := 0
  recon : Mask := 0

/-- A stride that fits the armature (R90): it equals the sign extension of its low 32 bits. -/
def strideFits (t : Word) : Bool := (t.setWidth 32).signExtend 64 == t

/-- The result shape of Table 5-2: G with any G source; U when all are U; else the affine result the
operation offers, when its stride fits; else G. -/
def resultShape (srcs : List SrcShape) (aff : Option Word) : Shape × BitVec 32 :=
  if srcs.contains .g then (.g, 0)
  else if srcs.all (· == .u) then (.u, 0)
  else match aff with
    | some t => if t = 0 then (.u, 0) else if strideFits t then (.a, t.setWidth 32) else (.g, 0)
    | none => (.g, 0)

/-- A result computed lane by lane over the effective mask. -/
def Env.result (e : Env) (srcs : List SrcShape) (aff : Option Word) (f : Nat → Word) : VRes :=
  let sh := resultShape srcs aff
  { shape := sh.1, stride := sh.2, vals := (List.range e.width).map fun l => if e.m.has l then f l else 0 }

/-! ## Rows, ranks and spills (R94 to R100) -/

/-- Rows held by resident general registers. -/
def Warp.rowsUsed (w : Warp) : List Nat :=
  w.v.filterMap fun r => if r.shape = .g ∧ !r.spilled then some r.row else none

/-- The lowest-numbered free row (R95). -/
def Warp.freeRow (w : Warp) (g : Nat) : Option Nat :=
  let used := w.rowsUsed
  (List.range g).find? fun r => !used.contains r

/-- The resident general registers that may be spilled: not named, not pending (R95). -/
def Warp.victims (w : Warp) (named : List Nat) : List Nat :=
  (List.range w.v.length).filter fun n =>
    let r := w.vreg n
    r.shape == .g && !r.spilled && !r.pend && !named.contains n

/-- The victim: the one with the greatest RANK (R95). -/
def Warp.victim (w : Warp) (named : List Nat) : Option Nat :=
  (w.victims named).foldl (fun best n =>
    match best with
    | none => some n
    | some b => if (w.vreg b).rank < (w.vreg n).rank then some n else some b) none

/-- Replacing a register. -/
def Warp.setV (w : Warp) (n : Nat) (r : VReg) : Warp := { w with v := w.v.set n r }

/-- Bytes of lane words with the poison of their lanes. -/
def markedWords (ws : List Word) (poison : Mask) : List (Byte × Bool) :=
  (ws.zipIdx).flatMap fun (w, l) => (bytes8 w).map fun b => (b, poison.has l)

/-- Copying a row to its backing slot in the save area (R96). -/
def State.writeSlot (s : State) (k : WKey) (v : Nat) (lanes : List Word) (poison : Mask) : State :=
  match s.team? k.team with
  | some t => s.l2PutMarked (t.slotOf k.w v) (markedWords lanes poison)
  | none => s

/-- Lane words read back, with their poison; a word that cannot be read keeps the value given
(assumption 6). -/
def wordsMarked (old : List Word) (oldPoison : Mask) (bs : List (Option (Byte × Bool))) : List Word × Mask :=
  let lane (l : Nat) : Word × Bool :=
    let part := ((bs.drop (8 * l)).take 8).filterMap id
    if part.length = 8 then (wordOf (part.map (·.1)), part.any (·.2)) else (old.getD l 0, oldPoison.has l)
  ((List.range old.length).map fun l => (lane l).1,
    (List.range old.length).foldl (fun m l => if (lane l).2 then m ||| (1#64 <<< l) else m) 0)

/-- Reading a register's backing slot (R97): a poisoned sector poisons the lanes it covers. -/
def State.readSlot (s : State) (k : WKey) (v : Nat) (r : VReg) : VReg × State :=
  match s.team? k.team with
  | none => (r, s)
  | some t =>
    let (bs, s1) := s.l2GetMarked (t.slotOf k.w v) (8 * r.lanes.length)
    let (ws, m) := wordsMarked r.lanes r.poison bs
    ({ r with lanes := ws, poison := m, recon := r.recon &&& m }, s1)

/-- Payload of REG_SPILL and REG_RELOAD (Table 17-9). -/
def regEventPayload (serial : Word) (v rank : Nat) : List Word :=
  [(serial &&& 0xFFFFFFFFFFFF#64) ||| atBit v 48 ||| atBit rank 56]

/-- Spilling a register: its row goes to its backing slot, SPILLED is set, the dirty bit cleared, the
count raised, the event recorded (R95, R99). -/
def State.spill (s : State) (k : WKey) (v : Nat) : State :=
  match s.team? k.team, s.warp? k with
  | some t, some w =>
    let r := w.vreg v
    let s1 := s.writeSlot k v r.lanes r.poison
    let s2 := s1.emit (w.src 1) 0x021 (auxCtx k.ctx) w.cause t.cause (regEventPayload w.serial v r.rank)
    s2.modWarp k fun w =>
      { (w.setV v { r with spilled := true, row := 0, dirty := false }) with spills := satAdd 32 w.spills 1 }
  | _, _ => s

/-- Finding a general row (R95): none when every row awaits a pending write. -/
def State.takeRow (s : State) (k : WKey) (g : Nat) (named : List Nat) : Option (Nat × State) :=
  match s.warp? k with
  | none => none
  | some w =>
    match w.freeRow g with
    | some r => some (r, s)
    | none =>
      match w.victim named with
      | none => none
      | some v => some ((w.vreg v).row, s.spill k v)

/-- RANK after a write that leaves register n general (R95). -/
def Warp.rankWrite (w : Warp) (n : Nat) : Warp :=
  let old := w.vreg n
  let up (r : VReg) : VReg :=
    if r.shape = .g ∧ (old.shape ≠ .g ∨ r.rank < old.rank) then { r with rank := r.rank + 1 } else r
  { w with v := (w.v.map up).set n { old with rank := 0 } }

/-- RANK after register n leaves G (R95). -/
def Warp.rankLeave (w : Warp) (n : Nat) : Warp :=
  let old := w.vreg n
  if old.shape ≠ .g then w
  else { w with v := w.v.map fun r => if r.shape = .g ∧ r.rank > old.rank then { r with rank := r.rank - 1 } else r }

/-- The register's words in every lane. -/
def VReg.all (r : VReg) (width : Nat) : List Word := (List.range width).map r.at

/-- Making a register general and resident, its values kept: it takes a row when it has none, gets
RANK 0 and its dirty bit (R91, R95, R100). -/
def State.makeG (s : State) (k : WKey) (t : Team) (named : List Nat) (n : Nat) : Option State :=
  match s.warp? k with
  | none => none
  | some w =>
    let r := w.vreg n
    let got := if r.shape = .g ∧ !r.spilled then some (r.row, s) else s.takeRow k t.kernel.g named
    match got with
    | none => none
    | some (row, s1) =>
      some (s1.modWarp k fun w =>
        let w1 := w.rankWrite n
        w1.setV n { w.vreg n with shape := .g, spilled := false, row := row, rank := 0, stride := 0, base := 0,
                                  lanes := (w.vreg n).all t.kernel.width, dirty := true })

/-- Making a register uniform or affine: its row is released (R91). -/
def State.makeUA (s : State) (k : WKey) (shape : Shape) (n : Nat) : State :=
  s.modWarp k fun w =>
    let r := w.vreg n
    (w.rankLeave n).setV n
      { r with shape := shape, spilled := false, row := 0, rank := 0, stride := 0, lanes := [], dirty := true, poison := 0
               recon := 0 }

/-- The registers a destination addresses: one for a direct code or a uniform index, else those of the
effective lanes in increasing order; and whether lanes are addressed one by one (R102). -/
def Warp.destRegs (w : Warp) (d : Operand) (lanes : List Nat) : List Nat × Bool :=
  match d with
  | .v n => ([n.toNat], false)
  | .vx x b =>
    if (w.xreg x).shape = .u then ([8 * b.toNat + (w.xreg x).at 0], false)
    else (lanes.foldl (fun acc l => setInsert acc (8 * b.toNat + (w.xreg x).at l)) [], true)
  | _ => ([], false)

/-- Reloading a spilled register into a row (R97, R99). -/
def State.reloadInto (s : State) (k : WKey) (t : Team) (n row : Nat) : State :=
  match s.warp? k with
  | none => s
  | some w =>
    let (x, s1) := s.readSlot k n (w.vreg n)
    let s2 := s1.emit (w.src 1) 0x022 (auxCtx k.ctx) w.cause t.cause (regEventPayload w.serial n x.rank)
    s2.modWarp k fun u =>
      { u.setV n { x with spilled := false, row := row, dirty := false } with reloads := satAdd 32 u.reloads 1 }

/-- A register that keeps lanes is resident before it is written: a spilled one takes a row and is reloaded
(R97, R102); none when no row can be had yet. -/
def State.keepOld (s : State) (k : WKey) (t : Team) (named : List Nat) (n : Nat) : Option State :=
  match s.warp? k with
  | none => none
  | some w =>
    if (w.vreg n).shape = .g ∧ (w.vreg n).spilled then
      (s.takeRow k t.kernel.g named).map fun (row, s1) => s1.reloadInto k t n row
    else some s

/-- Settling shape, row and rank of one destination register for a result of a shape; one written in part is
made resident first (R91, R97). -/
def State.prepReg (s : State) (k : WKey) (t : Team) (named : List Nat) (full : Bool) (shape : Shape) (n : Nat) :
    Option State :=
  if full then if shape = .g then s.makeG k t named n else some (s.makeUA k shape n)
  else (s.keepOld k t named n).bind fun s => s.makeG k t named n

/-- Settling every register of a destination (R91, R92, R102). `named`: the registers that the instruction
names other than through a non-uniform index, which are never spilled for it. -/
def State.prepDest (s : State) (k : WKey) (t : Team) (w : Warp) (named : List Nat) (d : Operand) (m : Mask)
    (shape : Shape) : Option State :=
  let lanes := maskLanes t.kernel.width m
  let (regs, each) := w.destRegs d lanes
  let full := m == fullMask t.kernel.width && !each
  regs.foldl (fun acc n => acc.bind fun s => s.prepReg k t (n :: named) full shape n) (some s)

/-- The values of a register after a write of some lanes. -/
def VReg.fill (r : VReg) (width : Nat) (m : Mask) (x : VRes) : VReg :=
  match r.shape with
  | .g =>
    { r with lanes := (List.range width).map fun l => if m.has l then x.vals.getD l 0 else r.lanes.getD l 0
             poison := (r.poison &&& ~~~m) ||| (x.poison &&& m)
             recon := (r.recon &&& ~~~m) ||| (x.recon &&& m)
             pend := false
             dirty := true }
  | .u => { r with base := x.vals.getD ((maskLanes width m).headD 0) 0, stride := 0, pend := false, dirty := true }
  | .a => { r with base := x.vals.getD 0 0, stride := x.stride, pend := false, dirty := true }

/-- The lanes of a mask whose destination is register n. -/
def Warp.lanesTo (w : Warp) (d : Operand) (width : Nat) (m : Mask) (n : Nat) : Mask :=
  (maskLanes width m).foldl (fun acc l => if w.regOf d l = some n then acc ||| (1#64 <<< l) else acc) 0

/-- Writing the values of one settled register of a destination. -/
def State.fillOne (s : State) (k : WKey) (t : Team) (w : Warp) (d : Operand) (m : Mask) (x : VRes) (n : Nat) : State :=
  s.modWarp k fun u => u.setV n ((u.vreg n).fill t.kernel.width (w.lanesTo d t.kernel.width m n) x)

/-- Writing a vector destination, one register after another (R91, R95, R100, R102): none when no row can
be had yet. A result with poison is general (R345). -/
def Env.write (e : Env) (named : List Nat) (d : Operand) (x : VRes) : Option State :=
  let shape := if x.poison = 0 then x.shape else .g
  let dst := e.w.destRegs d e.lanes
  let full := e.m == fullMask e.width && !dst.2
  dst.1.foldl (fun acc n => acc.bind fun s =>
    (s.prepReg e.k e.t (n :: named) full shape n).map fun s => s.fillOne e.k e.t e.w d e.m x n) (some e.s)

/-- A register that a completing load writes is general and resident: it is expanded, or, where a restore
has left it spilled, it takes a row; lanes that keep their old values are reloaded (R95, R97, R99). -/
def State.settleWrite (s : State) (k : WKey) (t : Team) (m : Mask) (n : Nat) : Option State :=
  match s.warp? k with
  | none => none
  | some w =>
    let r := w.vreg n
    if r.shape ≠ .g then s.makeG k t [n] n
    else if !r.spilled then some s
    else (s.takeRow k t.kernel.g [n]).map fun (row, s1) =>
      if m = fullMask t.kernel.width then s1.modWarp k fun w => w.setV n { w.vreg n with spilled := false, row := row }
      else s1.reloadInto k t n row

/-! ## Writing scalars and predicates -/

/-- Writing an s register; %zero discards (R19). -/
def Warp.setS (w : Warp) (d : Operand) (x : Word) : Warp :=
  match d with
  | .s n => { w with s := w.s.set n.toNat x, sPoison := w.sPoison &&& ~~~(1#64 <<< n.toNat) }
  | _ => w

/-- Writing a predicate; bits at or above W are 0 (R62). -/
def Warp.setP (w : Warp) (n : BitVec 4) (width : Nat) (x : Mask) : Warp :=
  { w with p := w.p.set n.toNat (x &&& fullMask width) }

/-- Writing a scalar destination of the executing warp. -/
def Env.setS (e : Env) (d : Operand) (x : Word) : State := e.s.modWarp e.k (·.setS d x)

/-! ## Named registers -/

/-- The vector registers an instruction names: directly, by group, or through an index register. -/
def Warp.named (w : Warp) (l : List (Operand × Nat)) (lanes : List Nat) : List Nat :=
  l.flatMap fun (o, k) =>
    match o with
    | .v n => (List.range k).map (n.toNat + ·)
    | .vx x b => (lanes.map fun i => 8 * b.toNat + (w.xreg x).at i).eraseDups
    | _ => []

/-- Those named directly, by group, or through a uniform index: they hold their rows while the instruction
executes. -/
def Warp.direct (w : Warp) (l : List (Operand × Nat)) : List Nat :=
  l.flatMap fun (o, k) =>
    match o with
    | .v n => (List.range k).map (n.toNat + ·)
    | .vx x b => if (w.xreg x).shape = .u then [8 * b.toNat + (w.xreg x).at 0] else []
    | _ => []

/-- Those that non-uniform indexed operands name, operand by operand in increasing register order: each is
served on its own (R102). -/
def Warp.indexed (w : Warp) (l : List (Operand × Nat)) (lanes : List Nat) : List Nat :=
  l.flatMap fun (o, _) =>
    match o with
    | .vx x b =>
      if (w.xreg x).shape = .u then [] else lanes.foldl (fun acc i => setInsert acc (8 * b.toNat + (w.xreg x).at i)) []
    | _ => []

/-- The lowest lane that faults on an indexed operand, and vb + x(l) of its first faulting operand
(R102). -/
def Warp.indexFault (w : Warp) (n : Nat) (ops : List Operand) (lanes : List Nat) : Option (Nat × Nat) :=
  let bad (o : Operand) (l : Nat) : Option Nat :=
    match o with
    | .vx x b =>
      let i := (w.xreg x).at l
      if i ≥ (w.xreg x).bound.toNat ∨ 8 * b.toNat + i ≥ n then some (8 * b.toNat + i) else none
    | _ => none
  lanes.findSome? fun l => (ops.findSome? fun o => bad o l).map fun a => (l, a)

end Sys2Proof.Machine
end

