-- ==== Sys2Proof/Machine/Gate.lean ====
section
/-!
DEFINITION. What happens around every Xothes instruction: the decode checks in their order (R35), the
guard (R17, R63), index bounds (R102), the waits on registers and reloads (R97, R98), poison (R345);
verified issue (R340, R341); and afterwards the move to the next instruction with the loop back edge (R72).
-/

namespace Sys2Proof

open Machine

/-! ## What the checks need of an instruction -/

/-- The 9-bit fields D, A and B of an instruction as operands, in order. -/
def Instr.fields (i : Instr) : List Operand :=
  match encode i with
  | some w => [w.extractLsb' 15 9, w.extractLsb' 24 9, w.extractLsb' 33 9].filterMap operandOfCode
  | none => []

/-- The opcode of an instruction. -/
def Instr.opcode (i : Instr) : Nat :=
  match encode i with
  | some w => (w.extractLsb' 0 10).toNat
  | none => 0

/-- Instructions whose scalar D is read: `satom`, `lih` and the copy commands. -/
def Instr.readsD : Instr → Option Operand
  | .satom o => some o.d
  | .lih o => some o.d
  | .cpy o => some o.d
  | .cpys o => some o.d
  | .cpyg o => some o.d
  | .cpygat o => some o.d
  | _ => none

/-- Does a partial mask make the instruction read its destination (R97)? `expand` never reloads
(R107). -/
def Instr.keepsOld : Instr → Bool
  | .expand _ => false
  | _ => true

/-- Rows of Table 3-3 that verified issue covers: control, scalar, vector, CORDIC, memory access
(address generation), and the tag instruction of the lanes (R340). -/
def verifiedOpcode (opc : Nat) : Bool :=
  decide (opc < 0x200) || (decide (0x240 ≤ opc) && decide (opc < 0x300)) || (decide (0x304 ≤ opc) && decide (opc < 0x307)) ||
    opc == 0x3C3

/-- The C operand in IMM of the instructions that have one (R14). -/
def Instr.readsC : Instr → Option Operand
  | .ibfi o | .fma o | .fnma o | .fms o | .fnms o => cOperand o.imm
  | .atom o | .atoms o | .satom o => if o.mod.atop = .cas then cOperand o.imm else none
  | .cpy o | .cpys o | .cpyg o | .cpygat o => if o.mod.dig || o.mod.cwadd then cOperand o.imm else none
  | .csend o | .crecv o | .crrs o => cOperand o.imm
  | _ => none

/-- s(TOFF) of an instruction that names a tile (R154). -/
def Instr.tileOffset : Instr → Option Operand
  | .mma o | .accz o | .acccp o | .accld o | .accst o | .accrd o | .accwr o =>
    let r : BitVec 6 := o.imm.extractLsb' 22 6
    if r = 0 then none else some (.s r)
  | _ => none

/-- The registers after s(A) that `evt` reads (R365). -/
def Instr.payload : Instr → List Operand
  | .evt o =>
    match o.a with
    | .s n => [.s (n + 1), .s (n + 2), .s (n + 3)]
    | _ => []
  | _ => []

/-- The vector registers whose poison an instruction consumes (Table 16-3): all it reads, but for those
that only move the data. The data of a store moves; its address registers are used. -/
def Instr.uses (i : Instr) (g : Sig) : List (Operand × Nat) :=
  match i with
  | .mov _ | .bcast _ | .accwr _ => []
  | .shfl o | .perm o => if o.mod.ib then [] else vecs [o.b]
  | .st o | .sts o | .stsx o => vecs [o.b]
  | _ => g.reads

/-- The scalar registers whose poison an instruction consumes. -/
def Instr.scalarUses (i : Instr) : List Operand :=
  match i with
  | .mov _ => []
  | .shfl o | .bcast o | .perm o => if o.mod.ib then [] else [o.b]
  | .st o | .sts o | .stsx o => [o.a]
  | .sst o => [o.a, o.b]
  | i => i.fields.drop 1 ++ i.readsD.toList ++ i.readsC.toList ++ i.tileOffset.toList ++ i.payload

/-- Instructions that read lanes outside the effective mask (R140). -/
def Instr.crossLane : Instr → Bool
  | .shfl _ | .bcast _ => true
  | _ => false

/-- `pref` never faults after decode: lanes that would are dropped (R205). -/
def Instr.neverFaults : Instr → Bool
  | .pref _ => true
  | _ => false

/-- Warp-wide instructions that read the lanes of the active mask only (R365). -/
def Instr.activeOnly : Instr → Bool
  | .evtp _ => true
  | _ => false

/-- Does an instruction name an indexed operand? -/
def Sig.indexed (g : Sig) : Bool :=
  (g.reads ++ g.dest).any fun x => match x.1 with | .vx _ _ => true | _ => false

/-- Checks 3 to 7 of R35 in their order, up to the guard: the code of the first that fails. Check 3 is
that of a relay-group opcode in a warp that is not a relay warp. -/
def Sig.check (g : Sig) (t : Team) : Option Nat :=
  if g.relay && t.relay.isNone then some 0x01
  else if !g.ok4 || !g.fits t.kernel.n t.kernel.g then some 0x02
  else if !g.ok5 then some 0x03
  else if g.w32 && t.kernel.width != 32 then some 0x0F
  else none

/-- The effective mask of an instruction, none when its guard does not let it execute (R17, R63). A
warp-wide vector instruction works on every lane. -/
def Sig.mask (g : Sig) (t : Team) (w : Warp) : Option Mask :=
  if g.lanewise then
    let m := w.guardMask g.guard &&& fullMask t.kernel.width
    if m = 0 then none else some m
  else if g.always || w.guardWarp g.guard then some (fullMask t.kernel.width) else none

end Sys2Proof

namespace Sys2Proof.Machine

/-! ## Back edges and the program counter -/

/-- The back edge of the innermost live level (R72), applied again to an outer level with the same
END; an error is the MASK_STACK trap, with the levels closed so far. `fuel`: levels left. -/
def Warp.backEdge (w : Warp) : Nat → Except Warp Warp
  | 0 => .ok w
  | fuel + 1 =>
    match w.loops with
    | [] => .ok { w with pc := w.pc + 12 }
    | lv :: outer =>
      if w.stack.length ≠ lv.sdepth then .error w
      else
        let active := w.mask ||| lv.cont
        let d := outer.length
        let n := w.lc.getD d 0 - 1
        let lc := w.lc.set d n
        if n ≠ 0 ∧ active ≠ 0 then
          .ok { w with mask := active, lc := lc, loops := { lv with cont := 0 } :: outer, pc := lv.start }
        else
          let w' := { w with mask := active ||| lv.brk, lc := lc, loops := outer }
          match outer with
          | o :: _ => if o.fin = lv.fin then Warp.backEdge w' fuel else .ok { w' with pc := lv.fin + 12 }
          | [] => .ok { w' with pc := lv.fin + 12 }

/-- Is the instruction at the PC the last of the innermost live level? -/
def Warp.atEnd (w : Warp) : Bool :=
  match w.loops with
  | lv :: _ => lv.fin == w.pc
  | [] => false

/-- A warp with the active mask, loop state and PC that a back edge gives it. -/
def Warp.edged (x u : Warp) (pending : Bool) : Warp :=
  { x with mask := u.mask, lc := u.lc, loops := u.loops, pc := u.pc, bedge := pending }

/-- Performing a back edge of the warp: on its MASK_STACK trap the instruction stands, the PC stays at
END and the back edge is pending (R72). -/
def State.doBackEdge (s : State) (k : WKey) : State :=
  match s.warp? k with
  | none => s
  | some w =>
    match w.backEdge 3 with
    | .ok w' => s.modWarp k (·.edged w' false)
    | .error w' => (s.modWarp k (·.edged w' true)).takeFault k (w.faultAt 0x08)

/-- The next instruction: PC + 12, or the back edge (R71, R72). -/
def State.advance (s : State) (k : WKey) : State :=
  match s.warp? k with
  | none => s
  | some w => if w.atEnd then s.doBackEdge k else s.modWarp k fun w => { w with pc := w.pc + 12 }

/-! ## Accounting of an issue -/

/-- An instruction of the warp has issued: ISSUED rises (R337), and the skid of a warp whose team is
halting (R56). -/
def State.countIssue (s : State) (k : WKey) : State :=
  s.modTeam k.team fun t =>
    { t with issued := t.issued + 1
             warps := updIf (·.num == k.w) (fun w =>
               { w with served := [], issued := w.issued + 1, skid := if t.phase = .halting then w.skid + 1 else w.skid }) t.warps }

/-- A debugger's single step has issued: the team halts again (R322), as R315 has it. -/
def State.endStep (s : State) (k : WKey) : State :=
  match s.team? k.team with
  | none => s
  | some t =>
    if t.stepping = some k.w ∧ t.phase = .halted then
      let trip := (s.warp? k).any Warp.inTrip
      (if trip then s else s.suspendWait k).modTeam k.team fun t => t.haltAt k.w trip 0
    else s

/-! ## The checks before an instruction -/

/-- The lowest effective lane with poison in a source register that the instruction consumes, and
whether it is reconstruction poison (R345, R179). -/
def Warp.consumed (w : Warp) (i : Instr) (g : Sig) (lanes : List Nat) : Option (Nat × Bool) :=
  let regs := (i.uses g).flatMap fun (o, n) =>
    match o with
    | .v r => (List.range n).map fun j => Operand.v (r + BitVec.ofNat 8 j)
    | o => [o]
  lanes.findSome? fun l =>
    (regs.find? fun o => w.poisonAt o l).map fun o => (l, w.reconAt o l)

/-- A poisoned scalar that the instruction consumes. -/
def Warp.consumedScalar (w : Warp) (i : Instr) : Bool :=
  w.sPoison != 0 && i.scalarUses.any fun o => match o with | .s n => w.sPoison.has n.toNat | _ => false

/-- Does the instruction name an s register that a scalar load or atomic has yet to write (Table 3-2)? -/
def State.scalarPending (s : State) (k : WKey) (i : Instr) : Bool :=
  s.ops.any fun o => o.key == k && !o.dropped && (match o.sdst with
    | some n => (i.fields ++ i.readsC.toList ++ i.tileOffset.toList ++ i.payload).any fun x => match x with | .s m => m.toNat == n | _ => false
    | none => false)

/-- What the checks before an instruction decide. -/
inductive Gate where
  /-- A precise trap. -/
  | trap (s : State) (f : FaultInfo)
  /-- The instruction is not ready: nothing but the start of a reload has happened. -/
  | wait (s : State)
  /-- The guard does not let it execute (R17, R63). -/
  | skip
  /-- It executes with this effective mask, in this state. -/
  | run (s : State) (m : Mask)

/-- Starting the reload of the first spilled register among those an instruction reads (R97): those it
names directly in the order of its signature, the kept destination last (assumption 99), then the sources of
non-uniform indexes. -/
def State.startReload (s : State) (k : WKey) (w : Warp) (spilled named : List Nat) : State :=
  match w.reloading, spilled with
  | some _, _ => s
  | none, v :: _ => s.modWarp k fun u => { u with reloading := some (v, v :: named) }
  | none, [] => s

/-- The destination registers an instruction also reads before it executes: those of a partial write (R97).
Through a non-uniform index they are served as they are written, one at a time (R102, `State.prepReg`). -/
def keptRegs (g : Sig) (i : Instr) (width : Nat) (w : Warp) (m : Mask) : List (Operand × Nat) :=
  if !i.keepsOld || m == fullMask width then []
  else g.dest.filter fun x => match x.1 with | .vx j _ => (w.xreg j).shape == .u | _ => true

/-- Everything before an instruction's own effect (R35, R63, R97, R98, R102, R345). Poison in a source register
is taken before the checks of the effect, ACC_BOUND and BATON among them (DESIGN CHOICE, assumption 113). -/
def gate (i : Instr) (g : Sig) (s : State) (k : WKey) (t : Team) (w : Warp) : Gate :=
  match g.check t with
  | some code => .trap s (w.faultAt code)
  | none =>
    match g.mask t w with
    | none => .skip
    | some m =>
      if g.full && w.mask &&& fullMask t.kernel.width != fullMask t.kernel.width then .trap s (w.faultAt 0x04)
      else
        let lanes := maskLanes t.kernel.width m
        let idx := if g.indexed && !i.neverFaults then
            w.indexFault t.kernel.n (i.fields ++ g.reads.map (·.1)) lanes
          else none
        match idx with
        | some (l, a) => .trap s (w.faultAt 0x07 l (BitVec.ofNat 64 a))
        | none =>
          let all := if i.crossLane then List.range t.kernel.width else lanes
          let named := w.named (g.reads ++ g.dest) all
          if named.any (fun n => (w.vreg n).pend) || s.scalarPending k i then .wait s
          else
            let reads := g.reads ++ keptRegs g i t.kernel.width w m
            let spilled := (w.direct reads).filter (fun n => (w.vreg n).spilled) ++
              (w.indexed g.reads all).filter fun n => (w.vreg n).spilled && !w.served.contains n
            if !spilled.isEmpty then .wait (s.startReload k w spilled (w.direct (g.reads ++ g.dest)))
            else
              match if i.neverFaults then none else w.consumed i g (if i.activeOnly then lanes.filter w.mask.has else lanes) with
              | some (l, recon) => .trap s (w.faultAt (if recon then 0x1B else 0x19) l)
              | none =>
                if w.consumedScalar i && !i.neverFaults then .trap s (w.faultAt 0x19)
                else .run s m

/-- The registers an instruction names that are never its victims (R95). -/
def Env.named (e : Env) (g : Sig) : List Nat := e.w.direct (g.reads ++ g.dest)

/-! ## What an instruction does -/

/-- What a meaning answers: the state after it; a precise trap (with the poisoned address when it is a
POISON trap on memory); a precise trap found by an access that has been made, with the state after it; that
it has issued and its warp now waits in an activity; or that it is not ready, with what the wait changes. -/
inductive Act where
  | next (s : State)
  | enter (s : State)
  | trap (f : FaultInfo) (ia : Option Nat)
  | trapAfter (s : State) (f : FaultInfo) (ia : Option Nat)
  | wait (s : State)

/-- A precise trap of the executing instruction. -/
def Env.trap (e : Env) (code : Nat) (lane : Nat := 255) (addr : Word := 0) (aux : Nat := 0) : Act :=
  .trap (e.w.faultAt code lane addr aux) none

/-- Ending an issue: counted, and a debugger's step ends. -/
def State.issued (s : State) (k : WKey) : State := (s.countIssue k).endStep k

/-- A precise trap of the issuing instruction: it counts as issued and the fault is taken; without room
for the record the warp waits (R318). -/
def State.trapped (s : State) (k : WKey) (f : FaultInfo) (ia : Option Nat) : State :=
  if s.fqRoom k.ctx then (s.countIssue k).takeFault k f ia else s

/-! ## Verified issue (R340, R341) -/

/-- How an instruction executes: on which unit, and which of its lanes have a result of their own; lane 0 alone
for what executes once. -/
structure ExecForm where
  unit : ExecUnit
  lanes : List Nat
  deriving DecidableEq, Repr

/-- Are the sources that an instruction names all U or A, or all U (R89)? -/
def Warp.sourcesFlat (w : Warp) (i : Instr) (ok : SrcShape → Bool) : Bool :=
  ((i.fields.drop 1) ++ i.readsC.toList).all fun o => ok (w.srcShape o)

/-- Has it left its vector destination U or A? One that has no vector destination, or has trapped, writes none. -/
def Env.resultFlat (e : Env) (g : Sig) : Act → Bool
  | .next u | .enter u =>
    match g.dest, u.warp? e.k with
    | [], _ | _, none => false
    | l, some w => l.all fun x => match x.1 with
      | .v n => (w.vreg n.toNat).shape != .g
      | .vx j b => (e.w.xreg j).shape == .u && (w.vreg (8 * b.toNat + (e.w.xreg j).at 0)).shape != .g
      | _ => false
  | .trap _ _ | .trapAfter _ _ _ | .wait _ => true

/-- Where an instruction executes (R54, R93): control and scalar instructions, and vector ones whose sources and
result are U or A under a full mask, on the scalar ALUs; a CORDIC instruction whose sources are U under a
full mask in a single-lane pass; the others on every effective lane. What has no vector result executes in the
vector pipeline (assumption 112). -/
def Env.execForm (e : Env) (i : Instr) (g : Sig) (a : Act) : ExecForm :=
  let full := e.m == fullMask e.width
  let opc := i.opcode
  if opc < 0x80 then ⟨.alu, [0]⟩
  else if 0x180 ≤ opc ∧ opc < 0x1C0 then ⟨.cordic, if full && e.w.sourcesFlat i (· == .u) then [0] else e.lanes⟩
  else if 0x240 ≤ opc ∧ opc < 0x380 then ⟨.address, if g.lanewise then e.lanes else [0]⟩
  else if full && e.w.sourcesFlat i (· != .g) && e.resultFlat g a then ⟨.alu, [0]⟩
  else ⟨.vector, e.lanes⟩

/-- The physical lane, or the ALU, on which an execution runs a lane: each execution rotates the lanes of a pass
by one more position; a scalar operation runs on ALU 0, on ALU 1 and again on ALU 0 (R340). Addresses rotate
as vector lanes do (DESIGN CHOICE, assumption 112). -/
def ExecForm.phys (f : ExecForm) (execution l : Nat) : Nat :=
  match f.unit with
  | .alu => execution % 2
  | .vector | .cordic | .address => (l + execution) % 32

/-- Is the result of an execution wrong in a sub-element of a lane? Two wrong results never agree (assumption 9). -/
def ExecForm.wrong (f : ExecForm) (gs : List Glitch) (execution l sub : Nat) : Bool :=
  gs.any fun g => g == ⟨execution, f.phys execution l, l / 32, sub⟩

/-- The sub-elements that errors touch. -/
def touched (gs : List Glitch) : List Nat := (gs.map (·.sub)).eraseDups

/-- Do the first two executions disagree somewhere, so that a third runs (R340)? -/
def ExecForm.disagrees (f : ExecForm) (gs : List Glitch) : Bool :=
  f.lanes.any fun l => (touched gs).any fun j => f.wrong gs 0 l j || f.wrong gs 1 l j

/-- The lowest lane with a sub-element in which no two of the three executions agree (R341). -/
def ExecForm.split (f : ExecForm) (gs : List Glitch) : Option Nat :=
  f.lanes.find? fun l => (touched gs).any fun j => decide (2 ≤ ([0, 1, 2].filter fun x => f.wrong gs x l j).length)

/-- The physical lane that the vote overrules, in the lowest lane that it corrects. -/
def ExecForm.overruled (f : ExecForm) (gs : List Glitch) : Nat :=
  (f.lanes.findSome? fun l => (touched gs).findSome? fun j =>
    ([0, 1, 2].find? fun x => f.wrong gs x l j).map fun x => f.phys x l).getD 0

/-- What the comparison of the executions finds: agreement; a correction that names a physical lane; or three
different results in a lane. -/
inductive Strike where
  | none
  | corrected (u : Upset) (phys : Nat)
  | miscompare (u : Upset) (lane : Nat)

/-- The rows of Table 3-3 that verified issue covers executed as this form says, and compared (R340, R341). -/
def State.verify (s : State) (e : Env) (i : Instr) (f : ExecForm) : Strike :=
  if s.upsets.isEmpty || !(s.ctx e.k.ctx).verified || !verifiedOpcode i.opcode then .none
  else
    match s.upsets.findSome? fun u => match u with
      | .logic core quad unit gs =>
        if core == e.w.core && quad == quadOf e.w.slot && unit == f.unit && f.disagrees gs then some (u, gs) else none
      | _ => none with
    | none => .none
    | some (u, gs) =>
      match f.split gs with
      | some l => .miscompare u l
      | none => .corrected u (f.overruled gs)

/-- A correction (R341): the VFY_CORRECT event, and the corrected count of the core. -/
def State.voted (s : State) (e : Env) (u : Upset) (phys : Nat) : State :=
  let s1 := { s with upsets := s.upsets.erase u }.emit (e.w.src 1) 0x025 0 e.w.cause e.t.cause
    [atBit e.w.core 0 ||| atBit (quadOf e.w.slot) 16 ||| atBit phys 24, e.w.pc, e.w.serial &&& 0xFFFFFFFFFFFF#64]
  (s1.modCore e.w.core fun c => { c with corrected := c.corrected + 1 }).riskEvent .vc

/-- MISCOMPARE of a verified instruction, none of which is written (R341). What runs on the scalar ALUs has no
lane: LANE is 255 and bits 4:0 are 0 (DESIGN CHOICE, assumption 112). -/
def Env.miscompare (e : Env) (f : ExecForm) (l : Nat) : FaultInfo :=
  let alu := f.unit == .alu
  { e.w.faultAt 0x1A (if alu then 255 else l) (atBit 1 63 ||| atBit (if alu then 0 else f.phys 0 l) 0) with
      precise := false, deferred := true }

/-! ## Running an instruction -/

/-- What an instruction's act leaves: issued, and moved on by `move`; or not issued, when it is not ready or its
fault has no room (R318). A trap acts on the state from before the instruction. -/
def Act.close (a : Act) (move : State → WKey → State) (s : State) (k : WKey) : Except State State :=
  match a with
  | .next u => .ok (((move u k).endWait k).issued k)
  | .enter u => .ok (u.issued k)
  | .trap x ia => if s.fqRoom k.ctx then .ok (s.trapped k x ia) else .error s
  | .trapAfter u x ia => if s.fqRoom k.ctx then .ok (u.trapped k x ia) else .error s
  | .wait u => .error u

/-- An act under verified issue: as it is; corrected; or replaced by MISCOMPARE. -/
def Env.verified (e : Env) (i : Instr) (g : Sig) (move : State → WKey → State) (a : Act) : State :=
  match a.close move e.s e.k with
  | .error u => u
  | .ok u =>
    let f := e.execForm i g a
    match e.s.verify e i f with
    | .none => u
    | .corrected x phys => u.voted e x phys
    | .miscompare x l =>
      if e.s.fqRoom e.k.ctx then
        (({ e.s with upsets := e.s.upsets.erase x }).riskEvent .mc).trapped e.k (e.miscompare f l) none
      else e.s

/-- Running an instruction of the issuing warp: the gate, its effect `f` as verified issue lets it stand, and
what follows; `move` moves the PC afterwards. -/
def runWith (move : State → WKey → State) (i : Instr) (s : State) (f : Env → Act) :
    Host.Outcome State Fault Refusal :=
  match s.cur with
  | none => .fault .noIssuingWarp
  | some k =>
    match i.sig, s.team? k.team, s.warp? k with
    | some g, some t, some w =>
      match gate i g s k t w with
      | .trap s1 x => .next (s1.trapped k x none)
      | .wait s1 => .next s1
      | .skip => .next ((s.advance k).issued k)
      | .run s1 m => .next (Env.verified ⟨s1, k, t, w, m⟩ i g move (f ⟨s1, k, t, w, m⟩))
    | _, _, _ => .fault .noSuchWarp

/-- Running an instruction after which the warp goes on to the next one. -/
def runSeq (i : Instr) (s : State) (f : Env → Act) : Host.Outcome State Fault Refusal := runWith State.advance i s f

/-- Running an instruction that sets the PC itself, or keeps it while it waits. -/
def runRaw (i : Instr) (s : State) (f : Env → Act) : Host.Outcome State Fault Refusal :=
  runWith (fun s _ => s) i s f

/-- Waiting for a row (R95): the instruction is not ready. -/
def Env.orWait (e : Env) : Option State → Act
  | some s => .next s
  | none => .wait e.s

/-- Writing a vector destination of the executing instruction; without a row it is not ready. -/
def Env.put (e : Env) (i : Instr) (d : Operand) (x : VRes) : Act :=
  e.orWait (e.write (match i.sig with | some g => e.named g | none => []) d x)

/-- A further change when the instruction goes on. -/
def Act.andThen (a : Act) (f : State → State) : Act :=
  match a with
  | .next s => .next (f s)
  | a => a

/-- The lanes of an operand that are poisoned, and those poisoned by a reconstruction. -/
def Env.poisonOf (e : Env) (o : Operand) : Mask :=
  e.lanes.foldl (fun m l => if e.w.poisonAt o l then m ||| (1#64 <<< l) else m) 0
def Env.reconOf (e : Env) (o : Operand) : Mask :=
  e.lanes.foldl (fun m l => if e.w.reconAt o l then m ||| (1#64 <<< l) else m) 0

/-- Raising sticky flags in the effective lanes (R121, R122); NF raises none. -/
def Env.raise (e : Env) (nf : Bool) (f : Nat → BitVec 6) (s : State) : State :=
  if nf then s
  else s.modWarp e.k fun w =>
    { w with flags := (List.range e.width).map fun l =>
        let old := w.flags.getD l 0
        if e.m.has l then old ||| f l else old }

end Sys2Proof.Machine
end

