-- ==== Sys2Proof/Machine/L1.lean ====
section
/-!
DEFINITION. The L1 data cache (R192 to R195): sectors, stores in write-back form, eviction and
write-backs, flash invalidation; and the release and acquire actions of a scope (R198, Table 10-5).
-/

namespace Sys2Proof

/-- Does a scope act on the caches: dv or wider, or tm in a paired team (Table 10-5)? -/
def Scope.wide (sc : Scope) (paired : Bool) : Bool :=
  match sc with
  | .wp => false
  | .tm => paired
  | .dv | .cl | .sy => true

/-- An order that releases, and one that acquires (R28). -/
def Ord.releases (o : Ord) : Bool := o == .rel || o == .ar
def Ord.acquires (o : Ord) : Bool := o == .acq || o == .ar

end Sys2Proof

namespace Sys2Proof.Machine

/-! ## Sectors -/

/-- Flash invalidation (Table 10-5): Clean sectors become Invalid, Dirty ones keep only their written
bytes. -/
def State.flashInvalidate (s : State) (core : Nat) : State :=
  s.modCore core fun c =>
    { c with l1 := c.l1.filterMap fun x => if x.isDirty then some { x with valid := x.dirty } else none }

/-- Lines of 512 bytes in an L1. -/
def Core.l1Lines (c : Core) : List Nat := (c.l1.map (·.sector / 4)).eraseDups

/-- Making room for a line (R192): when its set of 16 ways is full, the least recently used line of the
set is evicted, its dirty sectors written back. At most 16 lines in all fit whatever the set. -/
def State.l1Room (s : State) (core line : Nat) : State :=
  let lines := (s.core core).l1Lines
  if lines.length < 16 ∨ lines.contains line then s
  else
    let set := lines.filter fun l => Config.l1Set l % 32 == Config.l1Set line % 32
    if set.length < 16 then s
    else match set.getLast? with
      | none => s
      | some old =>
        let (_, s1) := s.cleanAll core fun x => x.sector / 4 == old
        s1.modCore core fun c => { c with l1 := c.l1.filter fun x => x.sector / 4 != old }

/-- A store in write-back form of one sector (R194): bytes, mask, poison, `.ev` placement. -/
def State.l1Store (s : State) (core : Nat) (owner : TKey) (sec : Nat) (data : List Byte) (mask : BitVec 128)
    (poison last : Bool) : State :=
  let s0 := s.l1Room core (sec / 4)
  match (s0.core core).l1? sec with
  | none =>
    s0.modCore core fun c =>
      c.l1Put ⟨sec, mergeBytes (List.replicate 128 0) data mask, mask, mask, some owner, none, poison⟩ last
  | some x =>
    -- another team's dirty bytes are written back first, and the sector starts a fresh D
    let other := x.isDirty && !ownedBy owner x
    let s1 := if other then (s0.sendWriteBack core x).2 else s0
    let x1 : L1Sector := if other then { x with dirty := 0 } else x
    s1.modCore core fun c =>
      c.l1Put { x1 with data := mergeBytes x1.data data mask
                        dirty := x1.dirty ||| mask
                        valid := x1.valid ||| mask
                        owner := some owner
                        poison := poison || (x1.poison && mask != allBytes) } last

/-- A write performed at L2 seen by a core's own L1: a sector present is updated in place, poison with it, and
the written bytes leave D (R194, R206, R345). -/
def State.l1Update (s : State) (core sec : Nat) (data : List Byte) (mask : BitVec 128) (poison : Bool) : State :=
  s.modCore core fun c =>
    { c with l1 := updIf (fun x => x.sector == sec) (fun x =>
        { x with data := mergeBytes x.data data mask
                 dirty := x.dirty &&& ~~~mask
                 valid := x.valid ||| mask
                 poison := poison || (x.poison && mask != allBytes) }) c.l1 }

/-- A fill from L2 (R193): bytes in D stay, every byte becomes valid. -/
def State.l1Fill (s : State) (core sec : Nat) (data : List Byte) (poison last : Bool)
    (tags : Option (List (BitVec 4))) : State :=
  let s0 := s.l1Room core (sec / 4)
  match (s0.core core).l1? sec with
  | none => s0.modCore core fun c => c.l1Put ⟨sec, data, 0, allBytes, none, tags, poison⟩ last
  | some x =>
    s0.modCore core fun c =>
      c.l1Put { x with data := mergeBytes data x.data x.dirty, valid := allBytes, tags := tags
                       poison := x.poison || poison } last

/-- Write-backs of a core for a sector, under any address of it, that have not reached L2 yet. -/
def State.wbPending (s : State) (core sec : Nat) : Bool :=
  (s.core core).wbs.any fun b => b.copy.isNone && s.sameSector b.sector sec

/-! ## Scope actions (R198) -/

/-- LD, ST and SP have nothing outstanding. -/
def Warp.settledAccesses (w : Warp) : Bool := w.ldq.isEmpty && w.stq.isEmpty && w.spq.isEmpty

/-- The paths that still have accesses outstanding, bit k for path code k (R198, Table 17-5). -/
def Warp.pathsAwaited (w : Warp) : Word :=
  atBit (b2n (!w.ldq.isEmpty)) 0 ||| atBit (b2n (!w.stq.isEmpty)) 1 ||| atBit (b2n (!w.spq.isEmpty)) 2

/-- A warp waits in a scope action (WKIND 10). -/
def State.waitScope (s : State) (k : WKey) (paths : Word) : State := s.beginWait k { kind := 10, obj := paths }

/-- Setting how far the release action of a warp has come. -/
def State.setRelease (s : State) (k : WKey) (r : Release) : State := s.modWarp k fun w => { w with release := r }

/-- The team's Dirty sectors in this core's L1 written back: the write-backs of the team to wait for, those
that were under way included (R198, R200 step 2). -/
def State.pushTeam (s : State) (core : Nat) (k : TKey) : List Nat × State :=
  let s1 := (s.cleanAll core (ownedBy k)).2
  ((s1.core core).teamWrites k, s1)

/-- The read of the host link that a release of scope sy makes last (Table 10-5): it is sent, and complete
when the warp goes on. -/
def State.hostFence (s : State) (k : WKey) : State :=
  ((s.output .pcieRead).setRelease k .reading).waitScope k 0

/-- What is left of a release once its write-backs are acknowledged: the host-link read at sy. -/
def Env.releaseEnd (e : Env) (s : State) (sy : Bool) : Except State State :=
  if sy then .error (s.hostFence e.k) else .ok (s.setRelease e.k .idle)

/-- The release action of a scope for the issuing warp (Table 10-5): done, with the state in which it
is done; or not yet, with what it has started. -/
def Env.release (e : Env) (sc : Scope) : Except State State :=
  if sc = .wp then .ok e.s
  else if !e.w.settledAccesses then .error (e.s.waitScope e.k e.w.pathsAwaited)
  else if !sc.wide e.t.kernel.paired then .ok e.s
  else
    match e.w.release with
    | .done | .reading => .ok (e.s.setRelease e.k .idle)
    | .waiting ids =>
      if (e.s.core e.w.core).wbs.any fun b => ids.contains b.id then .error e.s else e.releaseEnd e.s (sc == .sy)
    | .idle =>
      match e.s.pushTeam e.w.core e.k.team with
      | ([], s1) => e.releaseEnd s1 (sc == .sy)
      | (ids, s1) => .error ((s1.setRelease e.k (.waiting ids)).waitScope e.k 0)

/-- Running an effect after the release action of a scope. -/
def Env.afterRelease (e : Env) (sc : Scope) (f : Env → Act) : Act :=
  match e.release sc with
  | .error s => .wait s
  | .ok s => f { e with s := s }

/-- The acquire action of a scope (Table 10-5), at the completion of an acquiring access. -/
def State.acquire (s : State) (core : Nat) (paired : Bool) (sc : Scope) : State :=
  if sc.wide paired then s.flashInvalidate core else s

/-! ## Waiting in an activity -/

/-- The instruction has issued and its warp now waits: the activity and the wait-table entry. -/
def State.enterWait (s : State) (k : WKey) (act : Activity) (x : WaitEntry) : State :=
  ((s.endWait k).modWarp k fun w => { w with act := act }).beginWait k x

/-- The wait in an activity ends. -/
def State.leaveWait (s : State) (k : WKey) : State :=
  (s.endWait k).modWarp k fun w => { w with act := .run }

/-- The entry of the fixed round trips (WKIND 15): the opcode, what it names, and its count. -/
def roundTrip (opc : Nat) (what count : Word) : WaitEntry :=
  { kind := 15, obj := BitVec.ofNat 64 opc, a0 := what, a1 := count }

end Sys2Proof.Machine
end

