-- ==== Sys2Proof/Machine/Register.lean ====
section
/-!
DEFINITION. The register instructions (R104 to R110): moves, `shape`, `mkaff`, `expand`, and the index
registers.
-/

namespace Sys2Proof.Machine

/-- The bits `mov` and `movi` keep, filled (R105). -/
def moveLane (t : Typ) (pk : BitVec 2) (x : Word) : Word := fillBits t pk (x.toNat % 2 ^ laneBits t pk)

/-- The stride an A source keeps: its own with a 64-bit integer type at one element, else none (R105). -/
def moveStride (m : MA) (sh : SrcShape) : Option Word :=
  match sh with
  | .a _ t => if (m.ty = .s64 ∨ m.ty = .z64) ∧ m.pk = 0 then some t else none
  | _ => none

def execMov (o : Ops MA) (s : State) : Host.Outcome State Fault Refusal :=
  runSeq (.mov o) s fun e =>
    let sh := e.w.srcShape o.a
    let r := e.result [sh] (moveStride o.mod sh) fun l => moveLane o.mod.ty o.mod.pk (e.lane o.a l)
    e.put (.mov o) o.d { r with poison := e.poisonOf o.a, recon := e.reconOf o.a }

def execMovi (o : Ops MA) (s : State) : Host.Outcome State Fault Refusal :=
  runSeq (.movi o) s fun e =>
    e.put (.movi o) o.d (e.result [] none fun _ => moveLane o.mod.ty o.mod.pk (immLane o.mod.ty o.mod.pk o.imm))

/-- The code of a shape (Table 5-1). -/
def Shape.code : Shape → Nat
  | .u => 0 | .a => 1 | .g => 2

/-- The word of `shape` FORM 0 (Table 5-6). -/
def shapeWord (r : VReg) : Word :=
  atBit r.stride.toNat 32 ||| atBit r.rank 24 ||| atBit r.row 16 ||| atBit (b2n r.dirty) 3 |||
    atBit (b2n r.spilled) 2 ||| atBit r.shape.code 0

def execShape (o : Ops (BitVec 16)) (s : State) : Host.Outcome State Fault Refusal :=
  runSeq (.shape o) s fun e =>
    let r := e.w.vreg o.a.vNum
    let x : Word := match o.mod.toNat with
      | 0 => shapeWord r
      | 1 => r.base
      | _ => atBit e.w.reloads 32 ||| atBit e.w.spills 0
    .next (e.setS o.d x)

/-- `mkaff`: an affine value from a base and the sign-extended low half of a stride (R106). -/
def execMkaff (o : Ops (BitVec 16)) (s : State) : Host.Outcome State Fault Refusal :=
  runSeq (.mkaff o) s fun e =>
    let t : BitVec 32 := (e.scalar o.b).setWidth 32
    e.put (.mkaff o) o.d
      { shape := if t = 0 then .u else .a, stride := t
        vals := (List.range e.width).map fun l => e.scalar o.a + BitVec.ofNat 64 l * t.signExtend 64 }

/-- `expand`: a U or A register takes a row (R107). -/
def execExpand (o : Ops (BitVec 16)) (s : State) : Host.Outcome State Fault Refusal :=
  runSeq (.expand o) s fun e =>
    if (e.w.vreg o.d.vNum).shape = .g then .next e.s
    else e.orWait (e.s.makeG e.k e.t [o.d.vNum] o.d.vNum)

/-- The bound `xset` writes (R109). -/
def xsetBound (e : Env) (o : Ops (BitVec 16)) : BitVec 8 :=
  if o.mod.getLsbD 2 then BitVec.ofNat 8 (Nat.min (e.scalar o.b).toNat 255) else o.imm.setWidth 8

/-- Shape and stride of an index register loaded from a source (R109). -/
def xShape (sh : SrcShape) : Shape × BitVec 16 :=
  match sh with
  | .u => (.u, 0)
  | .a _ t => if (t.setWidth 16 : BitVec 16) = 0 then (.u, 0) else (.a, t.setWidth 16)
  | .g => (.g, 0)

def execXset (o : Ops (BitVec 16)) (s : State) : Host.Outcome State Fault Refusal :=
  runSeq (.xset o) s fun e =>
    let sh := xShape (e.w.srcShape o.a)
    let x : XReg :=
      { idx := (List.range e.width).map fun l => (e.lane o.a l).setWidth 16
        bound := xsetBound e o, shape := sh.1, stride := sh.2 }
    .next (e.s.modWarp e.k fun w => { w with x := w.x.set (o.mod.toNat % 4) x })

/-- Every lane of an affine index register lies in 0 to 2^16 - 1 without wrapping (R110). -/
def xFits (width : Nat) (x : XReg) : Bool :=
  (List.range width).all fun l =>
    let v : Int := ((x.idx.getD 0 0).toNat : Int) + (l : Int) * x.stride.toInt
    decide (0 ≤ v) && decide (v < 65536)

/-- The register value `xmov` FORM 0 writes (R110). -/
def xmovValue (width : Nat) (x : XReg) : VRes :=
  let vals : List Word := (List.range width).map fun l => BitVec.ofNat 64 (x.at l)
  match x.shape with
  | .u => { shape := .u, vals := vals }
  | .a => if xFits width x then { shape := .a, stride := x.stride.signExtend 32, vals := vals } else { shape := .g, vals := vals }
  | .g => { shape := .g, vals := vals }

def execXmov (o : Ops (BitVec 16)) (s : State) : Host.Outcome State Fault Refusal :=
  runSeq (.xmov o) s fun e =>
    let x := e.w.xreg (o.mod.setWidth 2)
    match mfield o 4 2 with
    | 0 => e.put (.xmov o) o.d (xmovValue e.width x)
    | 1 => .next (e.setS o.d (x.bound.setWidth 64))
    | _ => .next (e.s.modWarp e.k fun w => { w with x := w.x.set (mfield o 2 2) x })

end Sys2Proof.Machine
end

