-- ==== Sys2Proof/Machine/Scalar.lean ====
section
/-!
DEFINITION. The scalar instructions (R15, R83): constants, arithmetic, shifts, comparisons, selection
and bit fields on s registers.
-/

namespace Sys2Proof.Machine

/-- Operand b as an element of the type: s(B), or the immediate (R14, R83). -/
def Env.scalarB (e : Env) (o : Ops MA) : Nat :=
  if o.mod.ib then immElem o.mod.ty o.imm else (e.scalar o.b).toNat % 2 ^ o.mod.ty.width

/-- Operand a as an element of the type. -/
def Env.scalarA (e : Env) (o : Ops MA) : Nat := (e.scalar o.a).toNat % 2 ^ o.mod.ty.width

/-- A scalar instruction whose result is an element of the type, extended as R24 gives. -/
def scalarOp (i : Instr) (o : Ops MA) (s : State) (f : Env → Nat → Nat → Nat) :
    Host.Outcome State Fault Refusal :=
  runSeq i s fun e => .next (e.setS o.d (extendTo64 o.mod.ty (f e (e.scalarA o) (e.scalarB o))))

/-- A scalar instruction on the values its operands have in the type (R118), clamped with SAT. -/
def scalarInt (i : Instr) (o : Ops MA) (s : State) (f : Int → Int → Int) : Host.Outcome State Fault Refusal :=
  scalarOp i o s fun _ a b => narrowInt o.mod.ty o.mod.sat (f (readInt o.mod.ty a) (readInt o.mod.ty b))

/-- `li`: sd := sext64(IMM) (R15). -/
def execLi (o : Ops MA) (s : State) : Host.Outcome State Fault Refusal :=
  runSeq (.li o) s fun e => .next (e.setS o.d (o.imm.signExtend 64))

/-- The value `lih` writes over an old one (R15). -/
def lihValue (form : Nat) (old : Word) (imm : BitVec 16) : Word :=
  match form with
  | 1 => (imm ++ (old.setWidth 16 : BitVec 16) : BitVec 32).signExtend 64
  | 2 => (old.extractLsb' 48 16 : BitVec 16) ++ imm ++ (old.setWidth 32 : BitVec 32)
  | _ => imm ++ (old.setWidth 48 : BitVec 48)

def execLih (o : Ops MA) (s : State) : Host.Outcome State Fault Refusal :=
  runSeq (.lih o) s fun e => .next (e.setS o.d (lihValue o.mod.sub.toNat (e.scalar o.d) (o.imm.setWidth 16)))

def execSadd (o : Ops MA) (s : State) : Host.Outcome State Fault Refusal :=
  scalarInt (.sadd o) o s fun a b => a + b

def execSsub (o : Ops MA) (s : State) : Host.Outcome State Fault Refusal :=
  scalarInt (.ssub o) o s fun a b => a - b

def execSmul (o : Ops MA) (s : State) : Host.Outcome State Fault Refusal :=
  scalarInt (.smul o) o s fun a b => a * b

/-- The high half of an exact product: bits 2w - 1 : w. -/
def highHalf (w : Nat) (x : Int) : Int := x / 2 ^ w

def execSmulh (o : Ops MA) (s : State) : Host.Outcome State Fault Refusal :=
  scalarInt (.smulh o) o s fun a b => highHalf o.mod.ty.width (a * b)

def execSand (o : Ops MA) (s : State) : Host.Outcome State Fault Refusal :=
  scalarOp (.sand o) o s fun _ a b => a &&& b

def execSor (o : Ops MA) (s : State) : Host.Outcome State Fault Refusal :=
  scalarOp (.sor o) o s fun _ a b => a ||| b

def execSxor (o : Ops MA) (s : State) : Host.Outcome State Fault Refusal :=
  scalarOp (.sxor o) o s fun _ a b => a ^^^ b

/-- The complement of a w-bit pattern. -/
def notElem (w a : Nat) : Nat := 2 ^ w - 1 - a % 2 ^ w

def execSnot (o : Ops MA) (s : State) : Host.Outcome State Fault Refusal :=
  scalarOp (.snot o) o s fun _ a _ => notElem o.mod.ty.width a

/-- Shifts of a w-bit pattern by b mod w (R83, R130). -/
def shlElem (w a b : Nat) : Nat := (a <<< (b % w)) % 2 ^ w
def shrElem (w a b : Nat) : Nat := a >>> (b % w)
def sraElem (w a b : Nat) : Nat := wrapInt w (toSigned w a / 2 ^ (b % w))

def execSshl (o : Ops MA) (s : State) : Host.Outcome State Fault Refusal :=
  scalarOp (.sshl o) o s fun _ a b => shlElem o.mod.ty.width a b

def execSshr (o : Ops MA) (s : State) : Host.Outcome State Fault Refusal :=
  scalarOp (.sshr o) o s fun _ a b => shrElem o.mod.ty.width a b

def execSsra (o : Ops MA) (s : State) : Host.Outcome State Fault Refusal :=
  scalarOp (.ssra o) o s fun _ a b => sraElem o.mod.ty.width a b

def execSmin (o : Ops MA) (s : State) : Host.Outcome State Fault Refusal :=
  scalarInt (.smin o) o s fun a b => if a ≤ b then a else b

def execSmax (o : Ops MA) (s : State) : Host.Outcome State Fault Refusal :=
  scalarInt (.smax o) o s fun a b => if a ≤ b then b else a

/-- Leading zeros of a w-bit pattern; w when it is 0. -/
def clzElem (w a : Nat) : Nat := if a = 0 then w else w - 1 - Nat.log2 a

/-- Set bits of a w-bit pattern. -/
def popElem (w a : Nat) : Nat := ((List.range w).filter fun k => a.testBit k).length

def execSclz (o : Ops MA) (s : State) : Host.Outcome State Fault Refusal :=
  scalarOp (.sclz o) o s fun _ a _ => clzElem o.mod.ty.width a

def execSpopc (o : Ops MA) (s : State) : Host.Outcome State Fault Refusal :=
  scalarOp (.spopc o) o s fun _ a _ => popElem o.mod.ty.width a

/-- The integer conditions eq, ne, lt, ge, le, gt (R83, R131). -/
def intCond (c : Nat) (a b : Int) : Bool :=
  match c with
  | 0 => a == b
  | 1 => a != b
  | 2 => decide (a < b)
  | 3 => decide (b ≤ a)
  | 4 => decide (a ≤ b)
  | _ => decide (b < a)

/-- `scmp`: 1 or 0 to an s register, all W bits to a predicate. -/
def execScmp (o : Ops MA) (s : State) : Host.Outcome State Fault Refusal :=
  runSeq (.scmp o) s fun e =>
    let r := intCond o.mod.sub.toNat (readInt o.mod.ty (e.scalarA o)) (readInt o.mod.ty (e.scalarB o))
    match o.d with
    | .p n => .next (e.s.modWarp e.k fun w => w.setP n e.width (if r then BitVec.allOnes 64 else 0))
    | d => .next (e.setS d (BitVec.ofNat 64 (b2n r)))

/-- `ssel`: SUB[3:0] is k, SUB[4] negates. -/
def execSsel (o : Ops MA) (s : State) : Host.Outcome State Fault Refusal :=
  scalarOp (.ssel o) o s fun e a b =>
    let p := e.w.preg (o.mod.sub.setWidth 4)
    let q := if o.mod.sub.getLsbD 4 then ~~~p else p
    if e.w.mask &&& q != 0 then a else b

def execSmov (o : Ops MA) (s : State) : Host.Outcome State Fault Refusal :=
  scalarOp (.smov o) o s fun _ a _ => a

/-- The low n bits of a number extended to w bits from bit n - 1 by signedness; 0 for n = 0. -/
def extendField (signed : Bool) (w n a : Nat) : Nat :=
  if n = 0 then 0
  else if signed then wrapInt w (toSigned n (a % 2 ^ n)) else a % 2 ^ n

def execSext (o : Ops MA) (s : State) : Host.Outcome State Fault Refusal :=
  scalarOp (.sext o) o s fun _ a b => extendField o.mod.ty.signed 64 (b % 64 + 1) a

/-- The bit field of a at bit `pos` of length `len`, bits past w reading 0 (R83, R130). -/
def bitField (signed : Bool) (w a pos len : Nat) : Nat :=
  extendField signed w (Nat.min len w) (a >>> pos)

def execSbfe (o : Ops MA) (s : State) : Host.Outcome State Fault Refusal :=
  scalarOp (.sbfe o) o s fun _ a b => bitField o.mod.ty.signed 64 a (b % 64) (b / 256 % 128)

end Sys2Proof.Machine
end

