-- ==== Sys2Proof/Machine/Integer.lean ====
section
/-!
DEFINITION. The vector integer instructions (R128, R130, R131): each works element by element in every
lane of the effective mask; the element functions are shared with the scalar instructions.
-/

namespace Sys2Proof.Machine

/-! ## Lanes and elements -/

/-- A result formed element by element: `f lane k` is the pattern of sub-element k (R128). -/
def Env.elemwise (e : Env) (t : Typ) (pk : BitVec 2) (srcs : List SrcShape) (aff : Option Word)
    (f : Nat → Nat → Nat) : VRes :=
  e.result srcs aff fun l => fillLane t pk ((List.range (pkCount pk)).map (f l))

/-- Sub-element k of an operand in lane l, of the type's width. -/
def Env.elem (e : Env) (t : Typ) (o : Operand) (l k : Nat) : Nat := elemOf (e.lane o l) t.width k

/-- Sub-element k of operand B in lane l. -/
def Env.elemB (e : Env) (o : Ops MA) (l k : Nat) : Nat := elemOf (e.laneB o l) o.mod.ty.width k

/-- A unary element-wise instruction. -/
def vec1 (i : Instr) (o : Ops MA) (s : State) (f : Nat → Nat) : Host.Outcome State Fault Refusal :=
  runSeq i s fun e =>
    e.put i o.d (e.elemwise o.mod.ty o.mod.pk [e.w.srcShape o.a] none fun l k => f (e.elem o.mod.ty o.a l k))

/-- A binary element-wise instruction with an affine form. -/
def vec2Aff (i : Instr) (o : Ops MA) (s : State) (aff : Env → Option Word) (f : Nat → Nat → Nat) :
    Host.Outcome State Fault Refusal :=
  runSeq i s fun e =>
    e.put i o.d (e.elemwise o.mod.ty o.mod.pk [e.w.srcShape o.a, e.w.srcShapeB o] (aff e) fun l k =>
      f (e.elem o.mod.ty o.a l k) (e.elemB o l k))

/-- A binary element-wise instruction. -/
def vec2 (i : Instr) (o : Ops MA) (s : State) (f : Nat → Nat → Nat) : Host.Outcome State Fault Refusal :=
  vec2Aff i o s (fun _ => none) f

/-- A binary element-wise instruction that also reads D. -/
def vec2D (i : Instr) (o : Ops MA) (s : State) (f : Nat → Nat → Nat → Nat) : Host.Outcome State Fault Refusal :=
  runSeq i s fun e =>
    e.put i o.d (e.elemwise o.mod.ty o.mod.pk [e.w.srcShape o.a, e.w.srcShapeB o, e.w.srcShape o.d] none
      fun l k => f (e.elem o.mod.ty o.a l k) (e.elemB o l k) (e.elem o.mod.ty o.d l k))

/-- A function on values of the type, as one on patterns (R118). -/
def onInts (m : MA) (f : Int → Int → Int) (a b : Nat) : Nat :=
  narrowInt m.ty m.sat (f (readInt m.ty a) (readInt m.ty b))
def onInt (m : MA) (f : Int → Int) (a : Nat) : Nat := narrowInt m.ty m.sat (f (readInt m.ty a))

/-- The affine forms of Table 5-2 hold at one 64-bit element without saturation. -/
def affineType (m : MA) : Bool := (m.ty == .s64 || m.ty == .z64) && m.pk == 0 && !m.sat

/-- The stride of a sum of A and U, U and A, or A and A (Table 5-2). -/
def addStride (m : MA) (a b : SrcShape) : Option Word :=
  if !affineType m then none
  else match a, b with
    | .a _ t, .a _ u => some (t + u)
    | .a _ t, .u => some t
    | .u, .a _ t => some t
    | _, _ => none

/-- The stride of A minus U. -/
def subStride (m : MA) (a b : SrcShape) : Option Word :=
  if !affineType m then none
  else match a, b with
    | .a _ t, .u => some t
    | _, _ => none

/-- The stride of a product of A and U or U and A, with the uniform values. -/
def mulStride (m : MA) (a b : SrcShape) (x y : Word) : Option Word :=
  if !affineType m then none
  else match a, b with
    | .a _ t, .u => some (t * y)
    | .u, .a _ t => some (x * t)
    | _, _ => none

/-! ## Arithmetic -/

def execIadd (o : Ops MA) (s : State) : Host.Outcome State Fault Refusal :=
  vec2Aff (.iadd o) o s (fun e => addStride o.mod (e.w.srcShape o.a) (e.w.srcShapeB o))
    (onInts o.mod fun a b => a + b)

def execIsub (o : Ops MA) (s : State) : Host.Outcome State Fault Refusal :=
  vec2Aff (.isub o) o s (fun e => subStride o.mod (e.w.srcShape o.a) (e.w.srcShapeB o))
    (onInts o.mod fun a b => a - b)

/-- e24(x): bits 23:0 by the type's signedness (R130). -/
def e24 (t : Typ) (x : Nat) : Int := if t.signed then toSigned 24 (x % 2 ^ 24) else ((x % 2 ^ 24 : Nat) : Int)

def execImul24 (o : Ops MA) (s : State) : Host.Outcome State Fault Refusal :=
  vec2 (.imul24 o) o s fun a b => wrapInt o.mod.ty.width (e24 o.mod.ty a * e24 o.mod.ty b)

def execImul (o : Ops MA) (s : State) : Host.Outcome State Fault Refusal :=
  vec2Aff (.imul o) o s
    (fun e => mulStride o.mod (e.w.srcShape o.a) (e.w.srcShapeB o) (e.lane o.a 0) (e.laneB o 0))
    (onInts o.mod fun a b => a * b)

def execImulh (o : Ops MA) (s : State) : Host.Outcome State Fault Refusal :=
  vec2 (.imulh o) o s (onInts o.mod fun a b => highHalf o.mod.ty.width (a * b))

def execImad24 (o : Ops MA) (s : State) : Host.Outcome State Fault Refusal :=
  vec2D (.imad24 o) o s fun a b d => wrapInt o.mod.ty.width (e24 o.mod.ty a * e24 o.mod.ty b + d)

def execIabs (o : Ops MA) (s : State) : Host.Outcome State Fault Refusal :=
  vec1 (.iabs o) o s (onInt o.mod fun a => (a.natAbs : Int))

def execIneg (o : Ops MA) (s : State) : Host.Outcome State Fault Refusal :=
  vec1 (.ineg o) o s (onInt o.mod fun a => 0 - a)

def execImin (o : Ops MA) (s : State) : Host.Outcome State Fault Refusal :=
  vec2 (.imin o) o s (onInts o.mod fun a b => if a ≤ b then a else b)

def execImax (o : Ops MA) (s : State) : Host.Outcome State Fault Refusal :=
  vec2 (.imax o) o s (onInts o.mod fun a b => if a ≤ b then b else a)

/-! ## Logic, shifts and bits -/

def execIand (o : Ops MA) (s : State) : Host.Outcome State Fault Refusal := vec2 (.iand o) o s fun a b => a &&& b
def execIor (o : Ops MA) (s : State) : Host.Outcome State Fault Refusal := vec2 (.ior o) o s fun a b => a ||| b
def execIxor (o : Ops MA) (s : State) : Host.Outcome State Fault Refusal := vec2 (.ixor o) o s fun a b => a ^^^ b
def execInot (o : Ops MA) (s : State) : Host.Outcome State Fault Refusal := vec1 (.inot o) o s (notElem o.mod.ty.width)
def execIshl (o : Ops MA) (s : State) : Host.Outcome State Fault Refusal := vec2 (.ishl o) o s (shlElem o.mod.ty.width)
def execIshr (o : Ops MA) (s : State) : Host.Outcome State Fault Refusal := vec2 (.ishr o) o s (shrElem o.mod.ty.width)
def execIsra (o : Ops MA) (s : State) : Host.Outcome State Fault Refusal := vec2 (.isra o) o s (sraElem o.mod.ty.width)

/-- A rotation of a w-bit pattern to the left, or to the right. -/
def rotElem (w : Nat) (right : Bool) (a b : Nat) : Nat :=
  let n := if right then (w - b % w) % w else b % w
  (a <<< n) % 2 ^ w + a >>> (w - n)

def execIrot (o : Ops MA) (s : State) : Host.Outcome State Fault Refusal :=
  vec2 (.irot o) o s (rotElem o.mod.ty.width (o.mod.sub.getLsbD 0))

def execIclz (o : Ops MA) (s : State) : Host.Outcome State Fault Refusal := vec1 (.iclz o) o s (clzElem o.mod.ty.width)
def execIpopc (o : Ops MA) (s : State) : Host.Outcome State Fault Refusal := vec1 (.ipopc o) o s (popElem o.mod.ty.width)

/-- The w bits of a pattern in reverse order. -/
def revElem (w a : Nat) : Nat := (List.range w).foldl (fun r k => 2 * r + b2n (a.testBit k)) 0

def execIbrev (o : Ops MA) (s : State) : Host.Outcome State Fault Refusal := vec1 (.ibrev o) o s (revElem o.mod.ty.width)

def execIbfe (o : Ops MA) (s : State) : Host.Outcome State Fault Refusal :=
  vec2 (.ibfe o) o s fun a b => bitField o.mod.ty.signed o.mod.ty.width a (b % 64) (b / 256 % 128)

/-- Insertion of a field (R130): bits at or above w are dropped. -/
def insertField (w a b c : Nat) : Nat :=
  let pos := c % 64
  let len := Nat.min (c / 256 % 128) w
  let mask := ((2 ^ len - 1) <<< pos) % 2 ^ w
  (a &&& notElem w mask) ||| ((b <<< pos) &&& mask)

def execIbfi (o : Ops MA) (s : State) : Host.Outcome State Fault Refusal :=
  runSeq (.ibfi o) s fun e =>
    let c := (cOperand o.imm).getD (.special .zero)
    e.put (.ibfi o) o.d (e.elemwise o.mod.ty o.mod.pk [e.w.srcShape o.a, e.w.srcShape o.b, e.w.srcShape c] none
      fun l k => insertField o.mod.ty.width (e.elem o.mod.ty o.a l k) (e.elem o.mod.ty o.b l k) (e.elem o.mod.ty c l k))

def execIsel (o : Ops MA) (s : State) : Host.Outcome State Fault Refusal :=
  runSeq (.isel o) s fun e =>
    let c := (cOperand o.imm).getD (.p 0)
    e.put (.isel o) o.d (e.elemwise o.mod.ty o.mod.pk [e.w.srcShape o.a, e.w.srcShape o.b, e.w.srcShape c] none
      fun l k => if e.lane c l != 0 then e.elem o.mod.ty o.a l k else e.elem o.mod.ty o.b l k)

/-! ## Comparison and carry (R131) -/

/-- Writing the lanes of the effective mask of a predicate; the others keep their bits. -/
def Env.setLanes (e : Env) (s : State) (n : BitVec 4) (f : Nat → Bool) : State :=
  s.modWarp e.k fun w =>
    w.setP n e.width (e.lanes.foldl (fun m l => if f l then m ||| (1#64 <<< l) else m &&& ~~~(1#64 <<< l)) (w.preg n))

/-- A comparison: lanes of a predicate, or all ones and zeros in each sub-element. -/
def Env.compare (e : Env) (i : Instr) (o : Ops MA) (f : Nat → Nat → Bool) : Act :=
  match o.d with
  | .p n => .next (e.setLanes e.s n fun l => f l 0)
  | d =>
    e.put i d (e.elemwise o.mod.ty o.mod.pk [e.w.srcShape o.a, e.w.srcShapeB o] none
      fun l k => if f l k then 2 ^ o.mod.ty.width - 1 else 0)

def execIcmp (o : Ops MA) (s : State) : Host.Outcome State Fault Refusal :=
  runSeq (.icmp o) s fun e =>
    e.compare (.icmp o) o fun l k =>
      intCond o.mod.sub.toNat (readInt o.mod.ty (e.elem o.mod.ty o.a l k)) (readInt o.mod.ty (e.elemB o l k))

def execIaddc (o : Ops MA) (s : State) : Host.Outcome State Fault Refusal :=
  runSeq (.iaddc o) s fun e =>
    let n : BitVec 4 := o.mod.sub.setWidth 4
    let w := o.mod.ty.width
    let sb := o.mod.sub.getLsbD 4
    let p (l : Nat) : Int := b2n ((e.w.preg n).has l)
    let t (l : Nat) : Int :=
      let a : Int := e.elem o.mod.ty o.a l 0
      let b : Int := e.elemB o l 0
      if sb then a - b - p l else a + b + p l
    let x := e.elemwise o.mod.ty o.mod.pk [.g] none fun l _ => wrapInt w (t l)
    (e.put (.iaddc o) o.d x).andThen fun s =>
      e.setLanes s n fun l => if sb then decide (t l < 0) else decide (2 ^ w ≤ t l)

/-! ## Sums of differences, averages, products and funnels -/

def execIsad (o : Ops MA) (s : State) : Host.Outcome State Fault Refusal :=
  if o.mod.sub = 1 then
    vec2D (.isad o) o s fun a b d =>
      wrapInt o.mod.ty.width (d + (readInt o.mod.ty a - readInt o.mod.ty b).natAbs)
  else
    vec2 (.isad o) o s fun a b => wrapInt o.mod.ty.width (readInt o.mod.ty a - readInt o.mod.ty b).natAbs

def execIavg (o : Ops MA) (s : State) : Host.Outcome State Fault Refusal :=
  vec2 (.iavg o) o s (onInts o.mod fun a b => (a + b + o.mod.sub.toNat) / 2)

/-- The sum of the four byte products (R131). -/
def dot4 (sa sb : Bool) (a b : Nat) : Int :=
  (List.range 4).foldl (fun t j =>
    let x := a >>> (8 * j) % 256
    let y := b >>> (8 * j) % 256
    t + (if sa then toSigned 8 x else (x : Int)) * (if sb then toSigned 8 y else (y : Int))) 0

def execIdp4 (o : Ops MA) (s : State) : Host.Outcome State Fault Refusal :=
  vec2D (.idp4 o) o s fun a b d =>
    narrowInt o.mod.ty o.mod.sat (readInt o.mod.ty d + dot4 (o.mod.sub.getLsbD 0) (o.mod.sub.getLsbD 1) a b)

def execIext (o : Ops MA) (s : State) : Host.Outcome State Fault Refusal :=
  vec2 (.iext o) o s fun a b => extendField o.mod.ty.signed o.mod.ty.width (b % o.mod.ty.width + 1) a

/-- A three-input logic function by its truth table (R131). -/
def lop3 (lut a a1 d : Nat) : Nat :=
  (List.range 64).foldl (fun r i =>
    if lut.testBit (4 * b2n (a.testBit i) + 2 * b2n (a1.testBit i) + b2n (d.testBit i)) then r + 2 ^ i else r) 0

def execIlop3 (o : Ops MA) (s : State) : Host.Outcome State Fault Refusal :=
  runSeq (.ilop3 o) s fun e =>
    let a1 : Operand := .v (BitVec.ofNat 8 (o.a.vNum + 1))
    e.put (.ilop3 o) o.d (e.elemwise .z64 0 [e.w.srcShape o.a, e.w.srcShape a1, e.w.srcShape o.d] none
      fun l k => lop3 o.imm.toNat (e.elem .z64 o.a l k) (e.elem .z64 a1 l k) (e.elem .z64 o.d l k))

/-- A funnel shift (R131). -/
def funnel (w : Nat) (left : Bool) (a b d : Nat) : Nat :=
  let sh := b % w
  if left then ((d * 2 ^ w + a) <<< sh) >>> w % 2 ^ w else ((a * 2 ^ w + d) >>> sh) % 2 ^ w

def execIshfd (o : Ops MA) (s : State) : Host.Outcome State Fault Refusal :=
  vec2D (.ishfd o) o s (funnel o.mod.ty.width (o.mod.sub.getLsbD 0))

end Sys2Proof.Machine
end

