-- ==== Sys2Proof/Machine/Float.lean ====
section
/-!
DEFINITION. The vector floating-point instructions (R132 to R134), the conversions (R135 to R137) and
the flag instructions (R124). Every result is formed exactly and rounded once; flags are ORed per lane.
-/

namespace Sys2Proof.Machine

/-! ## Element-wise results with flags -/

/-- The flags of a lane: those of all its sub-elements (R122). -/
def laneFlags (pk : BitVec 2) (f : Nat → FpRes) : Fl :=
  (List.range (pkCount pk)).foldl (fun a k => a ||| (f k).fl) 0

/-- A result and its flags, element by element: `f lane k`. -/
def Env.fpWrite (e : Env) (i : Instr) (d : Operand) (nf : Bool) (t : Typ) (pk : BitVec 2) (srcs : List SrcShape)
    (f : Nat → Nat → FpRes) : Act :=
  (e.put i d (e.elemwise t pk srcs none fun l k => (f l k).code)).andThen
    (e.raise nf fun l => laneFlags pk (f l))

/-- The flags of the operands read, with the flags of the result. -/
def FpRes.reading (f : FpFmt) (l : List Nat) (r : FpRes) : FpRes :=
  { r with fl := l.foldl (fun a c => a ||| f.readFl c) r.fl }

/-- A unary floating-point instruction on codes. -/
def flt1 (i : Instr) (o : Ops MA) (s : State) (g : FpFmt → Nat → FpRes) : Host.Outcome State Fault Refusal :=
  runSeq i s fun e =>
    let f := fpOf o.mod.ty
    e.fpWrite i o.d o.nf o.mod.ty o.mod.pk [e.w.srcShape o.a] fun l k =>
      let a := e.elem o.mod.ty o.a l k
      (g f a).reading f [a]

/-- A binary floating-point instruction on codes. -/
def flt2 (i : Instr) (o : Ops MA) (s : State) (g : FpFmt → Nat → Nat → FpRes) : Host.Outcome State Fault Refusal :=
  runSeq i s fun e =>
    let f := fpOf o.mod.ty
    e.fpWrite i o.d o.nf o.mod.ty o.mod.pk [e.w.srcShape o.a, e.w.srcShapeB o] fun l k =>
      let a := e.elem o.mod.ty o.a l k
      let b := e.elemB o l k
      (g f a b).reading f [a, b]

/-- A fused multiply-add on codes: signs applied to the product and the addend. -/
def fltFma (i : Instr) (o : Ops MA) (s : State) (negP negC : Bool) : Host.Outcome State Fault Refusal :=
  runSeq i s fun e =>
    let f := fpOf o.mod.ty
    let co := (cOperand o.imm).getD (.special .zero)
    e.fpWrite i o.d o.nf o.mod.ty o.mod.pk [e.w.srcShape o.a, e.w.srcShape o.b, e.w.srcShape co] fun l k =>
      let a := e.elem o.mod.ty o.a l k
      let b := e.elem o.mod.ty o.b l k
      let c := e.elem o.mod.ty co l k
      let p := fpMul (f.val a) (f.val b)
      let x := fpSum o.mod.rnd [if negP then p.1.flip else p.1, if negC then (f.val c).flip else f.val c]
      (f.finish o.mod.rnd false (x.1, x.2 ||| p.2)).reading f [a, b, c]

/-! ## Arithmetic (R132) -/

def execFadd (o : Ops MA) (s : State) : Host.Outcome State Fault Refusal :=
  flt2 (.fadd o) o s fun f a b => f.finish o.mod.rnd false (fpSum o.mod.rnd [f.val a, f.val b])

def execFsub (o : Ops MA) (s : State) : Host.Outcome State Fault Refusal :=
  flt2 (.fsub o) o s fun f a b => f.finish o.mod.rnd false (fpSum o.mod.rnd [f.val a, (f.val b).flip])

def execFmul (o : Ops MA) (s : State) : Host.Outcome State Fault Refusal :=
  flt2 (.fmul o) o s fun f a b => f.finish o.mod.rnd false (fpMul (f.val a) (f.val b))

def execFma (o : Ops MA) (s : State) : Host.Outcome State Fault Refusal := fltFma (.fma o) o s false false
def execFnma (o : Ops MA) (s : State) : Host.Outcome State Fault Refusal := fltFma (.fnma o) o s true false
def execFms (o : Ops MA) (s : State) : Host.Outcome State Fault Refusal := fltFma (.fms o) o s false true
def execFnms (o : Ops MA) (s : State) : Host.Outcome State Fault Refusal := fltFma (.fnms o) o s true true

def execFmin (o : Ops MA) (s : State) : Host.Outcome State Fault Refusal :=
  flt2 (.fmin o) o s fun f a b => f.minMax false (o.mod.sub.getLsbD 0) a b

def execFmax (o : Ops MA) (s : State) : Host.Outcome State Fault Refusal :=
  flt2 (.fmax o) o s fun f a b => f.minMax true (o.mod.sub.getLsbD 0) a b

/-- Moves of bits with a new sign: no number is read, no flag raised. -/
def execFabs (o : Ops MA) (s : State) : Host.Outcome State Fault Refusal :=
  vec1 (.fabs o) o s fun a => a % 2 ^ (o.mod.ty.width - 1)

def execFneg (o : Ops MA) (s : State) : Host.Outcome State Fault Refusal :=
  vec1 (.fneg o) o s fun a => a ^^^ 2 ^ (o.mod.ty.width - 1)

def execFcpsgn (o : Ops MA) (s : State) : Host.Outcome State Fault Refusal :=
  vec2 (.fcpsgn o) o s fun a b => a % 2 ^ (o.mod.ty.width - 1) + (b &&& 2 ^ (o.mod.ty.width - 1))

/-! ## Comparison and classification (R133) -/

/-- `fcmp` on two codes: the condition and its flags. -/
def fpCond (f : FpFmt) (c : Nat) (a b : Nat) : Bool × Fl :=
  let x := f.val a
  let y := f.val b
  let un := x.isNaN || y.isNaN
  let lt := fpBelow false x y
  let gt := fpBelow false y x
  let r := match c with
    | 0 => !un && !lt && !gt
    | 1 => un || lt || gt
    | 2 => !un && lt
    | 3 => !un && !lt
    | 4 => !un && !gt
    | 5 => !un && gt
    | 6 => un
    | _ => !un
  (r, f.readFl a ||| f.readFl b ||| flIf (un && decide (2 ≤ c) && decide (c ≤ 5)) flIV)

def execFcmp (o : Ops MA) (s : State) : Host.Outcome State Fault Refusal :=
  runSeq (.fcmp o) s fun e =>
    let g (l k : Nat) : Bool × Fl :=
      fpCond (fpOf o.mod.ty) o.mod.sub.toNat (e.elem o.mod.ty o.a l k) (e.elemB o l k)
    (e.compare (.fcmp o) o fun l k => (g l k).1).andThen
      (e.raise o.nf fun l => laneFlags o.mod.pk fun k => ⟨0, (g l k).2⟩)

/-- The class mask of a code (R133). -/
def fpClass (f : FpFmt) (c : Nat) : Nat :=
  let n := f.neg c
  match f.val c with
  | .nan sig => if sig then 1 else 2
  | .inf _ => if n then 4 else 512
  | .num _ m _ =>
    if m = 0 then (if n then 32 else 64)
    else if f.isSub c then (if n then 16 else 128)
    else (if n then 8 else 256)

/-- `fclass` raises DN only. -/
def execFclass (o : Ops MA) (s : State) : Host.Outcome State Fault Refusal :=
  runSeq (.fclass o) s fun e =>
    let f := fpOf o.mod.ty
    e.fpWrite (.fclass o) o.d o.nf o.mod.ty o.mod.pk [e.w.srcShape o.a] fun l k =>
      let a := e.elem o.mod.ty o.a l k
      ⟨fpClass f a, flIf (f.isSub a) flDN⟩

/-! ## Other unary and scaling instructions (R132) -/

/-- 1 / a, correctly rounded. -/
def fpRecip (f : FpFmt) (rnd : Rnd) (a : Nat) : FpRes :=
  match f.val a with
  | .nan _ => ⟨f.nan, 0⟩
  | .inf n => ⟨f.signBit n, 0⟩
  | .num n m e => if m = 0 then ⟨f.inf n, flDZ⟩ else f.roundPos rnd false n 1 m (-e)

def execFrcp (o : Ops MA) (s : State) : Host.Outcome State Fault Refusal :=
  flt1 (.frcp o) o s fun f a => fpRecip f o.mod.rnd a

/-- Rounding to an integral value in the format; the sign of a zero result is that of the operand. -/
def fpRoundInt (f : FpFmt) (rnd : Rnd) (x : Bool) (a : Nat) : FpRes :=
  match f.val a with
  | .nan _ => ⟨f.nan, 0⟩
  | .inf _ => ⟨a, 0⟩
  | .num n m e =>
    let (i, inexact) := fpToInt rnd n m e
    if inexact then ⟨(f.round .rn false (.num n i.natAbs 0)).code, flIf x flNX⟩ else ⟨a, 0⟩

def execFrnd (o : Ops MA) (s : State) : Host.Outcome State Fault Refusal :=
  flt1 (.frnd o) o s fun f a => fpRoundInt f o.mod.rnd (o.mod.sub.getLsbD 0) a

/-- A scaling exponent beyond every format's range gives the same rounding as its bound. -/
def boundExp (b : Int) : Int := if b < -5000 then -5000 else if 5000 < b then 5000 else b

/-- `fscale`: B is a signed integer of the element's width; it is not read as a number. -/
def execFscale (o : Ops MA) (s : State) : Host.Outcome State Fault Refusal :=
  runSeq (.fscale o) s fun e =>
    let f := fpOf o.mod.ty
    e.fpWrite (.fscale o) o.d o.nf o.mod.ty o.mod.pk [e.w.srcShape o.a, e.w.srcShape o.b] fun l k =>
      let a := e.elem o.mod.ty o.a l k
      let b := boundExp (toSigned o.mod.ty.width (e.elem o.mod.ty o.b l k))
      (f.round o.mod.rnd false ((f.val a).scale b)).reading f [a]

/-- floor(log2 |a|) as a signed integer of the element's width (R132). -/
def fpExponent (f : FpFmt) (a : Nat) : FpRes :=
  let w := f.width
  match f.val a with
  | .num _ m e => if m = 0 then ⟨2 ^ (w - 1), flDZ⟩ else ⟨wrapInt w ((Nat.log2 m : Int) + e), 0⟩
  | _ => ⟨2 ^ (w - 1) - 1, flIV⟩

def execFexpt (o : Ops MA) (s : State) : Host.Outcome State Fault Refusal := flt1 (.fexpt o) o s fpExponent

/-- The sign of a times its significand in [1, 2) (R132). -/
def fpMantissa (f : FpFmt) (a : Nat) : FpRes :=
  match f.val a with
  | .nan _ => ⟨f.nan, 0⟩
  | .inf _ => ⟨f.nan, flIV⟩
  | .num n m _ => if m = 0 then ⟨a, 0⟩ else ⟨(f.round .rn false (.num n m (-(Nat.log2 m : Int)))).code, 0⟩

def execFmant (o : Ops MA) (s : State) : Host.Outcome State Fault Refusal := flt1 (.fmant o) o s fpMantissa

/-- Clamping to [0, 1]: -0 and NaN give +0. -/
def fpSat (f : FpFmt) (a : Nat) : FpRes :=
  let one := (f.round .rn false (.num false 1 0)).code
  match f.val a with
  | .nan _ => ⟨0, 0⟩
  | .inf n => ⟨if n then 0 else one, 0⟩
  | .num n m e => if n || m == 0 then ⟨0, 0⟩ else if fpBelow false (.num false 1 0) (.num n m e) then ⟨one, 0⟩ else ⟨a, 0⟩

def execFsat (o : Ops MA) (s : State) : Host.Outcome State Fault Refusal := flt1 (.fsat o) o s fpSat

/-- `fdot2`: two products and the old f32 element, summed exactly and rounded once (R134). -/
def execFdot2 (o : Ops MA) (s : State) : Host.Outcome State Fault Refusal :=
  runSeq (.fdot2 o) s fun e =>
    let f := fpOf o.mod.ty
    e.fpWrite (.fdot2 o) o.d o.nf .f32 1 [e.w.srcShape o.a, e.w.srcShape o.b, e.w.srcShape o.d] fun l k =>
      let a0 := e.elem o.mod.ty o.a l (2 * k)
      let a1 := e.elem o.mod.ty o.a l (2 * k + 1)
      let b0 := e.elem o.mod.ty o.b l (2 * k)
      let b1 := e.elem o.mod.ty o.b l (2 * k + 1)
      let d := e.elem .f32 o.d l k
      let p := fpMul (f.val a0) (f.val b0)
      let q := fpMul (f.val a1) (f.val b1)
      let x := fpSum o.mod.rnd [fmtF32.val d, p.1, q.1]
      ((fmtF32.finish o.mod.rnd false (x.1, x.2 ||| p.2 ||| q.2)).reading f [a0, a1, b0, b1]).reading fmtF32 [d]

/-! ## Conversions (R135 to R137) -/

/-- Conversion of one element's pattern (Table 7-5). -/
def convert (m : MC) (a : Nat) : FpRes :=
  if m.sty.isInt then
    let x := readInt m.sty a
    if m.ty.isInt then ⟨narrowInt m.ty m.sat x, 0⟩ else (fpOf m.ty).round m.rnd m.sat (fpOfInt x)
  else
    let f := fpOf m.sty
    (if m.ty.isInt then fpToType m.ty m.rnd (f.val a) else (fpOf m.ty).round m.rnd m.sat (f.val a)).reading f [a]

def execCvt (o : Ops MC) (s : State) : Host.Outcome State Fault Refusal :=
  runSeq (.cvt o) s fun e =>
    e.fpWrite (.cvt o) o.d o.nf o.mod.ty o.mod.pk [e.w.srcShape o.a] fun l k =>
      convert o.mod (e.elem o.mod.sty o.a l k)

/-- Writing several destinations of one instruction; without a row for each it is not ready. -/
def Env.putMany (e : Env) (i : Instr) (l : List (Operand × VRes)) : Act :=
  let named := match i.sig with | some g => e.named g | none => []
  e.orWait (l.foldl (fun acc x => acc.bind fun s => ({ e with s := s } : Env).write named x.1 x.2) (some e.s))

/-- The block of 32 codes that lane l of a source group holds (R136). -/
def Env.block (e : Env) (o : Ops MC) (l : Nat) : List Nat :=
  let cnt := pkCount o.mod.spk
  (List.range 32).map fun i =>
    e.elem o.mod.sty (.v (BitVec.ofNat 8 (o.a.vNum + i / cnt))) l (i % cnt)

/-- One scaled element converted to E2M1 (R136): UF when its magnitude before rounding is below 1 and it is
inexact, which is not the tininess of R120 (DEDUCED, assumption 105). -/
def mxElement (rnd : Rnd) (v : FpVal) : FpRes :=
  let r := fmtE2m1.round rnd true v
  let small := match v with | .num _ m e => decide ((Nat.log2 m : Int) + e < 0) || m == 0 | _ => false
  ⟨r.code, if r.fl &&& flNX != 0 && small then r.fl ||| flUF else r.fl &&& ~~~flUF⟩

/-- An MXFP4 block: scale, elements and flags (R136). -/
def mxBlock (f : FpFmt) (rnd : Rnd) (xs : List Nat) : Nat × List Nat × Fl :=
  let vs := xs.map f.val
  let read := xs.foldl (fun a c => a ||| f.readFl c) (0 : Fl)
  let bad := vs.any fun v => match v with | .num _ _ _ => false | _ => true
  if bad then (0xFF, List.replicate 32 0, read ||| flIV)
  else
    let lgs := vs.filterMap fun v => match v with
      | .num _ m e => if m = 0 then none else some ((Nat.log2 m : Int) + e)
      | _ => none
    let k : Int := match lgs with
      | [] => -127
      | x :: l => Max.max (-127) (Min.min 127 (l.foldl Max.max x - 2))
    let rs := vs.map fun v => mxElement rnd (v.scale (-k))
    ((k + 127).toNat, rs.map (·.code), rs.foldl (fun a r => a ||| r.fl) read)

def execCvtmx (o : Ops MC) (s : State) : Host.Outcome State Fault Refusal :=
  runSeq (.cvtmx o) s fun e =>
    let f := fpOf o.mod.sty
    let blk (l : Nat) : Nat × List Nat × Fl := mxBlock f o.mod.rnd (e.block o l)
    let half (lo : Nat) : VRes := e.result [.g] none fun l =>
      BitVec.ofNat 64 (packElems 4 (((blk l).2.1.drop lo).take 16))
    let scale : VRes := e.result [.g] none fun l => BitVec.ofNat 64 (blk l).1
    (e.putMany (.cvtmx o) [(o.d, half 0), (.v (BitVec.ofNat 8 (o.d.vNum + 1)), half 16), (o.b, scale)]).andThen
      (e.raise o.nf fun l => (blk l).2.2)

/-- Conversion of one element under an E8M0 scale (R137). -/
def convertScaled (m : MC) (scale a : Nat) : FpRes :=
  let f := fpOf m.sty
  let g := fpOf m.ty
  if scale = 255 then ⟨g.nan, flIV ||| f.readFl a⟩
  else
    let k : Int := if isNarrow8 m.sty then (scale : Int) - 127 else 127 - (scale : Int)
    (g.round m.rnd m.sat ((f.val a).scale k)).reading f [a]

def execCvtsc (o : Ops MC) (s : State) : Host.Outcome State Fault Refusal :=
  runSeq (.cvtsc o) s fun e =>
    e.fpWrite (.cvtsc o) o.d o.nf o.mod.ty o.mod.pk [e.w.srcShape o.a, e.w.srcShape o.b] fun l k =>
      convertScaled o.mod ((e.lane o.b l).toNat % 256) (e.elem o.mod.sty o.a l k)

/-! ## Flag instructions (R124) -/

/-- Changing the %flags of the effective lanes. -/
def Env.setFlags (e : Env) (f : Nat → Fl → Fl) (s : State) : State :=
  s.modWarp e.k fun w =>
    { w with flags := (List.range e.width).map fun l =>
        let old := w.flags.getD l 0
        if e.m.has l then f l old else old }

def execFlgr (o : Ops MA) (s : State) : Host.Outcome State Fault Refusal :=
  runSeq (.flgr o) s fun e =>
    (e.put (.flgr o) o.d (e.result [.g] none fun l => (e.w.flags.getD l 0).setWidth 64)).andThen fun s =>
      if o.mod.sub.getLsbD 0 then e.setFlags (fun _ _ => 0) s else s

def execFlgc (o : Ops MA) (s : State) : Host.Outcome State Fault Refusal :=
  runSeq (.flgc o) s fun e =>
    .next (e.setFlags (fun l x => x &&& ~~~(if o.mod.ib then o.imm.setWidth 6 else (e.lane o.b l).setWidth 6)) e.s)

end Sys2Proof.Machine
end

