-- ==== Sys2Proof/Machine/Control.lean ====
section
/-!
DEFINITION. The control instructions (R64 to R81): branches, the mask stack, hardware loops, counter
waits, team barriers, `nop`, `yield` and `sleep`. `exit`, `trap` and `bkpt` are in Machine/Exit.lean
and Machine/System.lean.
-/

namespace Sys2Proof.Machine

/-! ## Branches (R65 to R67, R74) -/

/-- A target inside the code range, a whole number of instructions from its base (R37). -/
def Kernel.inCode (k : Kernel) (target : Word) : Bool :=
  decide (k.codeBase ≤ target.toNat) && decide (target.toNat < k.codeBase + k.codeSize) &&
    (target.toNat - k.codeBase) % 12 == 0

/-- Does the body of a level contain an address? -/
def LoopLevel.holds (lv : LoopLevel) (a : Word) : Bool := decide (lv.start ≤ a) && decide (a ≤ lv.fin)

/-- Cancelling the levels whose body does not contain the target (R74); none when the mask depth
exceeds the SDEPTH of one of them. -/
def Warp.cancelTo (w : Warp) (target : Word) : Option Warp :=
  let gone := w.loops.takeWhile fun lv => !lv.holds target
  if gone.any fun lv => decide (lv.sdepth < w.stack.length) then none
  else some { w with mask := gone.foldl (fun m lv => m ||| lv.brk ||| lv.cont) w.mask
                     loops := w.loops.drop gone.length }

/-- A taken branch: the target is checked, levels are cancelled, the link is written, the PC set. -/
def Env.branch (e : Env) (target : Word) (link : Option Operand) : Act :=
  if !e.t.kernel.inCode target then e.trap 0x05
  else match e.w.cancelTo target with
    | none => e.trap 0x08
    | some w =>
      let w1 := match link with | some d => w.setS d (w.pc + 12) | none => w
      .next (e.s.modWarp e.k fun _ => { w1 with pc := target })

/-- The target of a direct branch (R37). -/
def Env.direct (e : Env) (imm : BitVec 28) : Word := e.w.pc + 12 * sextImm imm

/-- A branch that is not taken: the next instruction. -/
def Env.fall (e : Env) : Act := .next (e.s.advance e.k)

/-- A conditional direct branch. -/
def Env.branchIf (e : Env) (taken : Bool) (imm : BitVec 28) : Act :=
  if taken then e.branch (e.direct imm) none else e.fall

def execBra (o : Ops (BitVec 16)) (s : State) : Host.Outcome State Fault Refusal :=
  runRaw (.bra o) s fun e => e.branch (e.direct o.imm) none

def execBrx (o : Ops (BitVec 16)) (s : State) : Host.Outcome State Fault Refusal :=
  runRaw (.brx o) s fun e => e.branch (e.scalar o.a) none

def execCall (o : Ops (BitVec 16)) (s : State) : Host.Outcome State Fault Refusal :=
  runRaw (.call o) s fun e => e.branch (e.direct o.imm) (some o.d)

def execCallx (o : Ops (BitVec 16)) (s : State) : Host.Outcome State Fault Refusal :=
  runRaw (.callx o) s fun e => e.branch (e.scalar o.a) (some o.d)

def execRet (o : Ops (BitVec 16)) (s : State) : Host.Outcome State Fault Refusal :=
  runRaw (.ret o) s fun e => e.branch (e.scalar o.a) none

/-- The conditions of `bc`, `waitp` aside (Table 4-4); 0 to 5 are those of `sigwait` too. -/
def branchCond (c : Nat) (a b : Word) : Bool :=
  match c with
  | 0 => a == b
  | 1 => a != b
  | 2 => a.slt b
  | 3 => b.sle a
  | 4 => a.sle b
  | 5 => b.slt a
  | 6 => a.ult b
  | 7 => b.ule a
  | 8 => a.ule b
  | _ => b.ult a

def execBc (o : Ops (BitVec 16)) (s : State) : Host.Outcome State Fault Refusal :=
  runRaw (.bc o) s fun e => e.branchIf (branchCond o.mod.toNat (e.scalar o.a) (e.scalar o.b)) o.imm

/-- q of a predicate operand with PN (R67, R69). -/
def Env.pred (e : Env) (o : Operand) (pn : Bool) : Mask :=
  match o with
  | .p n => if pn then ~~~(e.w.preg n) else e.w.preg n
  | _ => 0

def execBany (o : Ops (BitVec 16)) (s : State) : Host.Outcome State Fault Refusal :=
  runRaw (.bany o) s fun e => e.branchIf (e.w.mask &&& e.pred o.a (o.mod.getLsbD 0) != 0) o.imm

/-- `ball` is not taken with an empty active mask (R67). -/
def execBall (o : Ops (BitVec 16)) (s : State) : Host.Outcome State Fault Refusal :=
  runRaw (.ball o) s fun e =>
    e.branchIf (e.w.mask != 0 && e.w.mask &&& ~~~(e.pred o.a (o.mod.getLsbD 0)) == 0) o.imm

/-! ## The mask stack (R69, R70) -/

/-- Replacing the issuing warp. -/
def Env.setWarp (e : Env) (w : Warp) : State := e.s.modWarp e.k fun _ => w

def execVif (o : Ops (BitVec 16)) (s : State) : Host.Outcome State Fault Refusal :=
  runSeq (.vif o) s fun e =>
    let q := e.pred o.a (o.mod.getLsbD 0)
    if e.w.stack.length = 32 then e.trap 0x08
    else .next (e.setWarp { e.w with mask := e.w.mask &&& q
                                     stack := ⟨e.w.mask, e.w.mask &&& ~~~q, false, e.w.issuedAcc⟩ :: e.w.stack })

/-- `sd_in`: SDEPTH of the innermost live level, or 0. -/
def Warp.sdIn (w : Warp) : Nat := (w.loops.head?.map (·.sdepth)).getD 0

def execVelse (o : Ops (BitVec 16)) (s : State) : Host.Outcome State Fault Refusal :=
  runSeq (.velse o) s fun e =>
    match e.w.stack with
    | [] => e.trap 0x08
    | top :: rest =>
      if e.w.stack.length ≤ e.w.sdIn ∨ top.e then e.trap 0x08
      else .next (e.setWarp { e.w with mask := top.alt, stack := { top with e := true } :: rest })

/-- `vend` closes the window of accesses issued while its entry was on the stack (R70). -/
def execVend (o : Ops (BitVec 16)) (s : State) : Host.Outcome State Fault Refusal :=
  runSeq (.vend o) s fun e =>
    match e.w.stack with
    | [] => e.trap 0x08
    | top :: rest =>
      if e.w.stack.length ≤ e.w.sdIn then e.trap 0x08
      else
        let regions := e.s.openRegions e.k e.w.core (e.w.regions ++ [(top.opened, e.w.issuedAcc)])
        .next (e.setWarp { e.w with mask := top.save, stack := rest, regions := regions })

/-! ## Hardware loops (R71 to R73) -/

/-- Opening a level (R71), the checks in the order given; a new outermost level fills the loop buffer afresh
(R75). -/
def Env.openLoop (e : Env) (len : Nat) (count : Word) : Act :=
  if len > 256 then e.trap 0x09
  else
    let fin := e.w.pc + BitVec.ofNat 64 (12 * len)
    if e.w.pc.toNat + 12 * len ≥ e.t.kernel.codeBase + e.t.kernel.codeSize then e.trap 0x05
    else
      let d := e.w.loops.length
      let nest := match e.w.loops with | lv :: _ => lv.fin.ult fin | [] => false
      if decide (3 ≤ d) || nest then e.trap 0x09
      else if count = 0 then .next (e.setWarp { e.w with pc := fin + 12 })
      else .next (e.setWarp { e.w with
        loops := ⟨e.w.pc + 12, fin, e.w.stack.length, 0, 0⟩ :: e.w.loops
        loopBuf := if d = 0 then [] else e.w.loopBuf
        badLoop := if d = 0 then [] else e.w.badLoop
        lc := e.w.lc.set d count
        pc := e.w.pc + 12 })

def execLoop (o : Ops (BitVec 16)) (s : State) : Host.Outcome State Fault Refusal :=
  runRaw (.loop o) s fun e => e.openLoop o.mod.toNat (o.imm.setWidth 64)

def execLoopx (o : Ops (BitVec 16)) (s : State) : Host.Outcome State Fault Refusal :=
  runRaw (.loopx o) s fun e => e.openLoop o.mod.toNat (e.scalar o.a)

/-- Removing lanes until the level closes (`vbrk`) or until its next back edge (`vcont`) (R73). -/
def Env.leaveLoop (e : Env) (p : Operand) (pn cont : Bool) : Act :=
  match e.w.loops with
  | [] => e.trap 0x09
  | lv :: outer =>
    let q := e.pred p pn &&& e.w.mask
    -- entries i with i >= SDEPTH are the first depth - SDEPTH of the list
    let inner := e.w.stack.length - lv.sdepth
    let stack := (e.w.stack.take inner).map (fun x => { x with save := x.save &&& ~~~q, alt := x.alt &&& ~~~q }) ++
      e.w.stack.drop inner
    let lv' := if cont then { lv with cont := lv.cont ||| q } else { lv with brk := lv.brk ||| q }
    .next (e.setWarp { e.w with mask := e.w.mask &&& ~~~q, stack := stack, loops := lv' :: outer })

def execVbrk (o : Ops (BitVec 16)) (s : State) : Host.Outcome State Fault Refusal :=
  runSeq (.vbrk o) s fun e => e.leaveLoop o.a (o.mod.getLsbD 0) false

def execVcont (o : Ops (BitVec 16)) (s : State) : Host.Outcome State Fault Refusal :=
  runSeq (.vcont o) s fun e => e.leaveLoop o.a (o.mod.getLsbD 0) true

def execLbrk (o : Ops (BitVec 16)) (s : State) : Host.Outcome State Fault Refusal :=
  runRaw (.lbrk o) s fun e =>
    match e.w.loops with
    | [] => e.trap 0x09
    | lv :: outer =>
      if e.w.stack.length ≠ lv.sdepth then e.trap 0x08
      else .next (e.setWarp { e.w with mask := e.w.mask ||| lv.brk ||| lv.cont, loops := outer, pc := lv.fin + 12 })

/-! ## nop, yield, sleep (R81) -/

def execNop (o : Ops (BitVec 16)) (s : State) : Host.Outcome State Fault Refusal :=
  runSeq (.nop o) s fun e => .next e.s

def execYield (o : Ops (BitVec 16)) (s : State) : Host.Outcome State Fault Refusal :=
  runSeq (.yield o) s fun e => .next e.s

def execSleep (o : Ops (BitVec 16)) (s : State) : Host.Outcome State Fault Refusal :=
  runRaw (.sleep o) s fun e =>
    let count := Nat.min ((e.scalar o.a).toNat + o.imm.toNat) (2 ^ 32 - 1)
    let s1 := e.s.advance e.k
    if count = 0 then .next s1
    else .enter ((s1.modWarp e.k fun w => { w with sleepLeft := count, sleepFrom := e.s.clock }).enterWait e.k .sleep
      { kind := 14, a0 := BitVec.ofNat 64 count })

/-! ## Counter waits (R77, R78) -/

/-- Waiting until each counter is at most its threshold; the operations the wait covers are then complete
for the warp (R77, R240). -/
def Env.waitCounters (e : Env) (l : List (Path × Nat)) : Act :=
  match l.find? fun x => decide (x.2 < e.w.counter x.1) with
  | none => .next (e.s.modWarp e.k fun w => l.foldl (fun w x => w.joinWait x.1 x.2) w)
  | some (p, n) =>
    .wait (e.s.beginWait e.k { kind := 8, obj := BitVec.ofNat 64 (Path.code p), a0 := BitVec.ofNat 64 n,
                               a1 := BitVec.ofNat 64 (e.w.counter p) })

def execWaitc (o : Ops (BitVec 16)) (s : State) : Host.Outcome State Fault Refusal :=
  runSeq (.waitc o) s fun e =>
    let f (lo : Nat) : Nat := (o.imm.toNat >>> lo) % 64
    e.waitCounters [(.ld, f 0), (.st, f 6), (.cp, f 12), (.mx, f 18)]

def execWaitp (o : Ops (BitVec 16)) (s : State) : Host.Outcome State Fault Refusal :=
  runSeq (.waitp o) s fun e => e.waitCounters [(pathOfNat o.mod.toNat, (e.scalar o.a).toNat)]

/-! ## Team barriers (R79, R80) -/

/-- The expected set: the warps that have not retired. -/
def Team.expected (t : Team) : List Nat := (t.warps.filter Warp.live).map (·.num)

/-- The phase completes once the expected set is contained in ARRIVED. -/
def Team.settleBarrier (t : Team) (b : Nat) : Team :=
  let x := t.barrier b
  if t.expected.all x.arrived.contains then { t with barriers := t.barriers.set b { phase := x.phase + 1, arrived := [] } }
  else t

/-- A warp arrives. -/
def State.arrive (s : State) (k : WKey) (b : Nat) : State :=
  s.modTeam k.team fun t =>
    let x := t.barrier b
    Team.settleBarrier { t with barriers := t.barriers.set b { x with arrived := setInsert x.arrived k.w } } b

/-- LD, ST and SP operations that have issued and not completed. -/
def Warp.openOps (w : Warp) : List Nat :=
  ((w.ldq ++ w.stq ++ w.spq).filter fun x => !x.2).map (·.1)

/-- One waiting arrival: performed when its operations have completed and, in a paired team, the
write-backs of its release are acknowledged (R79, R198). -/
def State.settleArrival (k : WKey) (s : State) (a : Arrival) : State :=
  match s.team? k.team, s.warp? k with
  | some t, some w =>
    let drop (s : State) : State := s.modWarp k fun w => { w with arriving := w.arriving.filter (·.bar != a.bar) }
    match a.writeBacks with
    | some ids => if (s.core w.core).wbs.any fun b => ids.contains b.id then s else (drop s).arrive k a.bar
    | none =>
      if a.ops.any w.openOps.contains then s
      else if !Scope.tm.wide t.kernel.paired then (drop s).arrive k a.bar
      else
        match s.pushTeam w.core k.team with
        | ([], s1) => (drop s1).arrive k a.bar
        | (ids, s1) => s1.modWarp k fun w =>
            { w with arriving := updIf (·.bar == a.bar) (fun x => { x with writeBacks := some ids }) w.arriving }
  | _, _ => s

/-- The waiting arrivals of a warp, after one of its operations or write-backs has completed. -/
def State.settleArrivals (s : State) (k : WKey) : State :=
  match s.warp? k with
  | none => s
  | some w => w.arriving.foldl (State.settleArrival k) s

/-- Pending bit and ticket of a warp's arrival. -/
def Warp.arrival (w : Warp) (b : Nat) : Bool × BitVec 32 := w.arrivals.getD b (false, 0)

/-- Issuing an arrival: pending and ticket, and the arrival itself, at once or later. The phase cannot
change before this warp arrives, so the ticket taken now is the one of the arrival. -/
def Env.startArrival (e : Env) (b : Nat) : State :=
  let a : Arrival := { bar := b, ops := e.w.openOps }
  (e.s.modWarp e.k fun w =>
    { w with arrivals := w.arrivals.set b (true, (e.t.barrier b).phase)
             arriving := w.arriving ++ [a] }).settleArrivals e.k

/-- The end of a barrier wait: pending clears, and team scope is acquired. -/
def State.leaveBarrier (s : State) (k : WKey) (b : Nat) : State :=
  match s.team? k.team, s.warp? k with
  | some t, some w =>
    (s.modWarp k fun w => { w with arrivals := w.arrivals.set b (false, (w.arrival b).2) }).acquire w.core
      t.kernel.paired .tm
  | _, _ => s

/-- Waiting for a phase from a state in which the warp's arrival is pending. -/
def Env.waitBarrier (e : Env) (s : State) (b : Nat) : Act :=
  match s.team? e.k.team, s.warp? e.k with
  | some t, some w =>
    if !(w.arrival b).1 then .next s
    else if (t.barrier b).phase ≠ (w.arrival b).2 then .next (s.leaveBarrier e.k b)
    else .enter (s.enterWait e.k (.barWait b) (t.barrierWait b))
  | _, _ => .next s

def execBara (o : Ops (BitVec 16)) (s : State) : Host.Outcome State Fault Refusal :=
  runSeq (.bara o) s fun e =>
    if (e.w.arrival o.mod.toNat).1 then e.trap 0x1E else .next (e.startArrival o.mod.toNat)

def execBarw (o : Ops (BitVec 16)) (s : State) : Host.Outcome State Fault Refusal :=
  runSeq (.barw o) s fun e => e.waitBarrier e.s o.mod.toNat

def execBar (o : Ops (BitVec 16)) (s : State) : Host.Outcome State Fault Refusal :=
  runSeq (.bar o) s fun e =>
    if (e.w.arrival o.mod.toNat).1 then e.trap 0x1E
    else e.waitBarrier (e.startArrival o.mod.toNat) o.mod.toNat

end Sys2Proof.Machine
end

