-- ==== Sys2Proof/Machine/Foundry.lean ====
section
/-!
DEFINITION. What the foundry keeps (chapter 13): finish scopes (R284 to R286), firings and their edges
(R276, R281), the completion of packets (R273) and of collectives (R299), and the retirement and
completion of warps and teams (R57).
-/

namespace Sys2Proof.Machine

/-! ## Finish scopes -/

/-- Entries of a scope table. -/
def scopeEntries : Nat := 256

/-- The lowest free index of the table. -/
def Context.freeScope (c : Context) : Option Nat :=
  (List.range scopeEntries).find? fun i => !(c.scopes.any fun e => e.allocated && e.idx == i)

/-- Allocating an entry under a parent (R284): its handle and the state after; none when no entry is
free. The parent's COUNT is raised by the caller. -/
def State.allocScope (s : State) (ctx : Nat) (parent : Word) (packet : Option Nat) : Option (Word × State) :=
  let c := s.ctx ctx
  c.freeScope.map fun i =>
    let old := (c.scopes.find? (·.idx == i)).map (·.gen)
    let gen := match old with | some g => if g + 1 ≥ 2 ^ 24 then 1 else g + 1 | none => 1
    let e : ScopeEntry :=
      { idx := i, gen := gen, parent := parent, count := 0, closed := false, status := 0, detach := false,
        faults := 0, fserial := 0, packet := packet, allocated := true }
    (e.handle, s.modCtx ctx fun c => { c with scopes := putBy ScopeEntry.idx e c.scopes })

/-- Freeing an entry. -/
def State.freeScope (s : State) (ctx : Nat) (h : Word) : State :=
  s.modScope ctx h fun e => { e with allocated := false }

/-- An entry is done when it is closed and its COUNT is 0 (R285). -/
def ScopeEntry.done (e : ScopeEntry) : Bool := e.closed && e.count == 0

/-- COUNT rises by n. -/
def State.scopeUp (s : State) (ctx : Nat) (h : Word) (n : Nat) : State :=
  s.modScope ctx h fun e => { e with count := e.count + n }

/-- COUNT of an entry falls by n; when that makes it done, its faulted STATUS passes to its parent, the
parent loses the count the child held, and a detached entry is freed (R285, R286). `fuel` bounds the
chain of parents. -/
def State.scopeFall (ctx : Nat) : Nat → State → Word → Nat → State
  | 0, s, _, _ => s
  | fuel + 1, s, h, n =>
    match (s.ctx ctx).scope? h with
    | none => s
    | some e0 =>
      let s1 := s.modScope ctx h fun e => { e with count := e.count - n }
      let e := { e0 with count := e0.count - n }
      if !e.done then s1
      else
        let s2 := if e.status = 1 then s1.modScope ctx e.parent fun p => { p with status := 1 } else s1
        let s3 := if e.detach then s2.freeScope ctx h else s2
        State.scopeFall ctx fuel s3 e.parent 1

/-- COUNT falls by 1: a counted team or task completes. -/
def State.scopeDown (s : State) (ctx : Nat) (h : Word) : State := State.scopeFall ctx (scopeEntries + 1) s h 1

/-- Closing an entry (`fsclose`, or a packet scope whose work is counted): it may be done at once. -/
def State.scopeClose (s : State) (ctx : Nat) (h : Word) : State :=
  State.scopeFall ctx (scopeEntries + 1) (s.modScope ctx h fun e => { e with closed := true }) h 0

/-- Is scope h the scope `anc` or one of its descendants? `fuel` bounds the chain of parents. -/
def Context.under (c : Context) : Nat → Word → Word → Bool
  | 0, _, _ => false
  | fuel + 1, h, anc =>
    if h = 0 then false
    else if h = anc then true
    else match c.scope? h with
      | some e => Context.under c fuel e.parent anc
      | none => false

/-- Does a scope accept new work from a warp whose team's tasks are counted in `counted` (R286)? -/
def Context.accepts (c : Context) (h : Word) (counted : List Word) : Bool :=
  match c.scope? h with
  | none => false
  | some e => !e.closed || counted.any fun x => c.under (scopeEntries + 1) x h

/-! ## Firings (R276, R281) -/

/-- A live firing of a context. -/
def Context.firing? (c : Context) (id : Nat) : Option Firing := c.firings.find? (·.id == id)

/-- Changing a firing. -/
def State.modFiring (s : State) (ctx id : Nat) (f : Firing → Firing) : State :=
  s.modCtx ctx fun c => { c with firings := updIf (·.id == id) f c.firings }

/-- The firing and node number a node reference names (R276). -/
def refFiring (r : Nat) : Nat := r / 256
def refNode (r : Nat) : Nat := r % 256

/-- The edge on out-edge slot k of a node. -/
def Firing.outEdge (f : Firing) (n k : Nat) : Option Nat := (f.nodes[n]?).bind fun x => (x.out.getD k none)

/-- FREE of an edge changes. -/
def Firing.modEdge (f : Firing) (e : Nat) (g : Edge → Edge) : Firing :=
  match f.edges[e]? with
  | some x => { f with edges := f.edges.set e (g x) }
  | none => f

/-- Returning what is left of a reservation to FREE (R281). -/
def Firing.giveBack (f : Firing) (n : Nat) (left : List Nat) : Firing :=
  (List.range 4).foldl (fun f k =>
    match f.outEdge n k with
    | some e => f.modEdge e fun x => { x with free := x.free + left.getD k 0 }
    | none => f) f

/-- Is a team's node reference that of a firing of its packet? -/
def State.teamFiring (s : State) (t : Team) : Option Firing :=
  match t.packet with
  | none => none
  | some p => ((s.ctx t.ctx).firing? (refFiring t.nodeRef)).bind fun f => if f.packet = p then some f else none

/-- A team's unemitted reservation returns to its edges. -/
def State.returnReservation (s : State) (t : Team) : State :=
  match s.teamFiring t with
  | some f => s.modFiring t.ctx f.id fun f => f.giveBack (refNode t.nodeRef) t.reserved
  | none => s

/-- USE of the registers a team leases falls by 1 (R252). -/
def State.returnLeases (s : State) (t : Team) : State :=
  s.modCtx t.ctx fun c =>
    { c with uses := (c.uses.zipIdx).map fun (n, k) => if t.leases.getLsbD k then n - 1 else n }

/-! ## Words the foundry updates (R273) -/

/-- The foundry's atomic update of a 64-bit word of a context: at L2, or over the host link for a host
range; none while the page of the word does not translate (assumption 18). -/
def State.foundryUpdate (s : State) (ctx : Nat) (va : Word) (f : Word → Word) (atop : Atop) (arg : Word)
    (cause parent : Word) : Option State :=
  match (s.ctx ctx).findRange va 8 with
  | none => none
  | some r =>
    let a := r.target va
    if r.kind = 3 then some (s.output (.pcieAtomic a atop arg 0 8))
    else if r.kind = 2 then none
    else
      match s.l2Read false a 8 with
      | (.bytes bs _, s1) =>
        match s1.l2Put false a (bytes8 (f (wordOf bs))) with
        | (none, s2) => some (s2.foundrySaw 2 a 8 cause parent)
        | _ => none
      | _ => none

/-! ## Packets (R273) -/

/-- The packet scope of a packet is done, for LAUNCH and GRAPH. -/
def State.packetScopeDone (s : State) (p : PacketRun) : Bool :=
  match (s.ctx p.ctx).scope? p.scope with
  | some e => e.done
  | none => true

/-- Completing a packet: the firing's id is freed, the signal falls by 1, the packet scope is freed. -/
def State.completePacket (s : State) (p : PacketRun) : State :=
  let s1 := s.modCtx p.ctx fun c => { c with firings := c.firings.filter (·.packet != p.id) }
  let done := if p.signal = 0 then some s1
    else s1.foundryUpdate p.ctx p.signal (· - 1) .add (BitVec.allOnes 64) p.cause p.parent
  match done with
  | none => s1
  | some s2 =>
    let s3 := s2.freeScope p.ctx p.scope
    { s3 with packets := s3.packets.filter (·.id != p.id) }

/-- A LAUNCH or GRAPH packet completes when its scope is done and its collective has retired. -/
def State.finishPacket (s : State) (id : Nat) : State :=
  match s.packet? id with
  | none => s
  | some p =>
    let collDone := !s.collectives.any (·.packet == p.id)
    if (p.kind == 1 || p.kind == 2) && p.started && s.packetScopeDone p && collDone then s.completePacket p else s

/-- Trying again the packets of a context whose completion waits for a signal's page. -/
def State.settlePackets (s : State) (ctx : Nat) : State :=
  ((s.packets.filter (·.ctx == ctx)).map (·.id)).foldl State.finishPacket s

/-! ## Collectives (R299) -/

/-- The relay teams of a collective that have not retired. -/
def State.relayTeams (s : State) (tag : Word) : List Team :=
  s.teams.filter fun t => (t.relay.map (·.tag)) == some tag && t.phase != .retired

/-- Every team of a launch has been admitted and has completed. -/
def State.launchDone (s : State) (p : PacketRun) : Bool :=
  p.next == p.total && !(s.launches.any (·.packet == p.id)) &&
    !(s.teams.any fun t => t.packet == some p.id && t.relay.isNone)

/-- A collective retires when its launch's last team has completed and its relay teams have retired. -/
def State.settleCollective (s : State) (tag : Word) : State :=
  match s.coll? tag with
  | none => s
  | some c =>
    let ended := match s.packet? c.packet with | some p => s.launchDone p | none => true
    if ended && (s.relayTeams tag).isEmpty then
      { s with collectives := s.collectives.filter fun x => !(x.live && x.tag == tag)
               relayOps := s.relayOps.filter (·.tag != tag) }
    else s

/-! ## Retirement and completion (R57) -/

/-- A warp's slot is free: it has exited, and LD, SP, MX and RM are 0; a relay warp's data operations
have completed too (R310). -/
def State.slotFree (s : State) (k : WKey) (w : Warp) : Bool :=
  !w.live && w.ldq.isEmpty && w.spq.isEmpty && w.mxq.isEmpty && w.rmq.isEmpty &&
    !(s.relayOps.any (·.key == k))

/-- Copy commands of a team in the channels of its cores. -/
def State.copiesOf (s : State) (t : Team) : List CopyCmd :=
  ([t.core, t.core + 1].flatMap fun c => (s.core c).channels.flatten).filter (·.key.team == t.key)

/-- Does a copy command read or write scratchpad: as a side, or for a record there (R209, R213)? -/
def CopyCmd.usesScratch (c : CopyCmd) : Bool :=
  match c.instr with
  | .cpyg o => (o.mod.dig || o.mod.cwadd) && !o.mod.cwg
  | _ => true

/-- TEAM_START and TEAM_END records (R378). -/
def State.emitTeam (s : State) (t : Team) (kind : Nat) : State :=
  s.emit (hubSrc t.hub 10) kind 0 t.cause t.parent [atBit (t.tid % 2 ^ 32) 0 ||| atBit t.core 32]

/-- Writes of a team that have not been acknowledged, and late faults not delivered (R57). -/
def State.writesOpen (s : State) (t : Team) : Bool :=
  s.ops.any (·.key.team == t.key) || s.cores.any (fun c => c.wbs.any (·.owner == t.key)) ||
    s.lateFaults.any (·.key == t.key) || !(s.copiesOf t).isEmpty

/-- Writing back every Dirty sector of a team (R195). -/
def State.cleanTeam (s : State) (t : Team) : State := t.cores.foldl (fun s c => (s.cleanAll c (ownedBy t.key)).2) s

/-- A retired team writes back its Dirty sectors, those too that a store makes so after it retired (R195);
once its writes are acknowledged it is counted complete: its reservation, leases and frame
return, its scopes lose its counts, its packet and collective may complete. -/
def State.settleComplete (s : State) (k : TKey) : State :=
  match s.team? k with
  | none => s
  | some t =>
    let s0 := if t.phase = .retired then s.cleanTeam t else s
    if t.phase ≠ .retired || s0.writesOpen t then s0
    else
      let s1 := (s0.returnReservation t).returnLeases t
      let s2 := { s1 with teams := s1.teams.filter fun u => !u.is k }
      let s3 := if t.relay.isSome then s2 else t.scopes.foldl (fun s h => s.scopeDown t.ctx h) s2
      let tag := match t.relay with
        | some r => some r.tag
        | none => (t.packet.bind s3.packet?).bind (·.collective)
      let s4 := match tag with | some g => s3.settleCollective g | none => s3
      s4.settlePackets t.ctx

/-- Releasing a team's pool, slots and watch entries: it has retired. -/
def State.retireTeam (s : State) (t : Team) : State :=
  let s2 := s.modTeam t.key fun t =>
    { t with phase := .retired, sp := [], stamps := [], tiles := []
             warps := t.warps.map fun w => { w with watch := [none, none, none, none] } }
  (s2.emitTeam t 0x02B).settleComplete t.key

/-- A team retires when its warps have retired and its copies of scratchpad have completed. -/
def State.settleTeam (s : State) (k : TKey) : State :=
  match s.team? k with
  | none => s
  | some t =>
    let ended := match t.phase with
      | .running | .draining | .halting => true
      | _ => false
    if ended && t.warps.all (fun w => s.slotFree (t.wkey w) w) && !((s.copiesOf t).any CopyCmd.usesScratch)
    then s.retireTeam t
    else s.settleComplete k

/-- What may follow the completion of an operation of a warp: arrivals, retirement, completion. -/
def State.settle (s : State) (k : WKey) : State := (s.settleArrivals k).settleTeam k.team

/-! ## exit (R82, R152) -/

/-- The next live warp of a team on a core after warp n, cyclically, other than n. -/
def Team.nextInRing (t : Team) (core n : Nat) : Option Nat :=
  let ring := (t.warps.filter fun w => w.live && w.core == core && w.num != n).map (·.num)
  match ring.find? (fun m => decide (n < m)) with
  | some m => some m
  | none => ring.head?

/-- The batons of an exiting warp pass on (R152). -/
def Team.passBatons (t : Team) (core n : Nat) : Team :=
  { t with batons := t.batons.map fun b =>
      match b with
      | .free => .free
      | .held m => if m = n then (match t.nextInRing core n with | some x => .passed x | none => .free) else b
      | .passed m => if m = n then (match t.nextInRing core n with | some x => .passed x | none => .free) else b }

/-- A warp leaves every barrier: its expected set and its arrivals (R79). -/
def Team.leaveBarriers (t : Team) (n : Nat) : Team :=
  (List.range 8).foldl Team.settleBarrier
    { t with barriers := t.barriers.map fun b => { b with arrived := b.arrived.filter (· != n) } }

/-- A warp stops issuing for good (R57, R82): its stack and levels are discarded, its batons pass on,
it leaves the barriers, its watch slots are free (R263). -/
def State.exitWarp (s : State) (k : WKey) : State :=
  match s.warp? k with
  | none => s
  | some w =>
    let s1 := s.modWarp k fun w =>
      { w with act := .exited, stack := [], loops := [], arriving := [], bedge := false, watch := [none, none, none, none] }
    (s1.modTeam k.team fun t => (t.passBatons w.core k.w).leaveBarriers k.w).settleTeam k.team

/-- `exit`: the accounting of the issue comes before the warp leaves. -/
def execExit (o : Ops (BitVec 16)) (s : State) : Host.Outcome State Fault Refusal :=
  runRaw (.exit o) s fun e => .enter ((e.s.endWait e.k).exitWarp e.k)

end Sys2Proof.Machine
end

