-- ==== Sys2Proof/Machine/Scratch.lean ====
section
/-!
DEFINITION. The scratchpad (R169 to R180): its words, valid bits, poison and span stamps; banks, relief
groups and stale rows; the service of an instruction's requests (R172 to R177); layout words and the
swizzle (R157, R158); the checks of unwritten words and of stamps (R159, R180).
-/

namespace Sys2Proof.Machine

/-! ## Words, bytes, stamps -/

/-- A word never written (R169). -/
def spClear : SpWord := ⟨0, false, false, false⟩

/-- The word of a scratchpad, by word number. -/
def Team.word (t : Team) (n : Nat) : SpWord := sget spClear t.sp n

/-- Replacing a word. -/
def Team.setWord (t : Team) (n : Nat) (x : SpWord) : Team := { t with sp := sset spClear t.sp n x }

/-- The span stamp of a 2 KiB block (R159). -/
def Team.stamp (t : Team) (b : Nat) : BitVec 3 := sget 0 t.stamps b

/-- Setting the stamp of a block. -/
def Team.setStamp (t : Team) (b : Nat) (x : BitVec 3) : Team := { t with stamps := sset 0 t.stamps b x }

/-- The words that bytes from `off` touch. -/
def wordsAt (off n : Nat) : List Nat :=
  if n = 0 then [] else (List.range ((off + n - 1) / 4 - off / 4 + 1)).map (off / 4 + ·)

/-- A byte of the scratchpad: an unwritten word reads as 0 (R180). -/
def Team.spByte (t : Team) (off : Nat) : Byte :=
  let x := t.word (off / 4)
  if x.valid then (x.data >>> (8 * (off % 4))).setWidth 8 else 0

/-- Bytes of the scratchpad. -/
def Team.spBytes (t : Team) (off n : Nat) : List Byte := (List.range n).map fun k => t.spByte (off + k)

/-- A little-endian number of the scratchpad. -/
def Team.spNat (t : Team) (off n : Nat) : Nat := leNat (t.spBytes off n)

/-- Writing one byte of a word. -/
def putByte (w : BitVec 32) (k : Nat) (b : Byte) : BitVec 32 :=
  (w &&& ~~~(0xFF#32 <<< (8 * k))) ||| (b.setWidth 32 <<< (8 * k))

/-- A word after a write of bytes from byte `k`: it becomes valid (R180); a whole word takes the poison
of the data, a part leaves poison in place (R345). -/
def SpWord.put (x : SpWord) (k : Nat) (bs : List Byte) (poison : Bool) (recon : Bool := false) : SpWord where
  data := (bs.zipIdx.foldl (fun (w : BitVec 32) (b, j) => putByte w (k + j) b) x.data)
  valid := true
  poison := poison || (x.poison && bs.length != 4)
  recon := if poison then recon else x.recon && x.poison && bs.length != 4

/-- Writing bytes that lie in one word or several, from an offset; `fuel` bounds the words. -/
def Team.spPut (poison recon : Bool) : Nat → Team → Nat → List Byte → Team
  | 0, t, _, _ => t
  | fuel + 1, t, off, bs =>
    match bs with
    | [] => t
    | _ =>
      let k := off % 4
      let here := bs.take (4 - k)
      Team.spPut poison recon fuel (t.setWord (off / 4) ((t.word (off / 4)).put k here poison recon)) (off + here.length)
        (bs.drop (4 - k))

/-- Writing bytes and stamping their blocks. -/
def Team.spWrite (t : Team) (off : Nat) (bs : List Byte) (poison : Bool) (stamp : Option (BitVec 3))
    (recon : Bool := false) : Team :=
  let t1 := Team.spPut poison recon (bs.length + 1) t off bs
  match stamp with
  | none => t1
  | some x => ((wordsAt off bs.length).map (· / 512)).eraseDups.foldl (fun t b => t.setStamp b x) t1

/-! ## Banks, groups, rows (R170, R171, R178) -/

/-- Bytes of one core's share. -/
def Team.share (t : Team) : Nat := t.kernel.spg * 4096

/-- The core that holds a word, and the word's number there. -/
def Team.homeCore (t : Team) (word : Nat) : Nat × Nat :=
  let per := t.share / 4
  if t.kernel.paired && per ≤ word then (t.core + 1, word - per) else (t.core, word)

/-- Register granules of a kernel (R85), for the warps of one core. -/
def regGranules (warps n g width : Nat) : Nat := (warps * (n * 16 + g * width * 8) + 4095) / 4096

/-- Granules of one core's pool that a team takes: a relay team takes registers only (R297). -/
def Kernel.granules (k : Kernel) (relay : Bool) : Nat :=
  if relay then regGranules k.warps k.n k.g k.width else k.regg + k.spg + 9 * k.tiles

/-- Teams that hold a core, other than those set aside. -/
def State.teamsOn (s : State) (c : Nat) (gone : List TKey) : List Team :=
  s.teams.filter fun t => t.resident && t.cores.contains c && !gone.contains t.key

/-- The first 32-bit word of a team's part of a core's pool, by which words of the pool are numbered: the parts of
the core's teams follow each other, in each the registers, the scratchpad, the tiles (DESIGN CHOICE, assumption 126). -/
def State.poolAt (s : State) (core : Nat) (k : TKey) : Nat :=
  1024 * ((s.teamsOn core []).takeWhile (·.key != k)).foldl (fun n t => n + t.kernel.granules t.relay.isSome) 0

/-- Words of a core's pool (R7): numbers above them name what is not in the pool. -/
def poolWords : Nat := 2 ^ 19

/-- The banks that hold data on a core, in order: 32, or 24 with a group removed (R178). -/
def Core.liveBanks (c : Core) : List Nat := (List.range 32).filter fun b => !c.gret.getLsbD (b / 8)

/-- Bank and row of a word on its core. -/
def Core.place (c : Core) (n : Nat) : Nat × Nat :=
  let banks := c.liveBanks
  (banks.getD (n % banks.length) 0, n / banks.length)

/-- The retired bank of a degraded group. -/
def Core.retiredBank (c : Core) (g : Nat) : Option Nat :=
  if c.degr.getLsbD g then some (8 * g + c.rbank.getD g 0) else none

/-- The words of a group row: those of the same row in the same group. -/
def Core.siblings (c : Core) (n : Nat) : List Nat :=
  let banks := c.liveBanks
  let (b, row) := c.place n
  (List.range banks.length).filterMap fun k =>
    if (banks.getD k 0) / 8 == b / 8 then some (row * banks.length + k) else none

/-- The relief word of a group row (R171): the XOR of the row's data words, which is what the relief bank
holds of every row that is not stale. -/
def Team.reliefWord (t : Team) (c : Core) (base n : Nat) : BitVec 32 :=
  (c.siblings n).foldl (fun x m => x ^^^ (t.word (m + base)).data) 0

/-- The first word number of the share that lies on a core. -/
def Team.baseOf (t : Team) (core : Nat) : Nat := if core = t.core then 0 else t.share / 4

/-- The group row of a word: its core, group and row. -/
def State.groupRow (s : State) (t : Team) (w : Nat) : Nat × Nat × Nat :=
  let (core, n) := t.homeCore w
  let (b, row) := (s.core core).place n
  (core, b / 8, row)

/-- Does a word lie in the retired bank of its group, so that reads of it are reconstructed (R177)? -/
def State.lostWord (s : State) (t : Team) (w : Nat) : Bool :=
  let (core, n) := t.homeCore w
  let c := s.core core
  let b := (c.place n).1
  c.retiredBank (b / 8) == some b

/-! ## Parity (R174) -/

/-- One cycle of a group's parity updates: the oldest one that is eligible, 2 cycles after its write, is
performed unless a reconstruction takes the relief bank. -/
def stepParity (taken : Bool) (l : List ParityRow) : List ParityRow :=
  let rest := if taken then l else match l.find? fun p => decide (2 ≤ p.age) with
    | some p => l.erase p
    | none => l
  rest.map fun p => { p with age := p.age + 1 }

/-- n cycles of them. -/
def stepParities (taken : Bool) : Nat → List ParityRow → List ParityRow
  | 0, l => l
  | n + 1, l => if l.isEmpty then l else stepParities taken n (stepParity taken l)

/-- n cycles of a core's banks in which nothing reads them, group by group. -/
def idleParity (n : Nat) (l : List ParityRow) : List ParityRow :=
  (List.range 4).flatMap fun g => stepParities false n (l.filter (·.group == g))

/-- Is a row of a team stale; has an update of the group waited 4 cycles, so that it takes the relief bank
now? -/
def rowStale (l : List ParityRow) (key : TKey) (row : Nat) : Bool := l.any fun p => p.key == key && p.row == row
def parityForced (l : List ParityRow) : Bool := l.any fun p => decide (6 ≤ p.age)

/-- The updates of a group that precede a row's are performed, and its own with them: who waits for the
row finds it up to date. -/
def settleRow (g : Nat) (key : TKey) (row : Nat) (l : List ParityRow) : List ParityRow :=
  let mine := l.filter (·.group == g)
  l.filter (·.group != g) ++ (mine.reverse.takeWhile fun p => !(p.key == key && p.row == row)).reverse

/-- The rows of words, each with its group. -/
def Core.rowsOf (c : Core) (words : List Nat) : List (Nat × Nat) :=
  (words.map fun n => ((c.place n).1 / 8, (c.place n).2)).eraseDups

/-- Is a row written whole by these words, and its relief word with it? -/
def Core.wholeRow (c : Core) (words : List Nat) (full : Nat → Bool) (x : Nat × Nat) : Bool :=
  let here := (words.filter fun n => (c.place n).1 / 8 == x.1 && (c.place n).2 == x.2).eraseDups
  here.length == 8 && here.all full

/-- Rows among words written in one cycle whose relief word is not written with them: those of which some
word is not written whole, or not written at all. -/
def Core.partialRows (c : Core) (words : List Nat) (full : Nat → Bool) : List (Nat × Nat) :=
  (c.rowsOf words).filter fun x => !c.wholeRow words full x

/-- Does a word lie in the retired bank of its group? -/
def Core.inLost (c : Core) (n : Nat) : Bool := c.retiredBank ((c.place n).1 / 8) == some (c.place n).1

/-- Rows whose relief word a write of words makes anew: those written whole, and those of which a word of the
retired bank is written (R174, R177). -/
def Core.freshRows (c : Core) (words : List Nat) (full : Nat → Bool) : List (Nat × Nat) :=
  (c.rowsOf words).filter (c.wholeRow words full) ++ c.rowsOf (words.filter c.inLost)

/-- Relief words of a team that have been written anew: an error that stood in them is gone. -/
def State.renewRelief (s : State) (k : TKey) (core : Nat) (rows : List (Nat × Nat)) : State :=
  if rows.isEmpty then s
  else s.modTeam k fun t => { t with reliefBad := t.reliefBad.filter fun x => !(x.1 == core && rows.contains x.2) }

/-- Noting what the writes of words in one cycle do to parity: a write to a retired bank waits for its row
and updates the relief word itself (R177); other rows that are not written whole become stale. -/
def Core.noteRows (c : Core) (key : TKey) (words : List Nat) (full : Nat → Bool) : Core :=
  let part := c.partialRows words full
  let settled := (words.filter c.inLost).foldl (fun l n => settleRow ((c.place n).1 / 8) key (c.place n).2 l) c.parity
  let stale := part.filter fun (g, row) => words.any fun n => !c.inLost n && (c.place n).1 / 8 == g && (c.place n).2 == row
  { c with parity := settled ++ stale.map fun (g, row) => ⟨g, key, row, 0⟩ }

/-- Noting the rows that writes of words in one cycle leave stale. -/
def State.noteWords (s : State) (t : Team) (words : List Nat) (full : Nat → Bool) : State :=
  (if t.kernel.paired then [t.core, t.core + 1] else [t.core]).foldl (fun s core =>
    let base := t.baseOf core
    let here := (words.filter fun w => (t.homeCore w).1 == core).map (· - base)
    if here.isEmpty then s
    else (s.modCore core fun c => c.noteRows t.key here fun w => full (w + base)).renewRelief t.key core
      ((s.core core).freshRows here fun w => full (w + base))) s

/-- Noting the rows that a write of bytes leaves stale. -/
def State.noteWrite (s : State) (t : Team) (off n : Nat) : State :=
  s.noteWords t (wordsAt off n) fun w => decide (off ≤ 4 * w) && decide (4 * w + 4 ≤ off + n)

/-! ## Serving requests (R172, R173, R176, R177) -/

/-- A request: word number on its core, its bank and row; two words at once for 8-byte accesses;
cycles it holds its bank (R176). -/
structure SpReq where
  word : Nat
  bank : Nat
  row : Nat
  wide : Bool
  hold : Nat
  deriving DecidableEq, Repr

/-- What the port serves in a group: a load, which may be given conflict relief; reads, which of a retired
bank are reconstructed; writes, with the words written whole; the team; the group's retired bank. -/
structure PortWork where
  load : Bool
  reads : Bool
  writes : Bool
  full : Nat → Bool
  key : TKey
  group : Nat
  lost : Option Nat

/-- What a service gives: its cycles, the words served by reconstruction, the parity updates that still wait
after it, and the rows whose relief word it has written anew. -/
structure Service where
  cycles : Nat
  rebuilt : List Nat
  parity : List ParityRow
  fresh : List (Nat × Nat) := []

/-- Inserting a request in increasing row order. -/
def reqInsert (r : SpReq) : List SpReq → List SpReq
  | [] => [r]
  | x :: l => if r.row < x.row then r :: x :: l else x :: reqInsert r l

/-- The first pending request of each bank that is not busy. -/
def firstPerBank (busy : List SpReq) (l : List SpReq) : List SpReq :=
  l.foldl (fun (acc : List SpReq) r => if (busy ++ acc).any (·.bank == r.bank) then acc else acc ++ [r]) []

/-- The words of a request. -/
def SpReq.words (r : SpReq) : List Nat := if r.wide then [r.word, r.word + 1] else [r.word]

/-- Conflict relief applies (R173): a load, no retired bank, and one bank alone with two or more pending
4-byte requests. -/
def PortWork.relieves (w : PortWork) (l : List SpReq) : Bool :=
  w.load && w.lost.isNone &&
    match l with
    | r :: rest => !r.wide && !rest.isEmpty && rest.all (·.bank == r.bank)
    | [] => false

/-- The service of a group's requests, cycle by cycle (R173, R176, R177), with the parity updates that go
on beside it: `busy` holds the requests that occupy their banks and the cycles each has left. -/
def Core.serveGroup (c : Core) (w : PortWork) :
    Nat → Nat → List (SpReq × Nat) → List SpReq → List ParityRow → Service
  | 0, now, _, _, par => ⟨now, [], par, []⟩
  | fuel + 1, now, busy, l, par =>
    let free (x : SpReq) : Bool := !rowStale par w.key x.row
    let live := l.filter fun r => w.lost != some r.bank
    if busy.isEmpty && l.isEmpty then ⟨now, [], par, []⟩
    else if w.relieves l then
      let rest := l.tail
      match if parityForced par then none else rest.find? free with
      | some x =>
        let s := c.serveGroup w fuel (now + 1) [] (rest.erase x) (stepParity true par)
        { s with rebuilt := x.word :: s.rebuilt }
      | none => c.serveGroup w fuel (now + 1) [] rest (stepParity false par)
    else if busy.isEmpty && live.isEmpty then
      -- only requests to the retired bank are left: one at a time, when its row is up to date
      match if parityForced par then none else l.find? free with
      | none => c.serveGroup w fuel (now + 1) [] l (stepParity false par)
      | some x =>
        let s := c.serveGroup w fuel (now + x.hold) [] (l.erase x) (stepParities true x.hold par)
        let s := if w.reads then { s with rebuilt := x.word :: s.rebuilt } else s
        if w.writes then { s with fresh := (w.group, x.row) :: s.fresh } else s
    else
      let on := busy ++ (firstPerBank (busy.map (·.1)) live).map fun r => (r, r.hold)
      let ended := ((on.filter (·.2 ≤ 1)).map (·.1)).flatMap SpReq.words
      let rows := if w.writes then c.rowsOf ended else []
      let stale := rows.filter fun x => !c.wholeRow ended w.full x
      let s := c.serveGroup w fuel (now + 1) ((on.filter (1 < ·.2)).map fun x => (x.1, x.2 - 1))
        (l.filter fun r => !(on.map (·.1)).contains r)
        (stepParity false par ++ stale.map fun x => ⟨w.group, w.key, x.2, 1⟩)
      { s with fresh := rows.filter (c.wholeRow ended w.full) ++ s.fresh }

/-- An 8-byte request that touches a retired bank is served as two (R177). -/
def SpReq.split (r : SpReq) (lost : Option Nat) : List SpReq :=
  if r.wide && (lost == some r.bank || lost == some (r.bank + 1)) then
    [{ r with wide := false }, { r with wide := false, word := r.word + 1, bank := r.bank + 1 }]
  else [r]

/-- The requests of one pass on one core: words merged (R172); `hold` of a word gives the cycles. -/
def Core.requests (c : Core) (wide : Bool) (words : List Nat) (hold : Nat → Nat) : List SpReq :=
  let starts := words.eraseDups
  starts.foldl (fun acc n =>
    let (b, row) := c.place n
    reqInsert ⟨n, b, row, wide, hold n⟩ acc) []

/-- The service of one pass on one core: the groups work side by side; the service ends with its last
group, and in no case before one cycle (R173). -/
def Core.servePass (c : Core) (load reads writes : Bool) (full : Nat → Bool) (key : TKey) (rs : List SpReq) : Service :=
  let fuel := 64 + 4 * (rs.foldl (fun n r => n + r.hold) 0) + 16 * (rs.length + c.parity.length)
  let parts := (List.range 4).map fun g =>
    let w : PortWork := ⟨load, reads, writes, full, key, g, c.retiredBank g⟩
    c.serveGroup w fuel 0 [] ((rs.filter (·.bank / 8 == g)).flatMap fun r => r.split w.lost) (c.parity.filter (·.group == g))
  let cycles := parts.foldl (fun m s => Nat.max m s.cycles) 1
  ⟨cycles, parts.flatMap (·.rebuilt), parts.flatMap fun s => stepParities false (cycles - s.cycles) s.parity,
    parts.flatMap (·.fresh)⟩

/-! ## Errors of the banks (R171, R179, R342) -/

/-- The poison of a word a reader gets, and whether it is reconstruction poison: the word's own, or, when
it is reconstructed, that of a sibling or of the relief word (R179). -/
def State.wordPoison (s : State) (t : Team) (rebuilt : Bool) (w : Nat) : Bool × Bool :=
  let x := t.word w
  if x.poison || !rebuilt then (x.poison, x.poison && x.recon)
  else
    let (core, n) := t.homeCore w
    let bad := t.reliefBad.contains (s.groupRow t w) ||
      ((((s.core core).siblings n).filter (· != n)).any fun m => (t.word (m + t.baseOf core)).poison)
    (bad, bad)

/-- One error of a word or a relief word shows (R179): corrected, counted against the bank and recorded;
or the word is poison from now on. -/
def State.showError (s : State) (k : TKey) (word : Nat) (relief fixable : Bool) : State :=
  let s1 := { s with upsets := s.upsets.erase (.scratch k word relief fixable) }
  match s1.team? k with
  | none => s1
  | some t =>
    let (core, n) := t.homeCore word
    if fixable then
      let bank := ((s1.core core).place n).1
      let s2 := if relief then s1 else s1.modCore core fun c => { c with bankErrors := c.bankErrors ++ [(bank, s1.clock)] }
      s2.eccCorrected (coreSrc core 3) 2 (s.poolAt core k + 1024 * t.kernel.regg + n + if relief then poolWords else 0)
    else
      (s1.riskEvent .mc).modTeam k fun t =>
        if relief then { t with reliefBad := s.groupRow t word :: t.reliefBad }
        else t.setWord word { t.word word with poison := true, recon := false }

/-- The errors that a read of words shows: of the words themselves, and of the siblings and relief words
of those that are reconstructed. -/
def State.showErrors (s : State) (t : Team) (words rebuilt : List Nat) : State :=
  s.upsets.foldl (fun s u =>
    match u with
    | .scratch k w relief fixable =>
      let row := s.groupRow t w
      let mine := k == t.key && ((!relief && words.contains w && !rebuilt.contains w) ||
        rebuilt.any fun x => s.groupRow t x == row && (relief || x != w))
      if mine then s.showError k w relief fixable else s
    | _ => s) s

/-- Has a core of the team a degraded group? -/
def State.degraded (s : State) (t : Team) : Bool :=
  t.kernel.paired && (s.core (t.core + 1)).degr != 0 || (s.core t.core).degr != 0

/-- The scratchpad as a save or a move of the pool reads it: errors show, and each word has the poison that a
read of it delivers (R178, R183). -/
def State.readPool (s : State) (t : Team) : Team × State :=
  if s.upsets.isEmpty && !s.degraded t then (t, s)
  else
    let words := t.sp.map (·.1)
    let lost := words.filter (s.lostWord t)
    let s1 := s.showErrors t words lost
    let u := (s1.team? t.key).getD t
    let seen := words.foldl (fun (v : Team) w =>
      let x := s1.wordPoison u (lost.contains w) w
      v.setWord w { u.word w with poison := x.1, recon := x.2 }) { t with sp := u.sp, reliefBad := u.reliefBad }
    (seen, s1)

/-! ## What a path sees (R200, R238, R240) -/

/-- Who writes scratchpad: a path, and for an engine's operation its number, its warp and its place among
that warp's operations. -/
structure SpWriter where
  path : Path
  op : Nat := 0
  warp : Nat := 0
  nth : Nat := 0

/-- The writer of an engine's operation. -/
def State.writerOf (s : State) (p : Path) (k : WKey) (op : Nat) : SpWriter :=
  ⟨p, op, k.w, ((s.warp? k).map fun w => w.nthOf p op).getD 0⟩

/-- A change of words of the scratchpad by a path: the other paths may go on reading what was there. -/
def Team.writeAs (t : Team) (by_ : SpWriter) (words : List Nat) (f : Team → Team) : Team :=
  let u := f t
  let others := [Path.sp, .cp, .mx].filter (· != by_.path)
  let fresh := (words.filter fun w => t.word w != u.word w).flatMap fun w => others.map fun q =>
    { word := w, reader := q, writer := by_.path, op := by_.op, warp := by_.warp, nth := by_.nth, old := t.word w }
  { u with stale := fresh ++ u.stale.filter fun x => !(x.reader == by_.path && words.contains x.word) }

/-- The older values of a word that a path may still read, the latest first. -/
def Team.olderWords (t : Team) (p : Path) (w : Nat) : List SpWord :=
  (t.stale.filter fun x => x.reader == p && x.word == w).map (·.old)

/-- A path has read version n of a word, 0 for the present one: what is older is not read again. -/
def forget (p : Path) (w : Nat) : Nat → List StaleWord → List StaleWord
  | _, [] => []
  | n, x :: l =>
    if x.reader == p && x.word == w then (match n with | 0 => forget p w 0 l | m + 1 => x :: forget p w m l)
    else x :: forget p w n l

/-- The scratchpad as a path reads the words that meet a test: each that another path has replaced is the
present value or one of those before, freely chosen (assumption 21); a word of a retired bank has the
poison of its reconstruction. -/
def State.spView (s : State) (t : Team) (p : Path) (words : List Nat) : Team × State :=
  let open_ := ((t.stale.filter fun x => x.reader == p).map (·.word)).eraseDups.filter words.contains
  let seen := open_.foldl (fun (acc : Team × State) w =>
    let olds := acc.1.olderWords p w
    let (n, s1) := acc.2.draw
    let k := n % (olds.length + 1)
    let cut (t : Team) : Team := { t with stale := forget p w k t.stale }
    let u := cut acc.1
    (match k with
      | 0 => u
      | j + 1 => u.setWord w { (olds.getD j spClear) with valid := (u.word w).valid },
     s1.modTeam t.key cut)) (t, s)
  if !s.degraded t then seen
  else ((words.filter (s.lostWord t)).foldl (fun u w =>
    let x := s.wordPoison seen.1 true w
    u.setWord w { u.word w with poison := x.1, recon := x.2 }) seen.1, seen.2)

/-! ## Layout words and the swizzle (R157, R158) -/

/-- A layout word (Table 8-3). -/
structure Layout where
  span : BitVec 3
  esz : Nat
  kMajor : Bool
  pitch : Nat
  base : Nat
  deriving DecidableEq, Repr

/-- Reading a layout word; none when R157 makes it illegal whatever the instruction. -/
def layoutOf (w : Word) : Option Layout :=
  let l : Layout :=
    { span := w.extractLsb' 36 3, esz := fieldOf w 35 34, kMajor := w.getLsbD 33
      pitch := fieldOf w 32 21 * 16, base := fieldOf w 20 0 * 16 }
  if fieldOf w 63 39 ≠ 0 then none
  else if l.span ≠ 0 ∧ (l.pitch = 0 ∨ l.pitch % (16 * 2 ^ l.span.toNat) ≠ 0) then none
  else some l

/-- The swizzle of a logical offset by span and pitch, from an anchor (R158). -/
def swizzle (span : BitVec 3) (pitch base o : Nat) : Nat :=
  if pitch = 0 then base + o
  else
    let m := 2 ^ span.toNat
    let row := o / pitch
    let col := o % pitch
    let ch := col / 16
    let pch := (ch - ch % m) + ((ch % m) ^^^ (row % m))
    base + row * pitch + pch * 16 + col % 16

/-- The scratchpad byte of a logical offset. -/
def Layout.phys (l : Layout) (o : Nat) : Nat := swizzle l.span l.pitch l.base o

/-- Bits of an element by ESZ. -/
def Layout.bits (l : Layout) : Nat :=
  match l.esz with
  | 0 => 16 | 1 => 8 | 2 => 4 | _ => 32

/-- The byte of element (r, c) at offset operand `b`, and whether a 4-bit element is the upper half
(R158). -/
def Layout.element (l : Layout) (b r c : Nat) : Nat × Bool :=
  let inner := if l.kMajor then r else c
  let outer := if l.kMajor then c else r
  (l.phys (b + outer * l.pitch + inner * l.bits / 8), inner % 2 == 1)

/-! ## Unwritten words and stamps (R159, R180) -/

/-- A complaint about what a reader of scratchpad found: an unwritten word, or a block's stamp. -/
inductive SpFinding where
  | unwritten (off : Nat)
  | mismatch (off block : Nat) (stamp : BitVec 3)
  deriving DecidableEq, Repr

/-- The first unwritten word of the bytes read, in increasing offset: the offset of the word, or of the
first byte of it that is read. -/
def Team.firstUnwritten (t : Team) (offs : List Nat) : Option Nat :=
  minOf (offs.filter fun o => !(t.word (o / 4)).valid)

/-- The first byte read whose block carries another stamp. -/
def Team.firstMismatch (t : Team) (span : BitVec 3) (offs : List Nat) : Option Nat :=
  minOf (offs.filter fun o => t.stamp (o / 2048) != span)

/-- Words of the bytes read that are unwritten. -/
def Team.unwrittenWords (t : Team) (offs : List Nat) : List Nat :=
  ((offs.map (· / 4)).filter fun w => !(t.word w).valid).eraseDups

/-- SP_UNWRITTEN in warn mode (R180, Table 17-9). -/
def State.warnUnwritten (s : State) (src : Src) (ctx : Nat) (cid parent pc serial : Word) (lane off n : Nat) : State :=
  s.emit src 0x009 (auxCtx ctx) cid parent
    [pc, (serial &&& 0xFFFFFFFFFFFF#64) ||| atBit lane 48, atBit off 0 ||| atBit n 32, 0]

/-- LAYOUT_MISMATCH in warn mode (R159, Table 17-9). -/
def State.warnMismatch (s : State) (src : Src) (ctx : Nat) (cid parent pc serial : Word) (span stamp : BitVec 3)
    (block : Nat) : State :=
  s.emit src 0x008 (auxCtx ctx) cid parent
    [pc, (serial &&& 0xFFFFFFFFFFFF#64) ||| atBit span.toNat 48 ||| atBit stamp.toNat 56, atBit block 0, 0]

/-- The bytes of scratchpad that a list of elements covers: offset and length. -/
def coverBytes (l : List (Nat × Nat)) : List Nat := l.flatMap fun (o, n) => (List.range n).map (o + ·)

/-- What an instruction that reads scratchpad meets: in trap mode the fault (code, offset) at the lowest
offset, LAYOUT_MISMATCH first at one offset; in warn mode the events. `span` is the span of a reader
that checks stamps. -/
def State.spCheck (s : State) (t : Team) (src : Src) (cid parent pc serial : Word) (span : Option (BitVec 3))
    (lane : Nat → Nat) (offs : List Nat) : Except (Nat × Nat) State :=
  let bad := t.firstUnwritten offs
  let mis := span.bind fun x => t.firstMismatch x offs
  if !(s.ctx t.ctx).warn then
    match bad, mis with
    | none, none => .ok s
    | some u, none => .error (0x0C, u)
    | none, some m => .error (0x0B, m)
    | some u, some m => if u < m then .error (0x0C, u) else .error (0x0B, m)
  else
    let s1 := match mis, span with
      | some m, some x => s.warnMismatch src t.ctx cid parent pc serial x (t.stamp (m / 2048)) (m / 2048)
      | _, _ => s
    .ok (match bad with
      | some u => s1.warnUnwritten src t.ctx cid parent pc serial (lane u) (u / 4 * 4) (t.unwrittenWords offs).length
      | none => s1)

end Sys2Proof.Machine
end

