-- ==== Sys2Proof/Machine/Matrix.lean ====
section
/-!
DEFINITION. The matrix group (chapter 8): tiles, batons, the acceptance of operations by the sequencer
(R148), their start and completion, checksums (R167), and the deferred faults of R168.
-/

namespace Sys2Proof.Machine

/-! ## Tiles (R153, R154) -/

/-- Elements of a tile row, and of a tile. -/
def tileSide : Nat := 96
def tileSize : Nat := tileSide * tileSide

/-- A tile of +0. -/
def tileZero (half num : Nat) : Tile := { half := half, num := num, elems := List.replicate tileSize 0 }

/-- A tile of a team; one that is not listed holds +0. -/
def Team.tile (t : Team) (half num : Nat) : Tile :=
  (t.tiles.find? fun x => x.half == half && x.num == num).getD (tileZero half num)

/-- Replacing a tile. -/
def Team.setTile (t : Team) (x : Tile) : Team :=
  { t with tiles := x :: t.tiles.filter fun y => !(y.half == x.half && y.num == x.num) }

/-- Poison as it travels with a value, and whether it is reconstruction poison (R179, R345). -/
abbrev Marks : Type := Bool × Bool

/-- An element, and its poison. -/
def Tile.at (x : Tile) (i j : Nat) : BitVec 32 := x.elems.getD (i * tileSide + j) 0
def Tile.bad (x : Tile) (i j : Nat) : Marks :=
  (x.poison.contains (i * tileSide + j), x.recon.contains (i * tileSide + j))

/-- A tile from a function of row and column: value and poison of each element. -/
def Tile.build (half num : Nat) (f : Nat → Nat → BitVec 32 × Marks) : Tile where
  half := half
  num := num
  elems := (List.range tileSize).map fun n => (f (n / tileSide) (n % tileSide)).1
  poison := (List.range tileSize).filter fun n => (f (n / tileSide) (n % tileSide)).2.1
  recon := (List.range tileSize).filter fun n => (f (n / tileSide) (n % tileSide)).2.2

/-- An f32 pattern as a tile holds it: a NaN is the canonical one (R153). -/
def tileValue (n : Nat) : BitVec 32 :=
  BitVec.ofNat 32 (if (fmtF32.val n).isNaN then fmtF32.nan else n)

/-- `toff`, and the tile number of an instruction that names one; none at or above T (R154). -/
def Env.toff (e : Env) (imm : BitVec 28) : Nat :=
  let r : BitVec 6 := imm.extractLsb' 22 6
  if r = 0 then 0 else (e.w.sreg r).toNat
def Env.tileNum (e : Env) (num : BitVec 5) (imm : BitVec 28) : Option Nat :=
  let n := num.toNat + e.toff imm
  if n < e.t.kernel.tiles then some n else none

/-! ## Batons (R150, R151) -/

/-- Changing a baton. -/
def State.setBaton (s : State) (k : WKey) (n : Nat) (b : Baton) : State :=
  s.modTeam k.team fun t => { t with batons := t.batons.set n b }

/-- May a warp take the baton: it holds it, it was passed to it, or it is free and no warp of lower
number waits? -/
def Team.mayTake (t : Team) (w : Warp) (arr : Bool) : Bool :=
  match t.baton w arr with
  | .held n | .passed n => n == w.num
  | .free => (t.batonWaiters w.core arr).all fun x => decide (w.num ≤ x.num)

/-- `bton` (R151). WAITERS in its WAIT_BEGIN record does not count the warp that begins to wait; the entry read
afterwards does (DESIGN CHOICE, assumption 121). -/
def execBton (o : Ops MX) (s : State) : Host.Outcome State Fault Refusal :=
  runSeq (.bton o) s fun e =>
    if e.t.mayTake e.w o.mod.arr then .next (e.s.setBaton e.k (e.t.batonIdx e.w o.mod.arr) (.held e.w.num))
    else
      let s1 := e.s.enterWait e.k (.bton o.mod.arr) (e.t.batonWait e.w o.mod.arr)
      .enter s1

/-- BATON_HANDOFF (R151, R152): a waiting warp takes the baton passed or freed to it. -/
def execBatonHandoff (k : WKey) (s : State) : Host.Outcome State Fault Refusal :=
  match s.team? k.team, s.warp? k with
  | some t, some w =>
    match w.act with
    | .bton arr =>
      if t.mayTake w arr && !t.still w then
        .next (((s.setBaton k (t.batonIdx w arr) (.held w.num)).leaveWait k).advance k)
      else .refused (.eventNotPending "BATON_HANDOFF")
    | _ => .refused (.eventNotPending "BATON_HANDOFF")
  | _, _ => .refused (.eventNotPending "BATON_HANDOFF")

/-- The next warp after n in the ring of a core, n itself when it is alone (R151). -/
def Team.ringNext (t : Team) (core n : Nat) : Nat := (t.nextInRing core n).getD n

def execBtpass (o : Ops MX) (s : State) : Host.Outcome State Fault Refusal :=
  runSeq (.btpass o) s fun e =>
    let idx := e.t.batonIdx e.w o.mod.arr
    if e.t.baton e.w o.mod.arr ≠ .held e.w.num then e.trap 0x0A
    else if o.mod.sub.getLsbD 1 then .next (e.s.setBaton e.k idx .free)
    else if o.mod.sub.getLsbD 0 then
      let n := (e.scalar o.a).toNat
      if e.t.warps.any fun x => x.live && x.core == e.w.core && x.num == n then
        .next (e.s.setBaton e.k idx (if n = e.w.num then .held n else .passed n))
      else e.trap 0x0A
    else
      let n := e.t.ringNext e.w.core e.w.num
      .next (e.s.setBaton e.k idx (if n = e.w.num then .held n else .passed n))

def execBtq (o : Ops MX) (s : State) : Host.Outcome State Fault Refusal :=
  runSeq (.btq o) s fun e => .next (e.setS o.d (e.t.batonWord e.w o.mod.arr))

/-! ## Acceptance (R148) -/

/-- The tiles an operation touches. -/
def MxOp.tiles (x : MxOp) : List Nat :=
  match x.instr with
  | .fld _ | .fldsc _ => []
  | .acccp _ => [x.tile, x.tile2]
  | _ => [x.tile]

/-- Accepting an operation: MX rises, and the sequencer of the warp's core lists it; one on a tile whose
MISCOMPARE has been found is discarded, and counted in the record of that fault (R168). -/
def Env.acceptMx (e : Env) (i : Instr) (s : State) (f : MxOp → MxOp) : State :=
  let (id, s1) := s.takeId
  let op : MxOp :=
    f { id := id, key := e.k, half := e.t.half e.w, instr := i, pc := e.w.pc, cause := e.w.cause, serial := e.w.serial
        nth := e.w.issued + 1 }
  let dead (h n : Nat) : Bool := op.half == h && op.tiles.contains n
  if e.t.deadTiles.any fun x => dead x.1 x.2 then
    let more (h : HeldFault) : HeldFault := { h with info := { h.info with aux := h.info.aux + 1 } }
    e.s.modTeam e.k.team fun t => { t with heldFaults := updIf (fun h => dead h.half h.tile) more t.heldFaults }
  else (s1.modWarp e.k fun w => w.countUp .mx id).modCore e.w.core fun c => { c with mxOps := c.mxOps ++ [op] }

/-- Accepting an operation, when the MX counter can rise (R76). -/
def Env.accept (e : Env) (i : Instr) (s : State) (f : MxOp → MxOp) : Act :=
  if e.w.roomOn .mx then .next (e.acceptMx i s f) else .wait e.s

/-- The registers of a group. -/
def groupRegs (first n : Nat) : List Nat := (List.range n).map (first + ·)

/-- Making the registers of a destination group general and pending (R92, R98). -/
def Env.prepGroup (e : Env) (regs : List Nat) : Option State :=
  (regs.foldl (fun (acc : Option State) n => acc.bind fun s => s.makeG e.k e.t regs n) (some e.s)).map fun s =>
    s.modWarp e.k fun w => regs.foldl (fun w n => w.setV n { w.vreg n with pend := true }) w

/-- The pending bits of a group clear, the old values kept. -/
def Warp.unpend (w : Warp) (regs : List Nat) : Warp :=
  regs.foldl (fun w n => w.setV n { w.vreg n with pend := false }) w

/-- Writing a destination group: words and poison of each register. -/
def Warp.writeGroup (w : Warp) (first width : Nat) (l : List (List Word × Mask × Mask)) : Warp :=
  (l.zipIdx).foldl (fun w (x, j) =>
    w.setV (first + j) ((w.vreg (first + j)).fill width (fullMask width)
      { shape := .g, vals := x.1, poison := x.2.1, recon := x.2.2 })) w

/-- The layout word of an instruction, checked (R157), and its offset operand (R158); a trap code
otherwise. Where several of ILLEGAL_OPERAND, MISALIGNED_ACCESS and SP_BOUND hold, the first of them in that
order is taken: the spec gives none (assumption 102). -/
def Env.layoutArgs (e : Env) (a b : Operand) (esz : Nat) : Except Nat (Layout × Nat) :=
  match layoutOf (e.scalar a) with
  | none => .error 0x02
  | some l =>
    if l.esz ≠ esz then .error 0x02
    else if (e.scalar b).toNat % 16 ≠ 0 then .error 0x06
    else .ok (l, (e.scalar b).toNat)

/-- The bytes of one element of a transfer: offset and length. -/
def Layout.bytes (l : Layout) (b r c : Nat) : Nat × Nat := ((l.element b r c).1, Nat.max 1 (l.bits / 8))

/-- Every element lies inside the scratchpad (R158). -/
def elementsInside (size : Nat) (l : Layout) (b rows cols : Nat) : Bool :=
  (List.range rows).all fun r => (List.range cols).all fun c =>
    let x := l.bytes b r c
    decide (x.1 + x.2 ≤ size)

/-! ## Formats of fragments (R147, R155) -/

/-- Chunk of K, elements per register slot, bits of an element. -/
def Fmt.chunk : Fmt → Nat
  | .bf16 | .f16 => 32
  | .e4m3 | .e5m2 => 64
  | .mxf4 => 128
def Fmt.per : Fmt → Nat
  | .bf16 | .f16 => 4
  | .e4m3 | .e5m2 => 8
  | .mxf4 => 16
def Fmt.bits (f : Fmt) : Nat := 64 / Fmt.per f
def Fmt.esz : Fmt → Nat
  | .bf16 | .f16 => 0
  | .e4m3 | .e5m2 => 1
  | .mxf4 => 2
def Fmt.fp : Fmt → FpFmt
  | .bf16 => fmtBf16
  | .f16 => fmtF16
  | .e4m3 => fmtE4m3
  | .e5m2 => fmtE5m2
  | .mxf4 => fmtE2m1

/-! ## fld, fldsc (R161) -/

/-- Issuing a load of a register group from scratchpad. -/
def Env.issueFrag (e : Env) (i : Instr) (o : Ops MX) (regs rows cols esz : Nat) : Act :=
  match e.layoutArgs o.a o.b esz with
  | .error c => e.trap c
  | .ok (l, b) =>
    if !elementsInside e.t.kernel.scratch l b rows cols then e.trap 0x0D
    else match e.prepGroup (groupRegs o.d.vNum regs) with
      | none => .wait e.s
      | some s => e.accept i s fun x => { x with layout := e.scalar o.a, offset := e.scalar o.b, dst := o.d.vNum }

def execFld (o : Ops MX) (s : State) : Host.Outcome State Fault Refusal :=
  runSeq (.fld o) s fun e => e.issueFrag (.fld o) o 24 tileSide (Fmt.chunk o.mod.fmt) (Fmt.esz o.mod.fmt)

def execFldsc (o : Ops MX) (s : State) : Host.Outcome State Fault Refusal :=
  runSeq (.fldsc o) s fun e => e.issueFrag (.fldsc o) o 2 tileSide 4 1

/-! ## mma (R162) -/

/-- The words of a group of source registers, read under R88, and their poison. -/
def Env.groupWords (e : Env) (first n : Nat) : List (List Word) :=
  (groupRegs first n).map fun r => (e.w.vreg r).all e.width
def Env.groupPoison (e : Env) (first n : Nat) : List Mask := (groupRegs first n).map fun r => (e.w.vreg r).poison
def Env.groupRecon (e : Env) (first n : Nat) : List Mask := (groupRegs first n).map fun r => (e.w.vreg r).recon

/-- Operations an array has accepted and not finished. -/
def Core.mmaQueue (c : Core) (arr : Bool) : List MxOp :=
  c.mxOps.filter fun x => match x.instr with | .mma _ => x.arr == arr | _ => false

def execMma (o : Ops MX) (s : State) : Host.Outcome State Fault Refusal :=
  runSeq (.mma o) s fun e =>
    match e.tileNum o.mod.acc o.imm with
    | none => e.trap 0x0E
    | some n =>
      if e.t.baton e.w o.mod.arr ≠ .held e.w.num then e.trap 0x0A
      else if 2 ≤ (((e.s.core e.w.core).mmaQueue o.mod.arr).filter fun x => !x.started).length then .wait e.s
      else
        let scales := if o.mod.fmt = .mxf4 then
            e.groupWords ((mmaScale o.imm false).getD (.v 0)).vNum 2 ++ e.groupWords ((mmaScale o.imm true).getD (.v 0)).vNum 2
          else []
        e.accept (.mma o) e.s fun x =>
          { x with tile := n, arr := o.mod.arr
                   regs := e.groupWords o.a.vNum 24 ++ e.groupWords o.b.vNum 24 ++ scales }

/-! ## Tile instructions (R163 to R165) -/

def execAccz (o : Ops MX) (s : State) : Host.Outcome State Fault Refusal :=
  runSeq (.accz o) s fun e =>
    match e.tileNum o.mod.acc o.imm with
    | none => e.trap 0x0E
    | some n => e.accept (.accz o) e.s fun x => { x with tile := n }

def execAcccp (o : Ops MX) (s : State) : Host.Outcome State Fault Refusal :=
  runSeq (.acccp o) s fun e =>
    match e.tileNum o.mod.acc o.imm, e.tileNum (o.mod.sub.setWidth 5) o.imm with
    | some a, some d => e.accept (.acccp o) e.s fun x => { x with tile := a, tile2 := d }
    | _, _ => e.trap 0x0E

/-- Issuing a whole-tile transfer. A tile number that is too high is found before a bad layout word or
offset: the spec gives no order (assumption 102). -/
def Env.issueTile (e : Env) (i : Instr) (o : Ops MX) : Act :=
  match e.tileNum o.mod.acc o.imm with
  | none => e.trap 0x0E
  | some n =>
    match e.layoutArgs o.a o.b (if o.mod.sub.getLsbD 0 then 0 else 3) with
    | .error c => e.trap c
    | .ok (l, b) =>
      if !elementsInside e.t.kernel.scratch l b tileSide tileSide then e.trap 0x0D
      else e.accept i e.s fun x => { x with tile := n, layout := e.scalar o.a, offset := e.scalar o.b }

def execAccld (o : Ops MX) (s : State) : Host.Outcome State Fault Refusal :=
  runSeq (.accld o) s fun e => e.issueTile (.accld o) o

def execAccst (o : Ops MX) (s : State) : Host.Outcome State Fault Refusal :=
  runSeq (.accst o) s fun e => e.issueTile (.accst o) o

def execAccrd (o : Ops MX) (s : State) : Host.Outcome State Fault Refusal :=
  runSeq (.accrd o) s fun e =>
    match e.tileNum o.mod.acc o.imm with
    | none => e.trap 0x0E
    | some n =>
      match e.prepGroup (groupRegs o.d.vNum 12) with
      | none => .wait e.s
      | some s => e.accept (.accrd o) s fun x => { x with tile := n, dst := o.d.vNum }

def execAccwr (o : Ops MX) (s : State) : Host.Outcome State Fault Refusal :=
  runSeq (.accwr o) s fun e =>
    match e.tileNum o.mod.acc o.imm with
    | none => e.trap 0x0E
    | some n => e.accept (.accwr o) e.s fun x =>
        { x with tile := n, regs := e.groupWords o.a.vNum 12, poison := e.groupPoison o.a.vNum 12
                 recon := e.groupRecon o.a.vNum 12 }

/-! ## What an operation does -/

/-- Element (t, k) of a fragment (R155). -/
def fragElem (f : Fmt) (regs : List (List Word)) (t k : Nat) : Nat :=
  elemOf ((regs.getD (8 * (t / 32) + k / Fmt.per f) []).getD (t % 32) 0) (Fmt.bits f) (k % Fmt.per f)

/-- The scale of slot t, block q of a pair (R156). -/
def fragScale (regs : List (List Word)) (t q : Nat) : Nat :=
  let b := 4 * (t / 32) + q
  elemOf ((regs.getD (b / 8) []).getD (t % 32) 0) 8 (b % 8)

/-- The exact product of a(i, k) and b(k, j) (R125). -/
def mmaProduct (f : Fmt) (regs : List (List Word)) (i j k : Nat) : FpVal :=
  let a := (Fmt.fp f).val (fragElem f regs i k)
  let b := (Fmt.fp f).val (fragElem f (regs.drop 24) j k)
  let p := (fpMul a b).1
  if f = .mxf4 then
    let sa := fragScale (regs.drop 48) i (k / 32)
    let sb := fragScale (regs.drop 50) j (k / 32)
    if sa = 255 ∨ sb = 255 then .nan false else p.scale ((sa : Int) + (sb : Int) - 254)
  else p

/-- One element after a chunk: the exact sum, rounded once (R125). -/
def mmaElem (f : Fmt) (regs : List (List Word)) (acc : BitVec 32) (i j : Nat) : BitVec 32 :=
  let ps := (List.range (Fmt.chunk f)).map (mmaProduct f regs i j)
  tileValue (fmtF32.finish .rn false (fpSum .rn (fmtF32.val acc.toNat :: ps))).code

/-- A tile after a chunk. -/
def mmaTile (f : Fmt) (clr : Bool) (regs : List (List Word)) (x : Tile) : Tile :=
  Tile.build x.half x.num fun i j => (mmaElem f regs (if clr then 0 else x.at i j) i j, (false, false))

/-- The poison of several values together. -/
def joinMarks (l : List Marks) : Marks := (l.any (·.1), l.any (·.2) && !l.any fun m => m.1 && !m.2)

/-- The mask of the lanes of a 32-lane register that are poisoned, and of those poisoned by a
reconstruction. -/
def laneMarks (f : Nat → Marks) : Mask × Mask :=
  ((List.range 32).foldl (fun m lane => if (f lane).1 then m ||| (1#64 <<< lane) else m) 0,
    (List.range 32).foldl (fun m lane => if (f lane).2 then m ||| (1#64 <<< lane) else m) 0)

/-- The value of an element read from scratchpad, and its poison. -/
def Team.element (t : Team) (l : Layout) (b r c : Nat) : Nat × Marks :=
  let (o, hi) := l.element b r c
  let n := t.spNat o (Nat.max 1 (l.bits / 8))
  (if l.bits = 4 then (if hi then n / 16 else n % 16) else n,
    joinMarks ((wordsAt o (Nat.max 1 (l.bits / 8))).map fun w => ((t.word w).poison, (t.word w).poison && (t.word w).recon)))

/-- The registers `fld` writes (R161): `per` elements of `bits` bits in each lane. -/
def Team.fragment (t : Team) (l : Layout) (b : Nat) (f : Fmt) : List (List Word × Mask × Mask) :=
  (List.range 24).map fun j =>
    let cell (lane : Nat) : List (Nat × Marks) := (List.range (Fmt.per f)).map fun e =>
      t.element l b (lane + 32 * (j / 8)) (j % 8 * Fmt.per f + e)
    ((List.range 32).map fun lane => BitVec.ofNat 64 (packElems (Fmt.bits f) ((cell lane).map (·.1))),
      laneMarks fun lane => joinMarks ((cell lane).map (·.2)))

/-- The pair `fldsc` writes: bytes 12 to 15 of a lane are 0. -/
def Team.scalePair (t : Team) (l : Layout) (b : Nat) : List (List Word × Mask × Mask) :=
  (List.range 2).map fun j =>
    let cell (lane : Nat) : List (Nat × Marks) := (List.range 8).map fun e =>
      let n := 8 * j + e
      if n < 12 then t.element l b (lane + 32 * (n / 4)) (n % 4) else (0, (false, false))
    ((List.range 32).map fun lane => BitVec.ofNat 64 (packElems 8 ((cell lane).map (·.1))),
      laneMarks fun lane => joinMarks ((cell lane).map (·.2)))

/-- The format of a narrow transfer (NRW = 1). -/
def narrowFmt (o : Ops MX) : FpFmt := if o.mod.fmt = .f16 then fmtF16 else fmtBf16

/-- A tile from scratchpad (R164). -/
def Team.loadTile (t : Team) (o : Ops MX) (l : Layout) (b half num : Nat) : Tile :=
  Tile.build half num fun i j =>
    let (n, bad) := t.element l b i j
    (if o.mod.sub.getLsbD 0 then tileValue (fmtF32.finish .rn false ((narrowFmt o).val n, 0)).code else tileValue n, bad)

/-- Scratchpad after a tile is stored (R164): every word written is valid, every block stamped. Where the
layout makes elements overlap, the last in row order remains (assumption 102). Two half-words in one word are
two partial writes, which leave its poison in place (DESIGN CHOICE, assumption 120). -/
def Team.storeTile (t : Team) (o : Ops MX) (l : Layout) (b : Nat) (x : Tile) : Team :=
  (List.range tileSize).foldl (fun t n =>
    let i := n / tileSide
    let j := n % tileSide
    let v := (x.at i j).toNat
    let bs := if o.mod.sub.getLsbD 0 then natBytes ((narrowFmt o).finish .rn false (fmtF32.val v, 0)).code 2 else natBytes v 4
    t.spWrite (l.element b i j).1 bs (x.bad i j).1 (some l.span) (x.bad i j).2) t

/-- Row and column of element e of lane l in register r of a band (R165). -/
def bandCell (band r l e : Nat) : Nat × Nat := (8 * band + 2 * (r / 3) + e, l + 32 * (r % 3))

/-- The registers `accrd` writes. -/
def Tile.band (x : Tile) (band : Nat) : List (List Word × Mask × Mask) :=
  (List.range 12).map fun r =>
    let at' (l e : Nat) : BitVec 32 := x.at (bandCell band r l e).1 (bandCell band r l e).2
    let bad (l : Nat) : Marks := joinMarks ((List.range 2).map fun e => x.bad (bandCell band r l e).1 (bandCell band r l e).2)
    ((List.range 32).map fun l => BitVec.ofNat 64 ((at' l 0).toNat + (at' l 1).toNat * 2 ^ 32), laneMarks bad)

/-- A tile after `accwr`. -/
def Tile.putBand (x : Tile) (band : Nat) (regs : List (List Word)) (poison recon : List Mask) : Tile :=
  Tile.build x.half x.num fun i j =>
    if i / 8 = band then
      let r := 3 * (i % 8 / 2) + j / 32
      let l := j % 32
      (tileValue (elemOf ((regs.getD r []).getD l 0) 32 (i % 2)), ((poison.getD r 0).has l, (recon.getD r 0).has l))
    else (x.at i j, x.bad i j)

/-! ## Completion -/

/-- Is an operation an `mma`; does it use the fragment port; the tile port (Table 8-6)? -/
def MxOp.isMma (x : MxOp) : Bool := match x.instr with | .mma _ => true | _ => false
def MxOp.fragPort (x : MxOp) : Bool :=
  match x.instr with
  | .fld _ | .fldsc _ | .accld _ | .accst _ => true
  | _ => false
def MxOp.tilePort (x : MxOp) : Bool :=
  match x.instr with
  | .fld _ | .fldsc _ | .mma _ => false
  | _ => true

/-- Must an operation wait for an earlier accepted one (R148)? -/
def MxOp.behind (x y : MxOp) : Bool :=
  let shared := x.key.team == y.key.team && x.half == y.half && x.tiles.any y.tiles.contains
  if x.isMma && y.isMma then x.arr == y.arr || shared
  else shared || (x.fragPort && y.fragPort) || (x.tilePort && y.tilePort)

/-- The operations accepted before one. -/
def Core.before (c : Core) (id : Nat) : List MxOp := c.mxOps.takeWhile fun y => y.id != id

/-- An operation has nothing to wait for. -/
def Core.mxReady (c : Core) (x : MxOp) : Bool := (c.before x.id).all fun y => !x.behind y

/-- Removing an operation: MX falls, its destination is no longer pending. -/
def State.dropMx (s : State) (core : Nat) (x : MxOp) : State :=
  let regs := match x.instr with
    | .fld _ => groupRegs x.dst 24
    | .fldsc _ => groupRegs x.dst 2
    | .accrd _ => groupRegs x.dst 12
    | _ => []
  let s1 := s.modCore core fun c => { c with mxOps := c.mxOps.filter (·.id != x.id) }
  s1.modWarp x.key fun w => if x.dropped then w else (w.unpend regs).countDown .mx x.id

/-- A deferred fault of an operation, without a lane (R168). -/
def MxOp.fault (x : MxOp) (s : State) (code : Nat) (addr : Word := 0) (aux : Nat := 0) : FaultInfo :=
  let w := s.warp? x.key
  { code := code, pc := x.pc, cause := x.cause, addr := addr, serial := x.serial, warp := x.key.w, aux := aux
    wobj := ((w.bind (·.wait)).map (·.obj)).getD 0, wkind := ((w.bind (·.wait)).map (·.kind)).getD 0, deferred := true
    skid := (w.map (·.issued)).getD 0 - x.nth }

/-- The record source of an operation: the matrix engine of its core. -/
def State.mxSrc (s : State) (core : Nat) (x : MxOp) : Src :=
  coreSrc core 2 (match s.warp? x.key with | some w => quadOf w.slot | none => 0)

/-- An operation completes with a change of its team. -/
def State.endMx (s : State) (core : Nat) (x : MxOp) (f : Team → Team) : State :=
  ((s.modTeam x.key.team f).dropMx core x).settle x.key

/-- An operation ends in a deferred fault; its destination keeps its old value. -/
def State.failMx (s : State) (core : Nat) (x : MxOp) (f : FaultInfo) (tile : Option (Nat × Nat) := none) : State :=
  ((s.dropMx core x).deferFault x.key f none tile).settle x.key

/-- The offsets of the scratchpad bytes a transfer reads. -/
def readOffsets (l : Layout) (b rows cols : Nat) : List Nat :=
  coverBytes ((List.range rows).flatMap fun r => (List.range cols).map fun c => l.bytes b r c)

/-- A reader of scratchpad: the checks of R159 and R180, then its effect, from the scratchpad as the matrix
path sees it; words of a retired bank are reconstructed. -/
def State.readMx (s : State) (core : Nat) (t : Team) (x : MxOp) (l : Layout) (rows cols : Nat) (f : Team → Team → Team) :
    State :=
  let offs := readOffsets l x.offset.toNat rows cols
  match s.spCheck t (s.mxSrc core x) x.cause (if x.cause = 0 then 0 else t.cause) x.pc x.serial (some l.span)
      (fun _ => 255) offs with
  | .error (code, off) => s.failMx core x (x.fault s code (BitVec.ofNat 64 off))
  | .ok s1 =>
    let words := (offs.map (· / 4)).eraseDups
    let lost := words.filter (s.lostWord t)
    let s2 := s1.showErrors t words lost
    let (view, s3) := s2.spView ((s2.team? t.key).getD t) .mx words
    s3.endMx core x fun t => f view { t with recon := satAdd 32 t.recon lost.length }

/-- The effect of a fragment-port or tile-port operation on its team, at its completion. -/
def State.finishMx (s : State) (core : Nat) (t : Team) (x : MxOp) : State :=
  let b := x.offset.toNat
  let l := (layoutOf x.layout).getD ⟨0, 0, false, 0, 0⟩
  let warp (f : Warp → Warp) (t : Team) : Team := if x.dropped then t else t.modWarp x.key.w f
  let words := ((List.range tileSize).map fun n => (l.element b (n / tileSide) (n % tileSide)).1 / 4).eraseDups
  match x.instr with
  | .fld o => s.readMx core t x l tileSide (Fmt.chunk o.mod.fmt)
      fun v => warp fun w => w.writeGroup x.dst 32 (v.fragment l b o.mod.fmt)
  | .fldsc _ => s.readMx core t x l tileSide 4 fun v => warp fun w => w.writeGroup x.dst 32 (v.scalePair l b)
  | .accld o => s.readMx core t x l tileSide tileSide fun v t => t.setTile (v.loadTile o l b x.half x.tile)
  | .accst o =>
    let offs := (List.range tileSize).map fun n => (l.element b (n / tileSide) (n % tileSide)).1
    let full (w : Nat) : Bool := !o.mod.sub.getLsbD 0 || (offs.contains (4 * w) && offs.contains (4 * w + 2))
    (s.noteWords t words full).endMx core x fun t =>
      t.writeAs (s.writerOf .mx x.key x.id) words fun t => t.storeTile o l b (t.tile x.half x.tile)
  | .accz _ => s.endMx core x fun t => t.setTile (tileZero x.half x.tile)
  | .acccp _ => s.endMx core x fun t => t.setTile { t.tile x.half x.tile with num := x.tile2 }
  | .accrd o => s.endMx core x (warp fun w => w.writeGroup x.dst 32 ((t.tile x.half x.tile).band o.mod.sub.toNat))
  | .accwr o => s.endMx core x fun t => t.setTile ((t.tile x.half x.tile).putBand o.mod.sub.toNat x.regs x.poison x.recon)
  | _ => s

/-- MX_OP_COMPLETE (R166): a fragment-port or tile-port operation completes in acceptance order. -/
def execMxOpComplete (core id : Nat) (s : State) : Host.Outcome State Fault Refusal :=
  let c := s.core core
  match c.mxOps.find? (·.id == id) with
  | none => .refused (.eventNotPending "MX_OP_COMPLETE")
  | some x =>
    match s.team? x.key.team with
    | none => .next (s.dropMx core x)
    | some t =>
      if x.isMma || !c.mxReady x || !s.fqRoom x.key.ctx then .refused (.eventNotPending "MX_OP_COMPLETE")
      else .next (s.finishMx core t x)

/-- MMA_START (R148): the first `mma` of an array starts when the array is idle and every earlier
operation on its tile has completed, but for the array's own. -/
def execMmaStart (core arr : Nat) (s : State) : Host.Outcome State Fault Refusal :=
  let c := s.core core
  match c.mmaQueue (arr == 1) with
  | [] => .refused (.eventNotPending "MMA_START")
  | x :: _ =>
    if x.started || !c.mxReady x then .refused (.eventNotPending "MMA_START")
    else .next (s.modCore core fun c =>
      { c with mxOps := updIf (·.id == x.id) (fun y => { y with started := true }) c.mxOps })

/-- The checksum error that strikes this array, if any (R167). -/
def State.arrayUpset (s : State) (core arr : Nat) : Option Upset :=
  s.upsets.find? fun u => match u with | .array c a _ => c == core && a == arr | _ => false

/-- The later operations on the tile of a failed `mma` (R168). -/
def Core.discarded (c : Core) (x : MxOp) : List MxOp :=
  (c.mxOps.dropWhile fun y => y.id != x.id).filter fun y =>
    y.id != x.id && y.key.team == x.key.team && y.half == x.half && y.tiles.contains x.tile

/-- Both executions of a chunk failed their checksums (R167, R168): the tile keeps its value, later
operations on it are discarded and counted; the record is written when the halt is complete. -/
def State.miscompareMx (s : State) (core : Nat) (x : MxOp) : State :=
  let gone := (s.core core).discarded x
  let s1 := gone.foldl (fun s y => s.dropMx core y) s
  let s2 := s1.modTeam x.key.team fun t => { t with deadTiles := (x.half, x.tile) :: t.deadTiles }
  (s2.riskEvent .mc).failMx core x (x.fault s 0x1A 0 gone.length) (some (x.half, x.tile))

/-- MMA_COMPLETE (R162, R167): the array checks its checksums and updates the tile. -/
def execMmaComplete (core arr : Nat) (s : State) : Host.Outcome State Fault Refusal :=
  let c := s.core core
  match c.mmaQueue (arr == 1) with
  | [] => .refused (.eventNotPending "MMA_COMPLETE")
  | x :: _ =>
    match s.team? x.key.team, x.instr with
    | none, _ => .next (s.dropMx core x)
    | some t, .mma o =>
      if !x.started || !s.fqRoom x.key.ctx then .refused (.eventNotPending "MMA_COMPLETE")
      else
        let tile := t.tile x.half x.tile
        let clr := o.mod.sub.getLsbD 0
        if !clr && !tile.poison.isEmpty then
          .next (s.failMx core x (x.fault s (if tile.poison.all tile.recon.contains then 0x1B else 0x19)))
        else
          let update (s : State) : State := s.endMx core x fun t =>
            t.setTile (mmaTile o.mod.fmt clr x.regs (t.tile x.half x.tile))
          match s.arrayUpset core arr with
          | some u =>
            let s1 := { s with upsets := s.upsets.erase u }
            let s2 := (s1.emit (s1.mxSrc core x) 0x024 0 x.cause t.cause
              [atBit core 0 ||| atBit arr 16, x.pc, x.serial &&& 0xFFFFFFFFFFFF#64]).riskEvent .vc
            match u with
            | .array _ _ true => .next (s2.miscompareMx core x)
            | _ => .next (update s2)
          | none => .next (update s)
    | _, _ => .refused (.eventNotPending "MMA_COMPLETE")

end Sys2Proof.Machine
end

