-- ==== Sys2Proof/Machine/Lanes.lean ====
section
/-!
DEFINITION. What the memory instructions of the lanes share: addresses (R42), the accesses of the lanes,
the waits before an access may issue (R198, R227), pending destinations (R92, R98) and their writing,
and the atomic operations (R186, R197).
-/

namespace Sys2Proof.Machine

/-! ## Addresses and accesses -/

/-- Bytes of an access: width times count. -/
def accessSize (t : Typ) (pk : BitVec 2) : Nat := laneBits t pk / 8

/-- The offset in IMM; with cas, IMM holds the C operand instead (R14). -/
def memOffset (o : Ops MM) (atomic : Bool) : Word :=
  if atomic && o.mod.atop == .cas then 0 else sextImm o.imm

/-- The address of lane l (R42). -/
def Env.laneAddr (e : Env) (o : Ops MM) (atomic : Bool) (l : Nat) : Word :=
  e.scalar o.a + e.lane o.b l + memOffset o atomic

/-- The access of lane l: address, data from D, compare word from C, destination register. -/
def Env.access (e : Env) (o : Ops MM) (atomic : Bool) (ia : Nat → Nat) (l : Nat) : LaneAccess where
  lane := l
  va := e.laneAddr o atomic l
  ia := ia l
  data := e.lane o.d l
  cmp := if atomic && o.mod.atop == .cas then e.laneC o.imm l else 0
  reg := (e.w.regOf o.d l).getD 0
  poison := e.w.poisonAt o.d l
  recon := e.w.reconAt o.d l

/-- Every effective lane uses one address (R92). -/
def oneAddress (l : List LaneAccess) : Bool :=
  match l with
  | [] => true
  | x :: rest => rest.all fun y => y.va == x.va

/-! ## Before an access issues -/

/-- An acquiring access of the warp has not finished its acquire action: later accesses wait (R198). -/
def Env.heldByAcquire (e : Env) : Bool := !e.w.acquiring.isEmpty

/-- The number of the access, and the windows it waits for (R227). -/
def State.region (s : State) (e : Env) : Nat × List (Nat × Nat) :=
  (e.w.issuedAcc, s.openRegions e.k e.w.core e.w.regions)

/-- An acquiring access holds the warp's later accesses (R198, Table 11-4). -/
def State.holdLater (s : State) (k : WKey) (id : Nat) : State :=
  s.modWarp k fun w => { w with acquiring := w.acquiring ++ [id] }

/-- An access has issued: the warp's count of accesses rises; an acquiring one holds later ones. -/
def State.countAccess (s : State) (k : WKey) (id : Nat) (acquire : Bool) : State :=
  s.modWarp k fun w =>
    { w with issuedAcc := w.issuedAcc + 1
             acquiring := if acquire then w.acquiring ++ [id] else w.acquiring }

/-- The acquiring access has finished: its action is performed and later accesses may issue. -/
def State.endAcquire (s : State) (k : WKey) (id core : Nat) (paired : Bool) (sc : Scope) : State :=
  match s.warp? k with
  | some w =>
    if w.acquiring.contains id then
      (s.acquire core paired sc).modWarp k fun w => { w with acquiring := w.acquiring.filter (· != id) }
    else s
  | none => s

/-! ## Pending destinations -/

/-- Does a load leave its destination uniform: one address, a full mask, one register (R91, R92)? -/
def Env.uniformLoad (e : Env) (d : Operand) (lanes : List LaneAccess) : Bool :=
  oneAddress lanes && e.m == fullMask e.width && !(e.w.destRegs d e.lanes).2

/-- Settling the destination of a load: rows, ranks and spills now, PEND until the data is written (R92, R98);
none when no row can be had yet. Its dirty bit is clear until then (R383), but for a register that keeps lanes
(DEDUCED, assumption 114). One that is to be uniform keeps its value, and its row, until then: a load that
faults leaves it unchanged (R206, R180; DESIGN CHOICE, assumption 114). -/
def Env.prepLoad (e : Env) (i : Instr) (s : State) (d : Operand) (uniform : Bool) : Option State :=
  let named := match i.sig with | some g => e.named g | none => []
  let dst := e.w.destRegs d e.lanes
  let keeps := dst.2 || e.m != fullMask e.width
  (if uniform then some s else s.prepDest e.k e.t e.w named d e.m .g).map fun s =>
    s.modWarp e.k fun w =>
      dst.1.foldl (fun w n => w.setV n { w.vreg n with pend := true, dirty := keeps && (w.vreg n).dirty }) w

/-- What one lane of a load receives. -/
structure LaneValue where
  lane : Nat
  reg : Nat
  value : Word
  poison : Bool := false
  recon : Bool := false
  deriving DecidableEq, Repr

/-- The mask of the lanes that meet a test. -/
def lanesWhere (l : List LaneValue) (p : LaneValue → Bool) : Mask :=
  l.foldl (fun m x => if p x then m ||| (1#64 <<< x.lane) else m) 0

/-- Writing the lanes of one register: it becomes uniform, or is general; poison makes it general (R345). -/
def State.writeReg (s : State) (k : WKey) (t : Team) (uniform : Bool) (l : List LaneValue) (n : Nat) : Option State :=
  let here := l.filter (·.reg == n)
  let m := lanesWhere here fun _ => true
  let ready := if uniform && !here.any (·.poison) then some (s.makeUA k .u n) else s.settleWrite k t m n
  ready.map fun s => s.modWarp k fun w =>
    let x : VRes :=
      { shape := .g, poison := lanesWhere here (·.poison), recon := lanesWhere here (·.recon)
        vals := (List.range t.kernel.width).map fun i => ((here.find? (·.lane == i)).map (·.value)).getD 0 }
    w.setV n ((w.vreg n).fill t.kernel.width m x)

/-- Writing the results of a load, register by register; none while a row cannot be had. -/
def State.writeLanes (s : State) (k : WKey) (t : Team) (uniform : Bool) (l : List LaneValue) : Option State :=
  (l.map (·.reg)).eraseDups.foldl (fun acc n => acc.bind fun s => s.writeReg k t uniform l n) (some s)

/-- The destination keeps its old values: PEND clears (R168). Its row holds what its backing slot may not, so
that it is dirty again (assumption 114). -/
def State.cancelLoad (s : State) (k : WKey) (l : List LaneAccess) : State :=
  s.modWarp k fun w => (l.map (·.reg)).eraseDups.foldl (fun w n =>
    w.setV n { w.vreg n with pend := false, dirty := !(w.vreg n).spilled }) w

/-! ## Atomic operations (R186, R197) -/

/-- One lane's operation on a value of its type: f adds round once, a NaN result is canonical. -/
def atomStep (t : Typ) (op : Atop) (cur v cmp : Nat) : Nat :=
  match op with
  | .add => if t.isFlt then ((fpOf t).add .rn cur v).code else (cur + v) % 2 ^ t.width
  | .min => if readInt t v < readInt t cur then v else cur
  | .max => if readInt t cur < readInt t v then v else cur
  | .and => cur &&& v
  | .or => cur ||| v
  | .xor => cur ^^^ v
  | .exch => v
  | .cas => if cur = cmp then v else cur

/-- The lanes of one word applied in increasing lane order: the new value. -/
def atomFold (t : Typ) (op : Atop) (old : Nat) (l : List LaneAccess) : Nat :=
  l.foldl (fun cur a => atomStep t op cur (a.data.toNat % 2 ^ t.width) (a.cmp.toNat % 2 ^ t.width)) old

end Sys2Proof.Machine
end

