-- ==== Sys2Proof/Machine/Watch.lean ====
section
/-!
DEFINITION. Watchpoints (R261 to R263, R267): the L1 watch filter at issue, and the watch instructions.
-/

namespace Sys2Proof.Machine

/-! ## Filters (R261, R262) -/

/-- Kinds of an access as a slot counts them (bit 0 read, bit 1 write, bit 2 atomic). -/
def OpKind.watchKind : OpKind → Nat
  | .load | .remoteLoad => 0
  | .store | .remoteStore => 1
  | _ => 2

/-- The L1 filter (R262): the lowest lane of a warp's access to a local range that hits a slot of its
own team. A wp slot watches only its owner; a scalar access (lane 255) counts as lane 0. -/
def Env.watchHit (e : Env) (kind size : Nat) (lanes : List LaneAccess) : Option LaneAccess :=
  let slots := e.t.warps.flatMap fun w => (w.slots.map (·.2)).filter fun x => x.scope != 0 || w.num == e.w.num
  if slots.isEmpty then none
  else lanes.find? fun a => decide (a.rkind ≤ 1) && slots.any fun x => x.lanes.has (a.lane % 255) && x.covers kind a.ia size

/-! ## watch, unwatch, watchq (R267) -/

/-- Entries of the L2 filter, and those in use. -/
def l2WatchSlots : Nat := 256
def State.dvSlots (s : State) : Nat :=
  (s.teams.flatMap fun t => t.warps.flatMap fun w => w.slots.filter fun x => x.2.scope == 2).length

/-- The checks of a range of addresses as a read (R267): the range register, or a trap code. -/
def Env.watchRange (e : Env) (va : Word) (n : Nat) : Except Nat Range :=
  match (e.s.ctx e.k.ctx).findRange va n with
  | none => .error 0x10
  | some r =>
    if r.kind = 0 ∧ !e.t.leases.getLsbD r.idx then .error 0x11
    else if !r.prd ∨ r.kind > 1 then .error 0x12
    else .ok r

def execWatch (o : Ops (BitVec 16)) (s : State) : Host.Outcome State Fault Refusal :=
  runSeq (.watch o) s fun e =>
    let va := e.scalar o.a
    let n := (e.scalar o.b).toNat
    if n = 0 then e.trap 0x02
    else match e.watchRange va n with
      | .error c => e.trap c 255 va
      | .ok r =>
        let slot := o.mod.toNat % 4
        let scope := o.mod.toNat / 32 % 4
        let x : WatchSlot :=
          { lo := r.target va, hi := r.target va + n, kinds := o.mod.extractLsb' 2 3, scope := scope
            lanes := e.w.preg (o.imm.setWidth 4) &&& fullMask e.width, hits := 0
            armedAt := e.s.nextId, armedOn := e.s.clock }
        let s1 := e.s.modWarp e.k fun w => { w with watch := w.watch.set slot none }
        if scope = 2 ∧ s1.dvSlots ≥ l2WatchSlots then .next (s1.modWarp e.k (·.setS o.d 1))
        else .next (s1.modWarp e.k fun w => Warp.setS { w with watch := w.watch.set slot (some x) } o.d 0)

def execUnwatch (o : Ops (BitVec 16)) (s : State) : Host.Outcome State Fault Refusal :=
  runSeq (.unwatch o) s fun e =>
    .next (e.s.modWarp e.k fun w =>
      { w with watch := if o.mod.getLsbD 2 then [none, none, none, none] else w.watch.set (o.mod.toNat % 4) none })

/-- The word of `watchq` (Table 12-11). -/
def WatchSlot.word (x : WatchSlot) : Word :=
  atBit x.hits 32 ||| atBit x.kinds.toNat 5 ||| atBit x.scope 3 ||| atBit 1 0

def execWatchq (o : Ops (BitVec 16)) (s : State) : Host.Outcome State Fault Refusal :=
  runSeq (.watchq o) s fun e =>
    .next (e.setS o.d (((e.w.watch.getD (o.mod.toNat % 4) none).map WatchSlot.word).getD 0))

end Sys2Proof.Machine
end

