-- ==== Sys2Proof/Machine/Memory.lean ====
section
/-!
DEFINITION. The global-memory instructions at issue (R189 to R207), the tag instructions (R265, R266),
fences and the L1 instructions (R199 to R201). What an issued operation does later is in
Machine/MemEvents.lean.
-/

namespace Sys2Proof.Machine

/-! ## Checks at issue (R189, R246, R247, R252) -/

/-- A memory instruction: its kind, modifiers, whether it is scalar, its size in bytes and the
multiple its addresses must be of. -/
structure MemForm where
  kind : OpKind
  o : Ops MM
  scalar : Bool := false
  size : Nat
  align : Nat

/-- Is the operation one that reads a C operand or an ATOP? -/
def OpKind.atomicOp : OpKind → Bool
  | .atomic | .reduce | .remoteReduce => true
  | _ => false

/-- The data of the operation is its D operand. -/
def OpKind.takesData : OpKind → Bool
  | .store | .atomic | .reduce | .tagStore | .remoteStore | .remoteReduce => true
  | _ => false

/-- The operation has a destination. -/
def OpKind.hasResult : OpKind → Bool
  | .load | .atomic | .tagLoad | .remoteLoad => true
  | _ => false

/-- The permission of Table 12-2. -/
def Range.permits (r : Range) : OpKind → Bool
  | .load | .prefetch | .tagLoad | .remoteLoad => r.prd
  | .store | .tagStore | .remoteStore => r.pwr
  | .atomic | .reduce | .remoteReduce => r.pat
  | .writeBackAll => true

/-- Atomics that a host-kind range takes: integer add, exch and cas of 32 or 64 bits (R197). -/
def hostAtomic (ty : Typ) (op : Atop) : Bool :=
  ty.isInt && (ty.width == 32 || ty.width == 64) && (op == .add || op == .exch || op == .cas)

/-- The kinds of range an operation may use (R189, R197, R265). -/
def Range.takes (r : Range) (kind : OpKind) (ty : Typ) (op : Atop) : Bool :=
  match kind with
  | .remoteLoad | .remoteStore | .remoteReduce => r.kind == 2
  | .tagStore | .tagLoad | .prefetch => decide (r.kind ≤ 1)
  | .atomic | .reduce => decide (r.kind ≤ 1) || (r.kind == 3 && hostAtomic ty op)
  | _ => r.kind != 2

/-- The range, lease and permission checks of one access, in order: a trap code, or the access with its
target. -/
def Env.checkAccess (e : Env) (f : MemForm) (a : LaneAccess) : Except Nat LaneAccess :=
  match (e.s.ctx e.k.ctx).findRange a.va f.size with
  | none => .error 0x10
  | some r =>
    if r.kind = 0 ∧ !e.t.leases.getLsbD r.idx then .error 0x11
    else if !r.takes f.kind f.o.mod.ty f.o.mod.atop || !r.permits f.kind then .error 0x12
    else .ok { a with ia := r.target a.va, range := r.idx, rkind := r.kind, peer := r.peer, tc := r.tc }

/-- The checks of every access; the lowest lane that fails. -/
def Env.checkAll (e : Env) (f : MemForm) : List LaneAccess → Except (Nat × LaneAccess) (List LaneAccess)
  | [] => .ok []
  | a :: l =>
    match e.checkAccess f a with
    | .error c => .error (c, a)
    | .ok b => match Env.checkAll e f l with
      | .error x => .error x
      | .ok r => .ok (b :: r)

/-- The accesses an instruction forms: one for each effective lane, or one for the warp. A load has no
data. -/
def Env.accesses (e : Env) (f : MemForm) : List LaneAccess :=
  let l := if f.scalar then
      [{ lane := 255, va := e.scalar f.o.a + e.scalar f.o.b + memOffset f.o f.kind.atomicOp, ia := 0
         data := e.scalar f.o.d, poison := e.w.poisonAt f.o.d 0
         cmp := if f.kind.atomicOp && f.o.mod.atop == .cas then e.laneC f.o.imm 0 else 0 : LaneAccess }]
    else e.lanes.map (e.access f.o f.kind.atomicOp fun _ => 0)
  if f.kind.takesData then l else l.map fun a => { a with data := 0, poison := false }

/-! ## Requests and slots (R190) -/

/-- The request an access belongs to: pass, kind of range, peer, sector. -/
def LaneAccess.group (a : LaneAccess) : Bool × Nat × Nat × Nat :=
  (decide (32 ≤ a.lane) && a.lane != 255, a.rkind, a.peer, a.ia / 128)

/-- The requests of accesses that are not performed. -/
def requestsOf (l : List LaneAccess) : List (Bool × Nat × Nat × Nat) :=
  ((l.filter fun a => !a.done).map LaneAccess.group).eraseDups

/-- Slots that operations hold. -/
def slotsHeld (l : List MemOp) : Nat := l.foldl (fun n o => n + (requestsOf o.lanes).length) 0

/-- Are n more slots free, in the core and for the warp? -/
def Env.slotsFree (e : Env) (n : Nat) : Bool :=
  decide (slotsHeld (e.s.ops.filter (·.core == e.w.core)) + n ≤ 2048) &&
    decide (slotsHeld (e.s.ops.filter (·.key == e.k)) + n ≤ 256)

/-! ## Issue -/

/-- Earlier RM operations of the warp are incomplete; an acquiring `ldr` of it is. -/
def Env.remoteOpen (e : Env) : Bool := !e.w.rmq.isEmpty
def Env.remoteHeld (e : Env) : Bool :=
  e.s.ops.any fun p => p.key == e.k && p.kind == .remoteLoad && p.ord.acquires

/-- Is the operation on the RM path? -/
def OpKind.remote (k : OpKind) : Bool := k.path == some .rm

/-- Operations that one warp performs in order within a 512-byte line (R236). -/
def MemOp.lineOrdered (o : MemOp) : Bool :=
  match o.kind with
  | .store => o.through
  | .atomic | .reduce | .remoteStore | .remoteReduce => true
  | _ => false

/-- An older access of the warp to these bytes is not performed, or an older write-through write,
read-modify-write or reduction to their line: an update performed at L2 at once waits for it (R203,
R236). -/
def Env.olderAccess (e : Env) (size : Nat) (lanes : List LaneAccess) : Bool :=
  e.s.ops.any fun p => p.key == e.k && p.kind != .prefetch && p.lanes.any fun b =>
    decide (b.rkind ≤ 1) && lanes.any fun a => (!b.performed && e.s.meetsAt a.ia size b.ia p.size) ||
      (!b.done && p.lineOrdered && e.s.sameLine a.ia b.ia)

/-- Before an atomic or a reduction leaves the core: the sector's dirty bytes are written back, whoever
owns them, and the sector is invalidated (R197). -/
def State.surrender (s : State) (core sec : Nat) : State :=
  match (s.core core).l1? sec with
  | none => s
  | some x =>
    let s1 := if x.isDirty then (s.sendWriteBack core x).2 else s
    s1.modCore core (·.l1Drop sec)

/-- Before an acquiring load: the sector's dirty bytes are written back (R198). -/
def State.cleanFor (s : State) (core sec : Nat) : State :=
  match (s.core core).l1? sec with
  | some x => if x.isDirty then (s.cleanSector core x).2 else s
  | none => s

/-- May another operation of this kind be counted (R76)? -/
def Env.pathRoom (e : Env) (k : OpKind) : Bool :=
  match k.path with | some p => e.w.roomOn p | none => true

/-- Queueing an operation: the path counter rises, and the access is counted. -/
def Env.queueOp (e : Env) (i : Instr) (f : MemForm) (s : State) (lanes : List LaneAccess) (through : Bool) : State :=
  let (id, s1) := s.takeId
  let (seq, after) := s1.region e
  let acq := f.o.mod.ord.acquires && (f.kind.remote || f.o.mod.scope != .wp)
  let op : MemOp :=
    { id := id, key := e.k, core := e.w.core, kind := f.kind, pc := e.w.pc, word := (encode i).getD 0
      cause := e.w.cause, serial := e.w.serial, lanes := lanes, size := f.size, pk := f.o.mod.pk, ty := f.o.mod.ty
      atop := f.o.mod.atop, cache := f.o.mod.cache, ord := f.o.mod.ord, scope := f.o.mod.scope
      sdst := if f.scalar && f.kind.hasResult then (match f.o.d with | .s n => some n.toNat | _ => none) else none
      uniform := e.uniformLoad f.o.d lanes, through := through, seq := seq, after := if f.kind.ordered then after else []
      nth := e.w.issued + 1 }
  let s2 := { s1 with ops := s1.ops ++ [op] }
  let s3 := match f.kind.path with | some p => s2.modWarp e.k fun w => w.countUp p id | none => s2
  if f.kind.ordered then s3.countAccess e.k id acq else if acq then s3.holdLater e.k id else s3

/-- The operation issues, once its release action is done. -/
def Env.sendOp (e : Env) (i : Instr) (f : MemForm) (lanes : List LaneAccess) : Act :=
  let wide := f.o.mod.scope.wide e.t.kernel.paired
  let through := !(f.o.mod.cache == .l1 || f.o.mod.cache == .ev) || (f.o.mod.ord.releases && wide) ||
    e.s.isRelayCore e.w.core
  let dst := if f.kind.hasResult && !f.scalar then e.prepLoad i e.s f.o.d (e.uniformLoad f.o.d lanes) else some e.s
  match dst with
  | none => .wait e.s
  | some s => .next (e.queueOp i f s lanes (f.kind == .store && through))

/-- Issuing a memory instruction: alignment, ranges, poison bound for the host, the L1 watch filter,
slots, the release action. -/
def Env.issueMem (e : Env) (i : Instr) (f : MemForm) : Act :=
  if !e.pathRoom f.kind || (if f.kind.remote then e.remoteHeld else e.heldByAcquire) then .wait e.s
  else
    let raw := e.accesses f
    match raw.find? fun a => a.va.toNat % f.align != 0 with
    | some a => e.trap 0x06 a.lane a.va
    | none =>
      match e.checkAll f raw with
      | .error (c, a) => e.trap c a.lane a.va
      | .ok lanes =>
        match lanes.find? fun a => a.poison && a.rkind == 3 with
        | some a => e.trap 0x19 a.lane
        | none =>
          let tagOp := f.kind == .tagStore || f.kind == .tagLoad
          match if tagOp then none else e.watchHit f.kind.watchKind f.size lanes with
          | some a => e.trap 0x16 a.lane a.va
          | none =>
            if !e.slotsFree (requestsOf lanes).length then .wait e.s
            else if f.o.mod.ord.releases then
              if f.kind.remote then
                if e.remoteOpen then .wait (e.s.waitScope e.k (atBit 1 5)) else e.sendOp i f lanes
              else e.afterRelease f.o.mod.scope fun e => e.sendOp i f lanes
            else e.sendOp i f lanes

/-- The form of a data access: its size is its alignment. -/
def memForm (kind : OpKind) (o : Ops MM) (scalar : Bool := false) : MemForm :=
  let n := accessSize o.mod.ty o.mod.pk
  { kind := kind, o := o, scalar := scalar, size := n, align := n }

def execLd (o : Ops MM) (s : State) : Host.Outcome State Fault Refusal :=
  runSeq (.ld o) s fun e => e.issueMem (.ld o) (memForm .load o)

def execSt (o : Ops MM) (s : State) : Host.Outcome State Fault Refusal :=
  runSeq (.st o) s fun e => e.issueMem (.st o) (memForm .store o)

def execAtom (o : Ops MM) (s : State) : Host.Outcome State Fault Refusal :=
  runSeq (.atom o) s fun e => e.issueMem (.atom o) (memForm .atomic o)

def execRed (o : Ops MM) (s : State) : Host.Outcome State Fault Refusal :=
  runSeq (.red o) s fun e => e.issueMem (.red o) (memForm .reduce o)

def execLdr (o : Ops MM) (s : State) : Host.Outcome State Fault Refusal :=
  runSeq (.ldr o) s fun e => e.issueMem (.ldr o) (memForm .remoteLoad o)

def execStr (o : Ops MM) (s : State) : Host.Outcome State Fault Refusal :=
  runSeq (.str o) s fun e => e.issueMem (.str o) (memForm .remoteStore o)

def execRedr (o : Ops MM) (s : State) : Host.Outcome State Fault Refusal :=
  runSeq (.redr o) s fun e => e.issueMem (.redr o) (memForm .remoteReduce o)

def execSld (o : Ops MM) (s : State) : Host.Outcome State Fault Refusal :=
  runSeq (.sld o) s fun e => e.issueMem (.sld o) (memForm .load o true)

def execSst (o : Ops MM) (s : State) : Host.Outcome State Fault Refusal :=
  runSeq (.sst o) s fun e => e.issueMem (.sst o) (memForm .store o true)

def execSatom (o : Ops MM) (s : State) : Host.Outcome State Fault Refusal :=
  runSeq (.satom o) s fun e => e.issueMem (.satom o) (memForm .atomic o true)

/-- `pref` (R205): lanes that fail a check are dropped, and the whole instruction when slots are short. -/
def execPref (o : Ops MM) (s : State) : Host.Outcome State Fault Refusal :=
  runSeq (.pref o) s fun e =>
    let f := memForm .prefetch o
    let sound (a : LaneAccess) : Bool :=
      (e.w.indexFault e.t.kernel.n [o.b] [a.lane]).isNone && !e.w.poisonAt o.b a.lane && !e.w.poisonAt o.a a.lane
    let lanes := ((e.accesses f).filter sound).filterMap fun a => (e.checkAccess f a).toOption
    if lanes.isEmpty || !e.slotsFree (requestsOf lanes).length then .next e.s
    else .next (e.queueOp (.pref o) f e.s lanes false)

/-! ## Tag instructions (R265, R266) -/

def execTagst (o : Ops MM) (s : State) : Host.Outcome State Fault Refusal :=
  runSeq (.tagst o) s fun e => e.issueMem (.tagst o) { memForm .tagStore o with align := 32 }

def execTagld (o : Ops MM) (s : State) : Host.Outcome State Fault Refusal :=
  runSeq (.tagld o) s fun e => e.issueMem (.tagld o) (memForm .tagLoad o)

/-- A pointer with a tag inserted. -/
def insertTag (a b : Word) : Word := (a &&& ~~~(0x0F00000000000000#64)) ||| atBit (b.toNat % 16) 56

def execTagset (o : Ops MM) (s : State) : Host.Outcome State Fault Refusal :=
  runSeq (.tagset o) s fun e =>
    e.put (.tagset o) o.d (e.result [e.w.srcShape o.a, e.w.srcShape o.b] none fun l => insertTag (e.lane o.a l) (e.lane o.b l))

/-! ## Fences (R199, R200) and L1 instructions (R201) -/

/-- The cause tag of a warp's requests: its hub and the entry of its slot (R361). -/
def causeEntry (core slot : Nat) : BitVec 20 := BitVec.ofNat 20 (hubOfCore core * 2 ^ 18 + core % 144 * 64 + slot)
def State.causeTag (s : State) (k : WKey) (core : Nat) : BitVec 20 := causeEntry core (((s.warp? k).map (·.slot)).getD 0)

/-- The entries of a cause map, and those of them that stand for the slots of warps (R361). -/
def causeEntries : Nat := 262144
def warpEntries : Nat := 9216

/-- The k-th index that a rising list of indexes leaves free, counting from `warpEntries`. -/
def freeIndex (taken : List Nat) (k : Nat) : Nat :=
  taken.foldl (fun n x => if x ≤ n then n + 1 else n) (warpEntries + k)

/-- An engine operation that issues takes an entry of its hub's cause map, which one is free (assumption 98), and its
records carry its own causal id; when the map is full it has none, and they carry its warp's (R361). -/
def State.takeCause (s : State) (hub op : Nat) (own warp : Word) : Word × State :=
  let taken := (s.causes.filter (·.hub == hub)).map (·.idx)
  let room := causeEntries - warpEntries - taken.length
  if room = 0 then (warp, s)
  else
    let (d, s1) := s.draw
    let e : CauseEntry := ⟨hub, freeIndex taken (d % room), op, own⟩
    let before (x : CauseEntry) : Bool := decide (x.hub < hub ∨ x.hub = hub ∧ x.idx < e.idx)
    (own, { s1 with causes := s1.causes.filter before ++ e :: s1.causes.filter fun x => !before x })

/-- Is an engine operation still to end, or a request of it under way: a command in a channel or of a saved team, a
relay data operation, a masked write on its way to L2? -/
def State.opOpen (s : State) (op : Nat) : Bool :=
  s.relayOps.any (·.id == op) || s.savedCopies.any (·.id == op) ||
    s.cores.any fun c => c.channels.any (·.any (·.id == op)) || c.wbs.any (·.copy == some op)

/-- The entries of operations that have ended are freed (R361). -/
def State.freeCauses (s : State) : State := { s with causes := s.causes.filter fun e => s.opOpen e.op }

/-- The cause tag of an engine's operation: its entry, or its warp's when the map was full (R361). -/
def State.opTag (s : State) (k : WKey) (id : Nat) : BitVec 20 :=
  match s.causes.find? (·.op == id) with
  | some e => BitVec.ofNat 20 (e.hub * 2 ^ 18 + e.idx)
  | none => s.causeTag k (((s.warp? k).map (·.core)).getD 0)

/-- The cause tag of a masked write on behalf of a team: that of its first warp on the core (assumption
98). -/
def State.ownerTag (s : State) (core : Nat) (k : TKey) : BitVec 20 :=
  causeEntry core ((((s.team? k).bind fun t => t.warps.find? (·.core == core)).map (·.slot)).getD 0)

/-- Waiting for LD and SP: the earlier reads are bound, so that the acquire that follows covers them. -/
def Env.acquireFence (e : Env) (sc : Scope) : Act :=
  if sc != .wp && !(e.w.ldq.isEmpty && e.w.spq.isEmpty) then
    .wait (e.s.waitScope e.k (atBit (b2n (!e.w.ldq.isEmpty)) 0 ||| atBit (b2n (!e.w.spq.isEmpty)) 2))
  else .next (e.s.acquire e.w.core e.t.kernel.paired sc)

def execFence (o : Ops MM) (s : State) : Host.Outcome State Fault Refusal :=
  runSeq (.fence o) s fun e =>
    match o.mod.ord with
    | .rel => e.afterRelease o.mod.scope fun e => .next e.s
    | .acq => e.acquireFence o.mod.scope
    | .ar => e.afterRelease o.mod.scope fun e => .next (e.s.acquire e.w.core e.t.kernel.paired o.mod.scope)
    | .rlx => .next e.s

/-- A masked write of a core reaches L2 and is acknowledged (R195, R386). -/
def State.landWrite (s : State) (core : Nat) (b : WriteBack) : State :=
  let s1 := s.modCore core fun c => { c with wbs := c.wbs.filter (·.id != b.id) }
  match s1.l2Write false b.sector b.data b.mask b.poison (some b.owner) (s.ownerTag core b.owner) with
  | (none, s2) => s2
  | (some _, s2) => s2.lostWrite (128 * b.sector) b.mask (some b.owner)

/-- The global writes of a team's copy commands that still wait in its cores reach L2 (R200 step 3). -/
def State.landCopies (s : State) (t : Team) : State :=
  t.cores.foldl (fun s c =>
    ((s.core c).wbs.filter fun b => b.owner == t.key && b.copy.isSome).foldl (fun s b => s.landWrite c b) s) s

/-- Writing back the team's dirty sectors and waiting for the acknowledgements (R200 step 2). -/
def Env.pushDirty (e : Env) (f : State → Act) : Act :=
  match e.w.release with
  | .done | .reading => f e.s
  | .waiting ids =>
    if (e.s.core e.w.core).wbs.any fun b => ids.contains b.id then .wait e.s else f e.s
  | .idle =>
    match e.s.pushTeam e.w.core e.k.team with
    | ([], s1) => f s1
    | (ids, s1) => .wait ((s1.setRelease e.k (.waiting ids)).waitScope e.k 0)

/-- Step 5 of `fencex`: the host-link read when it is asked for (R200); the warp goes on when it is
complete. -/
def Env.hostRead (e : Env) (need : Bool) (s : State) : Act :=
  if need then .wait (s.hostFence e.k) else .next (s.setRelease e.k .idle)

/-- A SRC of `fencex` includes a path. -/
def MF.has (m : MF) (p : Path) : Bool := m.src.getLsbD (Path.code p)

/-- Steps 3 and 4 of `fencex`: the writes of joined engine operations become visible to the path, and
the L1 is flash-invalidated for LD (R200). -/
def Env.fencexVisible (e : Env) (m : MF) (wide : Bool) (s : State) : State :=
  let s1 := s.modTeam e.k.team fun t => t.drain e.w (MF.has m) m.dst
  let s2 := if MF.has m .cp then s1.landCopies e.t else s1
  if m.dst == .ld && (MF.has m .cp || MF.has m .rm || wide) then s2.flashInvalidate e.w.core else s2

/-- `fencex` (R200): its five steps in order. -/
def execFencex (o : Ops MF) (s : State) : Host.Outcome State Fault Refusal :=
  runSeq (.fencex o) s fun e =>
    let m := o.mod
    let wide := m.scope != .wp && m.scope != .tm
    let open_ := [Path.ld, .st, .sp].filter fun p => MF.has m p && e.w.counter p != 0
    if e.w.release == .reading then .next (e.s.setRelease e.k .idle)
    else if !open_.isEmpty then
      .wait (e.s.waitScope e.k (open_.foldl (fun (x : Word) p => x ||| atBit 1 (Path.code p)) 0))
    else
      let last (s : State) : Act := e.hostRead (m.scope == .sy && MF.has m .st) (e.fencexVisible m wide s)
      if MF.has m .st && (m.dst == .cp || m.dst == .rm || wide || e.t.kernel.paired) then e.pushDirty last
      else last e.s

def execL1inv (o : Ops (BitVec 16)) (s : State) : Host.Outcome State Fault Refusal :=
  runSeq (.l1inv o) s fun e => .next (e.s.flashInvalidate e.w.core)

/-- `l1wb`: an ST operation that completes when the write-backs it starts are acknowledged, at once when
there are none. -/
def execL1wb (o : Ops (BitVec 16)) (s : State) : Host.Outcome State Fault Refusal :=
  runSeq (.l1wb o) s fun e =>
    if !e.w.roomOn .st then .wait e.s
    else
      let (ids, s1) := e.s.cleanAll e.w.core (ownedBy e.k.team)
      let (id, s2) := s1.takeId
      let op : MemOp :=
        { id := id, key := e.k, core := e.w.core, kind := .writeBackAll, pc := e.w.pc, word := (encode (.l1wb o)).getD 0
          cause := e.w.cause, serial := e.w.serial, lanes := [], size := 0, pk := 0, ty := .s8, atop := .add
          cache := .l1, ord := .rlx, scope := .wp, writeBacks := ids, seq := e.w.issuedAcc }
      .next ({ s2 with ops := s2.ops ++ [op] }.modWarp e.k fun w => w.countUp .st id)

end Sys2Proof.Machine
end

