-- ==== Sys2Proof/Machine/MemEvents.lean ====
section
/-!
DEFINITION. What happens to memory operations after issue: page walks and parking (R249, R254), the
performing of requests (R191, R193, R194, R196, R197, R207, R259, R260), store verdicts, completion
and the faults found then (R206), write-back acknowledgements (R195), and the base-die packets (R216 to
R219).
-/

namespace Sys2Proof.Machine

/-! ## Order within a warp (R203, R227, R236, R260) -/

/-- Is the operation a tag instruction's? -/
def OpKind.isTag (k : OpKind) : Bool := k == .tagStore || k == .tagLoad

/-- Two accesses lie in one space: local, the host's, or one peer's. -/
def sameSpace (a b : LaneAccess) : Bool :=
  if a.rkind ≤ 1 then decide (b.rkind ≤ 1) else a.rkind == b.rkind && a.peer == b.peer

/-- The access is one of a store in write-back form (R194). -/
def MemOp.backForm (o : MemOp) (a : LaneAccess) : Bool := o.kind == .store && !o.through && decide (a.rkind ≤ 1)

/-- Must access a of operation o wait for access b of the older operation p of its warp? A byte that an
older store has put into the L1 is what later accesses of the core find; a tag instruction waits for the
verdict. Local bytes are the same however they are addressed (R220). -/
def State.waitsFor (s : State) (o : MemOp) (a : LaneAccess) (p : MemOp) (b : LaneAccess) : Bool :=
  let past := if o.kind.isTag then b.done else b.performed
  if past || p.kind == .prefetch || o.kind == .prefetch || !sameSpace a b then false
  else if a.rkind == 3 then true
  else if o.kind.isTag || p.kind.isTag then
    (o.kind == .tagStore || p.kind == .tagStore) &&
      s.meetsAt (a.ia / 32 * 32) (32 * (granulesOf a.ia o.size).length) (b.ia / 32 * 32) (32 * (granulesOf b.ia p.size).length)
  else if a.rkind ≤ 1 then s.meetsAt a.ia o.size b.ia p.size || (o.lineOrdered && p.lineOrdered && s.sameLine a.ia b.ia)
  else meets a.ia o.size b.ia p.size || (o.lineOrdered && p.lineOrdered && a.ia / 512 == b.ia / 512)

/-- An access may be performed as far as the order within its warp goes: older accesses, and the regions
that `vend` closed. -/
def State.inOrder (s : State) (o : MemOp) (a : LaneAccess) : Bool :=
  !s.regionOpen o.key o.core o.after &&
    (s.ops.filter fun p => p.key == o.key && decide (p.id < o.id)).all fun p => !p.lanes.any fun b => s.waitsFor o a p b

/-! ## What a request still needs -/

/-- An acquiring load of a scope that acts on the caches is served from L2 (R198). -/
def State.fromL2 (s : State) (o : MemOp) : Bool :=
  o.ord.acquires && o.scope.wide (((s.team? o.key.team).map (·.kernel.paired)).getD false)

/-- Does the L1 serve the access (R193)? -/
def State.l1Serves (s : State) (o : MemOp) (a : LaneAccess) : Bool :=
  o.kind == .load && !s.fromL2 o &&
    match (s.core o.core).l1? (a.ia / 128) with
    | some x => byteMask (a.ia % 128) o.size &&& ~~~x.valid == 0
    | none => false

/-- Can the access be performed without a further walk or fill? -/
def State.present (s : State) (o : MemOp) (a : LaneAccess) : Bool :=
  if a.rkind > 1 || o.backForm a then true
  else if o.kind.isTag then o.walked.contains (pageOf a.ia)
  else s.l1Serves o a || (s.l2? false (a.ia / 128)).isSome ||
    (o.cache == .nt && (o.kind == .load || o.kind == .store) && o.walked.contains (pageOf a.ia))

/-- A fill of the sector is on its way. -/
def State.filling (s : State) (sec : Nat) : Bool :=
  s.streams.any fun q => q.requests.any (fun p => p.fill == some (false, sec)) ||
    q.replies.any (fun p => p.fill == some (false, sec))

/-- The first access of an operation that needs a page walk. A write-back-form store's walk is that of
its tag probe. -/
def State.needsWalk (s : State) (o : MemOp) : Option LaneAccess :=
  if o.kind == .store && !o.through then none
  else o.lanes.find? fun a => !a.done && !s.present o a && !s.filling (a.ia / 128) && !o.parked.contains (pageOf a.ia)

/-- A write-back of the sector from this core is under way: what goes to L2 waits for it. -/
def State.backlog (s : State) (o : MemOp) (a : LaneAccess) : Bool :=
  decide (a.rkind ≤ 1) && !o.backForm a && !s.l1Serves o a && !o.kind.isTag && s.wbPending o.core (a.ia / 128)

/-- What the core's L1 holds of the location leaves it before the access is performed: any of it for an atomic
or reduction (R197), dirty bytes for an acquiring load (R198), and whatever it holds under another address (R220). -/
def State.outgoing (s : State) (o : MemOp) (a : LaneAccess) : List L1Sector :=
  if o.kind.isTag || decide (1 < a.rkind) then []
  else (s.core o.core).l1.filter fun x =>
    if x.sector == a.ia / 128 then
      match o.kind with
      | .atomic | .reduce => true
      | .load => s.fromL2 o && x.isDirty
      | _ => false
    else s.sameSector x.sector (a.ia / 128)

/-- Those sectors leave the L1; of an acquiring load's own sector the dirty bytes only. -/
def State.pushSectors (s : State) (o : MemOp) (a : LaneAccess) : State :=
  (s.outgoing o a).foldl (fun s x =>
    if o.kind == .load && x.sector == a.ia / 128 then s.cleanFor o.core x.sector else s.surrender o.core x.sector) s

/-! ## Faults of an operation -/

/-- A fault of an operation, with the fields captured at issue (R206). -/
def MemOp.fault (o : MemOp) (s : State) (a : LaneAccess) (code : Nat) : FaultInfo :=
  let w := s.warp? o.key
  { code := code, pc := o.pc, cause := o.cause, addr := a.va, serial := o.serial, warp := o.key.w, lane := a.lane
    wobj := ((w.bind (·.wait)).map (·.obj)).getD 0, wkind := ((w.bind (·.wait)).map (·.kind)).getD 0, deferred := true
    skid := (w.map (·.issued)).getD 0 - o.nth }

/-- A late fault is on its way (R321). -/
def State.lateFault (s : State) (k : TKey) (f : FaultInfo) (flushed : Bool) (ia : Option Nat := none) : State :=
  let (id, s1) := s.takeId
  { s1 with lateFaults := s1.lateFaults ++ [⟨id, k, { f with late := true, deferred := false, precise := false }, flushed, ia⟩] }

/-- The issuing warp is gone, or its team is not resident: a fault found now is a late one. A warp that has exited
holds its slot while an operation of its LD or RM path is open (R57), and takes the operation's fault. -/
def State.gone (s : State) (o : MemOp) : Bool :=
  o.dropped || (match s.team? o.key.team, s.warp? o.key with
    | some t, some w => !t.resident || (!w.live && o.kind.path != some .ld && o.kind.path != some .rm)
    | _, _ => true)

/-- Poison consumed by an operation whose warp is gone, and of which no record is written, loses its context
(R334). -/
def State.orphanPoison (s : State) (o : MemOp) (f : FaultInfo) (ia : Nat) : State :=
  match s.team? o.key.team with
  | some t => s.loseContext t f (some ia)
  | none => s

/-- Reporting the fault of an operation that has ended: TAG_STORE, PERMISSION and the faults of `str` and
`redr` are late, the others deferred (R206, R207); of a warp that is gone a load's fault is dropped with
its data, a store's is late. Every poisoned sector that its lanes have consumed is retired (R346). -/
def State.reportOp (s : State) (o : MemOp) (a : LaneAccess) : State :=
  let f := o.fault s a a.code
  let ia := if a.code = 0x19 then some a.ia else none
  let s1 :=
    if a.code = 0x14 ∨ a.code = 0x12 ∨ o.kind = .remoteStore ∨ o.kind = .remoteReduce then
      s.lateFault o.key.team f o.flushed ia
    else if s.gone o then
      if o.kind.path == some .st then s.lateFault o.key.team f o.flushed ia
      else if a.code = 0x19 then s.orphanPoison o f a.ia
      else s
    else s.deferFault o.key f ia
  s1.retireConsumed ((o.lanes.filter fun b => b.code == 0x19 && b.lane != a.lane).map (·.ia))

/-! ## Parked warps (R254) -/

/-- An operation keeps its warp parked: a request of it is parked, or was re-issued from a pending record and
its page is not known to be there (R254, R330). -/
def State.keepsParked (s : State) (o : MemOp) : Bool :=
  !o.dropped && (!o.parked.isEmpty || (o.restored && (s.needsWalk o).isSome))

/-- A parked warp that nothing keeps parked any more goes on (R254): its entry is rewritten to the wait that it was
in, which ends when that wait does, or is given up (R384). -/
def State.unparkWarp (s : State) (k : WKey) : State :=
  if s.ops.any fun o => o.key == k && s.keepsParked o then s.refreshParked k
  else match s.warp? k with
  | none => s
  | some w =>
    if !w.parked then s
    else
    let s1 := s.modWarp k fun w => { w with parked := false }
    match w.wait, w.stopped, s.team? k.team with
    | none, _, _ => s1
    | some _, some e, some t => (s1.modWarp k fun w => { w with stopped := none }).beginWait k (s1.awaitNow t w e)
    | some _, _, _ => s1.dropWait k

/-- What a re-issued operation kept parked goes on once it need not stay so. -/
def State.unparkRestored (s : State) (o : MemOp) : State := if o.restored && !o.dropped then s.unparkWarp o.key else s

/-! ## Completion (R191) -/

/-- The operation ends: its slots free and its counter falls. -/
def State.dropOp (s : State) (o : MemOp) : State :=
  let s1 := { s with ops := s.ops.filter (·.id != o.id) }
  if o.dropped then s1
  else match o.kind.path with
    | some p => s1.modWarp o.key fun w => w.countDown p o.id
    | none => s1

/-- An acquire read of words by a warp: the commands whose completion word it read are joined, and at a scope wider
than the team the copies' global writes are at L2 (R240). -/
def State.joinAt (s : State) (k : WKey) (sc : Scope) (at_ : List WordPlace) : State :=
  match s.team? k.team with
  | none => s
  | some t =>
    let s1 := s.modTeam k.team fun t => t.joinWords k.w (sc == .wp) at_
    if sc == .wp || sc == .tm then s1 else s1.landCopies t

/-- The acquire action at the end of an acquiring access (R198, R207): later accesses go on; the commands
whose completion word it read are joined. -/
def State.finishAcquire (s : State) (o : MemOp) : State :=
  match s.team? o.key.team with
  | none => s
  | some t =>
    if !o.ord.acquires then s
    else
      let s1 := s.joinAt o.key o.scope (o.lanes.map LaneAccess.wordPlace)
      if o.kind == .remoteLoad then
        (s1.flashInvalidate o.core).modWarp o.key fun w => { w with acquiring := w.acquiring.filter (· != o.id) }
      else s1.endAcquire o.key o.id o.core t.kernel.paired o.scope

/-- The results of a load or atomic are written; none while a row cannot be had. -/
def State.writeResults (s : State) (o : MemOp) : Option State :=
  if o.dropped || !o.kind.hasResult then some s
  else match o.sdst, s.team? o.key.team with
    | some n, _ =>
      some (s.modWarp o.key fun w => o.lanes.foldl (fun w a =>
        let w1 := w.setS (.s (BitVec.ofNat 6 n)) a.data
        if a.poison then { w1 with sPoison := w1.sPoison ||| (1#64 <<< n) } else w1) w)
    | none, some t =>
      s.writeLanes o.key t o.uniform (o.lanes.map fun a => { lane := a.lane, reg := a.reg, value := a.data, poison := a.poison })
    | none, none => some s

/-- An operation whose accesses are all performed ends: results, then the fault of its lowest faulting
lane; a load that faults writes nothing (R206). None while its result waits for a row. -/
def State.finishOp (s : State) (id : Nat) : Option State :=
  match s.ops.find? (·.id == id) with
  | none => some s
  | some o =>
    if o.lanes.any (fun a => !a.done) || o.writeBacks.any (fun b => s.cores.any fun c => c.wbs.any (·.id == b)) then some s
    else
      let bad := o.lanes.find? (·.code != 0)
      let stops := match bad with | some a => o.kind.hasResult && a.code != 0x12 | none => false
      let got := if stops then some (if o.dropped then s else s.cancelLoad o.key o.lanes) else s.writeResults o
      got.map fun s =>
        let s1 := (s.dropOp o).finishAcquire o
        ((match bad with | some a => s1.reportOp o a | none => s1).settle o.key).unparkRestored o

/-- Finishing after a change; the change is kept even when the results must wait. -/
def State.tryFinish (s : State) (id : Nat) : State := (s.finishOp id).getD s

/-! ## Parking (R254) -/

/-- The warp of a request that has parked stops issuing, and its entry names the page; an entry that it has is
rewritten without a record (R363, R384). -/
def State.parkWarp (s : State) (k : WKey) : State :=
  match s.warp? k with
  | none => s
  | some w =>
    if w.parked then s.refreshParked k
    else
      let s1 := s.modWarp k fun w => { w with parked := true, stopped := if w.wait.isSome then w.wait else w.stopped }
      if w.halted || w.act == .exited then s1 else s1.resumeWait k

/-- ACC of an operation: read, write, atomic (Table 12-6); a copy command's read, write or add counts as one
too, beside the copy engine's bit (DEDUCED, assumption 27). -/
def OpKind.acc : OpKind → BitVec 4
  | .load | .tagLoad => 1
  | .store | .tagStore => 2
  | _ => 4

/-- A core's filter has a page to report, with the access that met it first and the union of the accesses
it merges (R255, R256). -/
def State.filterPage (s : State) (core : Nat) (r : PageReport) : State :=
  s.modCore core fun c =>
    { c with filter := if c.filter.any (·.page == r.page) then
        updIf (·.page == r.page) (fun x => { x with acc := x.acc ||| r.acc }) c.filter else c.filter ++ [r] }

/-- A walk ended in MISSING in a demand range: the request parks, its warp stops issuing, and the core's
filter has a page to report. -/
def State.park (s : State) (o : MemOp) (a : LaneAccess) : State :=
  let page := pageOf a.ia
  let s1 := (s.modOp o.id fun o => { o with parked := o.parked ++ [page] }).filterPage o.core
    { page := ⟨o.key.ctx, page⟩, cause := o.cause, serial := o.serial, va := a.va, range := a.range
      acc := o.kind.acc }
  if o.dropped then s1 else s1.parkWarp o.key

/-- A request of an operation that is not parked is outstanding (R254, R315, R326). -/
def MemOp.busy (o : MemOp) : Bool :=
  o.parked.isEmpty || o.lanes.any fun a => !a.done && !(decide (a.rkind ≤ 1) && o.parked.contains (pageOf a.ia))

/-- Marking the accesses of a page as ended with a fault code. -/
def MemOp.failPage (o : MemOp) (page code : Nat) : MemOp :=
  { o with lanes := o.lanes.map fun a =>
      if !a.done && decide (a.rkind ≤ 1) && pageOf a.ia == page then { a with done := true, code := code } else a }

/-- Reading a sector from its base die to fill L2 (R216). -/
def State.sendFill (s : State) (o : MemOp) (sec pa : Nat) : State :=
  s.send { kind := .rd, tag := none, gmask := 0xF#4, pa := pa / 128, cause := s.causeTag o.key o.core
           fill := some (false, sec) }

/-- The re-issued access of a signal instruction has done its part: the instruction is executed again (R294). -/
def State.endAgain (s : State) (o : MemOp) : State := { s with ops := s.ops.filter (·.id != o.id) }.unparkWarp o.key

/-- The end of a walk for an access: the page is known; or it parks, or fails (R249). -/
def State.walked (s : State) (o : MemOp) (a : LaneAccess) (w : Walk) (fill : Bool) : State :=
  let page := pageOf a.ia
  let fatal (code : Nat) : State := if o.again then s.endAgain o else (s.modOp o.id fun o => o.failPage page code).tryFinish o.id
  match w with
  | .leaf pa level =>
    let s1 := (s.tlbAdd a.ia pa level).modOp o.id fun o =>
      { o with walked := if o.walked.contains page then o.walked else o.walked ++ [page] }
    if o.again then s1.endAgain o
    else (if fill then s1.sendFill o (a.ia / 128) pa else s1).unparkRestored o
  | .missing =>
    if o.kind == .prefetch then fatal 0
    else if a.rkind = 1 then s.park o a
    else fatal 0x18
  | .malformed => fatal (if o.kind == .prefetch then 0 else 0x18)
  | .poisoned _ => fatal (if o.kind == .prefetch then 0 else 0x19)

/-- Can a fault that the operation may meet now be recorded (R318)? -/
def State.roomFor (s : State) (o : MemOp) : Bool := s.fqRoom o.key.ctx

/-- PAGE_WALK (R249): the walk of the first request of an operation that needs one. -/
def execPageWalk (id : Nat) (s : State) : Host.Outcome State Fault Refusal :=
  match s.ops.find? (·.id == id) with
  | none => .refused (.eventNotPending "PAGE_WALK")
  | some o =>
    match s.needsWalk o with
    | none => .refused (.eventNotPending "PAGE_WALK")
    | some a =>
      if !s.roomFor o then .refused (.eventNotPending "PAGE_WALK")
      else
        let (w, s1) := s.translate a.ia
        let pageOnly := o.kind.isTag || (o.cache == .nt && (o.kind == .load || o.kind == .store))
        .next (s1.walked o a w (!pageOnly))

/-! ## Performing requests -/

/-- The tags of a sector's granules, when its page translates and none is poisoned. -/
def State.sectorTags (s : State) (sec : Nat) : Option (List (BitVec 4)) × State :=
  match s.translate (128 * sec) with
  | (.leaf pa _, s1) =>
    let gs := granulesOf (pa / 128 * 128) 128
    (if gs.any s1.tagPoisoned then none else some (gs.map s1.tagOf), s1)
  | (_, s1) => (none, s1)

/-- The tag check of an access at L2 (R259). Where the page no longer translates, the answer is free (assumption
5). -/
def State.tagCheck (s : State) (a : LaneAccess) (size : Nat) : TagCheck × State :=
  if !a.tc then (.same, s)
  else match s.translate a.ia with
    | (.leaf pa _, s1) => (s1.checkTags pa size (vaTag a.va), s1)
    | (_, s1) => let (n, s2) := s1.draw; (if n % 2 = 0 then .same else .differs, s2)

/-- The tag check of an L1 hit: against the L1's tag copies when it has them. -/
def State.tagCheckL1 (s : State) (x : L1Sector) (a : LaneAccess) (size : Nat) : TagCheck × State :=
  match a.tc, x.tags with
  | true, some ts =>
    (if (granulesOf (a.ia % 128) size).all fun g => ts.getD g 0 == vaTag a.va then .same else .differs, s)
  | _, _ => s.tagCheck a size

/-- Replacing an access of an operation by lane. -/
def State.setLane (s : State) (id : Nat) (a : LaneAccess) : State :=
  s.modOp id fun o => { o with lanes := updIf (·.lane == a.lane) (fun _ => a) o.lanes }

/-- The party of a warp's access. -/
def MemOp.party (o : MemOp) (s : State) : Party :=
  { team := some o.key.team, isEngine := false, code := 4, serial := o.serial, cause := o.cause
    parent := s.opParent o.key o.cause, issued := some o.id }

/-- An access performed on local memory, as the L2 watch filter sees it. -/
def State.watchOp (s : State) (o : MemOp) (a : LaneAccess) : State :=
  if o.kind.isTag || o.kind == .prefetch then s
  else (s.watchL2 (o.party s) o.kind.watchKind a.ia o.size (some (a.lane % 255))).2

/-- The value bytes give to a destination lane (R128). -/
def MemOp.value (o : MemOp) (bs : List Byte) : Word := fillBits o.ty o.pk (leNat bs)

/-- A load of one lane from a sector's bytes, and what the tag check says. -/
def State.loadLane (s : State) (o : MemOp) (data : List Byte) (poison : Bool) (tags : TagCheck) (a : LaneAccess) : State :=
  s.setLane o.id { a with data := o.value ((data.drop (a.ia % 128)).take o.size), poison := poison, done := true
                          code := tags.code 0x13 }

/-- The bytes and poison of a sector at L2, or in memory for an access that does not allocate. -/
def State.sectorNow (s : State) (sec : Nat) : (List Byte × Bool) × State :=
  match s.l2? false sec with
  | some x => ((x.data, x.poison), s.l2Touch x)
  | none =>
    match s.translate (128 * sec) with
    | (.leaf pa _, s1) => (s1.physLive false (pa / 128), s1)
    | (_, s1) => ((List.replicate 128 0, false), s1)

/-- The request of a load: from L1, or from L2 with the allocation of Table 10-4. With `.ev` the line goes to the
least recently used place when the load hits too (DESIGN CHOICE, assumption 123). A sector that the L1 holds in part
is filled, whatever the hint: its bytes in D stay, every other byte is L2's, in the L1 and in what the load returns,
so that no load sees half of another core's write (R193, R225). -/
def State.performLoad (s : State) (o : MemOp) (lanes : List LaneAccess) (sec : Nat) : State :=
  let hit := lanes.all (s.l1Serves o)
  match hit, (s.core o.core).l1? sec with
  | true, some x =>
    let s1 := s.modCore o.core fun c => c.l1Put x (o.cache == .ev)
    lanes.foldl (fun s a => let (ok, s) := s.tagCheckL1 x a o.size; s.loadLane o x.data x.poison ok a) s1
  | _, _ =>
    let ((data, bad), s1) := s.sectorNow sec
    let held := if s.fromL2 o then none else (s.core o.core).l1? sec
    let keep := (o.cache == .l1 || o.cache == .ev || held.isSome) && !s.fromL2 o
    let s2 := if keep then
        let (tags, s2) := s1.sectorTags sec
        s2.l1Fill o.core sec data bad (o.cache == .ev) tags
      else s1
    -- the written bytes that the L1 holds are served from it, poison with them (R193, R206)
    let seen := match held with | some x => mergeBytes data x.data x.dirty | none => data
    let marked (a : LaneAccess) : Bool := match held with
      | some x =>
        let m := byteMask (a.ia % 128) o.size
        (x.poison && m &&& x.dirty != 0) || (bad && m &&& ~~~x.dirty != 0)
      | none => bad
    lanes.foldl (fun s a => let (ok, s) := s.tagCheck a o.size; s.loadLane o seen (marked a) ok a) s2

/-- Bytes and mask of several lanes' data in one sector, the highest lane last (R203). -/
def laneBytes (size : Nat) (lanes : List LaneAccess) : List Byte × BitVec 128 :=
  lanes.foldl (fun acc a =>
    (putBytes acc.1 (a.ia % 128) (natBytes a.data.toNat size), acc.2 ||| byteMask (a.ia % 128) size))
    (List.replicate 128 0, 0)

/-- A masked write of a sector performed at L2, or in memory when it does not allocate. Data that was
read before it enters L2 no more (R235). -/
def State.writeSector (s0 : State) (sec : Nat) (data : List Byte) (mask : BitVec 128) (poison : Bool) (owner : TKey)
    (cause : BitVec 20) : State :=
  let s := s0.noteCode sec
  match s.l2? false sec with
  | some x => s.l2Store x data mask poison (some owner) cause
  | none =>
    match s.translate (128 * sec) with
    | (.leaf pa _, s1) =>
      match s1.l2Of false (pa / 128) with
      | some y => s1.l2Store y data mask poison (some owner) cause
      | none => (s1.cancelFills (pa / 128)).send (writePacket (pa / 128) cause data mask poison)
    | (_, s1) => s1.lostWrite (128 * sec) mask (some owner)

/-- Plain stores of lanes to completion words (R240). -/
def State.breakWords (s : State) (o : MemOp) (lanes : List LaneAccess) : State :=
  s.modTeam o.key.team fun t => lanes.foldl (fun t a => t.breakWords a.wordPlace o.size) t

/-- The request of a write-through store (R194): performed in every lane, whatever the tag check says. -/
def State.performStore (s : State) (o : MemOp) (lanes : List LaneAccess) (sec : Nat) : State :=
  let (data, mask) := laneBytes o.size lanes
  let poison := lanes.any (·.poison)
  let s1 := ((s.writeSector sec data mask poison o.key.team (s.causeTag o.key o.core)).l1Update o.core sec data mask
    poison).breakWords o lanes
  lanes.foldl (fun s a =>
    let (tags, s) := s.tagCheck a o.size
    s.setLane o.id { a with done := true, code := tags.code 0x14 }) s1

/-- The request of a store in write-back form (R194): its bytes enter the L1; the verdict comes later. -/
def State.performBack (s : State) (o : MemOp) (lanes : List LaneAccess) (sec : Nat) : State :=
  let (data, mask) := laneBytes o.size lanes
  let s1 := (s.l1Store o.core o.key.team sec data mask (lanes.any (·.poison)) (o.cache == .ev)).breakWords o lanes
  lanes.foldl (fun s a => s.setLane o.id { a with stored := true }) s1

/-- The bytes an atomic writes, seen by the core's own L1: bytes stored there since stay. -/
def State.l1Atomic (s : State) (core sec : Nat) (data : List Byte) (mask : BitVec 128) : State :=
  match (s.core core).l1? sec with
  | some x => s.l1Update core sec data (mask &&& ~~~x.dirty) false
  | none => s

/-- The new bytes of a sector after the lanes' atomics, word by word (R197). -/
def atomicBytes (o : MemOp) (old : List Byte) (lanes : List LaneAccess) : List Byte :=
  (lanes.map (·.ia % 128)).eraseDups.foldl (fun bs off =>
    let word := leNat ((bs.drop off).take o.size)
    putBytes bs off (natBytes (atomFold o.ty o.atop word (lanes.filter (·.ia % 128 == off))) o.size)) old

/-- The request of an atomic or reduction at its home slice (R197): a poisoned target is consumed; with
a tag mismatch a reduction is performed, and an atomic's update is free (assumption 22). -/
def State.performAtomic (s : State) (o : MemOp) (lanes : List LaneAccess) (sec : Nat) : State :=
  let ((old, bad), s1) := s.sectorNow sec
  if bad then lanes.foldl (fun s a => s.setLane o.id { a with done := true, code := 0x19 }) s1
  else
    let checked := lanes.foldl (fun acc a =>
      let r := State.tagCheck acc.2 a o.size
      (acc.1 ++ [({ a with code := r.1.code (if o.kind == .reduce then 0x14 else 0x13) } : LaneAccess)], r.2)) ([], s1)
    let wrong := o.kind == .atomic && checked.1.any (·.code != 0)
    let (n, s2) := if wrong then checked.2.draw else (0, checked.2)
    let acting := if wrong && n % 2 == 1 then checked.1.filter (·.code == 0) else checked.1
    let new := atomicBytes o old acting
    let mask := acting.foldl (fun m a => m ||| byteMask (a.ia % 128) o.size) 0
    let s3 := (s2.writeSector sec new mask false o.key.team (s.causeTag o.key o.core)).l1Atomic o.core sec new mask
    checked.1.foldl (fun s a =>
      s.setLane o.id { a with done := true, data := o.value ((old.drop (a.ia % 128)).take o.size), poison := false }) s3

/-- Every core's L1 drops its tag copies of a sector, dirty bytes written back first (R260): the
write-backs started. -/
def State.dropTagCopies (s : State) (sec : Nat) : List Nat × State :=
  s.cores.foldl (fun acc c =>
    let here (x : L1Sector) : Bool := s.sameSector x.sector sec
    let (ids, s1) := acc.2.cleanAll c.num here
    (acc.1 ++ ids, s1.modCore c.num fun c => { c with l1 := updIf here (fun y => { y with tags := none }) c.l1 })) ([], s)

/-- The request of a tag instruction (R265): performed at L2. -/
def State.performTag (s : State) (o : MemOp) (lanes : List LaneAccess) (sec : Nat) : State :=
  match s.translate (128 * sec) with
  | (.leaf pa _, s1) =>
    let g (a : LaneAccess) : Nat := pa / 32 + a.ia % 128 / 32
    if o.kind == .tagStore then
      let s2 := lanes.foldl (fun s a => s.setTag (g a) (a.data.setWidth 4)) s1
      let (ids, s3) := s2.dropTagCopies sec
      (s3.modOp o.id fun o => { o with writeBacks := o.writeBacks ++ ids }).modOp o.id fun o =>
        { o with lanes := o.lanes.map fun a => if lanes.any (·.lane == a.lane) then { a with done := true } else a }
    else lanes.foldl (fun s a => s.setLane o.id { a with done := true, data := (s.tagOf (g a)).setWidth 64 }) s1
  | (w, s1) => s1.walked { o with walked := [] } (lanes.headD { lane := 0, va := 0, ia := 128 * sec }) w false

/-- The lanes whose write to their location takes place: the highest of each (R223). -/
def lastWriters : List LaneAccess → List LaneAccess
  | [] => []
  | a :: l => if l.any fun b => b.ia == a.ia then lastWriters l else a :: lastWriters l

/-- The AtomicOp that lanes on one word give, one read-modify-write (R197, R223): a FetchAdd of their sum, a Swap of
the last value, a CAS. The CAS of several lanes compares with the word as it was found, `old`, and stores what the
lanes' operations in order make of it (DESIGN CHOICE, assumption 125). -/
def hostAtomics (o : MemOp) (old : Nat → Nat) (lanes : List LaneAccess) : List Output :=
  (lanes.map (·.ia)).eraseDups.flatMap fun ia =>
    let here := lanes.filter (·.ia == ia)
    match o.atop, here with
    | .add, _ => [.pcieAtomic ia .add (here.foldl (fun x a => x + a.data) 0) 0 o.size]
    | .cas, [a] => [.pcieAtomic ia .cas a.data a.cmp o.size]
    | .cas, _ => [.pcieAtomic ia .cas (BitVec.ofNat 64 (atomFold o.ty .cas (old ia) here)) (BitVec.ofNat 64 (old ia)) o.size]
    | op, _ => (lastWriters here).map fun a => .pcieAtomic ia op a.data 0 o.size

/-- A host request (R193, R197): a load reads what the link returns; an AtomicOp returns a free old value,
or Unsupported Request, which is a late PERMISSION. -/
def State.performHost (s : State) (o : MemOp) (lanes : List LaneAccess) : State :=
  let (n, s1) := s.draw
  let word (ia : Nat) : List Byte := (List.range o.size).map fun k => Config.hostByte (ia + k) n
  let sent : List Output := match o.kind with
    | .load => []
    | .store => (lastWriters lanes).map fun a => .pcieWrite a.ia (natBytes a.data.toNat o.size)
    | _ => hostAtomics o (fun ia => leNat (word ia)) lanes
  let s2 := sent.foldl State.output s1
  lanes.foldl (fun s a =>
    s.setLane o.id { a with done := true, data := o.value (word a.ia), poison := false
                            code := if o.kind != .load && o.kind != .store && n % 2 == 1 then 0x12 else 0 }) s2

/-- The device id as a number. -/
def ownDevice : Nat := Config.devId.toNat

/-- A remote access of one lane (R207): it is sent to the peer, which answers data or a fault. `n`: the
answer of its request. -/
def State.remoteLane (s1 : State) (o : MemOp) (n : Nat) (a : LaneAccess) : State :=
  let bytes := natBytes a.data.toNat o.size
  let kind : RemoteKind := match o.kind with
    | .remoteStore => .write bytes
    | .remoteReduce => .reduce o.atop o.ty bytes
    | _ => .read
  let r : RemoteAccess :=
    { dev := ownDevice, cause := o.cause, ia := a.ia, len := o.size, tag := vaTag a.va, tc := a.tc, kind := kind }
  let load := o.kind == .remoteLoad
  let answer := Config.peerFault a.peer a.ia n % 4
  let bs := (List.range o.size).map fun k => Config.peerByte a.peer (a.ia + k) n
  (s1.output (.remote a.peer r)).setLane o.id
    { a with done := true
             data := if load then o.value bs else a.data
             poison := load && answer == 3
             code := if answer = 1 then (if load then 0x13 else 0x14) else if answer = 2 then 0x18 else 0 }

/-- A remote request (R207): its lanes in increasing order; of stores to one location only the highest
lane's takes place (R223). -/
def State.performRemote (s : State) (o : MemOp) (lanes : List LaneAccess) : State :=
  let (n, s1) := s.draw
  if o.kind == .remoteStore then
    let sent := lastWriters lanes
    let s2 := sent.foldl (fun s a => s.remoteLane o n a) s1
    (lanes.filter fun a => !sent.any (·.lane == a.lane)).foldl (fun s a => s.setLane o.id { a with done := true }) s2
  else lanes.foldl (fun s a => s.remoteLane o n a) s1

/-- A prefetch performed: the L1 is filled when CACHE names it. -/
def State.performPref (s : State) (o : MemOp) (lanes : List LaneAccess) (sec : Nat) : State :=
  let s1 := if o.cache == .l1 && ((s.core o.core).l1? sec).isNone then
      let ((data, bad), s1) := s.sectorNow sec
      let (tags, s2) := s1.sectorTags sec
      s2.l1Fill o.core sec data bad false tags
    else s
  lanes.foldl (fun s a => s.setLane o.id { a with done := true }) s1

/-- Performing one request. -/
def State.perform (s : State) (o : MemOp) (lanes : List LaneAccess) : State :=
  match lanes with
  | [] => s
  | a :: _ =>
    let sec := a.ia / 128
    let watched (s : State) : State := lanes.foldl (fun s a => s.watchOp o a) s
    let plain (s : State) : State := if o.kind == .store || o.kind == .remoteStore then s.breakWords o lanes else s
    if a.rkind = 3 then plain (s.performHost o lanes)
    else if a.rkind = 2 then plain (s.performRemote o lanes)
    else if !(s.outgoing o a).isEmpty then s.pushSectors o a
    else match o.kind with
      | .load => watched (s.performLoad o lanes sec)
      | .store => if o.through then watched (s.performStore o lanes sec) else s.performBack o lanes sec
      | .atomic | .reduce => watched (s.performAtomic o lanes sec)
      | .tagStore | .tagLoad => s.performTag o lanes sec
      | _ => s.performPref o lanes sec

/-- The accesses of an operation that are not performed. -/
def MemOp.performable (o : MemOp) : List LaneAccess := o.lanes.filter fun a => !a.performed

/-- What is performed at once: the accesses of an instruction to one sector, of both its passes and however the
sector is addressed (R220, R223). -/
def State.place (s : State) (o : MemOp) (a : LaneAccess) : Nat × Nat × Nat :=
  if 1 < a.rkind then (a.rkind, a.peer, a.ia / 128)
  else
    let same (b : LaneAccess) : Bool := decide (b.rkind ≤ 1) && s.sameSector (b.ia / 128) (a.ia / 128)
    (0, 0, ((o.lanes.find? same).map (·.ia / 128)).getD 0)

/-- The requests of an operation that may be performed now. -/
def State.readyRequests (s : State) (o : MemOp) : List (List LaneAccess) :=
  let placed := o.performable.map fun a => (s.place o a, a)
  ((placed.map (·.1)).eraseDups.map fun g => (placed.filter (·.1 == g)).map (·.2)).filter fun l =>
    l.all fun a => s.present o a && s.inOrder o a && !s.backlog o a && !o.parked.contains (pageOf a.ia)

/-- REQUEST_COMPLETE (R191): one request of the operation is performed; the last one completes it. -/
def execRequestComplete (id : Nat) (s : State) : Host.Outcome State Fault Refusal :=
  match s.ops.find? (·.id == id) with
  | none => .refused (.eventNotPending "REQUEST_COMPLETE")
  | some o =>
    if !s.roomFor o then .refused (.eventNotPending "REQUEST_COMPLETE")
    else match s.readyRequests o with
      | [] =>
        -- nothing is left to perform: a result that waited for a row, an `l1wb` that wrote nothing back
        if o.lanes.any fun a => !a.done then .refused (.eventNotPending "REQUEST_COMPLETE")
        else match s.finishOp id with
          | some s1 => if s1.ops.any (·.id == id) then .refused (.eventNotPending "REQUEST_COMPLETE") else .next s1
          | none => .refused (.eventNotPending "REQUEST_COMPLETE")
      | [l] => .next ((s.perform o l).tryFinish id)
      | ls =>
        let (n, s1) := s.draw
        .next ((s1.perform o (ls.getD (n % ls.length) [])).tryFinish id)

/-! ## Store verdicts (R194, R254, R259) -/

/-- The local accesses of a write-back-form store that have no verdict yet. -/
def MemOp.probed (o : MemOp) : List LaneAccess :=
  if o.kind == .store && !o.through then o.lanes.filter fun a => !a.done && decide (a.rkind ≤ 1) else []

/-- The L1's tag copies of a sector, brought by a verdict (R192). -/
def State.copyTags (s : State) (core sec : Nat) : State :=
  let (tags, s1) := s.sectorTags sec
  s1.modCore core fun c => { c with l1 := updIf (fun x => x.sector == sec) (fun x => { x with tags := tags }) c.l1 }

/-- The verdict of each access of a store whose pages are known, and the tags that it brings. -/
def State.verdict (s : State) (o : MemOp) : State :=
  let s1 := o.probed.foldl (fun s a =>
    let (tags, s1) := s.tagCheck a o.size
    (s1.setLane o.id { a with done := true, code := tags.code 0x14 }).watchOp o a) s
  ((o.probed.map (·.ia / 128)).eraseDups).foldl (fun s sec => s.copyTags o.core sec) s1

/-- TAG_PROBE_VERDICT (R194): the probe of a store in write-back form walks its pages and parks, fails or
returns the verdict. -/
def execTagProbeVerdict (id : Nat) (s : State) : Host.Outcome State Fault Refusal :=
  match s.ops.find? (·.id == id) with
  | none => .refused (.eventNotPending "TAG_PROBE_VERDICT")
  | some o =>
    let open_ := o.probed
    if open_.isEmpty || !o.parked.isEmpty || !s.roomFor o then
      .refused (.eventNotPending "TAG_PROBE_VERDICT")
    else match open_.find? fun a => !o.walked.contains (pageOf a.ia) with
      | some a =>
        let (w, s1) := s.translate a.ia
        .next (s1.walked o a w false)
      | none =>
        if open_.any fun a => !a.stored then .refused (.eventNotPending "TAG_PROBE_VERDICT")
        else .next ((s.verdict o).tryFinish id)

/-! ## Write-backs (R195, R386) -/

/-- WRITE_BACK_ACKNOWLEDGE (R195): L2 performs the oldest write-back of a sector and acknowledges it. -/
def execWriteBackAcknowledge (core id : Nat) (s : State) : Host.Outcome State Fault Refusal :=
  let c := s.core core
  match c.wbs.find? (·.id == id) with
  | none => .refused (.eventNotPending "WRITE_BACK_ACKNOWLEDGE")
  | some b =>
    let waiting := s.ops.filter fun o => o.writeBacks.contains id
    if c.wbs.any (fun x => decide (x.id < b.id) && s.sameSector x.sector b.sector) ||
        waiting.any (fun o => o.lanes.any (fun a => a.code != 0) && !s.roomFor o) then
      .refused (.eventNotPending "WRITE_BACK_ACKNOWLEDGE")
    else
      let s3 := (waiting.map (·.id)).foldl State.tryFinish (s.landWrite core b)
      let keys := s3.teams.flatMap fun t => if t.cores.contains core then t.warps.map t.wkey else []
      .next ((keys.foldl State.settleArrivals s3).settleComplete b.owner)

/-! ## Base-die packets (R216 to R219) -/

/-- The reply of a request taken by its base die. -/
def Packet.reply (p : Packet) (data : List Byte) (flag : Bool) : Reply :=
  { read := p.kind == .rd, tag := p.tag.getD 0, gmask := p.gmask, pa := p.pa, cause := p.cause, data := data
    flag := flag, fill := p.fill }

/-- A base die takes the first request of a stream when it is of this kind and has been sent. -/
def State.takePacket (s : State) (q : Stream) (kind : PacketKind) (name : String) : Host.Outcome State Fault Refusal :=
  let x := s.stream q
  match x.requests with
  | [] => .refused (.eventNotPending name)
  | p :: rest =>
    if p.kind != kind || p.tag.isNone then .refused (.eventNotPending name)
    else
      let done (s : State) (r : Reply) : State :=
        s.setStream { s.stream q with requests := rest, replies := (s.stream q).replies ++ [r] }
      match kind with
      | .rd => let d := s.physData p.pa; .next (done s (p.reply d.1 d.2))
      | .wr => .next (done (s.physWrite p) (p.reply [] false))
      | .mwr => .next (done (s.physWrite p) (p.reply [] (!wholeGranules p.mask)))

/-- RD (R218): a base die takes a read. -/
def execRd (q : Stream) (s : State) : Host.Outcome State Fault Refusal := s.takePacket q .rd "RD"

/-- WR (R218): a base die takes a write of whole granules. -/
def execWr (q : Stream) (s : State) : Host.Outcome State Fault Refusal := s.takePacket q .wr "WR"

/-- MWR (R219): a base die takes a masked write; granules covered in part are merged. -/
def execMwr (q : Stream) (s : State) : Host.Outcome State Fault Refusal := s.takePacket q .mwr "MWR"

/-- A reply arrives at the hub: its tag is free for the first request that waits (R217). -/
def State.takeReply (s : State) (q : Stream) (r : Reply) : State :=
  let x := s.stream q
  s.setStream { x with replies := x.replies.erase r }.assign

/-- RDATA (R217): a read reply arrives, and fills the sector it was read for. -/
def execRdata (q : Stream) (tag : Nat) (s : State) : Host.Outcome State Fault Refusal :=
  match (s.stream q).replies.find? fun r => r.read && r.tag == tag with
  | none => .refused (.eventNotPending "RDATA")
  | some r =>
    let s1 := s.takeReply q r
    match r.fill with
    | some (phys, sec) =>
      if (s1.l2? phys sec).isSome then .next s1 else .next (s1.l2Install phys sec r.pa r.data r.flag)
    | none => .next s1

/-- WACK (R219): a write acknowledgement arrives. -/
def execWack (q : Stream) (tag : Nat) (s : State) : Host.Outcome State Fault Refusal :=
  match (s.stream q).replies.find? fun r => !r.read && r.tag == tag with
  | none => .refused (.eventNotPending "WACK")
  | some r => .next (s.takeReply q r)

end Sys2Proof.Machine
end

