-- ==== Sys2Proof/Machine/Sha256.lean ====
section
/-!
DEFINITION. SHA-256 of a byte string (FIPS 180-4), which the copy engine computes with DIG (R212).
-/

namespace Sys2Proof.Machine

/-- The round constants. -/
def sha256K : List (BitVec 32) :=
  [0x428A2F98, 0x71374491, 0xB5C0FBCF, 0xE9B5DBA5, 0x3956C25B, 0x59F111F1, 0x923F82A4, 0xAB1C5ED5] ++
  [0xD807AA98, 0x12835B01, 0x243185BE, 0x550C7DC3, 0x72BE5D74, 0x80DEB1FE, 0x9BDC06A7, 0xC19BF174] ++
  [0xE49B69C1, 0xEFBE4786, 0x0FC19DC6, 0x240CA1CC, 0x2DE92C6F, 0x4A7484AA, 0x5CB0A9DC, 0x76F988DA] ++
  [0x983E5152, 0xA831C66D, 0xB00327C8, 0xBF597FC7, 0xC6E00BF3, 0xD5A79147, 0x06CA6351, 0x14292967] ++
  [0x27B70A85, 0x2E1B2138, 0x4D2C6DFC, 0x53380D13, 0x650A7354, 0x766A0ABB, 0x81C2C92E, 0x92722C85] ++
  [0xA2BFE8A1, 0xA81A664B, 0xC24B8B70, 0xC76C51A3, 0xD192E819, 0xD6990624, 0xF40E3585, 0x106AA070] ++
  [0x19A4C116, 0x1E376C08, 0x2748774C, 0x34B0BCB5, 0x391C0CB3, 0x4ED8AA4A, 0x5B9CCA4F, 0x682E6FF3] ++
  [0x748F82EE, 0x78A5636F, 0x84C87814, 0x8CC70208, 0x90BEFFFA, 0xA4506CEB, 0xBEF9A3F7, 0xC67178F2]

/-- The initial hash value. -/
def sha256H0 : List (BitVec 32) :=
  [0x6A09E667, 0xBB67AE85, 0x3C6EF372, 0xA54FF53A] ++
  [0x510E527F, 0x9B05688C, 0x1F83D9AB, 0x5BE0CD19]

/-- The big-endian words of a byte string. -/
def beWords : List Byte → List (BitVec 32)
  | a :: b :: c :: d :: l => (a ++ b ++ c ++ d : BitVec 32) :: beWords l
  | _ => []

/-- Padding: a 1 bit, zeros to 56 mod 64 bytes, the length in bits. -/
def sha256Pad (n : Nat) : List Byte :=
  0x80#8 :: List.replicate ((119 - n % 64) % 64) 0 ++ (natBytes (8 * n) 8).reverse

/-- The message schedule: words 16 to 63 from the first 16, kept newest first. -/
def sha256Extend : Nat → List (BitVec 32) → List (BitVec 32)
  | 0, w => w
  | k + 1, w =>
    let w15 := w.getD 14 0
    let w2 := w.getD 1 0
    let s0 := w15.rotateRight 7 ^^^ w15.rotateRight 18 ^^^ (w15 >>> 3)
    let s1 := w2.rotateRight 17 ^^^ w2.rotateRight 19 ^^^ (w2 >>> 10)
    sha256Extend k ((w.getD 15 0 + s0 + w.getD 6 0 + s1) :: w)

/-- The working variables a to h after one round. -/
def sha256Round (v : List (BitVec 32)) (kw : BitVec 32 × BitVec 32) : List (BitVec 32) :=
  match v with
  | [a, b, c, d, e, f, g, h] =>
    let s1 := e.rotateRight 6 ^^^ e.rotateRight 11 ^^^ e.rotateRight 25
    let ch := (e &&& f) ^^^ (~~~e &&& g)
    let t1 := h + s1 + ch + kw.1 + kw.2
    let s0 := a.rotateRight 2 ^^^ a.rotateRight 13 ^^^ a.rotateRight 22
    let maj := (a &&& b) ^^^ (a &&& c) ^^^ (b &&& c)
    [t1 + s0 + maj, a, b, c, d + t1, e, f, g]
  | v => v

/-- The hash value after one block of 16 words. -/
def sha256Block (h : List (BitVec 32)) (ws : List (BitVec 32)) : List (BitVec 32) :=
  let sched := (sha256Extend 48 ws.reverse).reverse
  let v := (sha256K.zip sched).foldl sha256Round h
  (h.zip v).map fun (x, y) => x + y

/-- The hash value after the blocks of a word string; `fuel` bounds their number. -/
def sha256Blocks : Nat → List (BitVec 32) → List (BitVec 32) → List (BitVec 32)
  | 0, h, _ => h
  | fuel + 1, h, ws => if ws.isEmpty then h else sha256Blocks fuel (sha256Block h (ws.take 16)) (ws.drop 16)

/-- The hash value after the whole blocks of a byte string. -/
def sha256Absorb (h : List (BitVec 32)) (m : List Byte) : List (BitVec 32) :=
  let ws := beWords m
  sha256Blocks (ws.length / 16 + 1) h ws

/-- The bytes of a hash value, in the order of FIPS 180-4. -/
def hashBytes (h : List (BitVec 32)) : List Byte := h.flatMap fun w => (natBytes w.toNat 4).reverse

/-- The 32 bytes of the digest of n bytes from the hash value after the whole blocks and the bytes after
them. -/
def sha256End (h : List (BitVec 32)) (tail : List Byte) (n : Nat) : List Byte :=
  hashBytes (sha256Absorb h (tail ++ sha256Pad n))

/-- A digest in progress after further bytes: the hash value after the whole blocks (empty: the initial one) and the
bytes after them. -/
def sha256More (h : List (BitVec 32)) (tail bs : List Byte) : List (BitVec 32) × List Byte :=
  let all := tail ++ bs
  let n := all.length / 64 * 64
  let h0 := if h.isEmpty then sha256H0 else h
  (if n = 0 then h0 else sha256Absorb h0 (all.take n), all.drop n)

/-- The digest of n bytes, all of which a digest in progress has taken in. -/
def sha256Of (h : List (BitVec 32)) (tail : List Byte) (n : Nat) : List Byte :=
  sha256End (if h.isEmpty then sha256H0 else h) tail n

/-- The 32 bytes of the digest of a byte string. -/
def sha256 (m : List Byte) : List Byte := sha256End sha256H0 m m.length

end Sys2Proof.Machine
end

