-- ==== Sys2Proof/Machine/Copy.lean ====
section
/-!
DEFINITION. The copy engine (R208 to R215): the copy instructions at issue, the running of a command
burst by burst, its digest and completion word, its faults. A burst is what a channel moves in a cycle, at
most 64 bytes in units of 16; a command moves its units in increasing order (assumption 23).
-/

namespace Sys2Proof.Machine

/-! ## Operands of a command -/

/-- The modifiers of a copy instruction. -/
def copyMod : Instr → Option (Ops MY)
  | .cpy o => some o
  | .cpys o => some o
  | .cpyg o => some o
  | .cpygat o => some o
  | _ => none

/-- A side of a copy: a global virtual address, a layout word, or the gathered rows. -/
inductive CopySide where
  | global (va : Word)
  | scratch (w : Word)
  | rows
  deriving DecidableEq, Repr

/-- Source and destination of a command by its operands s(D), s(A) (Table 10-8). -/
def copySides (i : Instr) (d a : Word) : CopySide × CopySide :=
  match i with
  | .cpy _ => (.global a, .scratch d)
  | .cpys _ => (.scratch a, .global d)
  | .cpyg _ => (.global a, .global d)
  | _ => (.rows, .scratch d)

/-- The gather word (Table 10-9): rows, 64-bit indexes, row bytes, list offset. -/
structure Gather where
  count : Nat
  wide : Bool
  row : Nat
  list : Nat
  deriving DecidableEq, Repr

def gatherOf (w : Word) : Gather := ⟨fieldOf w 63 48, w.getLsbD 47, fieldOf w 44 32 * 16, fieldOf w 20 0 * 4⟩

/-- The field of a command as a modifier. -/
def CopyCmd.mod (c : CopyCmd) : MY := ((copyMod c.instr).map (·.mod)).getD ⟨.dv, false, false, 0, false, 0⟩
def CopyCmd.sides (c : CopyCmd) : CopySide × CopySide := copySides c.instr c.d c.a

/-- The first global address of a command (R214). -/
def CopyCmd.firstVA (c : CopyCmd) : Word :=
  match c.sides with
  | (.global va, _) => va
  | (.rows, _) => c.a
  | (_, .global va) => va
  | _ => 0

/-! ## Checks at issue (R209 to R213) -/

/-- A layout operand of a copy: R157, TRANS 0, SPAN that of the command. -/
def copyLayout (w : Word) (span : BitVec 3) : Option Layout :=
  (layoutOf w).bind fun l => if l.kMajor ∨ l.span ≠ span then none else some l

/-- The end of the scratchpad bytes that n bytes from the anchor use: the chunks of the last row decide. -/
def Layout.limit (l : Layout) (n : Nat) : Nat :=
  if n = 0 then 0
  else if l.pitch = 0 then l.base + n
  else
    let first := (n - 1) / l.pitch * l.pitch
    (List.range ((n - first + 15) / 16)).foldl (fun m k => Nat.max m (l.phys (first + 16 * k) + 16)) 0

/-- The range check of a global side (R210): the register of the first byte holds every byte, the team
leases it, it has the permission. A length of 0 has no byte and is not checked: the rule does not say
whether it is (assumption 104). -/
def Env.copyRange (e : Env) (va : Word) (n : Nat) (perm : Range → Bool) : Except Nat (Option Range) :=
  if n = 0 then .ok none
  else match (e.s.ctx e.k.ctx).findRange va n with
    | none => .error 0x10
    | some r =>
      if r.kind = 0 ∧ !e.t.leases.getLsbD r.idx then .error 0x11
      else if !perm r then .error 0x12
      else .ok (some r)

/-- One side of a copy checked: a trap code, or the kind of its range, 0 for scratchpad. The base of the rows of
`cpygat` is not checked for a multiple of 16 (DESIGN CHOICE, assumption 122). -/
def Env.checkSide (e : Env) (m : MY) (n : Nat) (perm : Range → Bool) : CopySide → Except Nat Nat
  | .rows => .ok 0
  | .scratch w =>
    match copyLayout w m.span with
    | none => .error 0x02
    | some l => if e.t.kernel.scratch < l.limit n then .error 0x0D else .ok 0
  | .global va =>
    if va.toNat % 16 ≠ 0 then .error 0x06
    else match e.copyRange va n perm with
      | .error c => .error c
      | .ok r => .ok ((r.map (·.kind)).getD 0)

/-- The record of a command: digest at its start, completion word after the digest (R212, R213). -/
def wordAddr (m : MY) (record : Word) : Word := if m.dig then record + 32 else record

/-- The checks of the record operand. -/
def Env.checkRecord (e : Env) (m : MY) (record : Word) : Option Nat :=
  let place (va : Word) (n : Nat) (perm : Range → Bool) : Option Nat :=
    if m.cwg then (match e.copyRange va n perm with | .error c => some c | .ok _ => none)
    else if e.t.kernel.scratch < va.toNat + n then some 0x0D else none
  if m.dig && record.toNat % 32 != 0 then some 0x06
  else if m.cwadd && (wordAddr m record).toNat % 8 != 0 then some 0x06
  else match if m.dig then place record 32 (·.pwr) else none with
    | some c => some c
    | none => if m.cwadd then place (wordAddr m record) 8 (·.pat) else none

/-- The checks of a gather word (R211): a trap code, or the bytes it moves. -/
def Env.checkGather (e : Env) (w : Word) : Except Nat Nat :=
  let g := gatherOf w
  if g.count = 0 ∨ g.row = 0 ∨ fieldOf w 46 45 ≠ 0 ∨ fieldOf w 31 21 ≠ 0 ∨ g.count * g.row > 2 ^ 24 then .error 0x02
  else if g.wide ∧ g.list % 8 ≠ 0 then .error 0x06
  else if e.t.kernel.scratch < g.list + g.count * (if g.wide then 8 else 4) then .error 0x0D
  else .ok (g.count * g.row)

/-- Two virtual ranges of n bytes overlap. -/
def copyOverlaps (a d : Word) (n : Nat) : Bool := meets (vaAddr a) n (vaAddr d) n

/-- All checks of a copy instruction: a trap code, or the bytes it moves. -/
def Env.checkCopy (e : Env) (i : Instr) (o : Ops MY) : Except Nat Nat :=
  let len : Except Nat Nat := match i with
    | .cpygat _ => e.checkGather (e.scalar o.b)
    | _ =>
      let n := (e.scalar o.b).toNat
      if n % 16 ≠ 0 ∨ n > 2 ^ 24 then .error 0x02 else .ok n
  match len with
  | .error c => .error c
  | .ok n =>
    let (src, dst) := copySides i (e.scalar o.d) (e.scalar o.a)
    match e.checkSide o.mod n (·.prd) src, e.checkSide o.mod n (·.pwr) dst with
    | .error c, _ => .error c
    | _, .error c => .error c
    | .ok ks, .ok kd =>
      match src, dst with
      | .global a, .global d =>
        if copyOverlaps a d n then .error 0x02
        else if ks > 1 ∧ kd > 1 then .error 0x12
        else .ok n
      | _, _ => .ok n

/-- The record operand's value. -/
def Env.copyRecord (e : Env) (o : Ops MY) : Word :=
  if o.mod.dig || o.mod.cwadd then e.laneC o.imm 0 else 0

/-- Commands a channel holds. -/
def Core.channel (c : Core) (ch : Nat) : List CopyCmd := c.channels.getD ch []

/-- Changing a channel. -/
def State.modChannel (s : State) (core ch : Nat) (f : List CopyCmd → List CopyCmd) : State :=
  s.modCore core fun c => { c with channels := c.channels.set ch (f (c.channel ch)) }

/-- Issuing a copy command (R208): it enters its channel, CP rises, and it has its own causal id. -/
def Env.issueCopy (e : Env) (i : Instr) (o : Ops MY) : Act :=
  match e.checkCopy i o with
  | .error c => e.trap c
  | .ok n =>
    match e.checkRecord o.mod (e.copyRecord o) with
    | some c => e.trap c
    | none =>
      let ch := o.mod.ch.toNat
      if ((e.s.core e.w.core).channel ch).length ≥ 16 ∨ !e.w.roomOn .cp then .wait e.s
      else
        let (own, s0) := e.s.mint (hubOfCore e.w.core)
        let (id, s1) := s0.takeId
        let (cause, s2) := s1.takeCause (hubOfCore e.w.core) id own e.w.cause
        let c : CopyCmd :=
          { id := id, key := e.k, instr := i, pc := e.w.pc, cause := cause, minted := own, serial := e.w.serial, d := e.scalar o.d
            a := e.scalar o.a, b := e.scalar o.b, record := e.copyRecord o, len := n, nth := e.w.issued + 1 }
        .next ((s2.modChannel e.w.core ch (· ++ [c])).modWarp e.k fun w => w.countUp .cp id)

def execCpy (o : Ops MY) (s : State) : Host.Outcome State Fault Refusal :=
  runSeq (.cpy o) s fun e => e.issueCopy (.cpy o) o

def execCpys (o : Ops MY) (s : State) : Host.Outcome State Fault Refusal :=
  runSeq (.cpys o) s fun e => e.issueCopy (.cpys o) o

def execCpyg (o : Ops MY) (s : State) : Host.Outcome State Fault Refusal :=
  runSeq (.cpyg o) s fun e => e.issueCopy (.cpyg o) o

def execCpygat (o : Ops MY) (s : State) : Host.Outcome State Fault Refusal :=
  runSeq (.cpygat o) s fun e => e.issueCopy (.cpygat o) o

/-- The word of `cpyq` (Table 10-10). -/
def copyStatus (q : List CopyCmd) (k : WKey) : Word :=
  let left := match q with | c :: _ => if c.running then (c.len - c.moved) / 16 else 0 | [] => 0
  atBit left 16 ||| atBit (q.filter (·.key == k)).length 8 ||| atBit q.length 0

def execCpyq (o : Ops MY) (s : State) : Host.Outcome State Fault Refusal :=
  runSeq (.cpyq o) s fun e => .next (e.setS o.d (copyStatus ((e.s.core e.w.core).channel o.mod.ch.toNat) e.k))

/-! ## Reading and writing a unit (R210) -/

/-- A missing page of a demand range: the page, and the address, the range register and ACC of the access
(R256). -/
structure Miss where
  page : Nat
  va : Word
  range : Nat
  acc : BitVec 4

/-- What a step of a command meets: it is done; a page of a demand range is missing; a fault, with the first byte of
the step that it concerns. -/
inductive Moved (α : Type) where
  | ok (x : α)
  | hold (m : Miss)
  | fail (code : Nat) (ia : Option Nat) (at_ : Nat := 0)

/-- Going on with a value that a step has given. -/
def Moved.bind {α β : Type} (m : Moved α × State) (f : α → State → Moved β × State) : Moved β × State :=
  match m with
  | (.ok x, s) => f x s
  | (.hold m, s) => (.hold m, s)
  | (.fail code ia k, s) => (.fail code ia k, s)

/-- A fault of a step counts as one of its first byte. -/
def Moved.whole {α : Type} (m : Moved α × State) : Moved α × State :=
  match m with
  | (.fail code ia _, s) => (.fail code ia, s)
  | m => m

/-- Bytes read: poison, from which byte on, and whether it is reconstruction poison, and whether a watch slot of
the own team was hit. -/
structure CopyUnit where
  bytes : List Byte
  poison : Bool := false
  poisonFrom : Nat := 0
  recon : Bool := false
  hit : Bool := false

/-- The code of poison that is consumed (R179, R345). -/
def poisonCode (recon : Bool) : Nat := if recon then 0x1B else 0x19

/-- What a failed walk is to a command's access with an ACC beside the copy engine's bit (R249, R210). -/
def Walk.forCopy {α : Type} (w : Walk) (r : Range) (va : Word) (acc : BitVec 4) : Moved α :=
  match w with
  | .missing => if r.kind = 1 then .hold ⟨pageOf (r.target va), va, r.idx, 8 ||| acc⟩ else .fail 0x18 none
  | .poisoned _ => .fail 0x19 (some (r.target va))
  | _ => .fail 0x18 none

/-- The tag check of an engine's access with a pointer tag (R259). -/
def State.engineTag (s : State) (r : Range) (va : Word) (n : Nat) : TagCheck × State :=
  s.tagCheck { lane := 255, va := va, ia := r.target va, tc := r.tc } n

/-- A tag check that an engine's access fails: TAG_COPY, or the poison of a tag (R214, R345). -/
def TagCheck.forCopy {α : Type} (c : TagCheck) (ia : Nat) : Moved α :=
  .fail (c.code 0x15) (if c == .poisoned then some ia else none)

/-- The party of a copy command (R262). -/
def CopyCmd.party (c : CopyCmd) (s : State) : Party :=
  { team := some c.key.team, isEngine := true, code := 5, serial := 0, cause := c.cause
    parent := s.opParent c.key c.cause, issued := some c.id }

/-- The command as its channel holds it now. -/
def State.copyNow (s : State) (core : Nat) (c : CopyCmd) : CopyCmd :=
  (((s.core core).channel c.mod.ch.toNat).find? (·.id == c.id)).getD c

/-- Changing a command in its channel. -/
def State.modCopy (s : State) (core : Nat) (c : CopyCmd) (f : CopyCmd → CopyCmd) : State :=
  s.modChannel core c.mod.ch.toNat (updIf (·.id == c.id) f)

/-- The answer of a peer to an engine's access: no fault, or a fault code. -/
def peerAnswer (dev ia n : Nat) : Nat :=
  match Config.peerFault dev ia n % 4 with
  | 1 => 0x15
  | 2 => 0x18
  | _ => 0

/-- The request of a command to a peer (R207, R210). -/
def State.sendPeer (s : State) (c : CopyCmd) (r : Range) (va : Word) (n : Nat) (kind : RemoteKind) : State :=
  s.output (.remote r.peer
    { dev := ownDevice, cause := c.minted, ia := r.target va, len := n, tag := vaTag va, tc := r.tc, kind := kind })

/-- An access of a command to a peer: its request leaves; the free value of its answer, or the fault. -/
def State.enginePeer (s : State) (c : CopyCmd) (r : Range) (va : Word) (n : Nat) (kind : RemoteKind) :
    Moved Nat × State :=
  let (d, s1) := s.draw
  let s2 := s1.sendPeer c r va n kind
  match peerAnswer r.peer (r.target va) d with
  | 0 => (.ok d, s2)
  | code => (.fail code none, s2)

/-- Reading n bytes of a global address. -/
def State.engineRead (s : State) (c : CopyCmd) (r : Range) (va : Word) (n : Nat) : Moved CopyUnit × State :=
  let a := r.target va
  if r.kind = 3 then
    let (d, s1) := s.draw
    (.ok { bytes := (List.range n).map fun k => Config.hostByte (a + k) d }, s1)
  else if r.kind = 2 then
    Moved.bind (s.enginePeer c r va n .read) fun d s =>
      (.ok { bytes := (List.range n).map fun k => Config.peerByte r.peer (a + k) d
             poison := Config.peerFault r.peer a d % 4 == 3 }, s)
  else match s.l2Read false a n with
    | (.failed w _, s1) => (w.forCopy r va 1, s1)
    | (.bytes bs p, s1) =>
      let (tags, s2) := s1.engineTag r va n
      let (hit, s3) := s2.watchL2 (c.party s2) 0 a n none
      if tags == .same then (.ok { bytes := bs, poison := p.isSome, hit := hit }, s3) else (tags.forCopy a, s3)

/-- The range register of a command's global side. -/
def State.copyReg (s : State) (c : CopyCmd) (va : Word) (n : Nat) : Option Range := (s.ctx c.key.ctx).findRange va n

/-- Does a side of a command lie in a peer's or the host's memory: for a gather, a row that has begun? -/
def State.farSide (s : State) (core : Nat) (c : CopyCmd) (x : CopySide) : Bool :=
  let far (va : Word) : Bool := ((s.copyReg c va 1).map fun r => decide (1 < r.kind)).getD false
  match x with
  | .scratch _ => false
  | .global va => far va
  | .rows => (s.copyNow core c).rows.any fun x => far x.2

/-- Does a command act at scope tm: it says so, and neither side makes its scope cl or sy (R210)? -/
def State.copyNarrow (s : State) (core : Nat) (c : CopyCmd) : Bool :=
  c.mod.scope == .tm && !s.farSide core c c.sides.1 && !s.farSide core c c.sides.2

/-- A write of an engine into a sector it has brought into L2: at once; or, at scope tm, held in the
engine's write buffer, performed with respect to the team and reaching L2 later (R200 step 3, R213, R240).
Bytes for one sector of one command share an entry. -/
def State.engineStore (s : State) (core : Nat) (c : CopyCmd) (x : L2Sector) (off : Nat) (bs : List Byte) (poison : Bool) :
    State :=
  let data := sectorImage off bs
  let mask := byteMask off bs.length
  let fresh : WriteBack := ⟨0, x.sector, data, mask, poison, c.key.team, some c.id, some (c.key.w, c.mod.ch.toNat)⟩
  if !s.copyNarrow core c then
    (s.noteCode x.sector).l2Store x data mask poison (some c.key.team) (s.opTag c.key c.id)
  else
    match (s.core core).wbs.getLast? with
    | some b =>
      if b.copy == some c.id && b.sector == x.sector then
        s.modCore core fun u => { u with wbs := u.wbs.dropLast ++
          [{ b with data := mergeBytes b.data data mask, mask := b.mask ||| mask, poison := b.poison || poison }] }
      else s.newWrite core fresh
    | none => s.newWrite core fresh

/-- Writing bytes of one sector to a global address: whether a watch slot of the own team was hit. -/
def State.engineWrite (s0 : State) (core : Nat) (c : CopyCmd) (r : Range) (va : Word) (u : CopyUnit) : Moved Bool × State :=
  let a := r.target va
  let s := s0.modTeam c.key.team fun t => t.breakWords (wordPlace r.kind r.peer a) u.bytes.length
  if r.kind = 3 then (.ok false, s.output (.pcieWrite a u.bytes))
  else if r.kind = 2 then
    Moved.bind (s.enginePeer c r va u.bytes.length (.write u.bytes)) fun _ s => (.ok false, s)
  else match s.l2Bring false (a / 128) with
    | (.error w, s1) => (w.forCopy r va 2, s1)
    | (.ok x, s1) =>
      let (tags, s2) := s1.engineTag r va u.bytes.length
      let (hit, s3) := s2.watchL2 (c.party s2) 1 a u.bytes.length none
      if tags != .same then (tags.forCopy a, s3)
      else (.ok hit, s3.engineStore core c x (a % 128) u.bytes u.poison)

/-- The record source of a command. -/
def CopyCmd.src (c : CopyCmd) (s : State) (core : Nat) : Src :=
  coreSrc core 5 (match s.warp? c.key with | some w => quadOf w.slot | none => 0)

/-- A command has read scratchpad in warn mode: what it met is kept until it leaves its channel. -/
def CopyCmd.met (c : CopyCmd) (t : Team) (span : Option (BitVec 3)) (offs : List Nat) : CopyCmd :=
  let first := span.bind fun x => (t.firstMismatch x offs).map fun m => (m, x, t.stamp (m / 2048))
  { c with
    unwritten := (c.unwritten ++ t.unwrittenWords offs).eraseDups
    mismatch := match c.mismatch, first with
      | some x, some y => some (if y.1 < x.1 then y else x)
      | x, none => x
      | none, y => y }

/-- The checks of a reader of scratchpad (R159, R180): a fault, or the state to read in. `span`: the stamp to
check. -/
def State.engineCheck (s : State) (t : Team) (core : Nat) (c : CopyCmd) (off n : Nat) (span : Option (BitVec 3)) :
    Moved Unit × State :=
  let offs := coverBytes [(off, n)]
  if (t.firstUnwritten offs).isNone && ((span.bind fun x => t.firstMismatch x offs)).isNone then (.ok (), s)
  else if (s.ctx t.ctx).warn then (.ok (), s.modCopy core c fun c => c.met t span offs)
  else
    match s.spCheck t (c.src s core) c.cause 0 c.pc c.serial span (fun _ => 255) offs with
    | .error (code, w) => (.fail code none (w - off), s)
    | .ok s1 => (.ok (), s1)

/-- Reading scratchpad bytes as the copy path sees them, errors shown, words of a retired bank reconstructed
(R177, R179). -/
def State.engineSp (s : State) (t : Team) (core : Nat) (c : CopyCmd) (off n : Nat) (span : Option (BitVec 3)) :
    Moved CopyUnit × State :=
  Moved.bind (s.engineCheck t core c off n span) fun _ s =>
    let words := wordsAt off n
    let lost := words.filter (s.lostWord t)
    let s1 := s.showErrors t words lost
    let (view, s2) := s1.spView ((s1.team? t.key).getD t) .cp words
    let bad := words.filter fun w => (view.word w).poison
    (.ok { bytes := view.spBytes off n, poison := !bad.isEmpty, poisonFrom := 4 * (minOf bad).getD 0 - off
           recon := bad.any fun w => (view.word w).recon },
      s2.modTeam t.key fun t => { t with recon := satAdd 32 t.recon lost.length })

/-- The events of warn mode of a command, each once (R159, R180). -/
def State.copyEvents (s : State) (core : Nat) (c : CopyCmd) : State :=
  let parent := s.opParent c.key c.cause
  let s1 := match c.mismatch with
    | some (m, span, stamp) => s.warnMismatch (c.src s core) c.key.ctx c.cause parent c.pc c.serial span stamp (m / 2048)
    | none => s
  match minOf c.unwritten with
  | some w => s1.warnUnwritten (c.src s core) c.key.ctx c.cause parent c.pc c.serial 255 (4 * w) c.unwritten.length
  | none => s1

/-- The address of the row that offset o of a gather lies in (R211): its index is read once, with the checks
of a reader, when the row begins, and its range is checked then. -/
def State.gatherRow (s : State) (t : Team) (core : Nat) (c : CopyCmd) (o : Nat) : Moved Word × State :=
  let g := gatherOf c.b
  let i := o / g.row
  let n := if g.wide then 8 else 4
  match (s.copyNow core c).rows.find? (·.1 == i) with
  | some (_, va) => (.ok va, s)
  | none => begin_ g i n
where
  /-- The beginning of a row. -/
  begin_ (g : Gather) (i n : Nat) : Moved Word × State :=
    Moved.bind (Moved.whole (s.engineSp t core c (g.list + i * n) n none)) fun u s =>
      let va := c.a + BitVec.ofNat 64 (leNat u.bytes * g.row)
      if u.poison then (.fail (poisonCode u.recon) none, s)
      else match s.copyReg c va g.row with
        | none => (.fail 0x10 none, s)
        | some r =>
          if r.kind = 0 ∧ !t.leases.getLsbD r.idx then (.fail 0x11 none, s)
          else if !r.prd then (.fail 0x12 none, s)
          else (.ok va, s.modCopy core c fun c => { c with rows := (i, va) :: c.rows })

/-- Reading n bytes of a gathered row; they are checked with the pointer tag of the command's address
operand (R211, R259). -/
def State.gatherRead (s : State) (t : Team) (core : Nat) (c : CopyCmd) (o n : Nat) : Moved CopyUnit × State :=
  let g := gatherOf c.b
  Moved.bind (s.gatherRow t core c o) fun va s =>
    match s.copyReg c va g.row with
    | none => (.fail 0x10 none, s)
    | some r => s.engineRead c r (insertTag (va + BitVec.ofNat 64 (o % g.row)) ((vaTag c.a).setWidth 64)) n

/-- Reading n bytes of the unit at offset o. -/
def State.copyRead (s : State) (t : Team) (core : Nat) (c : CopyCmd) (o n : Nat) : Moved CopyUnit × State :=
  match c.sides.1 with
  | .rows => s.gatherRead t core c o n
  | .global va =>
    match s.copyReg c va c.len with
    | some r => s.engineRead c r (va + BitVec.ofNat 64 o) n
    | none => (.fail 0x10 none, s)
  | .scratch w =>
    match layoutOf w with
    | none => (.fail 0x02 none, s)
    | some l => s.engineSp t core c (l.phys o) n (some c.mod.span)

/-- Writing scratchpad bytes as the copy engine does: valid bits and stamps (R210); the other paths may go on
reading what was there (R240). -/
def State.engineSpWrite (s : State) (k : WKey) (id off : Nat) (u : CopyUnit) (stamp : Option (BitVec 3)) : State :=
  let by_ := s.writerOf .cp k id
  s.modTeam k.team fun t => (t.breakWords (.scratch off) u.bytes.length).writeAs by_ (wordsAt off u.bytes.length) fun t => t.spWrite off u.bytes u.poison stamp u.recon

/-- Writing the unit at offset o. -/
def State.copyWrite (s : State) (core : Nat) (c : CopyCmd) (o : Nat) (u : CopyUnit) : Moved Bool × State :=
  match c.sides.2 with
  | .rows => (.ok false, s)
  | .global va =>
    match s.copyReg c va c.len with
    | some r => s.engineWrite core c r (va + BitVec.ofNat 64 o) u
    | none => (.fail 0x10 none, s)
  | .scratch w =>
    match layoutOf w with
    | none => (.fail 0x02 none, s)
    | some l => (.ok false, s.engineSpWrite c.key c.id (l.phys o) u (some c.mod.span))

/-! ## The run of a command -/

/-- The command leaves its channel and CP falls (R213, R214). -/
def State.dropCopy (s : State) (core ch : Nat) (c : CopyCmd) : State :=
  ((s.copyEvents core (s.copyNow core c)).modChannel core ch (·.filter (·.id != c.id))).modWarp c.key fun w => w.countDown .cp c.id

/-- The fault of a command (R214): its channel, the lowest faulting offset, its first global address. -/
def State.copyFault (s : State) (c : CopyCmd) (off code : Nat) : FaultInfo :=
  let w := s.warp? c.key
  { code := code, pc := c.pc, cause := c.cause, addr := BitVec.ofNat 64 off, wobj := c.firstVA, serial := c.serial
    wkind := ((w.bind (·.wait)).map (·.kind)).getD 0, skid := (w.map (·.issued)).getD 0 - c.nth, warp := c.key.w
    aux := c.mod.ch.toNat, deferred := true }

/-- A running command faults: it leaves its channel. -/
def State.failCopy (s : State) (core ch : Nat) (c : CopyCmd) (off code : Nat) (ia : Option Nat) : State :=
  ((s.dropCopy core ch c).deferFault c.key (s.copyFault c off code) ia).settle c.key

/-- A command stops at a missing page of a demand range and holds its channel (R254). -/
def State.holdCopy (s : State) (core : Nat) (c : CopyCmd) (m : Miss) : State :=
  (s.modCopy core c fun c => { c with held := some m.page }).filterPage core
    { page := ⟨c.key.ctx, m.page⟩, cause := c.cause, serial := c.serial, va := m.va, range := m.range, acc := m.acc }

/-- Going on after a step of a command: holding, failing, or `f`. -/
def Moved.then {α : Type} (m : Moved α × State) (core ch : Nat) (c : CopyCmd) (off : Nat) (f : α → State → State) : State :=
  match m with
  | (.ok x, s) => f x s
  | (.hold m, s) => s.holdCopy core c m
  | (.fail code ia k, s) => s.failCopy core ch c (off + k) code ia

/-- The running command of a channel, when it may go on. -/
def State.runningCopy (s : State) (core ch : Nat) : Option CopyCmd :=
  match (s.core core).channel ch with
  | c :: _ => if c.running && c.held.isNone && s.fqRoom c.key.ctx then some c else none
  | [] => none

/-- The global writes of the warp's earlier commands on a channel reach L2: a command is forked after the whole of
them (R238, Table 11-4). -/
def State.landChannel (s : State) (core ch : Nat) (k : WKey) : State :=
  ((s.core core).wbs.filter fun b => b.owner == k.team && b.chan == some (k.w, ch)).foldl (fun s b => s.landWrite core b) s

/-- COPY_COMMAND_START (R208): a channel starts its next command. -/
def execCopyCommandStart (core ch : Nat) (s : State) : Host.Outcome State Fault Refusal :=
  match (s.core core).channel ch with
  | c :: _ =>
    if c.running then .refused (.eventNotPending "COPY_COMMAND_START")
    else .next ((s.landChannel core ch c.key).modChannel core ch (updIf (·.id == c.id) fun c => { c with running := true }))
  | [] => .refused (.eventNotPending "COPY_COMMAND_START")

/-- Where the 16 bytes at an offset of a command lie in the 64 bytes that a request covers: half a row of the
scratchpad, in its destination or else its source; with DIG a block of the digest (assumption 135). -/
def CopyCmd.requestPhase (c : CopyCmd) (o : Nat) : Nat :=
  let place (x : CopySide) : Option Nat := match x with
    | .scratch w => (layoutOf w).map fun l => l.phys o / 16 * 16 % 64
    | _ => none
  if c.mod.dig then o % 64
  else match place c.sides.2 with
    | some p => p
    | none => (place c.sides.1).getD (o % 64)

/-- The end of the burst that begins at an offset: a channel moves at most 64 bytes in a cycle (R208), in requests
of whole half rows (R175). -/
def CopyCmd.burstEnd (c : CopyCmd) (o : Nat) : Nat := Nat.min c.len (o + 64 - c.requestPhase o)

/-- The digest state of a command after further bytes: whole blocks are absorbed, the rest of the last
burst is kept. -/
def CopyCmd.absorb (c : CopyCmd) (bs : List Byte) : CopyCmd :=
  if !c.mod.dig then c
  else
    let (h, tail) := sha256More c.hash c.tail bs
    { c with hash := h, tail := tail }

/-- Reading and writing n bytes of a unit, and whether a watch slot of the own team was hit. With DIG the engine
consumes the bytes, so poison stops it (R345). -/
def State.copyPart (s : State) (t : Team) (core : Nat) (c : CopyCmd) (o n : Nat) : Moved (List Byte × Bool) × State :=
  Moved.bind (s.copyRead t core c o n) fun u s =>
    if u.poison && c.mod.dig then (.fail (poisonCode u.recon) none u.poisonFrom, s)
    else
      Moved.bind (s.copyWrite core c o u) fun hit s => (.ok (u.bytes, u.hit || hit), s)

/-- Moving a unit of 16 bytes; when a later byte of it faults, those below are written (R214). -/
def State.copyUnit (s : State) (t : Team) (core : Nat) (c : CopyCmd) (o : Nat) : Moved (List Byte × Bool) × State :=
  match s.copyPart t core c o 16 with
  | (.fail code ia (k + 1), s1) =>
    match s1.copyPart t core c o (k + 1) with
    | (.ok _, s2) => (.fail code ia (k + 1), s2)
    | r => r
  | r => r

/-- The units of a burst, in order, until one does not go on: the bytes moved, and what stopped it. A watch
slot of the own team stops the command at the unit that hit it (R262). -/
def State.copyBurst (k : TKey) (core : Nat) (c : CopyCmd) : Nat → State → Nat → List Byte → (List Byte × Moved Unit) × State
  | 0, s, _, bs => ((bs, .ok ()), s)
  | n + 1, s, o, bs =>
    match s.team? k with
    | none => ((bs, .ok ()), s)
    | some t =>
      match s.copyUnit t core c o with
      | (.ok (u, false), s1) => State.copyBurst k core c n s1 (o + 16) (bs ++ u)
      | (.ok (_, true), s1) => ((bs, .fail 0x16 none), s1)
      | (.hold m, s1) => ((bs, .hold m), s1)
      | (.fail code ia j, s1) => ((bs, .fail code ia j), s1)

/-- The scratchpad words that a command writes for the bytes from offset o to offset e, unit by unit. -/
def CopyCmd.writtenWords (c : CopyCmd) (o e : Nat) : List Nat :=
  match c.sides.2 with
  | .scratch w =>
    match layoutOf w with
    | some l => (List.range ((e - o + 15) / 16)).flatMap fun k => wordsAt (l.phys (o + 16 * k)) (Nat.min 16 (e - o - 16 * k))
    | none => []
  | _ => []

/-- Moving the next burst of a command: its writes of one cycle change parity together (R174, R208). A
burst that a missing page stops counts as moved up to the page, but with DIG it is taken again whole, so
that the digest state stands at a whole block; the index of a row that has begun is not read again. -/
def State.moveBurst (s : State) (t : Team) (core ch : Nat) (c : CopyCmd) : State :=
  let n := (c.burstEnd c.moved - c.moved) / 16
  let ((bs, m), s1) := State.copyBurst t.key core c n s c.moved []
  let o := c.moved + bs.length
  let part := match m with | .fail 0x16 _ _ => 16 | .fail _ _ k => k | _ => 0
  let s2 := s1.noteWords t (c.writtenWords c.moved (o + part)) fun _ => true
  let kept := match m with | .hold _ => if c.mod.dig then [] else bs | _ => bs
  let s3 := s2.modCopy core c fun c =>
    { c.absorb kept with
      moved := c.moved + kept.length
      rows := c.rows.filter fun x => decide (c.moved + kept.length < (x.1 + 1) * (gatherOf c.b).row) }
  Moved.then (m, s3) core ch c o fun _ s => s

/-- COPY_DATA_RETURN (R210): the next burst of a running command is read and written. -/
def execCopyDataReturn (core ch : Nat) (s : State) : Host.Outcome State Fault Refusal :=
  match s.runningCopy core ch with
  | none => .refused (.eventNotPending "COPY_DATA_RETURN")
  | some c =>
    match s.team? c.key.team with
    | none => .next (s.dropCopy core ch c)
    | some t => if c.len ≤ c.moved then .refused (.eventNotPending "COPY_DATA_RETURN") else .next (s.moveBurst t core ch c)

/-! ## Digest and completion word (R212, R213) -/

/-- The digest of a command whose bytes have all moved. -/
def CopyCmd.digest (c : CopyCmd) : List Byte := sha256Of c.hash c.tail c.len

/-- Writing the digest (R212). -/
def State.writeDigest (s : State) (t : Team) (core : Nat) (c : CopyCmd) : Moved Bool × State :=
  let u : CopyUnit := { bytes := c.digest }
  if c.mod.cwg then
    match s.copyReg c c.record 32 with
    | some r => s.engineWrite core c r c.record u
    | none => (.fail 0x10 none, s)
  else
    let off := c.record.toNat
    (.ok false, (s.noteWrite t off 32).engineSpWrite c.key c.id off u (some c.mod.span))

/-- The request of the add to a peer's completion word. -/
def State.sendAdd (s : State) (c : CopyCmd) (r : Range) (va : Word) : State :=
  s.sendPeer c r va 8 (.reduce .add .z64 (bytes8 1))

/-- The checks of a completion word in global memory before anything of the record is written (R214): its
sector, tag and poison, or whether the peer will refuse the add. An add that its tag check stops is seen by the watch
filter all the same (R262). -/
def State.addCheck (s : State) (c : CopyCmd) (r : Range) (va : Word) : Moved Unit × State :=
  let a := r.target va
  if r.kind = 3 then (.ok (), s)
  else if r.kind = 2 then
    let (d, s1) := s.draw
    match peerAnswer r.peer a d with
    | 0 => (.ok (), s1)
    | code => (.fail code none, s1.sendAdd c r va)
  else
    match s.l2Bring false (a / 128) with
    | (.error w, s1) => (w.forCopy r va 4, s1)
    | (.ok x, s1) =>
      let (tags, s2) := s1.engineTag r va 8
      if tags != .same then (tags.forCopy a, (s2.watchL2 (c.party s2) 2 a 8 none).2)
      else if x.poison then (.fail 0x19 (some a), s2)
      else (.ok (), s2)

/-- The writes of a command are joined by acquiring reads of its completion word (R240). -/
def Team.markWord (t : Team) (c : CopyCmd) (at_ : WordPlace) : Team :=
  { t with stale := t.stale.map fun x =>
      if x.writer == .cp && x.op == c.id then { x with cw := some at_ } else x }

/-- The add to a completion word in global memory, checked before (R197, R213), with a release at the
command's scope: the command's writes wait in no buffer at a wider one. -/
def State.engineAdd (s : State) (c : CopyCmd) (r : Range) (va : Word) : Moved Bool × State :=
  let a := r.target va
  let marked (s : State) : State := s.modTeam c.key.team fun t => t.markWord c (wordPlace r.kind r.peer a)
  if r.kind = 3 then (.ok false, marked (s.output (.pcieAtomic a .add 1 0 8)))
  else if r.kind = 2 then (.ok false, marked (s.sendAdd c r va))
  else match s.l2Bring false (a / 128) with
    | (.error w, s1) => (w.forCopy r va 4, s1)
    | (.ok x, s1) =>
      let off := a % 128
      let v := wordOf ((x.data.drop off).take 8) + 1
      let s2 := (s1.noteCode x.sector).l2Store x (sectorImage off (bytes8 v)) (byteMask off 8) false (some c.key.team)
        (s1.opTag c.key c.id)
      let (hit, s3) := s2.watchL2 (c.party s2) 2 a 8 none
      (.ok hit, marked s3)

/-- The add to a completion word in scratchpad (R186, R213): the word holds its latest value on every path. -/
def State.engineAddSp (s : State) (c : CopyCmd) (off : Nat) : State :=
  let words := wordsAt off 8
  match s.team? c.key.team with
  | none => s
  | some t =>
    let v := wordOf (t.spBytes off 8) + 1
    (s.noteWrite t off 8).modTeam t.key fun t =>
      Team.markWord { t.spWrite off (bytes8 v) false none with stale := t.stale.filter fun x => !words.contains x.word }
        c (.scratch off)

/-- The reading of a completion word in scratchpad: the checks of a reader, and its poison (R180, R345). -/
def State.addCheckSp (s : State) (t : Team) (core : Nat) (c : CopyCmd) (off : Nat) : Moved Unit × State :=
  Moved.bind (s.engineCheck t core c off 8 none) fun _ s =>
    let words := wordsAt off 8
    let lost := words.filter (s.lostWord t)
    let s1 := s.showErrors t words lost
    let t := (s1.team? t.key).getD t
    match (words.map fun w => s1.wordPoison t (lost.contains w) w).find? (·.1) with
    | some x => (.fail (poisonCode x.2) none, s1)
    | none => (.ok (), s1.modTeam t.key fun t => { t with recon := satAdd 32 t.recon lost.length })

/-- The completion word of a command is checked before its digest is written, so that a fault there leaves
neither (R214); a missing page holds the channel (R213). -/
def State.checkAdd (s : State) (t : Team) (core : Nat) (c : CopyCmd) : Moved Unit × State :=
  let va := wordAddr c.mod c.record
  if !c.mod.cwadd then (.ok (), s)
  else if !c.mod.cwg then s.addCheckSp t core c va.toNat
  else match s.copyReg c va 8 with
    | none => (.fail 0x10 none, s)
    | some r => s.addCheck c r va

/-- The add to the completion word of a command (R213 step 3). -/
def State.writeAdd (s : State) (c : CopyCmd) : Moved Bool × State :=
  let va := wordAddr c.mod c.record
  if !c.mod.cwadd then (.ok false, s)
  else if !c.mod.cwg then (.ok false, s.engineAddSp c va.toNat)
  else match s.copyReg c va 8 with
    | some r => s.engineAdd c r va
    | none => (.fail 0x10 none, s)

/-- The last steps of a command: digest, completion word, CP (R213). A fault there is at the command's
length. -/
def State.endCopy (s : State) (t : Team) (core ch : Nat) (c : CopyCmd) : State :=
  let digest (s : State) : Moved Bool × State :=
    if c.mod.dig then s.writeDigest ((s.team? t.key).getD t) core c else (.ok false, s)
  let steps := Moved.bind (s.checkAdd t core c) fun _ s =>
    Moved.bind (digest s) fun hit s =>
      if hit then (.fail 0x16 none, s)
      else Moved.bind (s.writeAdd c) fun hit s => if hit then (.fail 0x16 none, s) else (.ok (), s)
  Moved.then (Moved.whole steps) core ch c c.len fun _ s => (s.dropCopy core ch c).settle c.key

/-- COPY_COMMAND_COMPLETE (R213): all bytes are moved; digest, completion word, CP. -/
def execCopyCommandComplete (core ch : Nat) (s : State) : Host.Outcome State Fault Refusal :=
  match s.runningCopy core ch with
  | none => .refused (.eventNotPending "COPY_COMMAND_COMPLETE")
  | some c =>
    match s.team? c.key.team with
    | none => .refused (.eventNotPending "COPY_COMMAND_COMPLETE")
    | some t =>
      if c.moved < c.len then .refused (.eventNotPending "COPY_COMMAND_COMPLETE") else .next (s.endCopy t core ch c)

end Sys2Proof.Machine
end

