-- ==== Sys2Proof/Machine/PageFaults.lean ====
section
/-!
DEFINITION. Recoverable page faults (R254 to R257): reports from the cores' fault filters to the hub
stage, page-fault records (Table 12-6), and replays.
-/

namespace Sys2Proof.Machine

/-! ## What waits on a page -/

/-- Operations parked on a page. -/
def State.parkedOps (s : State) (p : PageKey) : List MemOp :=
  s.ops.filter fun o => o.key.ctx == p.ctx && o.parked.contains p.page

/-- Copy commands held at a page, with their cores. -/
def State.heldCopies (s : State) (p : PageKey) : List (Nat × CopyCmd) :=
  s.cores.flatMap fun c => (c.channels.flatten.filter fun x => x.key.ctx == p.ctx && x.held == some p.page).map fun x => (c.num, x)

/-- WAITERS: parked warps and held channels. -/
def State.waiters (s : State) (p : PageKey) : Nat :=
  (((s.parkedOps p).map (·.key)).eraseDups).length + (s.heldCopies p).length

/-- The entry that a core's report opens (R255, R256). -/
def State.report (s : State) (r : PageReport) : PageFault :=
  { page := r.page, hub := Config.walkHub r.page.page % 4, cause := r.cause, serial := r.serial, va := r.va
    range := r.range, acc := r.acc, since := s.clock }

/-! ## The hub stage (R255) -/

/-- The entry of a page. -/
def State.pageFault? (s : State) (p : PageKey) : Option PageFault := s.pageFaults.find? (·.page == p)

/-- Changing an entry. -/
def State.modFault (s : State) (p : PageKey) (f : PageFault → PageFault) : State :=
  { s with pageFaults := updIf (·.page == p) f s.pageFaults }

/-- HUB_STAGE_REPORT (R255): a core's report opens an entry or joins one; with 512 entries in use it
waits in the core. -/
def execHubStageReport (core : Nat) (p : PageKey) (s : State) : Host.Outcome State Fault Refusal :=
  match (s.core core).filter.find? (·.page == p) with
  | none => .refused (.eventNotPending "HUB_STAGE_REPORT")
  | some r =>
    let f := s.report r
    let s1 := s.modCore core fun c => { c with filter := c.filter.filter (·.page != p) }
    match s.pageFault? p with
    | some _ => .next (s1.modFault p fun x => { x with acc := x.acc ||| f.acc })
    | none =>
      if (s.pageFaults.filter (·.hub == f.hub)).length ≥ 512 then .refused (.eventNotPending "HUB_STAGE_REPORT")
      else .next { s1 with pageFaults := s1.pageFaults ++ [f] }

/-- The eight words of a page-fault record (Table 12-6), of a lease-wait notice with CODE 0x22 (R253). -/
def pageRecord (code ctx hub range : Nat) (acc : BitVec 4) (waiters repeats page : Nat) (va serial cause time : Word) :
    List Word :=
  [ atBit code 0 ||| atBit ctx 8 ||| atBit hub 14 ||| atBit range 16 ||| atBit acc.toNat 20 |||
      atBit (Nat.min waiters 65535) 32 ||| atBit (Nat.min repeats 65535) 48,
    BitVec.ofNat 64 page, va, serial &&& 0xFFFFFFFFFFFF#64, cause, time, 0, 0 ]

/-- The causal parent of an activity of a context, by the serial of its warp (R360). -/
def State.parentBySerial (s : State) (ctx : Nat) (serial cause : Word) : Word :=
  ((s.teams.filter (·.ctx == ctx)).findSome? fun t => (t.warps.find? (·.serial == serial)).map fun w =>
    parentOf t w cause).getD 0

/-- Writing the record of an entry. -/
def State.pageFaultRecord (s : State) (f : PageFault) : State :=
  s.postRecord f.page.ctx f.hub
    (pageRecord 0x17 f.page.ctx f.hub f.range f.acc (s.waiters f.page) f.repeats f.page.page f.va f.serial f.cause
      (s.timeAt (hubEmitter f.hub 10)))
    f.cause (s.parentBySerial f.page.ctx f.serial f.cause)

/-- The window of an entry: 2,400 hub cycles, in ns (R255). -/
def faultWindow : Nat := 1000

/-- FAULT_WINDOW_CLOSE (R255): the window of an entry ends and its first record is written, once there is
room for it (R256). -/
def execFaultWindowClose (p : PageKey) (s : State) : Host.Outcome State Fault Refusal :=
  match s.pageFault? p with
  | none => .refused (.eventNotPending "FAULT_WINDOW_CLOSE")
  | some f =>
    if !f.windowOpen || decide (s.clock < f.since + faultWindow) || !s.fqRoom p.ctx then .refused (.eventNotPending "FAULT_WINDOW_CLOSE")
    else .next ((s.pageFaultRecord f).modFault p fun f => { f with windowOpen := false, recorded := true })

/-! ## Replay (R257) -/

/-- REPLAY_PAGE (R257): the driver replays one page; without an entry nothing happens. -/
def replayPage (p : PageKey) (s : State) : Host.Outcome State Fault Refusal :=
  .next (s.modFault p fun f => { f with replay := true })
def execReplayPage (p : PageKey) (s : State) : Host.Outcome State Fault Refusal := s.command (.replayPage p) (replayPage p s)

/-- REPLAY_ALL (R257): the driver replays every open page of a context. -/
def replayAll (ctx : Nat) (s : State) : Host.Outcome State Fault Refusal :=
  .next { s with pageFaults := updIf (·.page.ctx == ctx) (fun f => { f with replay := true }) s.pageFaults }
def execReplayAll (ctx : Nat) (s : State) : Host.Outcome State Fault Refusal := s.command (.replayAll ctx) (replayAll ctx s)

/-- The parked requests of a page are re-issued, and the commands held at it go on (R254). -/
def State.unpark (s : State) (p : PageKey) : State :=
  let keys := ((s.parkedOps p).map (·.key)).eraseDups
  let s1 := { s with
    ops := (updIf (·.key.ctx == p.ctx) (fun o => { o with parked := o.parked.filter (· != p.page) }) s.ops).filter
      fun o => !(o.again && o.parked.isEmpty)
    cores := s.cores.map fun c =>
      { c with channels := c.channels.map fun q =>
                 updIf (fun x => x.key.ctx == p.ctx && x.held == some p.page) (fun x => { x with held := none }) q
               filter := c.filter.filter (·.page != p) }
    pageFaults := s.pageFaults.filter (·.page != p) }
  keys.foldl State.unparkWarp s1

/-- REPLAY_WALK_RESULT (R257): the re-walk of a page. Anything but MISSING closes the entry and re-issues
its requests, which then meet the page as it is; MISSING writes a new record, or nothing while the
window is open. -/
def execReplayWalkResult (p : PageKey) (s : State) : Host.Outcome State Fault Refusal :=
  match s.pageFault? p with
  | none => .refused (.eventNotPending "REPLAY_WALK_RESULT")
  | some f =>
    if !f.replay then .refused (.eventNotPending "REPLAY_WALK_RESULT")
    else match s.walk (p.page * 65536) with
      | .missing =>
        if f.windowOpen then .next (s.modFault p fun f => { f with replay := false })
        else if !s.fqRoom p.ctx then .refused (.eventNotPending "REPLAY_WALK_RESULT")
        else
          let g := { f with replay := false, repeats := satAdd 16 f.repeats 1 }
          .next ((((s.parkedOps p).map (·.key)).eraseDups.foldl State.refreshParked (s.modFault p fun _ => g)).pageFaultRecord g)
      | _ => .next (s.unpark p)

end Sys2Proof.Machine
end

