-- ==== Sys2Proof/Machine/Graph.lean ====
section
/-!
DEFINITION. The graph and signal instructions (R291 to R294) with the events that end their waits, the
gathering of records into launches (R282), and the ends of barrier waits and sleeps (R79, R81).
-/

namespace Sys2Proof.Machine

/-! ## Scopes of a warp (R285, R286) -/

/-- A wave of lane tasks: it has no single launch scope, so its s2 is 0 (R275). -/
def Team.isWave (t : Team) : Bool := t.args.getD 2 0 == 0 && t.relay.isNone

/-- The launch scope of a lane. -/
def Team.launchScope (t : Team) (l : Nat) : Option Word := if t.isWave then t.scopes[l]? else t.scopes.head?

/-- The current scope of a lane: the joined scope, else its launch scope. -/
def Env.currentScope (e : Env) (l : Nat) : Option Word :=
  match e.w.joined with
  | some h => some h
  | none => e.t.launchScope l

/-- The scopes in which the warp's own tasks are counted; a relay team is counted in none. -/
def Team.counted (t : Team) : List Word := if t.relay.isSome then [] else t.scopes

/-- The context of an executing warp. -/
def Env.ctx (e : Env) : Context := e.s.ctx e.k.ctx

/-- A team's kernel may no longer be flushed (R323). -/
def State.unflush (s : State) (k : WKey) : State := s.modTeam k.team fun t => { t with flushable := false }

/-! ## emit (R292) -/

/-- What an emission on an out-edge slot needs: the firing, the edge, and its record; none when the node
has no such edge. -/
def Env.emitEdge (e : Env) (k : Nat) : Option (Firing × Nat × Edge) :=
  (e.s.teamFiring e.t).bind fun f => (f.outEdge (refNode e.t.nodeRef) k).bind fun n => (f.edges[n]?).map fun x => (f, n, x)

/-- Remaining reservation on an out-edge slot, 0 where there is none. -/
def Env.reservation (e : Env) (k : Nat) : Nat := if (e.emitEdge k).isSome then e.t.reserved.getD k 0 else 0

/-- Sending records: `insts` gives lane and instance in order, `m` their number. They are counted in their
scopes as they are sent, with the check of those scopes (R286, R292). -/
def Env.emitRecords (e : Env) (i : Instr) (k m : Nat) (insts : Unit → List (Nat × Nat)) : Act :=
  if m = 0 then .next ((e.s.unflush e.k).advance e.k)
  else if e.reservation k < m then e.trap 0x1C
  else match e.emitEdge k with
    | none => e.trap 0x1C
    | some (f, n, x) =>
      if x.bound ≠ 0 ∧ x.accepted + m > x.bound then e.trap 0x1C
      else
        let l := insts ()
        match l.find? fun y => (e.currentScope y.1).isNone with
        | some y => e.trap 0x1F y.1
        | none =>
          if l.any fun y => !e.ctx.accepts ((e.currentScope y.1).getD 0) e.t.counted then e.trap 0x1F
          else e.afterRelease .dv fun e =>
            let records := l.map fun y =>
              { node := f.id * 256 + x.consumer, inst := y.2, scope := (e.currentScope y.1).getD 0
                cause := e.w.cause, edge := some n : Record }
            let s1 := (e.s.unflush e.k).modTeam e.k.team fun t =>
              { t with reserved := t.reserved.set k (t.reserved.getD k 0 - m) }
            let s2 := s1.modFiring e.k.ctx f.id fun f => f.modEdge n fun x => { x with accepted := x.accepted + m }
            let s3 := records.foldl (fun s r => s.scopeUp e.k.ctx r.scope 1) s2
            .enter (s3.enterWait e.k (.emitTrip f.id records) (roundTrip i.opcode 0 (BitVec.ofNat 64 m)))

/-- The instance field of an emitted value. -/
def instanceOf (w : Word) : Nat := w.toNat % 2 ^ 44

def execEmit (o : Ops (BitVec 16)) (s : State) : Host.Outcome State Fault Refusal :=
  runRaw (.emit o) s fun e =>
    e.emitRecords (.emit o) o.mod.toNat e.lanes.length fun _ => e.lanes.map fun l => (l, instanceOf (e.lane o.a l))

def execEmitn (o : Ops (BitVec 16)) (s : State) : Host.Outcome State Fault Refusal :=
  runRaw (.emitn o) s fun e =>
    let n := (e.scalar o.b).toNat
    e.emitRecords (.emitn o) o.mod.toNat n fun _ =>
      (List.range n).map fun j => (0, ((e.scalar o.a).toNat + j) % 2 ^ 44)

def execEmitq (o : Ops (BitVec 16)) (s : State) : Host.Outcome State Fault Refusal :=
  runSeq (.emitq o) s fun e => .next (e.setS o.d (BitVec.ofNat 64 (e.reservation o.mod.toNat)))

/-! ## Gathering (R282) -/

/-- Changing a node of a firing. -/
def Firing.modNode (f : Firing) (n : Nat) (g : Node → Node) : Firing :=
  match f.nodes[n]? with
  | some x => { f with nodes := f.nodes.set n (g x) }
  | none => f

/-- The launch of gathered records (R275): a team of one record, or a wave. -/
def Node.launch (x : Node) (id ctx packet firing n : Nat) (take : List Record) : Launch :=
  let r := take.headD ⟨0, 0, 0, 0, none⟩
  let at0 (i : Nat) : Word := x.argBase + BitVec.ofNat 64 (i * x.argStride)
  { id := id, ctx := ctx, packet := packet, kernel := x.kernel, inst := r.inst
    args := if x.lane then [x.argBase, BitVec.ofNat 64 take.length, 0, 0] else [at0 r.inst, BitVec.ofNat 64 r.inst, r.scope, 0]
    scopes := take.map (·.scope), records := take, firing := some firing, node := n, parent := r.cause }

/-- Forming a launch of the first m records of a node: they leave the edge, whose FREE rises, and a root
record's packet has started (R273, R282). -/
def State.formLaunch (s : State) (ctx : Nat) (f : Firing) (n : Nat) (x : Node) (m : Nat) : State :=
  let take := x.pending.take m
  let (id, s1) := s.takeId
  let s2 := { s1 with launches := s1.launches ++ [x.launch id ctx f.packet f.id n take] }
  let s3 := s2.modFiring ctx f.id fun f =>
    take.foldl (fun f r => match r.edge with | some e => f.modEdge e fun y => { y with free := y.free + 1 } | none => f)
      (f.modNode n fun x => { x with pending := x.pending.drop m })
  if take.any (·.edge.isNone) then s3.modPacket f.packet fun p => { p with started := true } else s3

/-- Forming every launch that a node's pending records allow; `fuel` bounds their number. -/
def State.gather (ctx fid n : Nat) : Nat → State → State
  | 0, s => s
  | fuel + 1, s =>
    match (s.ctx ctx).firing? fid with
    | none => s
    | some f =>
      match f.nodes[n]? with
      | none => s
      | some x =>
        if x.lane then
          (if x.pending.length ≥ x.thresh then State.gather ctx fid n fuel (s.formLaunch ctx f n x 32) else s)
        else if x.pending.isEmpty then s
        else State.gather ctx fid n fuel (s.formLaunch ctx f n x 1)

/-- Records arrive at the foundry in order: pending on their node, and gathered while the foundry serves
(R372). -/
def State.arriveRecords (s : State) (ctx fid : Nat) (l : List Record) : State :=
  let s1 := s.modFiring ctx fid fun f =>
    l.foldl (fun f r => f.modNode (refNode r.node) fun x => { x with pending := x.pending ++ [r], last := s.clock }) f
  if !s.serving then s1
  else (l.map fun r => refNode r.node).eraseDups.foldl (fun s n => State.gather ctx fid n (l.length + 257) s) s1

/-- EMIT_RECORD_ARRIVAL (R292): a warp's records reach the foundry, and its round trip ends. -/
def execEmitRecordArrival (k : WKey) (s : State) : Host.Outcome State Fault Refusal :=
  match s.warp? k with
  | none => .refused (.eventNotPending "EMIT_RECORD_ARRIVAL")
  | some w =>
    match w.act with
    | .emitTrip fid l =>
      .next (((s.arriveRecords k.ctx fid l).leaveWait k).advance k)
    | _ => .refused (.eventNotPending "EMIT_RECORD_ARRIVAL")

/-- GATHER_TIMEOUT (R282): TIMEOUT has passed since the last record arrived and a partial wave forms. -/
def execGatherTimeout (ctx firing node : Nat) (s : State) : Host.Outcome State Fault Refusal :=
  match (s.ctx ctx).firing? firing with
  | none => .refused (.eventNotPending "GATHER_TIMEOUT")
  | some f =>
    match f.nodes[node]? with
    | none => .refused (.eventNotPending "GATHER_TIMEOUT")
    | some x =>
      if s.serving && x.lane && !x.pending.isEmpty && decide (x.last + 100 * x.timeout ≤ s.clock) then .next (s.formLaunch ctx f node x 32)
      else .refused (.eventNotPending "GATHER_TIMEOUT")

/-! ## Scope instructions (R293) -/

/-- A scope instruction's effect at the foundry is made, and its reply is under way. -/
def Env.scopeTrip (e : Env) (i : Instr) (s : State) (what : Word) (r : ScopeReply) : Act :=
  .enter (s.enterWait e.k (.scopeTrip r) (roundTrip i.opcode what 0))

/-- The state of a scope as two bits. -/
def ScopeEntry.stateBits (x : ScopeEntry) : Nat := x.status % 4

/-- The word of `fswait` (Table 13-12), and of `fsstat` (Table 13-13). -/
def ScopeEntry.waitWord (x : ScopeEntry) : Word :=
  atBit (Nat.min x.faults (2 ^ 14 - 1)) 50 ||| (x.fserial <<< 2) ||| atBit x.stateBits 0
def ScopeEntry.statWord (x : ScopeEntry) : Word :=
  atBit (x.count % 2 ^ 32) 32 ||| atBit (b2n x.done) 3 ||| atBit (b2n x.closed) 2 ||| atBit x.stateBits 0

def execFsopen (o : Ops (BitVec 16)) (s : State) : Host.Outcome State Fault Refusal :=
  runRaw (.fsopen o) s fun e =>
    let parent := e.scalar o.a
    let pk : BitVec 4 := o.imm.setWidth 4
    if parent ≠ 0 && !e.ctx.accepts parent e.t.counted then e.trap 0x1F
    else
      let s0 := e.s.unflush e.k
      match s0.allocScope e.k.ctx parent none with
      | some (h, s1) => e.scopeTrip (.fsopen o) (s1.scopeUp e.k.ctx parent 1) parent ⟨o.d, h, some (pk, true)⟩
      | none => e.scopeTrip (.fsopen o) s0 parent ⟨o.d, 0, some (pk, false)⟩

/-- The records that a warp has on their way to a firing. -/
def Warp.sending (w : Warp) (firing : Nat) : List Record :=
  match w.act with
  | .emitTrip f l => if f = firing then l else []
  | _ => []

/-- A warp without its records of a scope. -/
def Warp.unsend (w : Warp) (h : Word) : Warp :=
  match w.act with
  | .emitTrip f l => { w with act := .emitTrip f (l.filter (·.scope != h)) }
  | _ => w

/-- Records counted in a scope that no launch has gathered, pending on a node or on their way to it, are
discarded: their slots are freed (R293). How many there are. -/
def State.discardRecords (s : State) (ctx : Nat) (h : Word) : Nat × State :=
  let of_ (f : Firing) : List Record :=
    (f.nodes.flatMap (·.pending) ++ (s.teams.filter (·.ctx == ctx)).flatMap fun t => t.warps.flatMap (·.sending f.id)).filter
      (·.scope == h)
  let n := (s.ctx ctx).firings.foldl (fun n f => n + (of_ f).length) 0
  let s1 := s.modCtx ctx fun c => { c with firings := c.firings.map fun f =>
    let f1 := (of_ f).foldl (fun f r => match r.edge with | some e => f.modEdge e fun y => { y with free := y.free + 1 } | none => f) f
    { f1 with nodes := f1.nodes.map fun x => { x with pending := x.pending.filter (·.scope != h) } } }
  (n, { s1 with teams := updIf (·.ctx == ctx) (fun t => { t with warps := t.warps.map (·.unsend h) }) s1.teams })

/-- Closing a scope: CLOSED, the status of `.cancel`, `.detach`, and what being done brings. -/
def State.closeScope (s : State) (ctx : Nat) (h : Word) (cancel detach : Bool) : State :=
  let s1 := s.modScope ctx h fun x =>
    { x with closed := true, detach := x.detach || detach, status := if cancel && x.status != 1 then 2 else x.status }
  let (n, s2) := if cancel then s1.discardRecords ctx h else (0, s1)
  (State.scopeFall ctx (scopeEntries + 1) s2 h n).settlePackets ctx

def execFsclose (o : Ops (BitVec 16)) (s : State) : Host.Outcome State Fault Refusal :=
  runRaw (.fsclose o) s fun e =>
    let h := e.scalar o.a
    match e.ctx.scope? h with
    | none => e.trap 0x1F
    | some x =>
      if x.closed then e.trap 0x1F
      else e.scopeTrip (.fsclose o) (e.s.closeScope e.k.ctx h (o.mod.getLsbD 0) (o.mod.getLsbD 1)) h
        ⟨.special .zero, 0, none⟩

/-- `fsjoin`: the handle must be live or 0 (assumption 24). -/
def execFsjoin (o : Ops (BitVec 16)) (s : State) : Host.Outcome State Fault Refusal :=
  runRaw (.fsjoin o) s fun e =>
    let h := e.scalar o.a
    if h ≠ 0 && (e.ctx.scope? h).isNone then e.trap 0x1F
    else e.scopeTrip (.fsjoin o) (e.s.modWarp e.k fun w => { w with joined := if h = 0 then none else some h }) h
      ⟨.special .zero, 0, none⟩

def execFsstat (o : Ops (BitVec 16)) (s : State) : Host.Outcome State Fault Refusal :=
  runRaw (.fsstat o) s fun e =>
    let h := e.scalar o.a
    match e.ctx.scope? h with
    | none => e.trap 0x1F
    | some x => e.scopeTrip (.fsstat o) e.s h ⟨o.d, x.statWord, none⟩

def execFswait (o : Ops (BitVec 16)) (s : State) : Host.Outcome State Fault Refusal :=
  runRaw (.fswait o) s fun e =>
    let h := e.scalar o.a
    match e.ctx.scope? h with
    | none => e.trap 0x1F
    | some x =>
      if !x.closed || x.detach || e.t.counted.any (fun own => e.ctx.under (scopeEntries + 1) own h) then e.trap 0x1F
      else .enter (e.s.enterWait e.k (.scopeWait o.d h) { kind := 2, obj := h, a0 := BitVec.ofNat 64 x.count })

/-- Writing the reply of a scope instruction. -/
def Warp.reply (w : Warp) (width : Nat) (r : ScopeReply) : Warp :=
  let w1 := w.setS r.dst r.value
  match r.pred with
  | some (n, set) => w1.setP n width (if set then BitVec.allOnes 64 else 0)
  | none => w1

/-- SCOPE_REPLY (R293): the foundry's reply ends a round trip; the reply of an `fswait` comes once the
scope is done. -/
def execScopeReply (k : WKey) (s : State) : Host.Outcome State Fault Refusal :=
  if !s.serving then .refused (.eventNotPending "SCOPE_REPLY")
  else match s.team? k.team, s.warp? k with
  | some t, some w =>
    match w.act with
    | .scopeTrip r =>
      .next (((s.modWarp k fun w => w.reply t.kernel.width r).leaveWait k).advance k)
    | .scopeWait d h =>
      if t.still w then .refused (.eventNotPending "SCOPE_REPLY")
      else match (s.ctx k.ctx).scope? h with
        | some x =>
          if !x.done then .refused (.eventNotPending "SCOPE_REPLY")
          else
            let s1 := (s.modWarp k fun w => w.setS d x.waitWord).freeScope k.ctx h
            .next (((s1.leaveWait k).acquire w.core t.kernel.paired .dv).advance k)
        | none =>
          -- another `fswait` has freed the entry: the handle is no longer live
          if s.fqRoom k.ctx then .next ((s.leaveWait k).takeFault k (w.faultAt 0x1F))
          else .refused (.eventNotPending "SCOPE_REPLY")
    | _ => .refused (.eventNotPending "SCOPE_REPLY")
  | _, _ => .refused (.eventNotPending "SCOPE_REPLY")

/-! ## Signals (R294) -/

/-- SCOPE and ORD of a signal instruction. -/
def sigScope (m : BitVec 16) : Scope :=
  match m.toNat % 8 with
  | 0 => .wp | 1 => .tm | 2 => .dv | 3 => .cl | _ => .sy
def sigOrd (m : BitVec 16) : Ord :=
  match m.toNat / 8 % 4 with
  | 0 => .rlx | 1 => .acq | 2 => .rel | _ => .ar

/-- A signal word's page is missing in a demand range: the warp parks, and the instruction is executed
again after the replay. -/
def State.parkSignal (s : State) (k : WKey) (w : Warp) (i : Instr) (va : Word) (r : Range) (kind : OpKind) : State :=
  let (id, s1) := s.takeId
  let a : LaneAccess :=
    { lane := 255, va := va, ia := r.target va, range := r.idx, rkind := r.kind, peer := r.peer, tc := r.tc }
  let op : MemOp :=
    { id := id, key := k, core := w.core, kind := kind, pc := w.pc, word := (encode i).getD 0, cause := w.cause
      serial := w.serial, lanes := [a], size := 8, pk := 0, ty := .z64, atop := .add, cache := .l2, ord := .rlx
      scope := .wp, seq := w.issuedAcc, again := true }
  ({ s1 with ops := s1.ops ++ [op] }).park op a

/-- What reading the page of a signal word finds. -/
inductive SigPage where
  | ready (s : State)
  | park (s : State)
  | trap (s : State) (code : Nat) (ia : Option Nat)

/-- The party of a signal access. -/
def State.warpParty (s : State) (k : WKey) (w : Warp) : Party :=
  { team := some k.team, isEngine := false, code := 4, serial := w.serial, cause := w.cause
    parent := ((s.team? k.team).map (·.cause)).getD 0 }

/-- The page, the tag and the poison of a signal word; an access that fails its tag check is seen by the
watch filter all the same (R262). -/
def State.signalPage (s : State) (k : WKey) (w : Warp) (i : Instr) (va : Word) (r : Range) (kind : OpKind) : SigPage :=
  let ia := r.target va
  match s.translate ia with
  | (.leaf _ _, s1) =>
    let (tags, s2) := s1.tagCheck { lane := 255, va := va, ia := ia, tc := r.tc } 8
    if tags != .same then
      .trap (s2.watchL2 (s2.warpParty k w) kind.watchKind ia 8 (some 0)).2 (tags.code (if kind == .load then 0x13 else 0x14))
        (if tags == .poisoned then some ia else none)
    else match s2.l2Bring false (ia / 128) with
      | (.ok x, s3) => if x.poison then .trap s3 0x19 (some ia) else .ready s3
      | (.error _, s3) => .trap s3 0x18 none
  | (.missing, s1) => if r.kind = 1 then .park (s1.parkSignal k w i va r kind) else .trap s1 0x18 none
  | (.poisoned _, s1) => .trap s1 0x19 (some ia)
  | (.malformed, s1) => .trap s1 0x18 none

/-- What leaves the core's L1 before a signal word is accessed at L2: dirty bytes of its sector, and the location
under another address (R197, R220). -/
def Env.stray (e : Env) (ia : Nat) (x : L1Sector) : Bool :=
  if x.sector == ia / 128 then x.isDirty else e.s.sameSector x.sector (ia / 128)

/-- The checks and waits of a signal instruction, then `f` with its range (R294). The dirty bytes of its
sector in the core's L1 reach L2 first (R197). -/
def Env.signal (e : Env) (i : Instr) (a : Operand) (kind : OpKind) (f : Env → Word → Range → Act) (count : Word := 0) : Act :=
  let va := e.scalar a
  if va.toNat % 8 ≠ 0 then e.trap 0x06 255 va
  else match e.ctx.findRange va 8 with
    | none => e.trap 0x10 255 va
    | some r =>
      if r.kind = 0 ∧ !e.t.leases.getLsbD r.idx then e.trap 0x11 255 va
      else if r.kind = 2 ∨ !r.permits kind then e.trap 0x12 255 va
      else
        let ia := r.target va
        let acc : LaneAccess := { lane := 255, va := va, ia := ia, rkind := r.kind }
        if (e.watchHit kind.watchKind 8 [acc]).isSome then e.trap 0x16 255 va
        else if e.heldByAcquire || e.olderAccess 8 [acc] then .wait e.s
        else if r.kind = 3 then f e va r
        else if ((e.s.core e.w.core).l1.filter (e.stray ia)).length ≠ 0 then
          .wait ((((e.s.core e.w.core).l1.filter (e.stray ia)).foldl (fun s x =>
            if x.sector == ia / 128 then s.cleanFor e.w.core x.sector else s.surrender e.w.core x.sector) e.s).beginWait e.k
              (roundTrip i.opcode va count))
        else if e.s.wbPending e.w.core (ia / 128) then .wait e.s
        else match e.s.signalPage e.k e.w i va r kind with
          | .ready s => f { e with s := s } va r
          | .park s => .wait s
          | .trap s c ia => .trapAfter s (e.w.faultAt c 255 va) ia

/-- Adding to a signal word, atomically at L2 or by FetchAdd over the host link, whose Unsupported
Request is a late PERMISSION (R197). -/
def Env.signalAdd (e : Env) (va : Word) (r : Range) (x : Word) : State :=
  let ia := r.target va
  let s0 := e.s.unflush e.k
  if r.kind = 3 then
    let (n, s1) := (s0.output (.pcieAtomic ia .add x 0 8)).draw
    if n % 2 = 1 then s1.lateFault e.k.team (e.w.faultAt 0x12 255 va) false else s1
  else match s0.l2? false (ia / 128) with
    | none => s0
    | some y =>
      let off := ia % 128
      let bs := bytes8 (wordOf ((y.data.drop off).take 8) + x)
      let s1 := (s0.noteCode y.sector).l2Store y (sectorImage off bs) (byteMask off 8) false (some e.k.team)
        (s0.causeTag e.k e.w.core)
      ((s1.l1Atomic e.w.core (ia / 128) (sectorImage off bs) (byteMask off 8)).watchL2 (s1.warpParty e.k e.w) 2 ia 8 (some 0)).2

/-- `sigdec` and `sigadd`: the release action, then the update, whose reply ends a round trip (WKIND 15 with the
signal VA and, for `sigadd`, s(B); R363). -/
def Env.signalUpdate (e : Env) (i : Instr) (o : Ops (BitVec 16)) (x count : Word) : Act :=
  let update (va : Word) (r : Range) (e : Env) : Act :=
    .enter ((e.signalAdd va r x).enterWait e.k .sigTrip (roundTrip i.opcode va count))
  e.signal i o.a .atomic (fun e va r =>
    if sigOrd o.mod == .rel then e.afterRelease (sigScope o.mod) (update va r) else update va r e) count

def execSigdec (o : Ops (BitVec 16)) (s : State) : Host.Outcome State Fault Refusal :=
  runRaw (.sigdec o) s fun e => e.signalUpdate (.sigdec o) o (BitVec.allOnes 64) 0

def execSigadd (o : Ops (BitVec 16)) (s : State) : Host.Outcome State Fault Refusal :=
  runRaw (.sigadd o) s fun e => e.signalUpdate (.sigadd o) o (e.scalar o.b) (e.scalar o.b)

/-- The reply to an update of a signal word reaches its warp, and the round trip ends. -/
def State.signalReply (k : WKey) (s : State) : Host.Outcome State Fault Refusal :=
  match s.warp? k with
  | some w =>
    if w.act == .sigTrip then .next ((s.leaveWait k).advance k) else .refused (.eventNotPending "SIGADD")
  | none => .refused (.eventNotPending "SIGADD")

/-- The value of a signal word that may be read now. -/
def State.signalValue (s : State) (r : Range) (va : Word) (p : Party) : Word × State :=
  let ia := r.target va
  if r.kind = 3 then
    let (n, s1) := s.draw
    (wordOf ((List.range 8).map fun k => Config.hostByte (ia + k) n), s1)
  else match s.l2? false (ia / 128) with
    | some y => (wordOf ((y.data.drop (ia % 128)).take 8), (s.watchL2 p 0 ia 8 (some 0)).2)
    | none => (0, s)

/-- COND of `sigwait`. -/
def sigCond (m : BitVec 16) : Nat := m.toNat / 32 % 8

/-- The wait-table entry of a `sigwait`. -/
def sigEntry (va v b : Word) (cond : Nat) : WaitEntry :=
  { kind := 3, obj := va, a0 := v, a1 := b, a2 := BitVec.ofNat 64 cond }

/-- The condition of a `sigwait` holds: its result and its acquire action, which joins the commands that have
incremented the word (R240). -/
def Env.sigDone (e : Env) (s : State) (o : Ops (BitVec 16)) (at_ : WordPlace) (v : Word) : State :=
  let s1 := s.modWarp e.k fun w => w.setS o.d v
  if sigOrd o.mod == .acq then
    (s1.joinAt e.k (sigScope o.mod) [at_]).acquire e.w.core e.t.kernel.paired (sigScope o.mod)
  else s1

def execSigwait (o : Ops (BitVec 16)) (s : State) : Host.Outcome State Fault Refusal :=
  runRaw (.sigwait o) s fun e => e.signal (.sigwait o) o.a .load fun e va r =>
    let (v, s1) := e.s.signalValue r va (e.s.warpParty e.k e.w)
    if branchCond (sigCond o.mod) v (e.scalar o.b) then .next ((e.sigDone s1 o (wordPlace r.kind r.peer (r.target va)) v).advance e.k)
    else .enter (s1.enterWait e.k (.sigWait o) (sigEntry va v (e.scalar o.b) (sigCond o.mod)))

/-- A re-read of a waiting `sigwait`: it ends, waits on, parks or traps. -/
def Env.reread (e : Env) (o : Ops (BitVec 16)) : State :=
  let i : Instr := .sigwait o
  let va := e.scalar o.a
  match e.ctx.findRange va 8 with
  | none => e.s.takeFault e.k (e.w.faultAt 0x10 255 va)
  | some r =>
    let go (s : State) : State :=
      let (v, s1) := s.signalValue r va (s.warpParty e.k e.w)
      if branchCond (sigCond o.mod) v (e.scalar o.b) then
        ((e.sigDone s1 o (wordPlace r.kind r.peer (r.target va)) v).leaveWait e.k).advance e.k
      else s1.modWarp e.k fun w => { w with wait := w.wait.map fun x => { x with a0 := v } }
    if r.kind = 3 then go e.s
    else match e.s.signalPage e.k e.w i va r .load with
      | .ready s => go s
      | .park s => s
      | .trap s c ia => (s.leaveWait e.k).takeFault e.k (e.w.faultAt c 255 va) ia

/-- SIGWAIT_REREAD (R294): a waiting `sigwait` reads its word again. -/
def execSigwaitReread (k : WKey) (s : State) : Host.Outcome State Fault Refusal :=
  match s.team? k.team, s.warp? k with
  | some t, some w =>
    match w.act with
    | .sigWait o =>
      if t.still w || w.parked || !s.fqRoom k.ctx then .refused (.eventNotPending "SIGWAIT_REREAD")
      else .next (Env.reread ⟨s, k, t, w, 0⟩ o)
    | _ => .refused (.eventNotPending "SIGWAIT_REREAD")
  | _, _ => .refused (.eventNotPending "SIGWAIT_REREAD")

/-! ## The ends of other waits (R79, R81) -/

/-- BARRIER_WAKE (R79): the phase that a warp waits for has completed. -/
def execBarrierWake (k : WKey) (s : State) : Host.Outcome State Fault Refusal :=
  match s.team? k.team, s.warp? k with
  | some t, some w =>
    match w.act with
    | .barWait b =>
      if t.still w || w.parked || (t.barrier b).phase == (w.arrival b).2 then .refused (.eventNotPending "BARRIER_WAKE")
      else .next (((s.leaveWait k).leaveBarrier k b).advance k)
    | _ => .refused (.eventNotPending "BARRIER_WAKE")
  | _, _ => .refused (.eventNotPending "BARRIER_WAKE")

/-- SLEEP_EXPIRY (R81): the count of a sleeping warp ends. -/
def execSleepExpiry (k : WKey) (s : State) : Host.Outcome State Fault Refusal :=
  match s.team? k.team, s.warp? k with
  | some t, some w =>
    if w.act == .sleep && !t.still w && s.sleepRemain w == 0 then
      .next ((s.modWarp k fun w => { w with sleepLeft := 0 }).leaveWait k)
    else .refused (.eventNotPending "SLEEP_EXPIRY")
  | _, _ => .refused (.eventNotPending "SLEEP_EXPIRY")

/-- REG_RELOAD (R97): the reload of a spilled register fills its row; its count and event (R99). -/
def execRegReload (k : WKey) (v : Nat) (s : State) : Host.Outcome State Fault Refusal :=
  match s.team? k.team, s.warp? k with
  | some t, some w =>
    match w.reloading with
    | some (n, named) =>
      if n ≠ v then .refused (.eventNotPending "REG_RELOAD")
      else
        let r := w.vreg v
        if !r.spilled then .next (s.modWarp k fun w => { w with reloading := none })
        else match s.takeRow k t.kernel.g named with
          | none => .refused (.eventNotPending "REG_RELOAD")
          | some (row, s0) =>
            let (x, s1) := s0.readSlot k v ((s0.warp? k).getD w |>.vreg v)
            let s2 := s1.emit (w.src 1) 0x022 (auxCtx k.ctx) w.cause t.cause (regEventPayload w.serial v r.rank)
            .next (s2.modWarp k fun w =>
              { (w.setV v { x with spilled := false, row := row, dirty := false }) with
                reloads := satAdd 32 w.reloads 1, reloading := none, served := v :: w.served })
    | none => .refused (.eventNotPending "REG_RELOAD")
  | _, _ => .refused (.eventNotPending "REG_RELOAD")

end Sys2Proof.Machine
end

