-- ==== Sys2Proof/Machine/System.lean ====
section
/-!
DEFINITION. The system and recorder instructions: `trap`, `bkpt`, `dbgh` (R336), `sysr` and `sysw`
(R337), `icinv` (R338), `pwrq` (R339), `evt`, `evtp`, `clkr`, `causer` (R365), and the end of an
`icinv`.
-/

namespace Sys2Proof.Machine

/-! ## trap, bkpt, dbgh (R315, R336) -/

/-- The instruction halts its team; the resume PC is the instruction after it (R315). Without room for
the record the warp waits (R318). -/
def Env.stopHere (e : Env) (code aux : Nat) : Act :=
  if e.s.fqRoom e.k.ctx then
    .wait ((e.s.trapped e.k (e.w.faultAt code 255 0 aux) none).modWarp e.k fun w => { w with pc := e.w.pc + 12 })
  else .wait e.s

def execTrap (o : Ops (BitVec 16)) (s : State) : Host.Outcome State Fault Refusal :=
  runRaw (.trap o) s fun e => e.stopHere 0x21 o.imm.toNat

def execBkpt (o : Ops (BitVec 16)) (s : State) : Host.Outcome State Fault Refusal :=
  runRaw (.bkpt o) s fun e => e.stopHere 0x20 o.imm.toNat

def execDbgh (o : Ops (BitVec 16)) (s : State) : Host.Outcome State Fault Refusal :=
  runRaw (.dbgh o) s fun e => if e.ctx.attach then e.stopHere 0x25 0 else .next (e.s.advance e.k)

/-! ## System registers (R337) -/

/-- WIDTH of a kernel (Table 13-7). -/
def Kernel.widthCode (k : Kernel) : Nat := if k.width = 16 then 0 else if k.width = 32 then 1 else 2

/-- Slices of a hub. -/
def slicesPerHub : Nat := 32

/-- L2DT, CORES and RETFR of the capacity word (Table 16-2). -/
def State.capacityTop (s : State) : Nat :=
  let l2dt := slicesPerHub * ((List.range 4).filter fun h => (s.hub h).decTed).length
  let cores := Config.cores - (s.cores.filter (·.retired)).length
  let retired := (List.range 4).foldl (fun n h => n + (s.hub h).retiredFrames.length + (s.hub h).unlisted) 0
  l2dt * 2 ^ 24 + cores * 2 ^ 14 + Nat.min retired 16383

/-- GRET, DEGR, RBANK and USABLE of a core (Table 16-2). -/
def Core.capacity (c : Core) : Nat :=
  let bank (g : Nat) : Nat := c.rbank.getD g 0 % 8
  c.gret.toNat * 2 ^ 20 + c.degr.toNat * 2 ^ 16 +
    (bank 0 * 2 ^ 4 + bank 1 * 2 ^ 7 + bank 2 * 2 ^ 10 + bank 3 * 2 ^ 13) + (if c.gret = 0 then 4 else 3)

/-- The capacity word of a core (Table 16-2). -/
def State.capacityWord (s : State) (c : Nat) : Word := atBit s.capacityTop 32 ||| atBit (s.core c).capacity 0

/-- The word of a system register (Table 15-10). -/
def Env.sysReg (e : Env) : Nat → Word
  | 0 =>
    let k := e.t.kernel
    atBit k.n 0 ||| atBit k.g 9 ||| atBit k.widthCode 18 ||| atBit k.warps 20 ||| atBit k.tiles 27 |||
      atBit (k.scratch / 16) 32 ||| atBit (b2n k.paired) 53
  | 1 =>
    let c := e.ctx
    atBit c.cls 0 ||| atBit (b2n c.warn) 3 ||| atBit (b2n c.verified) 4 ||| atBit (b2n c.attach) 5 |||
      atBit (fieldOf c.control 31 24) 6
  | 2 => e.s.capacityWord e.w.core
  | 3 => BitVec.ofNat 64 e.t.issued
  | _ => atBit (e.t.saves % 65536) 0 ||| atBit (e.t.drains % 65536) 16 ||| atBit (e.t.flushes % 65536) 32

def execSysr (o : Ops (BitVec 16)) (s : State) : Host.Outcome State Fault Refusal :=
  runSeq (.sysr o) s fun e => .next (e.setS o.d (e.sysReg o.mod.toNat))

/-- E of `sysw expect`. -/
def expectOf (x : Word) : Nat := Nat.min (Nat.max x.toNat 1) (2 ^ 40 - 1)

def execSysw (o : Ops (BitVec 16)) (s : State) : Host.Outcome State Fault Refusal :=
  runSeq (.sysw o) s fun e =>
    if o.mod = 0x20 then .next (e.s.modTeam e.k.team fun t => { t with expect := expectOf (e.scalar o.a) })
    else .next (e.s.unflush e.k)

/-! ## icinv (R338) -/

/-- The older contents of a sector after an `icinv` of a range: none of the bytes it covers. -/
def State.coverOld (s : State) (ia n : Nat) (x : Nat × List Byte) : Option (Nat × List Byte) :=
  if !meets (128 * x.1) 128 ia n then some x
  else
    let now := (s.iaNow x.1).getD x.2
    let bs := (x.2.zipIdx).map fun (b, i) => if ia ≤ 128 * x.1 + i ∧ 128 * x.1 + i < ia + n then now.getD i 0 else b
    if bs = now then none else some (x.1, bs)

/-- Every core drops the instructions that a range of IA touches from its instruction cache and its loop
buffers, and no fetch returns older contents of the range any more. -/
def State.dropCode (s : State) (ia n : Nat) : State :=
  let spared (a : Nat) : Bool := !meets a 12 ia n
  let out (x : Nat × BitVec 96) : Bool := spared x.1
  { s with
    codeOld := s.codeOld.filterMap (s.coverOld ia n)
    cores := s.cores.map fun c => { c with icache := c.icache.filter out, badCode := c.badCode.filter spared }
    teams := s.teams.map fun t => { t with warps := t.warps.map fun w =>
      { w with loopBuf := w.loopBuf.filter out, badLoop := w.badLoop.filter spared } } }

/-- The check of the range: a trap code, or the IA of its first byte. -/
def Env.codeRange (e : Env) (va : Word) (n : Nat) : Except Nat Nat :=
  match e.ctx.findRange va n with
  | none => .error 0x10
  | some r =>
    if r.kind = 0 ∧ !e.t.leases.getLsbD r.idx then .error 0x11
    else if !r.pex then .error 0x12
    else .ok (r.target va)

/-- `icinv` (R338): the dv release action first, then the check of the range. -/
def execIcinv (o : Ops (BitVec 16)) (s : State) : Host.Outcome State Fault Refusal :=
  runRaw (.icinv o) s fun e =>
    let va := e.scalar o.a
    let n := (e.scalar o.b).toNat
    if n = 0 then .next (e.s.advance e.k)
    else e.afterRelease .dv fun e =>
      match e.codeRange va n with
      | .error c => .trapAfter e.s (e.w.faultAt c 255 va) none
      | .ok ia => .enter (e.s.enterWait e.k (.icinv ia n) (roundTrip (Instr.opcode (.icinv o)) va (BitVec.ofNat 64 n)))

/-- ICINV_ACKNOWLEDGE (R338): every core has dropped the range and acknowledged, and the waiting warp goes on. -/
def execIcinvAcknowledge (k : WKey) (s : State) : Host.Outcome State Fault Refusal :=
  match s.warp? k with
  | some w =>
    match w.act with
    | .icinv ia n => .next (((s.dropCode ia n).leaveWait k).advance k)
    | _ => .refused (.eventNotPending "ICINV_ACKNOWLEDGE")
  | none => .refused (.eventNotPending "ICINV_ACKNOWLEDGE")

/-! ## pwrq (R339) -/

def execPwrq (o : Ops (BitVec 16)) (s : State) : Host.Outcome State Fault Refusal :=
  runSeq (.pwrq o) s fun e =>
    if o.mod = 0 then
      let (n, s1) := e.s.draw
      .next (s1.modWarp e.k fun w => w.setS o.d (BitVec.ofNat 64 (Config.powerOf n % 2 ^ 32)))
    else
      let clk := e.s.mgmt.dieClk.getD (e.w.core / Config.coresPerDie) 1900
      .next (e.setS o.d (atBit (clk % 65536) 0 ||| atBit (e.s.mgmt.throttleSteps % 2 ^ 32) 16))

/-! ## Recorder instructions (R365) -/

/-- The parent of a USER record: s(B), or the warp's own parent. -/
def Env.userParent (e : Env) (b : Operand) : Word := if b = .special .zero then e.t.cause else e.scalar b

/-- The payload of `evt`: s(A) to s(A + 3), or zeros. -/
def Env.userPayload (e : Env) (a : Operand) : List Word :=
  match a with
  | .s n => (List.range 4).map fun j => e.scalar (.s (n + BitVec.ofNat 6 j))
  | _ => [0, 0, 0, 0]

def execEvt (o : Ops (BitVec 16)) (s : State) : Host.Outcome State Fault Refusal :=
  runSeq (.evt o) s fun e =>
    .next (e.s.emit (e.w.src 0) 0x100 o.imm.toNat e.w.cause (e.userParent o.b) (e.userPayload o.a))

def execEvtp (o : Ops (BitVec 16)) (s : State) : Host.Outcome State Fault Refusal :=
  runSeq (.evtp o) s fun e =>
    .next ((maskLanes e.width e.w.mask).foldl (fun s l =>
      s.emit (e.w.src 0) 0x101 o.imm.toNat e.w.cause (e.userParent o.b)
        [e.lane o.a l, e.scalar o.b, BitVec.ofNat 64 l, 0]) e.s)

def execClkr (o : Ops (BitVec 16)) (s : State) : Host.Outcome State Fault Refusal :=
  runSeq (.clkr o) s fun e =>
    .next (e.setS o.d (if o.mod = 0 then e.s.timeAt e.w.core else BitVec.ofNat 64 (e.s.uncAt e.w.core)))

def execCauser (o : Ops (BitVec 16)) (s : State) : Host.Outcome State Fault Refusal :=
  runSeq (.causer o) s fun e => .next (e.setS o.d (if o.mod = 0 then e.w.cause else e.t.cause))

end Sys2Proof.Machine
end

