-- ==== Sys2Proof/Machine/Frame.lean ====
section
/-!
DEFINITION. The frame of a team in the save area (R332, Tables 15-5 and 15-6): its bytes as a save, a
snapshot or a halt writes them, and what a restore or a LOAD reads back. Where the tables give a field's
size and not its bits, the layout is the model's (assumption 26).
-/

namespace Sys2Proof.Machine

/-! ## Words of a warp block (Table 15-6) -/

/-- Mask of an element of a list of warps' words. -/
def packBits (l : List Bool) : Nat := (l.zipIdx).foldl (fun n (b, i) => if b then n + 2 ^ i else n) 0

/-- Fixed-length lists. -/
def padTo {α : Type} (n : Nat) (x : α) (l : List α) : List α := l.take n ++ List.replicate (n - l.length) x

/-- The words of an index register: 64 indexes of 16 bits, then bound 7:0, shape 9:8 and stride 31:16. -/
def XReg.words (x : XReg) : List Word :=
  ((List.range 16).map fun q =>
    (List.range 4).foldl (fun (w : Word) j => w ||| atBit (x.idx.getD (4 * q + j) 0).toNat (16 * j)) 0) ++
  [atBit x.bound.toNat 0 ||| atBit (match x.shape with | .u => 0 | .a => 1 | .g => 2) 8 ||| atBit x.stride.toNat 16]

/-- The words of a watch slot: bounds, lanes, and the word of Table 12-11. -/
def slotWords (x : Option WatchSlot) : List Word :=
  match x with
  | some x => [BitVec.ofNat 64 x.lo, BitVec.ofNat 64 x.hi, x.lanes, x.word]
  | none => [0, 0, 0, 0]

/-- The words of a loop level: START, END, SDEPTH with LIVE at bit 8, BRK, CONT. -/
def LoopLevel.words (x : LoopLevel) : List Word := [x.start, x.fin, atBit x.sdepth 0 ||| atBit 1 8, x.brk, x.cont]

/-- The status word: bits 0 halted, 1 parked, 2 BEDGE, 7:4 skid count, 15:8 WKIND. -/
def Warp.statusWord (w : Warp) : Word :=
  atBit (b2n w.halted) 0 ||| atBit (b2n w.parked) 1 ||| atBit (b2n w.bedge) 2 ||| atBit (w.skid % 16) 4 |||
    atBit (if w.parked then 9 else ((w.wait.orElse fun _ => w.stopped).map (·.kind)).getD 0) 8

/-- The path counters, 10 bits each in the order of Table 4-6. -/
def Warp.counterWord (w : Warp) : Word :=
  ([Path.ld, .st, .sp, .cp, .mx, .rm].zipIdx).foldl (fun (x : Word) (p, i) => x ||| atBit (w.counter p % 1024) (10 * i)) 0

/-- The 305 words of a warp block's control part, bytes 0 to 2,439. -/
def Warp.controlWords (w : Warp) (width : Nat) : List Word :=
  [w.pc, w.statusWord] ++ padTo 64 0 w.s ++ (fullMask width :: (padTo 16 0 w.p).drop 1) ++
  [w.mask, BitVec.ofNat 64 w.stack.length] ++
  padTo 96 0 (w.stack.reverse.flatMap fun x => [x.save, x.alt, atBit (b2n x.e) 0]) ++
  padTo 15 0 (w.loops.reverse.flatMap LoopLevel.words) ++ padTo 3 0 w.lc ++ [w.counterWord] ++
  padTo 8 0 (w.arrivals.map fun a => atBit (b2n a.1) 32 ||| atBit a.2.toNat 0) ++
  [BitVec.ofNat 64 w.sleepLeft, atBit (w.spills % 2 ^ 32) 0 ||| atBit (w.reloads % 2 ^ 32) 32] ++
  ((List.range 4).map fun q => BitVec.ofNat 64 (packBits (((w.v.map (·.dirty)).drop (64 * q)).take 64))) ++
  padTo 68 0 (w.x.flatMap XReg.words) ++
  ((List.range 8).map fun q => (List.range 8).foldl (fun (x : Word) j => x ||| atBit (w.flags.getD (8 * q + j) 0).toNat (8 * j)) 0) ++
  padTo 16 0 (w.watch.flatMap slotWords)

/-- The two words of an armature entry (Table 5-1). -/
def VReg.entryWords (r : VReg) : List Word :=
  [r.base, atBit r.stride.toNat 0 ||| atBit r.rank 44 ||| atBit r.row 52 ||| atBit (b2n r.pend) 60 |||
    atBit (b2n r.spilled) 61 ||| atBit (match r.shape with | .u => 0 | .a => 1 | .g => 2) 62]

/-- Bytes without poison. -/
def clean (bs : List Byte) : List (Byte × Bool) := bs.map fun b => (b, false)

/-- The control part with the poison of its scalar registers. -/
def Warp.controlBytes (w : Warp) (width : Nat) : List (Byte × Bool) :=
  ((w.controlWords width).zipIdx).flatMap fun (x, i) =>
    (bytes8 x).map fun b => (b, decide (2 ≤ i) && decide (i < 66) && w.sPoison.has (i - 2))

/-- Writing a warp's block: control, armature, and the row of each dirty resident general register
(R100). -/
def State.writeBlock (s : State) (t : Team) (w : Warp) : State :=
  let s1 := s.l2PutMarked (t.block w.num) (w.controlBytes t.kernel.width)
  let s2 := s1.l2PutMarked (t.block w.num + 4096) (clean (w.v.flatMap fun r => r.entryWords.flatMap bytes8))
  (w.v.zipIdx).foldl (fun s (r, n) =>
    if r.shape = .g ∧ !r.spilled ∧ r.dirty then s.l2PutMarked (t.slotOf w.num n) (markedWords r.lanes r.poison) else s) s2

/-! ## Scratchpad image and tiles -/

/-- Offsets in the frame (Table 15-5). -/
def Team.spAt (t : Team) : Nat := t.frame + 4096 + t.kernel.warps * t.kernel.blockSize
def Team.spBlocks (t : Team) : Nat := t.kernel.scratch / 2048
def Team.tileAt (t : Team) : Nat := t.spAt + t.spBlocks * 2176
def Team.halves (t : Team) : Nat := if t.kernel.paired then 2 else 1
def Team.quarantineAt (t : Team) : Nat := t.tileAt + t.halves * t.kernel.tiles * 36864
def Team.pendingAt (t : Team) : Nat := t.quarantineAt + 65536

/-- The words of a block. -/
def Team.blockWordsSp (t : Team) (b : Nat) : List SpWord := (List.range 512).map fun j => t.word (512 * b + j)

/-- Writing a scratchpad block, as it has been read: its data when it holds a valid word, and its metadata
(R183); words that cannot be corrected as poison (R178). -/
def State.writeSpBlock (s : State) (t : Team) (b : Nat) : State :=
  let ws := t.blockWordsSp b
  let at_ := t.spAt + b * 2176
  let s1 := if ws.any (·.valid) then
      s.l2PutMarked at_ (ws.flatMap fun x => (natBytes x.data.toNat 4).map fun y => (y, x.poison))
    else s
  s1.l2PutMarked (at_ + 2048)
    (clean (natBytes (packBits (ws.map (·.valid))) 64 ++ [(t.stamp b).setWidth 8] ++ List.replicate 63 0))

/-- Writing a tile, row by row; the tiles of the second core follow those of the first. -/
def State.writeTile (s : State) (t : Team) (half num : Nat) : State :=
  let x := t.tile half num
  s.l2PutMarked (t.tileAt + (half * t.kernel.tiles + num) * 36864)
    ((x.elems.zipIdx).flatMap fun (e, i) => (natBytes e.toNat 4).map fun b => (b, x.poison.contains i))

/-! ## The pending region (R328, R329) -/

/-- Size of a pending record. -/
def MemOp.pendingSize (o : MemOp) (width : Nat) : Nat :=
  64 + 8 * width + (if o.kind.takesData then 8 * width else 0) + (if o.kind.atomicOp && o.atop == .cas then 8 * width else 0)

/-- The parked operations of a team, in issue order. -/
def State.parkedOf (s : State) (k : TKey) : List MemOp :=
  s.ops.filter fun o => o.key.team == k && !o.parked.isEmpty && !o.dropped

/-- Copy commands of a team that are stopped, with its pending records: the bytes of its pending region. -/
def State.pendingBytes (s : State) (t : Team) : Nat :=
  128 * ((s.savedCopies.filter (·.key.team == t.key)).length + (s.copiesOf t).length) +
    ((s.parkedOf t.key ++ s.savedOps.filter (·.key.team == t.key)).foldl (fun n o => n + o.pendingSize t.kernel.width) 0)

/-- The digest state of a stopped command: the hash value after the whole blocks before its start offset, or
the digest when every byte has moved (R328). -/
def CopyCmd.digestState (c : CopyCmd) : List Byte :=
  if !c.mod.dig then [] else if c.len ≤ c.moved then c.digest
  else hashBytes (if c.hash.isEmpty then sha256H0 else c.hash)

/-- The bytes of a pending copy record: instruction word, operands, start offset, digest state. -/
def CopyCmd.recordBytes (c : CopyCmd) : List Byte :=
  let word := ((encode c.instr).getD 0).toNat
  padTo 128 0 (bytes8 c.pc ++ natBytes word 16 ++ bytes8 c.d ++ bytes8 c.a ++ bytes8 c.b ++ bytes8 c.record ++
    bytes8 (BitVec.ofNat 64 c.moved) ++ c.digestState)

/-- The bytes of a pending record (R329); a scalar access stands in lane 0. -/
def MemOp.recordBytes (o : MemOp) (width : Nat) : List (Byte × Bool) :=
  let lane (l : Nat) : Option LaneAccess := o.lanes.find? (·.lane % 255 == l)
  let bits (p : LaneAccess → Bool) : Word := BitVec.ofNat 64 (packBits ((List.range width).map fun l => (lane l).any p))
  let column (f : LaneAccess → Word) (bad : LaneAccess → Bool) : List (Byte × Bool) :=
    (List.range width).flatMap fun l => (bytes8 (((lane l).map f).getD 0)).map fun b => (b, (lane l).any bad)
  clean (padTo 64 0 (bytes8 o.pc ++ natBytes o.word.toNat 16 ++ bytes8 (bits fun _ => true) ++ bytes8 (bits (·.done)))) ++
    column (·.va) (fun _ => false) ++ (if o.kind.takesData then column (·.data) (·.poison) else []) ++
    (if o.kind.atomicOp && o.atop == .cas then column (·.cmp) (fun _ => false) else [])

/-! ## The header -/

/-- Bytes of quarantine used: written entries with their headers. -/
def State.quarantineBytes (s : State) (k : TKey) : Nat :=
  (s.quarantine.filter fun q => q.key == k && q.written).foldl (fun n q => n + 16 + q.bytes.length) 0

/-- The baton words: the state and warp bits of Table 8-2. -/
def Baton.code (b : Baton) : Nat :=
  4 * b.warp + (match b with | .free => 0 | .held _ => 1 | .passed _ => 2)

/-- The 256 header bytes, in the order of Table 15-5 with 8 bytes for each field and 4 for each baton
word. -/
def Team.headerBytes (s : State) (t : Team) (saved halted : Bool) : List Byte :=
  let state := atBit (b2n saved) 0 ||| atBit (b2n halted) 1 ||| atBit (b2n t.flushable) 2
  let words : List Word :=
    [state, BitVec.ofNat 64 t.tid, t.kernel.va, t.scopes.headD 0, BitVec.ofNat 64 t.inst, BitVec.ofNat 64 t.nodeRef] ++
    padTo 4 0 (t.reserved.map (BitVec.ofNat 64 ·)) ++
    [BitVec.ofNat 64 t.issued, BitVec.ofNat 64 t.runTime, BitVec.ofNat 64 (s.quarantineBytes t.key),
      BitVec.ofNat 64 (s.pendingBytes t)] ++
    padTo 16 0 (t.barriers.flatMap fun b => [b.phase.setWidth 64, b.arrived.foldl (fun (m : Word) n => m ||| (1#64 <<< n)) 0])
  words.flatMap bytes8 ++ (padTo 4 .free t.batons).flatMap fun b => natBytes b.code 4

/-! ## Writing the whole frame -/

/-- Writing a team's frame: header, warp blocks, scratchpad, tiles, pending region. -/
def State.writeFrame (s : State) (t : Team) (saved halted : Bool) : State :=
  let s1 := s.l2PutMarked t.frame (clean (t.headerBytes s saved halted))
  let s2 := t.warps.foldl (fun s w => s.writeBlock t w) s1
  let (read, s2) := s2.readPool t
  let s3 := (List.range t.spBlocks).foldl (fun s b => s.writeSpBlock read b) s2
  let s4 := (List.range t.halves).foldl (fun s h => (List.range t.kernel.tiles).foldl (fun s n => s.writeTile t h n) s) s3
  let pend := ((s.savedCopies.filter (·.key.team == t.key)).flatMap fun c => clean c.recordBytes) ++
    ((s.parkedOf t.key ++ s.savedOps.filter (·.key.team == t.key)).flatMap fun o => o.recordBytes t.kernel.width)
  s4.l2PutMarked t.pendingAt pend

/-- The bytes that a save writes (R333). -/
def State.saveSize (s : State) (t : Team) : Nat :=
  let k := t.kernel
  let dirty (w : Warp) : Nat := (w.v.filter fun r => r.shape == .g && !r.spilled && r.dirty).length
  let blocks := ((List.range t.spBlocks).filter fun b => (t.blockWordsSp b).any (·.valid)).length
  256 + t.warps.foldl (fun n w => n + 4096 + k.n * 16 + dirty w * k.width * 8) 0 + t.spBlocks * 128 + blocks * 2048 +
    t.halves * k.tiles * 36864 + s.quarantineBytes t.key + s.pendingBytes t

/-! ## Reading the frame back -/

/-- Words read back with their poison, the old value where a word cannot be read (assumption 25). -/
def readWords (old : List Word) (bs : List (Option (Byte × Bool))) : List (Word × Bool) :=
  (old.zipIdx).map fun (x, i) =>
    let part := ((bs.drop (8 * i)).take 8).filterMap id
    if part.length = 8 then (wordOf (part.map (·.1)), part.any (·.2)) else (x, false)

/-- An index register from its words. -/
def XReg.ofWords (ws : List Word) : XReg :=
  let h := ws.getD 16 0
  { idx := (List.range 64).map fun j => BitVec.ofNat 16 (fieldOf (ws.getD (j / 4) 0) (16 * (j % 4) + 15) (16 * (j % 4)))
    bound := BitVec.ofNat 8 (fieldOf h 7 0)
    shape := match fieldOf h 9 8 with | 0 => .u | 1 => .a | _ => .g
    stride := BitVec.ofNat 16 (fieldOf h 31 16) }

/-- A watch slot from its words. -/
def slotOfWords (ws : List Word) : Option WatchSlot :=
  let h := ws.getD 3 0
  if h.getLsbD 0 then
    some { lo := (ws.getD 0 0).toNat, hi := (ws.getD 1 0).toNat, kinds := BitVec.ofNat 3 (fieldOf h 7 5)
           scope := fieldOf h 4 3, lanes := ws.getD 2 0, hits := fieldOf h 63 32 }
  else none

/-- A warp with the control part of its block loaded. An activity whose instruction is no longer at the
PC, and a sleep that has run out, are left. Mask bits at or above W read 0 (R62). -/
def Warp.loadControl (w : Warp) (width : Nat) (ws : List (Word × Bool)) : Warp :=
  let g (i : Nat) : Word := (ws.getD i (0, false)).1
  let lanes (i : Nat) : Mask := g i &&& fullMask width
  let many (i n : Nat) : List Word := (List.range n).map fun j => g (i + j)
  let depth := Nat.min 32 (fieldOf (g 83) 5 0)
  let entry (i : Nat) : MaskEntry :=
    { save := lanes (84 + 3 * i), alt := lanes (85 + 3 * i), e := (g (86 + 3 * i)).getLsbD 0
      opened := ((w.stack.reverse[i]?).map (·.opened)).getD w.issuedAcc }
  let level (i : Nat) : Option LoopLevel :=
    let k := 180 + 5 * i
    if (g (k + 2)).getLsbD 8 then some ⟨g k, g (k + 1), Nat.min 32 (fieldOf (g (k + 2)) 5 0), lanes (k + 3), lanes (k + 4)⟩ else none
  let left := fieldOf (g 207) 31 0
  let stays := g 0 == w.pc && !(w.act == .sleep && left == 0)
  { w with
    pc := g 0
    loopBuf := []
    badLoop := []
    bedge := (g 1).getLsbD 2
    s := many 2 64
    sPoison := (List.range 64).foldl (fun m i => if (ws.getD (2 + i) (0, false)).2 then m ||| (1#64 <<< i) else m) 0
    p := (List.range 16).map fun j => lanes (66 + j)
    mask := lanes 82
    stack := ((List.range depth).map entry).reverse
    loops := ((List.range 3).filterMap level).reverse
    lc := many 195 3
    arrivals := (many 199 8).map fun x => (x.getLsbD 32, BitVec.ofNat 32 (fieldOf x 31 0))
    sleepLeft := left
    spills := fieldOf (g 208) 31 0
    reloads := fieldOf (g 208) 63 32
    x := (List.range 4).map fun k => XReg.ofWords (many (213 + 17 * k) 17)
    flags := (List.range w.flags.length).map fun l => BitVec.ofNat 6 (fieldOf (g (281 + l / 8)) (8 * (l % 8) + 7) (8 * (l % 8)))
    watch := (List.range 4).map fun k => (slotOfWords (many (289 + 4 * k) 4)).map fun x =>
      let x := { x with lanes := x.lanes &&& fullMask width }
      match w.watch.getD k none with
      | some old => { x with armedAt := old.armedAt, armedOn := old.armedOn }
      | none => x
    act := if stays || w.act == .exited then w.act else .run }

/-- A register from its armature words, as a restore treats it: a general one is spilled, with row 0 and
its rank, and no register is dirty (R331). -/
def VReg.ofWords (r : VReg) (width : Nat) (lo hi : Word) : VReg :=
  match fieldOf hi 63 62 with
  | 0 => { shape := .u, base := lo, pend := r.pend }
  | 1 => { shape := .a, base := lo, stride := BitVec.ofNat 32 (fieldOf hi 31 0), pend := r.pend }
  | _ =>
    { shape := .g, spilled := true, rank := fieldOf hi 51 44, lanes := padTo width 0 r.lanes, poison := r.poison
      recon := r.recon, pend := r.pend }

/-- An armature that LOAD refuses: SHAPE 0b11, or a RANK that repeats among general registers (R322). -/
def badArmature (hi : List Word) : Bool :=
  let ranks := (hi.filter fun h => fieldOf h 63 62 == 2).map fun h => fieldOf h 51 44
  hi.any (fun h => fieldOf h 63 62 == 3) || ranks.eraseDups.length != ranks.length

/-- Reading a warp back from its block; whether its armature is one that LOAD refuses. -/
def State.readBlock (s : State) (t : Team) (w : Warp) : Warp × Bool × State :=
  let (cs, s1) := s.l2GetMarked (t.block w.num) 2440
  let (vs, s2) := s1.l2GetMarked (t.block w.num + 4096) (16 * w.v.length)
  let w1 := w.loadControl t.kernel.width (readWords (w.controlWords t.kernel.width) cs)
  let entries := (readWords (w.v.flatMap VReg.entryWords) vs).map (·.1)
  let hi := (List.range w.v.length).map fun n => entries.getD (2 * n + 1) 0
  ({ w1 with v := (w.v.zipIdx).map fun (r, n) => r.ofWords t.kernel.width (entries.getD (2 * n) 0) (hi.getD n 0)
             reloading := none },
    badArmature hi, s2)

/-- Reading a scratchpad block: data only when it holds a valid word. -/
def State.readSpBlock (s : State) (t : Team) (b : Nat) : Team × State :=
  let at_ := t.spAt + b * 2176
  let (ms, s1) := s.l2GetMarked (at_ + 2048) 65
  let (ds, s2) := s1.l2GetMarked at_ 2048
  if (ms ++ ds).any (·.isNone) then (t, s2)
  else
    let info : List (Byte × Bool) := ms.filterMap id
    let valid := leNat ((info.take 64).map (·.1))
    let data : List (Byte × Bool) := ds.filterMap id
    let word (j : Nat) : SpWord :=
      if valid = 0 then spClear
      else
        let part := (data.drop (4 * j)).take 4
        ⟨BitVec.ofNat 32 (leNat (part.map (·.1))), valid.testBit j, part.any (·.2), false⟩
    let t1 := (List.range 512).foldl (fun t j => t.setWord (512 * b + j) (word j)) t
    (t1.setStamp b ((info.getD 64 ((0 : Byte), false)).1.setWidth 3), s2)

/-- Reading a tile: it never holds a NaN but the canonical one (R153). -/
def State.readTile (s : State) (t : Team) (half num : Nat) : Team × State :=
  let (bs, s1) := s.l2GetMarked (t.tileAt + (half * t.kernel.tiles + num) * 36864) 36864
  if bs.any (·.isNone) then (t, s1)
  else
    let data : List (Byte × Bool) := bs.filterMap id
    let part (i : Nat) : List (Byte × Bool) := (data.drop (4 * i)).take 4
    (t.setTile ⟨half, num, (List.range tileSize).map fun i => tileValue (leNat ((part i).map (·.1))),
      (List.range tileSize).filter fun i => (part i).any (·.2), []⟩, s1)

/-- Barriers and batons from the header; what is loaded is what every path reads, and the scratchpad's parity is
written with it (R183). -/
def Team.loadHeader (t : Team) (ws : List Word) : Team :=
  let bar (b : Nat) : Barrier :=
    { phase := (ws.getD (14 + 2 * b) 0).setWidth 32
      arrived := (List.range 64).filter fun n => (ws.getD (15 + 2 * b) 0).getLsbD n }
  let baton (n : Nat) : Baton :=
    let x := fieldOf (ws.getD (30 + n / 2) 0) (32 * (n % 2) + 31) (32 * (n % 2))
    match x % 4 with
    | 1 => .held (x / 4 % 64)
    | 2 => .passed (x / 4 % 64)
    | _ => .free
  { t with stale := [], reliefBad := [], barriers := (List.range 8).map bar, batons := (List.range t.batons.length).map baton }

/-- Reading the whole frame of a team; whether an armature is one that LOAD refuses. -/
def State.readFrame (s : State) (t : Team) : Team × Bool × State :=
  let (hs, s1) := s.l2GetMarked t.frame 256
  let t1 := t.loadHeader ((readWords (wordsOf (t.headerBytes s false false)) hs).map (·.1))
  let (ws, bad, s2) := t1.warps.foldl (fun acc w =>
    let r := State.readBlock acc.2.2 t1 w
    (acc.1 ++ [r.1], acc.2.1 || r.2.1, r.2.2)) (([] : List Warp), false, s1)
  let (t3, s3) := (List.range t1.spBlocks).foldl (fun acc b => State.readSpBlock acc.2 acc.1 b) ({ t1 with warps := ws }, s2)
  let (t4, s4) := (List.range t1.halves).foldl (fun acc h =>
    (List.range t1.kernel.tiles).foldl (fun acc n => State.readTile acc.2 acc.1 h n) acc) (t3, s3)
  (t4, bad, s4)

end Sys2Proof.Machine
end

