-- ==== Sys2Proof/Machine/Issue.lean ====
section
/-!
DEFINITION. Which warps are ready (R52), and the fetch of an instruction (R36 to R38, Table 2-6
checks 1 and 2).
-/

namespace Sys2Proof.Machine

/-! ## Ready warps (R52, R56) -/

/-- May this warp of the team issue? A halting team's warps issue at most 8 more (R56); a warp that a
debugger steps is the only one of its team (R322). -/
def Team.mayIssue (t : Team) (w : Warp) : Bool :=
  w.act == .run && !w.parked && w.reloading.isNone && !w.halted && (!w.stopping || w.inTrip) &&
    (match t.phase with
    | .running | .draining => true
    | .halting => decide (w.skid < 8) || w.inTrip
    | .saving => w.inTrip
    | .halted => t.stepping == some w.num
    | _ => false)

/-- The warps of a team, and of the machine, whose next instruction may be looked at. -/
def Team.issuers (t : Team) : List WKey := (t.warps.filter t.mayIssue).map fun w => ⟨t.ctx, t.tid, w.num⟩
def State.mayIssue (s : State) : List WKey := s.teams.flatMap Team.issuers

/-! ## Fetch -/

/-- What a fetch gives. -/
inductive Fetch where
  | word (s : State) (w : BitVec 96)
  | failed (s : State) (f : FaultInfo) (ia : Option Nat)

/-- Lines of 512 bytes that an instruction cache of 64 KiB holds (R7). -/
def icacheLines : Nat := 128

/-- The words kept, most recently used line first: those of as many lines as fit. -/
def keepLines (l : List (Nat × BitVec 96)) : List (Nat × BitVec 96) :=
  let lines := ((l.map (·.1 / 512)).eraseDups).take icacheLines
  l.filter fun x => lines.contains (x.1 / 512)

/-- Keeping a fetched word in a core's instruction cache; the least recently used line leaves when the cache
is full (DESIGN CHOICE, assumption 33). -/
def State.cacheWord (s : State) (core ia : Nat) (w : BitVec 96) : State :=
  s.modCore core fun c =>
    let rest := c.icache.filter (·.1 != ia)
    let kept := keepLines ((ia, w) :: (rest.filter (·.1 / 512 == ia / 512) ++ rest.filter (·.1 / 512 != ia / 512)))
    { c with icache := kept, badCode := c.badCode.filter fun a => a != ia && kept.any (·.1 == a) }

/-- The word at an IA as memory holds it now: the walk or the poison that stops it otherwise. -/
def State.fetchNow (s : State) (w : Warp) (ia : Nat) : Fetch :=
  match s.l2Read false ia 12 with
  | (.bytes bs none, s1) => .word s1 (BitVec.ofNat 96 (leNat bs))
  | (.bytes _ (some a), s1) => .failed s1 (w.faultAt 0x19) (some a)
  | (.failed (.poisoned _) a, s1) => .failed s1 (w.faultAt 0x19) (some a)
  | (.failed _ a, s1) => .failed s1 (w.faultAt 0x18 255 (BitVec.ofNat 64 a)) none

/-- Going back through what the sectors of an instruction held before stores that no `icinv` has covered,
latest first: the 12 bytes after each step (R38). -/
def wordHistory (ia : Nat) : List Byte → List (Nat × List Byte) → List (List Byte)
  | _, [] => []
  | bs, (sec, old) :: l =>
    let head := Nat.min 12 (128 - ia % 128)
    if sec = ia / 128 then
      let x := (old.drop (ia % 128)).take head ++ bs.drop head
      x :: wordHistory ia x l
    else if sec = ia / 128 + 1 ∧ head < 12 then
      let x := bs.take head ++ old.take (12 - head)
      x :: wordHistory ia x l
    else wordHistory ia bs l

/-- What a fetch may return beside the present contents: the core's cached word and the older contents. -/
def State.oldWords (s : State) (core ia : Nat) : List (BitVec 96) :=
  let now := match s.l2Read false ia 12 with
    | (.bytes bs _, _) => bs
    | _ => List.replicate 12 0
  let cached := (((s.core core).icache.filter (·.1 == ia)).map (·.2))
  (cached ++ (wordHistory ia now s.codeOld).map fun bs => BitVec.ofNat 96 (leNat bs)).eraseDups

/-- Does the outermost live level of a warp hold an address? -/
def Warp.looping (w : Warp) (a : Word) : Bool :=
  match w.loops.getLast? with
  | some lv => lv.holds a
  | none => false

/-- A fetched word is kept: in the core's cache, and in the loop buffer in a loop's body (R75). -/
def State.keepWord (s : State) (k : WKey) (w : Warp) (ia : Nat) (x : BitVec 96) : State :=
  let s1 := s.cacheWord w.core ia x
  if w.looping w.pc then s1.modWarp k fun u =>
    { u with loopBuf := putBy Prod.fst (ia, x) u.loopBuf, badLoop := u.badLoop.filter (· != ia) }
  else s1

/-- A cached instruction with an uncorrectable error is fetched: POISON (R35 check 2, R342). The copy leaves, so
that a later fetch reads memory (assumption 124). -/
def State.spoiltCode (s : State) (k : WKey) (w : Warp) (ia : Nat) : Fetch :=
  let s1 := s.modCore w.core fun c => { c with icache := c.icache.filter (·.1 != ia), badCode := c.badCode.filter (· != ia) }
  .failed (s1.modWarp k fun u => { u with loopBuf := u.loopBuf.filter (·.1 != ia), badLoop := u.badLoop.filter (· != ia) })
    (w.faultAt 0x19) (some ia)

/-- Fetching the instruction at a warp's PC (R36, R38, R75, R246, R247): in a loop from the loop buffer once
the buffer holds it; else from memory, or, until an `icinv` covers it, any of its older contents or the
core's copy (free, assumption 5). -/
def State.fetch (s : State) (t : Team) (w : Warp) : Fetch :=
  match (s.ctx t.ctx).findRange w.pc 12 with
  | none => .failed s (w.faultAt 0x10 255 w.pc) none
  | some r =>
    if !r.pex then .failed s (w.faultAt 0x12 255 w.pc) none
    else
      let ia := r.target w.pc
      let buffered := if w.looping w.pc then (w.loopBuf.find? (·.1 == ia)).map (·.2) else none
      match buffered with
      | some x => if w.badLoop.contains ia then s.spoiltCode (t.wkey w) w ia else .word s x
      | none =>
        if (s.core w.core).badCode.contains ia then s.spoiltCode (t.wkey w) w ia else
        let keep (f : Fetch) : Fetch :=
          match f with
          | .word s x => .word (s.keepWord (t.wkey w) w ia x) x
          | f => f
        let fresh := s.fetchNow w ia
        let olds := (s.oldWords w.core ia).filter fun x => match fresh with | .word _ y => x != y | .failed _ _ _ => true
        match olds with
        | [] => keep fresh
        | _ =>
          let (n, s1) := s.draw
          match n % (olds.length + 1) with
          | 0 => keep (s1.fetchNow w ia)
          | j + 1 => keep (.word s1 (olds.getD j 0))

/-! ## Traps of fetch and decode -/

/-- SEQUENTIAL_FETCH_PAST_CODE (R37, Table 2-6 check 1): the PC of the issuing warp is not an address of
its code. -/
def execSequentialFetchPastCode (s : State) : Host.Outcome State Fault Refusal :=
  match s.cur with
  | none => .fault .noIssuingWarp
  | some k =>
    match s.team? k.team, s.warp? k with
    | some t, some w =>
      if t.kernel.inCode w.pc then .refused (.eventNotPending "SEQUENTIAL_FETCH_PAST_CODE")
      else .next (s.trapped k (w.faultAt 0x05) none)
    | _, _ => .fault .noSuchWarp

/-- A trap of the issuing warp at decode (Table 2-6). -/
def trapDecode (code : Nat) (s : State) : Host.Outcome State Fault Refusal :=
  match s.cur with
  | none => .fault .noIssuingWarp
  | some k =>
    match s.warp? k with
    | some w => .next (s.trapped k (w.faultAt code) none)
    | none => .fault .noSuchWarp

/-- ILLEGAL_OPCODE (R33): a word whose opcode is not assigned traps precisely. -/
def execIllegalOpcode (w : BitVec 96) (s : State) : Host.Outcome State Fault Refusal :=
  if decodeWord w = .illegalOpcode then trapDecode 0x01 s
  else .refused (.eventNotPending "ILLEGAL_OPCODE")

/-- Check 4 of R35 fails in the word itself; a relay opcode outside a relay warp fails check 3 first. -/
def illegalOperand (w : BitVec 96) (s : State) : Host.Outcome State Fault Refusal :=
  let relay := match s.cur.bind fun k => s.team? k.team with | some t => t.relay.isSome | none => false
  trapDecode (if isRelayOpcode w && !relay then 0x01 else 0x02) s

end Sys2Proof.Machine
end

