-- ==== Sys2Proof/Machine/Halt.lean ====
section
/-!
DEFINITION. Halts (R315 to R317), late faults (R321), the commands of the debug window (R322), the
stopping of copy commands (R328), and the draining of the fault queue's hub buffer (R318).
-/

namespace Sys2Proof.Machine

/-! ## Stopping copy commands (R328) -/

/-- Does a command write its team's scratchpad: as its destination, or in its record? -/
def CopyCmd.writesScratch (c : CopyCmd) : Bool :=
  (match c.sides.2 with | .scratch _ => true | _ => false) || ((c.mod.dig || c.mod.cwadd) && !c.mod.cwg)

/-- The destination of the unit at offset o as the quarantine names it: a scratchpad offset, or a global
IA of device memory with the tag and TC of the write's check. -/
def State.unitDest (s : State) (c : CopyCmd) (o : Nat) : Option Quarantine :=
  let q : Quarantine :=
    { cmd := c.id, key := c.key.team, warp := c.key.w, scratch := true, addr := 0, bytes := [], span := c.mod.span
      poison := false, off := o }
  match c.sides.2 with
  | .scratch w => (layoutOf w).map fun l => { q with addr := l.phys o }
  | .global va =>
    (s.copyReg c va c.len).bind fun r =>
      if r.kind ≤ 1 then
        some { q with scratch := false, addr := r.target (va + BitVec.ofNat 64 o), tag := vaTag va, tc := r.tc }
      else none
  | .rows => none

/-- The source address of the unit at offset o, as its reads meet sectors. -/
def State.unitSource (s : State) (core : Nat) (c : CopyCmd) (o : Nat) : Nat :=
  match c.sides.1 with
  | .global va => va.toNat + o
  | .rows =>
    let row := (gatherOf c.b).row
    match (s.copyNow core c).rows.find? (·.1 == o / row) with
    | some (_, va) => va.toNat + o % row
    | none => o
  | .scratch w => ((layoutOf w).map fun l => l.phys o).getD o

/-- A unit read before the stop joins the quarantine entry of its sector's read when it follows it, or opens
an entry of its own. -/
def Quarantine.join (l : List Quarantine) (q : Quarantine) (src : Nat) : List Quarantine :=
  match l.getLast? with
  | some p =>
    if !p.written && p.cmd == q.cmd && p.scratch == q.scratch && p.addr + p.bytes.length == q.addr && p.next == src &&
        src % 128 != 0 && p.poison == q.poison && p.recon == q.recon then
      l.dropLast ++ [{ p with bytes := p.bytes ++ q.bytes, next := src + 16 }]
    else l ++ [{ q with next := src + 16 }]
  | none => [{ q with next := src + 16 }]

/-- Reading the units of a burst that the stop lets through: the bytes read; none when one of them cannot be
read, which leaves the burst to the rest of the command. -/
def State.readBurst (t : Team) (core : Nat) (c : CopyCmd) : Nat → State → Nat → List Byte → Option (List Byte × State)
  | 0, s, _, bs => some (bs, s)
  | n + 1, s, o, bs =>
    match s.unitDest c o, s.copyRead t core c o 16 with
    | some dest, (.ok u, s1) =>
      if u.hit || (u.poison && c.mod.dig) then none
      else
        let q : Quarantine := { dest with bytes := u.bytes, poison := u.poison, recon := u.recon }
        State.readBurst t core c n { s1 with quarantine := Quarantine.join s1.quarantine q (s1.unitSource core c o) }
          (o + 16) (bs ++ u.bytes)
    | _, _ => none

/-- Reading up to n further bursts before the stop, as far as the quarantine region holds them: their reads
have been sent and have not been written. -/
def State.readAhead (t : Team) (core : Nat) : Nat → State → CopyCmd → CopyCmd × State
  | 0, s, c => (c, s)
  | n + 1, s, c =>
    let used := (s.quarantine.filter (·.key == t.key)).foldl (fun m q => m + 16 + q.bytes.length) 0
    if c.len ≤ c.moved || decide (65536 < used + 128) then (c, s)
    else match State.readBurst t core c ((c.burstEnd c.moved - c.moved) / 16) s c.moved [] with
      | some (bs, s1) => State.readAhead t core n s1 { c.absorb bs with moved := c.moved + bs.length }
      | none => (c, s)

/-- Stopping one command: how many reads are in flight is free, within the quarantine region
(assumption 5). -/
def State.stopCopy (s : State) (t : Team) (core ch : Nat) (c : CopyCmd) : State :=
  let (n, s1) := s.draw
  let ahead := if c.running && c.held.isNone then n % 1025 else 0
  let (c1, s2) := s1.readAhead t core ahead c
  let now := s2.copyNow core c
  let s3 := s2.modChannel core ch (·.filter (·.id != c.id))
  { s3 with savedCopies := s3.savedCopies ++
      [{ c1 with running := false, held := none, rows := [], unwritten := now.unwritten, mismatch := now.mismatch }] }

/-- Stopping, in every channel of the team's cores, the first command that meets a test and the team's
later ones. -/
def State.stopCopies (s : State) (t : Team) (p : CopyCmd → Bool) : State :=
  t.cores.foldl (fun s core => (List.range 4).foldl (fun s ch =>
    ((((s.core core).channel ch).filter (·.key.team == t.key)).dropWhile fun c => !p c).foldl
      (fun s c => s.stopCopy t core ch c) s) s) s

/-- Stopped commands re-enter their channels ahead of new ones. -/
def State.returnCopies (s : State) (t : Team) : State :=
  let mine := s.savedCopies.filter (·.key.team == t.key)
  let s1 := { s with savedCopies := s.savedCopies.filter (·.key.team != t.key) }
  mine.reverse.foldl (fun s c =>
    let core := ((t.warp? c.key.w).map (·.core)).getD t.core
    s.modChannel core c.mod.ch.toNat fun q => q.takeWhile (·.running) ++ c :: q.dropWhile (·.running)) s1

/-- A stopped command faults while its quarantine drains (R214): it leaves, and CP falls. -/
def State.failStopped (s : State) (c : CopyCmd) (off code : Nat) : State :=
  (({ s with savedCopies := s.savedCopies.filter (·.id != c.id) }.modWarp c.key fun w => w.countDown .cp c.id).deferFault
    c.key (s.copyFault c off code) none).settle c.key

/-- One sector's part of a quarantine entry written to memory as the copy engine writes: its tag check, and the
watch filter (R259, R261). -/
def State.drainPart (s : State) (c : CopyCmd) (q : Quarantine) (x : Nat × Nat × Nat) : Nat × State :=
  let (sec, off, n) := x
  let at_ := 128 * sec + off
  let (tags, s1) := s.tagCheck { lane := 255, va := atBit q.tag.toNat 56, ia := at_, tc := q.tc } n
  let (hit, s2) := s1.watchL2 (c.party s1) 1 at_ n none
  if tags != .same then (tags.code 0x15, s2)
  else
    let s3 := s2.writeSector sec (sectorImage off ((q.bytes.drop (at_ - q.addr)).take n)) (byteMask off n) q.poison q.key
      (s2.opTag c.key c.id)
    (if hit then 0x16 else 0, s3)

/-- One quarantine entry reaches its destination; nothing more of a command that has faulted does. -/
def State.drainEntry (s : State) (t : Team) (q : Quarantine) : State :=
  match s.savedCopies.find? (·.id == q.cmd) with
  | none => s
  | some c =>
    if q.scratch then
      (s.noteWrite t q.addr q.bytes.length).engineSpWrite c.key q.cmd q.addr
        { bytes := q.bytes, poison := q.poison, recon := q.recon } (some q.span)
    else
      (sectorsOf q.addr q.bytes.length).foldl (fun s x =>
        if !s.savedCopies.any (·.id == q.cmd) then s
        else match s.drainPart c q x with
          | (0, s1) => s1
          | (code, s1) => s1.failStopped c (q.off + (128 * x.1 + x.2.1 - q.addr)) code) s

/-- Draining the quarantine of a team in arrival order, before its commands re-enter their channels: to scratchpad
as the copy engine writes, or to L2. -/
def State.drainQuarantine (s : State) (k : TKey) : State :=
  let s1 := (s.quarantine.filter (·.key == k)).foldl (fun s q =>
    match s.team? k with
    | none => s
    | some t => s.drainEntry t q) s
  { s1 with quarantine := s1.quarantine.filter (·.key != k) }

/-- QUARANTINE_WRITE (R328): a read sent before the stop returns and is written to the quarantine
region: a 16-byte header with destination and length, and the bytes. -/
def execQuarantineWrite (k : TKey) (s : State) : Host.Outcome State Fault Refusal :=
  match s.team? k, s.quarantine.find? fun q => q.key == k && !q.written with
  | some t, some q =>
    let at_ := t.quarantineAt + s.quarantineBytes k
    let head := bytes8 (BitVec.ofNat 64 q.addr) ++ bytes8 (atBit q.bytes.length 0 ||| atBit (b2n q.scratch) 63)
    let s1 := s.l2PutMarked at_ (clean head ++ q.bytes.map fun b => (b, q.poison))
    let before := s1.quarantine.takeWhile fun x => !(x.key == k && !x.written)
    .next { s1 with quarantine := before ++ { q with written := true } :: s1.quarantine.drop (before.length + 1) }
  | _, _ => .refused (.eventNotPending "QUARANTINE_WRITE")

/-! ## The halt (R315) -/

/-- SIBLING_HALT (R56, R315): the broadcast reaches a warp; it stops between instructions, once a round
trip under way has completed, writes its PC and skid count into its block and records HALT_SKID. The faulting
warp itself, where its round trip had to complete, stops without either. -/
def execSiblingHalt (k : WKey) (s : State) : Host.Outcome State Fault Refusal :=
  match s.team? k.team, s.warp? k with
  | some t, some w =>
    if t.phase ≠ .halting || !w.live || w.halted || w.inTrip then .refused (.eventNotPending "SIBLING_HALT")
    else if w.stopping then .next ((s.suspendWait k).modWarp k fun w => { w with halted := true, stopping := false })
    else
      let s1 := (s.suspendWait k).modWarp k fun w => { w with halted := true }
      let s2 := s1.emit (w.src 0) 0x023 (auxCtx k.ctx) w.cause t.cause
        [w.pc, atBit (w.skid % 256) 0 ||| ((w.serial &&& 0xFFFFFFFFFFFF#64) <<< 8)]
      let status := ((s2.warp? k).map Warp.statusWord).getD 0
      .next (s2.l2PutMarked (t.block w.num) (clean (bytes8 w.pc ++ bytes8 status)))
  | _, _ => .refused (.eventNotPending "SIBLING_HALT")

/-- SP-path and MX-path operations of a team that have been accepted. -/
def State.unitsBusy (s : State) (t : Team) : Bool :=
  t.cores.any fun c =>
    (s.core c).spOps.any (fun x => x.key.team == t.key && !x.dropped) || (s.core c).mxOps.any (·.key.team == t.key)

/-- A team's operations in flight when it is flushed or discarded (R317, R324): parked requests are
dropped; loads lose their results; what has been sent is performed. `flush`: they are a flushed instance's. -/
def State.orphanOps (s : State) (k : TKey) (flush : Bool := false) : State :=
  let parked := s.ops.filter fun o => o.key.team == k && !o.parked.isEmpty
  let s1 := parked.foldl State.forgetStore s
  let mine (x : SpOp) : Bool := x.key.team == k
  let port := s1.cores.flatMap fun c => (c.spOps.filter mine).map (·.id)
  let s2 := { s1 with
    ops := (updIf (·.key.team == k) (fun o => { o.orphan with flushed := o.flushed || flush }) s1.ops).filter fun o =>
      !(o.key.team == k && o.again)
    savedOps := s1.savedOps.filter (·.key.team != k)
    savedCopies := s1.savedCopies.filter (·.key.team != k)
    quarantine := s1.quarantine.filter (·.key != k)
    relayOps := s1.relayOps.filter (·.key.team != k)
    cores := s1.cores.map fun c =>
      { c with spOps := c.spOps.filter (·.key.team != k)
               mxOps := c.mxOps.filter (·.key.team != k)
               port := c.port.filter fun p => !port.contains p.2
               parity := c.parity.filter fun p => p.key != k
               channels := c.channels.map fun q => q.filter (·.key.team != k) } }
  (parked.map (·.id)).foldl State.tryFinish s2

/-- A warp of a team that is no more. -/
def Warp.ended (w : Warp) : Warp :=
  { w with act := .exited, halted := false, wait := none, stopped := none, stack := [], loops := [], arriving := []
           ldq := [], stq := [], spq := [], cpq := [], mxq := [], rmq := [], bedge := false, parked := false, watch := [none, none, none, none] }

/-- Ending the waits of every warp of a team. -/
def State.endWaits (s : State) (t : Team) : State := t.warps.foldl (fun s w => s.dropWait (t.wkey w)) s

/-- Discarding a team (R317): its warps retire without issuing, its copy commands are cancelled, its
slots and pool are released, and it is counted complete with STATUS faulted once its writes are
acknowledged. -/
def State.discardTeam (s : State) (k : TKey) : State :=
  match s.team? k with
  | none => s
  | some t =>
    let s1 := ((s.endWaits t).teamFaulted k ((t.warps.head?.map (·.serial)).getD 0)).orphanOps k
    let s2 := s1.modTeam k fun t => { t with discarded := true, warps := t.warps.map Warp.ended }
    match s2.team? k with
    | some t2 => s2.retireTeam t2
    | none => s2

/-- The time a team has run while resident; a halted team does not run. -/
def State.ranFor (s : State) (t : Team) : Nat := t.runTime + (if t.phase = .halted then 0 else s.clock - t.since)

/-- TEAM_HALT_COMPLETE (R315, R317): every warp has stopped and the accepted operations have completed; the
MISCOMPARE records that waited for this are written (R168), and the team is discarded, once there is room (R318),
or kept: under ATTACH, and a relay team until its collective is cancelled (R302). A debugger's step is over with
it; of a context without ATTACH the team has then halted after ATTACH was cleared (R322; DEDUCED, assumption
117). -/
def execTeamHaltComplete (k : TKey) (s : State) : Host.Outcome State Fault Refusal :=
  match s.team? k with
  | none => .refused (.eventNotPending "TEAM_HALT_COMPLETE")
  | some t =>
    let loads := s.ops.any fun o => o.key.team == k && !o.dropped && o.kind.path == some .ld && o.busy
    if t.phase ≠ .halting || t.warps.any (fun w => w.live && !w.halted) || s.unitsBusy t || loads then
      .refused (.eventNotPending "TEAM_HALT_COMPLETE")
    else if !t.heldFaults.isEmpty then .next (s.writeHeld t)
    else
      let s1 := if t.stepping.isSome then s.stepDone k.ctx else s
      if (s.ctx k.ctx).attach || t.relay.isSome then
        .next ((s1.stopCopies t CopyCmd.writesScratch).modTeam k fun u =>
          { u with phase := .halted, runTime := s.ranFor t, since := s.clock, stepping := none })
      else if !s.fqRoom k.ctx then .refused (.eventNotPending "TEAM_HALT_COMPLETE")
      else .next (s1.discardTeam k)

/-- Every warp of a halted team becomes eligible at its resume PC: the return from a halt (R322, R327). -/
def State.resumeTeam (s : State) (k : TKey) : State :=
  match s.team? k with
  | none => s
  | some t =>
    let s1 := (s.modTeam k fun t => { t.resume with since := s.clock }).drainQuarantine k
    let s2 := s1.returnCopies t
    t.warps.foldl (fun s w => s.resumeWait (t.wkey w)) s2

/-! ## Late faults (R321) -/

/-- The record and the effects of a late fault on its team, by the team's state. Poison that a reduction has
consumed loses the context (R334). -/
def State.lateOn (s : State) (t : Team) (f : LateFault) : State :=
  let k := t.key
  let fault (s : State) : State :=
    let s1 := s.teamFaulted k f.info.serial
    if f.info.code = 0x19 ∨ f.info.code = 0x1B then s1.loseContext t f.info f.ia else s1
  if f.flushed then fault (s.recordFault t f.info { retired := true, flushed := true })
  else match t.phase with
    | .starting | .running | .draining | .flushed =>
      fault (((s.recordFault t f.info { halted := true }).modTeam k Team.beginHalt).haltRelays t)
    | .saving =>
      fault ((s.recordFault t f.info { halted := !t.saveHalted, skid := t.saveHalted }).modTeam k Team.beginHalt)
    | .halting | .halted => fault (s.recordFault t f.info { skid := true })
    | .saved =>
      let s1 := (fault (s.recordFault t f.info { halted := !t.saveHalted, skid := t.saveHalted })).modTeam k fun t =>
        { t with saveHalted := true }
      let s2 := s1.l2PutMarked t.frame (clean (bytes8 (atBit 3 0 ||| atBit (b2n t.flushable) 2)))
      if (s.ctx k.ctx).attach then s2 else s2.discardTeam k
    | .retired => fault (s.recordFault t f.info { retired := true })

/-- LATE_FAULT (R321): a late fault arrives and acts on the issuing team. -/
def execLateFault (id : Nat) (s : State) : Host.Outcome State Fault Refusal :=
  match s.lateFaults.find? (·.id == id) with
  | none => .refused (.eventNotPending "LATE_FAULT")
  | some f =>
    if !s.fqRoom f.key.ctx then .refused (.eventNotPending "LATE_FAULT")
    else
      let s1 := { s with lateFaults := s.lateFaults.filter (·.id != id) }
      match s1.team? f.key with
      | none => .next s1
      | some t => .next ((s1.lateOn t f).settleComplete f.key)

/-! ## The fault queue (R318) -/

/-- FAULT_RECORD_DRAIN (R318): the oldest record held in the hub buffer is written once the ring has
room. -/
def execFaultRecordDrain (ctx : Nat) (s : State) : Host.Outcome State Fault Refusal :=
  let c := s.ctx ctx
  match c.held with
  | [] => .refused (.eventNotPending "FAULT_RECORD_DRAIN")
  | r :: rest =>
    if c.fqEn && c.fqFull then .refused (.eventNotPending "FAULT_RECORD_DRAIN")
    else
      let s1 := s.modCtx ctx fun c => { c with held := rest }
      .next (if c.fqEn then s1.ringWrite ctx r else s1.countNoRing ctx)

/-- FQCTL_WRITE (R318): a LOGSZ above 12 is ignored; setting EN clears RFAIL and NORING. -/
def execFqctlWrite (ctx : Nat) (v : Word) (s : State) : Host.Outcome State Fault Refusal :=
  if fieldOf v 15 12 > 12 then .next s
  else .next (s.modCtx ctx fun c =>
    { c with fqCtl := v, rfail := c.rfail && !v.getLsbD 8, noring := if v.getLsbD 8 then 0 else c.noring })

/-- FQREAD_WRITE (R318): the driver frees ring space. -/
def execFqreadWrite (ctx : Nat) (v : BitVec 32) (s : State) : Host.Outcome State Fault Refusal :=
  .next (s.modCtx ctx fun c => { c with fqRead := v })

/-! ## The debug window (R322) -/

/-- Is a step of a team under way: its command reads BUSY until the instruction has issued (R322)? -/
def Team.inStep (t : Team) : Bool := t.stepping.isSome

/-- DBGSTAT and DBGFRAME after a command. -/
def State.dbgDone (s : State) (ctx stat : Nat) (frame : Nat) : State :=
  s.modCtx ctx fun c => { c with dbgStat := stat, dbgFrame := BitVec.ofNat 64 frame }

/-- A command on a team: status NOTEAM without one, BUSY while a step is under way; `f` answers the state after, or none for a team in
the wrong state. -/
def State.debug (s : State) (k : TKey) (f : Team → Option State) : State :=
  match s.team? k with
  | none => s.dbgDone k.ctx 2 0
  | some t =>
    if t.phase == .retired then s.dbgDone k.ctx 2 0
    else match f t with
      | some s1 => s1.dbgDone k.ctx (if ((s1.team? k).map Team.inStep).getD false then 1 else 0) (match s1.team? k with | some u => if u.phase == .retired then 0 else u.frame | none => 0)
      | none => s.dbgDone k.ctx 3 t.frame

/-- May HALT halt a team in this phase? -/
def TeamPhase.halts (p : TeamPhase) : Bool := p == .running || p == .draining

/-- HALT (R322): a running team halts, with a DEBUG_HALT record; done at once without ATTACH. Without
room for the record the command waits (R318). -/
def dbgHalt (k : TKey) (s : State) : Host.Outcome State Fault Refusal :=
  if !(s.ctx k.ctx).attach then .next (s.debug k fun _ => some s)
  else if (s.team? k).any (·.phase.halts) && !s.fqRoom k.ctx then .refused (.eventNotPending "HALT")
  else .next (s.debug k fun t =>
    if t.phase.halts then
      let f : FaultInfo := { code := 0x25, pc := 0, cause := t.cause }
      some ((((s.recordFault t f { halted := true }).modTeam k Team.beginHalt).haltRelays t).teamFaulted k 0)
    else none)
def execDbgHalt (k : TKey) (s : State) : Host.Outcome State Fault Refusal := s.command (.halt k) (dbgHalt k s)

/-- RESUME (R322). -/
def dbgResume (k : TKey) (s : State) : Host.Outcome State Fault Refusal :=
  .next (s.debug k fun t => if t.phase = .halted then some (s.resumeTeam k) else none)
def execDbgResume (k : TKey) (s : State) : Host.Outcome State Fault Refusal := s.command (.resume k) (dbgResume k s)

/-- STEP (R322): one warp of a halted team may issue one instruction; the command is BUSY until then. -/
def dbgStep (k : TKey) (w : Nat) (s : State) : Host.Outcome State Fault Refusal :=
  .next (s.debug k fun t =>
    if t.phase = .halted && !t.inStep && t.warps.any (fun x => x.num == w && x.live) then
      some ((s.modTeam k fun t => { t.modWarp w (fun x => { x with halted := false }) with stepping := some w }).resumeWait
        ⟨k.ctx, k.tid, w⟩)
    else none)
def execDbgStep (k : TKey) (w : Nat) (s : State) : Host.Outcome State Fault Refusal := s.command (.step k w) (dbgStep k w s)

/-- SNAP (R322): the halted team's state is written into its frame in saved form. -/
def dbgSnap (k : TKey) (s : State) : Host.Outcome State Fault Refusal :=
  .next (s.debug k fun t => if t.phase = .halted && !t.inStep then some (s.writeFrame t true true) else none)
def execDbgSnap (k : TKey) (s : State) : Host.Outcome State Fault Refusal := s.command (.snap k) (dbgSnap k s)

/-- LOAD (R322): the frame is read back into the halted team; an armature that is not one loads
nothing. -/
def dbgLoad (k : TKey) (s : State) : Host.Outcome State Fault Refusal :=
  .next (s.debug k fun t =>
    if t.phase ≠ .halted || t.inStep then none
    else
      let (t1, bad, s1) := s.readFrame t
      if bad then none else some (s1.modTeam k fun _ => t1))
def execDbgLoad (k : TKey) (s : State) : Host.Outcome State Fault Refusal := s.command (.load k) (dbgLoad k s)

/-- DISCARD (R322): the halted team is discarded as R317 does. -/
def dbgDiscard (k : TKey) (s : State) : Host.Outcome State Fault Refusal :=
  .next (s.debug k fun t => if t.phase = .halted then some (s.discardTeam k) else none)
def execDbgDiscard (k : TKey) (s : State) : Host.Outcome State Fault Refusal := s.command (.discard k) (dbgDiscard k s)

/-- DBGCMD with an undefined OP (R322): status STATE. -/
def dbgcmdUndefinedOp (ctx : Nat) (v : Word) (s : State) : Host.Outcome State Fault Refusal :=
  .next (s.dbgDone ctx 3 (((s.team? ⟨ctx, fieldOf v 31 0⟩).map (·.frame)).getD 0))
def execDbgcmdUndefinedOp (ctx : Nat) (v : Word) (s : State) : Host.Outcome State Fault Refusal := s.command (.badDebug ctx v) (dbgcmdUndefinedOp ctx v s)

/-- DBGCTL_WRITE (R322): ATTACH; teams that are halted stay so. -/
def execDbgctlWrite (ctx : Nat) (attach : Bool) (s : State) : Host.Outcome State Fault Refusal :=
  .next (s.modCtx ctx fun c => { c with attach := attach })

end Sys2Proof.Machine
end

