-- ==== Sys2Proof/Machine/Admit.lean ====
section
/-!
DEFINITION. Admission and placement of teams (R48 to R51, R251 to R253, R275, R281, R332), their start
(R49), and pre-emption: the choice of teams (R287, R323), flush (R324), drain (R325), save (R326) and
restore (R331); bank retirement (R177, R178) and compactor moves (R183).
-/

namespace Sys2Proof.Machine

/-! ## What a core has left (R7, R48, R85, R178) -/

/-- The pool of a core: 2 MiB, 1.5 MiB once a group is removed (R178). -/
def Core.pool (c : Core) : Nat := if c.gret = 0 then Config.poolGranules else 384

/-- Warp slots in use on a core. -/
def State.slotsUsed (s : State) (c : Nat) (gone : List TKey) : List Nat :=
  (s.teamsOn c gone).flatMap fun t =>
    (t.warps.filter fun w => w.core == c && !s.slotFree (t.wkey w) w).map (·.slot)

/-- Free slots of a quad, in increasing order. -/
def freeSlots (used : List Nat) (q : Nat) : List Nat := ((List.range 16).map (16 * q + ·)).filter fun x => !used.contains x

/-- The slots of n warps from quad offset q0 (R48): the j-th warp takes the lowest free slot of quad
(q0 + j) mod 4; none when a quad has too few. -/
def slotsFrom (used : List Nat) (q0 n : Nat) : Option (List Nat) :=
  (List.range n).foldl (fun acc j => acc.bind fun l =>
    ((freeSlots (used ++ l) ((q0 + j) % 4)).head?).map fun x => l ++ [x]) (some [])

/-- The slots of n warps on a core, at the lowest quad offset that fits (R48). -/
def State.slotsOn (s : State) (c n : Nat) (gone : List TKey) : Option (List Nat) :=
  let used := s.slotsUsed c gone
  (List.range 4).findSome? fun q0 => slotsFrom used q0 n

/-- The cores of a placement at core c, and the warps on each. -/
def Kernel.coresAt (k : Kernel) (c : Nat) : List (Nat × Nat) :=
  if k.paired then [(c, (k.warps + 1) / 2), (c + 1, k.warps / 2)] else [(c, k.warps)]

/-- Is any collective live (R296)? -/
def State.anyLive (s : State) : Bool := s.collectives.any (·.live)

/-- Does a core have room for its part of a team? -/
def State.roomOn (s : State) (k : Kernel) (relay : Bool) (gone : List TKey) (c n : Nat) : Bool :=
  let used := (s.teamsOn c gone).foldl (fun a t => a + t.kernel.granules t.relay.isSome) 0
  s.coreUp c && (s.core c).retiring.isNone && decide (used + k.granules relay ≤ (s.core c).pool) &&
    (s.slotsOn c n gone).isSome

/-- A placement that fits (R6, R48, R296, R297): a paired team needs an even core whose pair holds no
other paired team. -/
def State.fitsAt (s : State) (k : Kernel) (relay : Bool) (gone : List TKey) (c : Nat) : Bool :=
  (k.coresAt c).all (fun x => s.roomOn k relay gone x.1 x.2) &&
    (!k.paired || (c % 2 == 0 && !((s.teamsOn c gone).any (·.kernel.paired)))) &&
    (if relay then s.isRelayCore c else !(s.anyLive && (k.coresAt c).any fun x => s.isRelayCore x.1))

/-- The cores at which a context's team may be placed (R268). -/
def State.homeCores (s : State) (ctx : Nat) (k : Kernel) : List Nat :=
  (List.range Config.cores).filter fun c => (k.coresAt c).all fun x => (s.ctx ctx).coreSet.getLsbD x.1

/-! ## Frames (R332) -/

/-- Frames of a context in use. -/
def State.framesOf (s : State) (ctx : Nat) : List (Nat × Nat) :=
  (s.teams.filter fun t => t.ctx == ctx && !t.discarded).map fun t => (t.frame, t.frameSize)

/-- The lowest free address of the save area that holds a frame. -/
def State.freeFrame (s : State) (ctx size : Nat) : Option Nat :=
  let c := s.ctx ctx
  let lo := c.saveBase.toNat / 65536 * 65536
  let hi := lo + c.saveSize.toNat * 65536
  let used := s.framesOf ctx
  minOf ((lo :: used.map fun f => f.1 + f.2).filter fun a =>
    decide (a + size ≤ hi) && used.all fun f => !meets a size f.1 f.2)

/-! ## Leases and reservations (R251, R252, R281) -/

/-- The enabled lease-kind register with PEX that holds a kernel's code (R251). -/
def Context.codeRegister (c : Context) (k : Kernel) : Option Range :=
  (c.findRange (BitVec.ofNat 64 k.codeBase) k.codeSize).bind fun r => if r.kind = 0 ∧ r.pex then some r else none

/-- The registers a launch leases. -/
def Context.leasesOf (c : Context) (k : Kernel) : BitVec 16 :=
  k.lease ||| (match c.codeRegister k with | some r => 1#16 <<< r.idx | none => 0)

/-- Lease registers that keep a launch waiting: EN or RES is 0. -/
def Context.leasesAwaited (c : Context) (k : Kernel) : List Nat :=
  (c.rangeList.filter fun r => (c.leasesOf k).getLsbD r.idx && !(r.en && r.res)).map (·.idx)

/-- What a launch reserves on out-edge slot k: EMIT, once for each record of a wave. -/
def Launch.need (l : Launch) (k : Nat) : Nat := (if l.records.isEmpty then 1 else l.records.length) * l.kernel.emit.getD k 0

/-- The firing of a launch. -/
def State.launchFiring (s : State) (l : Launch) : Option Firing := l.firing.bind (s.ctx l.ctx).firing?

/-- The first out-edge that cannot be reserved: edge index, FREE, demand. -/
def State.edgeAwaited (s : State) (l : Launch) : Option (Nat × Nat × Nat) :=
  (s.launchFiring l).bind fun f => (List.range 4).findSome? fun k =>
    (f.outEdge l.node k).bind fun n => (f.edges[n]?).bind fun e =>
      if e.free < l.need k then some (n, e.free, l.need k) else none

/-- The node reference of a launch (R276). -/
def Launch.nodeRef (l : Launch) : Nat := match l.firing with | some f => f * 256 + l.node | none => 0

/-! ## The foundry's wait entries (R363) -/

/-- Foundry entries of a hub in use. -/
def State.foundryIdx (s : State) (hub : Nat) : List Nat :=
  ((s.launches.filter fun l => homeHub l.ctx == hub).filterMap (·.waitIdx)) ++
    (s.ctxs.filter fun c => homeHub c.num == hub).flatMap fun c => c.queues.filterMap fun q => q.held.bind (·.1)

/-- The lowest free foundry entry. -/
def State.freeIdx (s : State) (hub : Nat) : Option Nat :=
  ((List.range 1024).map (9216 + ·)).find? fun i => !(s.foundryIdx hub).contains i

/-- The first decode of a hub that waits without an entry takes one that is free (R363). Its wait begins in the
table then (DESIGN CHOICE, assumption 128). -/
def State.grantEntry (s : State) (hub : Nat) : State :=
  let waiting := (s.ctxs.filter fun c => homeHub c.num == hub).flatMap fun c =>
    c.queues.filterMap fun q => match q.held with
      | some (none, e, cid) => some (c.num, q, e, cid)
      | _ => none
  match s.freeIdx hub, waiting with
  | some i, (ctx, q, e, cid) :: _ =>
    let e := { e with since := s.timeAt (hubEmitter hub 10) }
    (s.emitWaitBegin (hubSrc hub 10) ctx cid q.heldParent e).modQueue ⟨ctx, q.num⟩ fun q =>
      { q with held := some (some i, e, cid) }
  | _, _ => s

/-- Changing a launch. -/
def State.modLaunch (s : State) (id : Nat) (f : Launch → Launch) : State :=
  { s with launches := updIf (·.id == id) f s.launches }

/-- The causal id of a launch's packet, and its parent. -/
def State.launchCause (s : State) (l : Launch) : Word × Word :=
  match s.packet? l.packet with | some p => (p.cause, p.parent) | none => (l.parent, 0)

/-- The wait of a launch ends. -/
def State.endLaunchWait (s : State) (l : Launch) : State :=
  match l.wait with
  | none => s
  | some e =>
    let (cid, parent) := s.launchCause l
    ((s.emitWaitEnd (hubSrc (homeHub l.ctx) 10) l.ctx cid parent 0 e).modLaunch l.id fun l =>
      { l with wait := none, waitIdx := none }).grantEntry (homeHub l.ctx)

/-- A launch waits: an entry is written when one is free; the same wait is rewritten without a record.
None when nothing changes. -/
def State.launchWaits (s : State) (l : Launch) (e : WaitEntry) : Option State :=
  let fresh (s : State) : Option State :=
    (s.freeIdx (homeHub l.ctx)).map fun i =>
      let (cid, parent) := s.launchCause l
      let e := { e with since := s.timeAt (hubEmitter (homeHub l.ctx) 10) }
      (s.emitWaitBegin (hubSrc (homeHub l.ctx) 10) l.ctx cid parent e).modLaunch l.id fun l =>
        { l with wait := some e, waitIdx := some i }
  match l.wait with
  | none => fresh s
  | some old =>
    if old.kind = e.kind ∧ old.obj = e.obj then
      (if old.a0 = e.a0 ∧ old.a1 = e.a1 ∧ old.a2 = e.a2 then none
       else some (s.modLaunch l.id fun l => { l with wait := some { e with since := old.since } }))
    else fresh (s.endLaunchWait l)

/-- The notice of a launch that waits for a lease (R253): one for each register. -/
def State.leaseNotice (s : State) (l : Launch) (r : Nat) : State :=
  let (cid, parent) := s.launchCause l
  let hub := homeHub l.ctx
  (s.postRecord l.ctx hub (pageRecord 0x22 l.ctx hub r 0 0 0 0 0 0 cid (s.timeAt (hubEmitter hub 10))) cid parent).modLaunch
    l.id fun l => { l with noticed := l.noticed ++ [r] }

/-! ## Starting a team (R49 to R51, R275, R285) -/

/-- The next team id: from 1, wrapping past 2^32 - 1, skipping ids in use (R51). `fuel` bounds the
search. -/
def State.nextTid (s : State) (ctx : Nat) : Nat → Nat → Nat
  | 0, last => last
  | fuel + 1, last =>
    let n := if last + 1 ≥ 2 ^ 32 then 1 else last + 1
    if s.teams.any fun t => t.is ⟨ctx, n⟩ then State.nextTid s ctx fuel n else n

/-- The next warp serial of a context at a hub (R50). The first warp after a context reset has COUNT 0
(DESIGN CHOICE, assumption 106). -/
def State.nextSerial (s : State) (ctx hub : Nat) : Word × State :=
  let n := (s.ctx ctx).serials.getD hub 0
  (atBit hub 46 ||| atBit (n % 2 ^ 46) 0, s.modCtx ctx fun c => { c with serials := c.serials.set hub (n + 1) })

/-- Registers at start (R86, R275): lanes of a wave find their argument and instance in v0 and v1, which
take rows 0 and 1 with v1 the more recent. -/
def startRegs (k : Kernel) (wave : Option (Word × Nat × List Nat)) : List VReg :=
  match wave with
  | none => List.replicate k.n {}
  | some (base, stride, insts) =>
    let lane (f : Nat → Word) : List Word := (List.range k.width).map fun l => ((insts[l]?).map f).getD 0
    let g (row rank : Nat) (l : List Word) : VReg := { shape := .g, row := row, rank := rank, lanes := l, dirty := true }
    ([g 0 1 (lane fun i => base + BitVec.ofNat 64 (i * stride)), g 1 0 (lane (BitVec.ofNat 64 ·))] ++
      List.replicate (k.n - 2) ({} : VReg)).take k.n

/-- A warp at its start (R49, R86, R275). -/
def startWarp (k : Kernel) (num core slot : Nat) (serial cause : Word) (args : List Word)
    (wave : Option (Word × Nat × List Nat)) : Warp :=
  { num := num, core := core, slot := slot, serial := serial, cause := cause, pc := BitVec.ofNat 64 (k.codeBase + k.entry)
    s := padTo 64 0 args
    p := match wave with
      | some (_, _, insts) => (List.replicate 16 0).set 1 (Mask.low insts.length)
      | none => List.replicate 16 0
    mask := fullMask k.width, arrivals := List.replicate 8 (false, 0), v := startRegs k wave
    x := List.replicate 4 { idx := List.replicate 64 0 }, flags := List.replicate k.width 0 }

/-- The slots of a team placed at core c: for each warp its core and slot (R48). -/
def State.placeWarps (s : State) (k : Kernel) (c : Nat) : List (Nat × Nat) :=
  let on (x : Nat × Nat) : List Nat := (s.slotsOn x.1 x.2 []).getD []
  (List.range k.warps).map fun j =>
    if k.paired then (c + j % 2, (on (c + j % 2, if j % 2 = 0 then (k.warps + 1) / 2 else k.warps / 2)).getD (j / 2) 0)
    else (c, (on (c, k.warps)).getD j 0)

/-- New warps of a team, with new serials and causal ids, taken in increasing warp number, across both cores
of a pair (DESIGN CHOICE, assumption 107). -/
def State.newWarps (s : State) (ctx hub : Nat) (k : Kernel) (c : Nat) (args : List Word)
    (wave : Option (Word × Nat × List Nat)) : List Warp × State :=
  ((s.placeWarps k c).zipIdx).foldl (fun acc (x, j) =>
    let (serial, s1) := acc.2.nextSerial ctx hub
    let (cause, s2) := s1.mint hub
    (acc.1 ++ [startWarp k j x.1 x.2 serial cause args wave], s2)) ([], s)

/-- Taking leases and the reservation of a launch. -/
def State.takeLeases (s : State) (l : Launch) (leases : BitVec 16) : State :=
  let s1 := s.modCtx l.ctx fun c =>
    { c with uses := (c.uses.zipIdx).map fun (n, k) => if leases.getLsbD k then n + 1 else n }
  match l.firing with
  | none => s1
  | some f => s1.modFiring l.ctx f fun f => (List.range 4).foldl (fun f k =>
      match f.outEdge l.node k with
      | some n => f.modEdge n fun e => { e with free := e.free - l.need k }
      | none => f) f

/-- The delivered lane records of a wave. -/
def State.waveOf (s : State) (l : Launch) : Option (Word × Nat × List Nat) :=
  match s.launchFiring l with
  | none => none
  | some f => match f.nodes[l.node]? with
    | some x => if x.lane then some (x.argBase, x.argStride, l.records.map (·.inst)) else none
    | none => none

/-- The team of a launch placed at core c with its frame; one that was flushed keeps its id, its
place in the order of teams and its count of flushes (DEDUCED, assumption 40). -/
def State.placeTeam (s : State) (l : Launch) (c frame : Nat) (relay : Option RelayRole) : State :=
  let hub := hubOfCore c
  let leases := (s.ctx l.ctx).leasesOf l.kernel
  let s1 := s.takeLeases l leases
  let (cause, s2) := if l.restart.isSome then (0, s1) else s1.mint hub
  let (warps, s3) := s2.newWarps l.ctx hub l.kernel c l.args (s2.waveOf l)
  let fresh (tid : Nat) : Team :=
    { ctx := l.ctx, tid := tid, kernel := l.kernel, core := c, cause := cause, parent := l.parent
      packet := some l.packet, inst := l.inst, nodeRef := l.nodeRef, scopes := l.scopes
      records := l.records.map (·.inst), args := l.args, relay := relay, warps := warps
      barriers := List.replicate 8 {}, batons := List.replicate 4 .free
      reserved := (List.range 4).map l.need, leases := leases, expect := l.kernel.expect, flushable := relay.isNone
      frame := frame, frameSize := l.kernel.frameSize, serialHub := hub }
  let s4 := match l.restart with
    | some tid => s3.modTeam ⟨l.ctx, tid⟩ fun old =>
        { fresh tid with cause := old.cause, frame := old.frame, flushes := old.flushes }
    | none =>
      let tid := s3.nextTid l.ctx (s3.teams.length + 1) (s3.ctx l.ctx).lastTid
      (({ s3 with teams := s3.teams ++ [fresh tid] } : State).modCtx l.ctx fun c => { c with lastTid := tid })
  { s4 with launches := s4.launches.filter (·.id != l.id) }

/-- A LAUNCH packet's next team, once the one before it is admitted (R275). -/
def State.nextOfPacket (s : State) (p : PacketRun) : State :=
  match p.kernel with
  | none => s
  | some k =>
    if p.next ≥ p.total then s
    else
      let (id, s1) := s.takeId
      let l : Launch :=
        { id := id, ctx := p.ctx, packet := p.id, kernel := k, inst := p.next
          args := [p.argVA, BitVec.ofNat 64 p.next, p.scope, 0], scopes := [p.scope], records := [], firing := none
          node := 0, parent := p.cause }
      { s1 with launches := s1.launches ++ [l] }

/-- A team of a LAUNCH is counted in the packet scope, which is closed with the last of them (R273, R285). -/
def State.countTeam (s : State) (p : PacketRun) : State :=
  let s1 := s.scopeUp p.ctx p.scope 1
  if p.next + 1 < p.total then s1 else s1.scopeClose p.ctx p.scope

/-- The packet of an admitted launch has started, its team is counted, and its next team waits for admission
(R273). -/
def State.launchStarted (s : State) (l : Launch) : State :=
  if l.restart.isSome then s
  else match s.packet? l.packet with
    | none => s
    | some p =>
      if p.kind = 1 then
        let s1 := (s.countTeam p).modPacket p.id fun p => { p with started := true, next := p.next + 1 }
        match s1.packet? p.id with | some p1 => s1.nextOfPacket p1 | none => s1
      else s

/-! ## Pre-emption: the mode (R323) -/

/-- Nanoseconds of a number of cycles at the nominal clock. -/
def cyclesToNs (n : Nat) : Nat := n * 1000 / 1900

/-- D - Ts of a team in ns, none when the save alone takes longer. -/
def State.drainTime (s : State) (t : Team) : Option Nat :=
  let d := (s.ctx t.ctx).drainUs * 1000
  let ts := cyclesToNs ((s.saveSize t + 1023) / 1024)
  if ts ≤ d then some (d - ts) else none

/-- How a team is pre-empted. -/
inductive Mode where
  | save | flush | drain
  deriving DecidableEq, Repr

/-- The mode of pre-emption of a team (R323). -/
def State.modeOf (s : State) (t : Team) : Mode :=
  if t.phase = .halted then .save
  else if t.kernel.idem && t.flushable && decide (4 * t.issued < t.expect) then .flush
  else
    let drains := match s.drainTime t with
      | some d => decide (0 < t.issued) && decide (t.issued < t.expect) &&
          decide ((t.expect - t.issued) * s.ranFor t ≤ d * t.issued)
      | none => false
    if drains then .drain else .save

/-! ## Flush, drain, save -/

/-- FLUSH (R324): the team stops without a record, its copies are cancelled, its Dirty sectors written
back, its pool freed at once; leases and reservation return, and it waits to start again. A late fault of
it that is still on its way is one of a flushed instance (R321). -/
def State.flushTeam (s : State) (t : Team) : State :=
  let k := t.key
  let s0 := (s.endWaits t).orphanOps k true
  let s1 := { s0 with lateFaults := updIf (·.key == k) (fun f => { f with flushed := true }) s0.lateFaults }
  let s2 := s1.cleanTeam t
  let s3 := (s2.returnReservation t).returnLeases t
  let s4 := s3.modTeam k fun t =>
    { t with phase := .flushed, warps := [], barriers := List.replicate 8 {}, batons := List.replicate 4 .free
             sp := [], stamps := [], tiles := [], confl := 0, recon := 0, reserved := [0, 0, 0, 0], leases := 0
             issued := 0, expect := t.kernel.expect, flushes := t.flushes + 1, runTime := 0, stepping := none }
  let (id, s5) := s4.takeId
  let f := s.teamFiring t
  let l : Launch :=
    { id := id, ctx := t.ctx, packet := t.packet.getD 0, kernel := t.kernel, inst := t.inst, args := t.args
      scopes := t.scopes, records := (t.records.zip t.scopes).map fun (i, sc) =>
        { node := t.nodeRef, inst := i, scope := sc, cause := t.parent, edge := none : Record }
      firing := f.map (·.id), node := refNode t.nodeRef, parent := t.parent, restart := some t.tid }
  { s5 with launches := s5.launches ++ [l] }

/-- A save begins: the warps stop. -/
def State.beginSave (s : State) (t : Team) (forced : Bool) : State :=
  s.modTeam t.key fun t =>
    { t with phase := .saving, saveHalted := t.phase == .halted, wasHalted := t.phase == .halted, forced := forced, runTime := s.ranFor t, since := s.clock }

/-- Pre-empting a team in its mode. `forced`: chosen under R296, or for a core that loses a group. -/
def State.preempt (s : State) (t : Team) (forced : Bool) : State :=
  match s.modeOf t with
  | .flush => s.flushTeam t
  | .drain => s.modTeam t.key fun t =>
      { t with phase := .draining, drains := t.drains + 1, drainFrom := s.clock, forced := forced }
  | .save => s.beginSave t forced

/-- DRAIN_EXPIRY (R325): a draining team has not retired by D - Ts and is saved. -/
def execDrainExpiry (k : TKey) (s : State) : Host.Outcome State Fault Refusal :=
  match s.team? k with
  | none => .refused (.eventNotPending "DRAIN_EXPIRY")
  | some t =>
    if t.phase = .draining && decide (t.drainFrom + (s.drainTime t).getD 0 ≤ s.clock) then .next (s.beginSave t t.forced)
    else .refused (.eventNotPending "DRAIN_EXPIRY")

/-! ## The choice of teams (R287) -/

/-- The sublists of n elements. -/
def choose {α : Type} : Nat → List α → List (List α)
  | 0, _ => [[]]
  | _ + 1, [] => []
  | n + 1, x :: l => (choose n l).map (x :: ·) ++ choose (n + 1) l

/-- Teams being pre-empted: their space is on its way. -/
def State.leaving (s : State) : List TKey :=
  (s.teams.filter fun t => t.phase == .draining || t.phase == .saving).map (·.key)

/-- Teams on a placement that may be pre-empted for one of class `cls` (R287, R323). -/
def State.victimsAt (s : State) (k : Kernel) (c cls : Nat) : List Team :=
  s.teams.filter fun t =>
    (t.phase == .running || t.phase == .halted) && t.relay.isNone && decide (cls < (s.ctx t.ctx).cls) &&
      (k.coresAt c).any (fun x => t.cores.contains x.1) && decide (s.pendingBytes t ≤ 65536)

/-- The smallest sets of teams whose leaving makes a placement fit. -/
def State.fewestAt (s : State) (k : Kernel) (c cls : Nat) : List (List Team) :=
  let cand := s.victimsAt k c cls
  ((List.range (cand.length + 1)).findSome? fun n =>
    let l := (choose n cand).filter fun v => s.fitsAt k false (s.leaving ++ v.map (·.key)) c
    if l.isEmpty then none else some l).getD []

/-- The smallest sets over all placements; an empty set when what is leaving already makes room. -/
def State.fewest (s : State) (k : Kernel) (cores : List Nat) (cls : Nat) : List (List Team) :=
  let all := cores.flatMap fun c => s.fewestAt k c cls
  match minOf (all.map (·.length)) with
  | some n => all.filter (·.length == n)
  | none => []

/-- Choosing teams to pre-empt for a launch; which of the smallest sets is free (assumption 5). None
when nothing is to be done. -/
def State.makeWay (s : State) (l : Launch) : Option State :=
  match s.fewest l.kernel (s.homeCores l.ctx l.kernel) (s.ctx l.ctx).cls with
  | [] => none
  | sets =>
    let (n, s1) := s.draw
    match sets.getD (n % sets.length) [] with
    | [] => none
    | v => some (v.foldl (fun s t => s.preempt t false) s1)

/-! ## TEAM_ADMIT (R281) -/

/-- A team is pre-empted: it is being drained or saved, or waits to come back (R60). -/
def TeamPhase.preempted : TeamPhase → Bool
  | .draining | .saving | .saved | .flushed => true
  | .starting | .running | .halting | .halted | .retired => false

/-- The first pre-empted team of a context in the order of admission: no newer team of the context is
admitted, restored or restarted before it (R60, R331). -/
def State.comeback (s : State) (ctx : Nat) : Option TKey :=
  (s.teams.find? fun t => t.ctx == ctx && t.phase.preempted).map (·.key)

/-- No team of its context has to come back before a launch (R60). -/
def State.inTurn (s : State) (l : Launch) : Bool :=
  match s.comeback l.ctx with
  | none => true
  | some k => l.restart == some k.tid

/-- The foundry looks at a launch: it serves, the context is live, the collective's relay teams run (R299); until
they do, the launch waits with them. -/
def State.looksAt (s : State) (l : Launch) : Bool :=
  let c := s.ctx l.ctx
  s.serving && !c.lost && !c.resetting && !(s.collectives.any fun x => x.packet == l.packet && !x.live)

/-- A launch may be admitted now: it is its turn, and its code lies in one enabled lease-kind register with PEX
(R251). -/
def State.mayAdmit (s : State) (l : Launch) : Bool :=
  s.looksAt l && s.inTurn l && ((s.ctx l.ctx).codeRegister l.kernel).isSome

/-- The frame of a launch: one that restarts has it already; none when no space fits (R332). -/
def State.frameFor (s : State) (l : Launch) : Option Nat :=
  if l.restart.isSome then some 0 else s.freeFrame l.ctx l.kernel.frameSize

/-- A launch waits for nothing but pool space and slots. -/
def State.wantsSpace (s : State) (l : Launch) : Bool :=
  s.mayAdmit l && ((s.ctx l.ctx).leasesAwaited l.kernel).isEmpty && (s.edgeAwaited l).isNone && (s.frameFor l).isSome

/-- A core is about to take a launch of a higher class than `cls`: it fits there, or will once the teams
that are leaving have left. What a pre-emption frees is for the launch it was made for: the bound of R289
allows it no second wait (DEDUCED, assumption 28). -/
def State.claimed (s : State) (cls x : Nat) : Bool :=
  (s.launches.filter fun l => decide ((s.ctx l.ctx).cls < cls) && s.wantsSpace l).any fun l =>
    (s.homeCores l.ctx l.kernel).any fun c =>
      (l.kernel.coresAt c).any (·.1 == x) && s.fitsAt l.kernel false s.leaving c

/-- The places of a context's core set that take a kernel now. -/
def State.places (s : State) (ctx : Nat) (k : Kernel) : List Nat :=
  (s.homeCores ctx k).filter fun c =>
    s.fitsAt k false [] c && !(k.coresAt c).any fun x => s.claimed (s.ctx ctx).cls x.1

/-- A launch waits for space: an entry, or teams are pre-empted; nothing new refuses. -/
def State.admitLater (s : State) (l : Launch) (e : WaitEntry) (way : Bool) : Host.Outcome State Fault Refusal :=
  match s.launchWaits l e, (if way then s.makeWay l else none) with
  | some s1, _ => .next s1
  | none, some s1 => .next s1
  | none, none => .refused (.eventNotPending "TEAM_ADMIT")

/-- The wait of a launch that finds no space (Table 17-5). -/
def Launch.admissionWait (l : Launch) : WaitEntry :=
  { kind := 13, obj := l.kernel.va, a0 := BitVec.ofNat 64 (l.kernel.granules false) }

/-- TEAM_ADMIT (R281): a waiting launch is admitted with its leases, its reservation, its frame and its
place in one step, or goes on waiting; the launch of a collective comes after its relay teams (R299). One that waits
for its turn, or for a register that holds its code, waits for admission, WKIND 13 (DESIGN CHOICE, assumption 127). -/
def execTeamAdmit (id : Nat) (s : State) : Host.Outcome State Fault Refusal :=
  match s.launches.find? (·.id == id) with
  | none => .refused (.eventNotPending "TEAM_ADMIT")
  | some l =>
    let c := s.ctx l.ctx
    if !s.looksAt l then .refused (.eventNotPending "TEAM_ADMIT")
    else if !s.mayAdmit l then s.admitLater l l.admissionWait false
    else match c.leasesAwaited l.kernel with
      | r :: _ =>
        match (c.leasesAwaited l.kernel).find? fun r => !l.noticed.contains r with
        | some r => if s.fqRoom l.ctx then .next (s.leaseNotice l r) else .refused (.eventNotPending "TEAM_ADMIT")
        | none => s.admitLater l { kind := 12, obj := BitVec.ofNat 64 r } false
      | [] =>
        match s.edgeAwaited l with
        | some (n, free, need) =>
          s.admitLater l { kind := 11, obj := BitVec.ofNat 64 n, a0 := BitVec.ofNat 64 free, a1 := BitVec.ofNat 64 need
                           a2 := BitVec.ofNat 64 l.nodeRef } false
        | none =>
          match s.frameFor l, s.places l.ctx l.kernel with
          | none, _ => s.admitLater l l.admissionWait false
          | some _, [] => s.admitLater l l.admissionWait true
          | some a, cores =>
            let (n, s1) := s.draw
            .next (((s1.endLaunchWait l).placeTeam l (cores.getD (n % cores.length) 0) a none).launchStarted l)

/-- TEAM_START (R49, R169): the pool is cleared, and the team's warps become eligible; its start acquires
(R272, R283). -/
def execTeamStart (k : TKey) (s : State) : Host.Outcome State Fault Refusal :=
  match s.team? k with
  | none => .refused (.eventNotPending "TEAM_START")
  | some t =>
    if t.phase ≠ .starting then .refused (.eventNotPending "TEAM_START")
    else
      let s1 := t.cores.foldl State.flashInvalidate s
      .next ((s1.emitTeam t 0x02A).modTeam k fun t => { t with phase := .running, since := s.clock })

/-! ## TEAM_SAVE (R326) -/

/-- Does a team whose save is withdrawn stay halted: under ATTACH, or because it was halted before (R317, R322)? At
a restore ATTACH alone decides (R317). -/
def State.keepsHalted (s : State) (t : Team) : Bool := (s.ctx t.ctx).attach || t.wasHalted

/-- A save that is withdrawn (R323): the warps are eligible again, the copies resume. A team that faulted
meanwhile is halted: without ATTACH it is discarded (R317). -/
def State.withdrawSave (s : State) (t : Team) : State :=
  let k := t.key
  let s1 := s.modTeam k fun t => { t with phase := if t.saveHalted then .halted else .running, saveHalted := false, since := s.clock }
  let s2 := (s1.drainQuarantine k).returnCopies t
  if !t.saveHalted then s2
  else if s.keepsHalted t then s2.stopCopies t CopyCmd.writesScratch
  else s2.discardTeam k

/-- The frame is written and everything but leases, reservations and watch entries released. -/
def State.finishSave (s : State) (t : Team) : State :=
  let k := t.key
  let parked := s.parkedOf k
  let s1 := parked.foldl State.forgetStore (s.writeHeld t)
  let saved := parked.map fun o => { o with
    parked := [], walked := [], through := o.through || o.kind == .store
    lanes := o.lanes.map fun a => { a with stored := false } }
  let s2 := { s1 with ops := s1.ops.filter fun o => o.key.team != k || o.dropped, savedOps := s1.savedOps ++ saved }
  let s3 := s2.cleanTeam t
  let s4 := t.warps.foldl (fun s w => s.suspendWait (t.wkey w)) s3
  let t1 := { (s4.team? k).getD t with saves := t.saves + 1 }
  let s5 := s4.writeFrame t1 true t.saveHalted
  s5.modTeam k fun t => { t with phase := .saved, saves := t.saves + 1, warps := t.warps.map fun w => { w with reloading := none } }

/-- TEAM_SAVE (R326): the warps have stopped and the accepted operations have completed: the copies are
stopped; then, once their reads have returned and every request that is not parked has completed, the
frame is written, or the save is withdrawn (R323) or waits (R296) when the pending records do not
fit. -/
def execTeamSave (k : TKey) (s : State) : Host.Outcome State Fault Refusal :=
  match s.team? k with
  | none => .refused (.eventNotPending "TEAM_SAVE")
  | some t =>
    let parity := t.cores.any fun c => (s.core c).parity.any (·.key == k)
    if t.phase ≠ .saving || t.warps.any (fun w => w.live && w.inTrip) || s.unitsBusy t || parity then
      .refused (.eventNotPending "TEAM_SAVE")
    else if !(s.copiesOf t).isEmpty then .next (s.stopCopies t fun _ => true)
    else if s.quarantine.any (fun q => q.key == k && !q.written) ||
        s.ops.any (fun o => o.key.team == k && !o.dropped && o.busy) then
      .refused (.eventNotPending "TEAM_SAVE")
    else if s.pendingBytes t > 65536 then
      (if t.forced then .refused (.eventNotPending "TEAM_SAVE") else .next (s.withdrawSave t))
    else .next (s.finishSave t)

/-! ## TEAM_RESTORE (R331) -/

/-- A pending record re-issued: its range is looked up again (R330). -/
def MemOp.reissue (o : MemOp) (c : Context) (t : Team) : MemOp :=
  let core := ((t.warp? o.key.w).map (·.core)).getD t.core
  { o with
    core := core
    restored := true
    lanes := o.lanes.map fun a =>
      if a.done then a
      else match c.findRange a.va o.size with
        | none => { a with done := true, code := 0x10 }
        | some r =>
          if r.kind = 0 ∧ !t.leases.getLsbD r.idx then { a with done := true, code := 0x11 }
          else if !r.takes o.kind o.ty o.atop || !r.permits o.kind then { a with done := true, code := 0x12 }
          else { a with ia := r.target a.va, range := r.idx, rkind := r.kind, peer := r.peer, tc := r.tc } }

/-- A saved team at a new place: its frame is read back, the quarantine drained, copies and pending
records re-enter, and its warps become eligible, or it is halted again. A warp with pending records stays
parked (R330); that of an instruction that is executed again (R254, R294) asks for its page alone. -/
def State.restoreTeam (s : State) (t : Team) (c : Nat) : State :=
  let k := t.key
  let place := s.placeWarps t.kernel c
  let t1 := { t with core := c
                     warps := t.warps.map fun w => { w with core := (place.getD w.num (c, 0)).1, slot := (place.getD w.num (c, 0)).2 } }
  let (t2, _, s1) := s.readFrame t1
  let t3 : Team :=
    { t2 with phase := (if t.saveHalted then .halted else .running), since := s.clock, forced := false
              warps := t2.warps.map fun w => { w with halted := t.saveHalted, stopping := false, parked := s.savedOps.any (·.key == t.wkey w) } }
  let s2 := t3.cores.foldl State.flashInvalidate (s1.modTeam k fun _ => t3)
  let s3 := (s2.drainQuarantine k).returnCopies t3
  let back : List MemOp := (s3.savedOps.filter (·.key.team == k)).map fun o => o.reissue (s3.ctx k.ctx) t3
  let asks := back.filter fun o => !o.again || (s3.needsWalk o).isSome
  let s4 := { s3 with ops := s3.ops ++ asks, savedOps := s3.savedOps.filter (·.key.team != k) }
  let s5 := (asks.filter fun o => o.lanes.all (·.done)).foldl (fun s o => s.tryFinish o.id) s4
  if t.saveHalted then (if (s5.ctx k.ctx).attach then s5.stopCopies t3 CopyCmd.writesScratch else s5.discardTeam k)
  else t3.warps.foldl (fun s w => (s.resumeWait (t3.wkey w)).unparkWarp (t3.wkey w)) s5

/-- TEAM_RESTORE (R331, R60): the first team of its context that waits to come back is restored at any
core of the core set with space; what it wrote has reached L2. -/
def execTeamRestore (k : TKey) (s : State) : Host.Outcome State Fault Refusal :=
  match s.team? k with
  | none => .refused (.eventNotPending "TEAM_RESTORE")
  | some t =>
    let c := s.ctx k.ctx
    let wrote := s.cores.any fun u => u.wbs.any (·.owner == k)
    if t.phase ≠ .saved || s.comeback k.ctx ≠ some k || !s.serving || c.lost || c.resetting || wrote || !s.fqRoom k.ctx then
      .refused (.eventNotPending "TEAM_RESTORE")
    else match s.places k.ctx t.kernel with
      | [] => .refused (.eventNotPending "TEAM_RESTORE")
      | cores =>
        let (n, s1) := s.draw
        .next (s1.restoreTeam t (cores.getD (n % cores.length) 0))

/-! ## The pool: compactor and banks (R177, R178, R183) -/

/-- POOL_COMPACTOR_MOVE (R183): a team's allocation moves; no value changes, and parity is rebuilt at the
destination. -/
def execPoolCompactorMove (k : TKey) (s : State) : Host.Outcome State Fault Refusal :=
  match s.team? k with
  | none => .refused (.eventNotPending "POOL_COMPACTOR_MOVE")
  | some t =>
    let (u, s1) := s.readPool t
    let s2 := t.cores.foldl (fun s n => s.modCore n fun c => { c with parity := c.parity.filter fun p => p.key != k }) s1
    .next (s2.modTeam k fun t => { t with sp := u.sp, reliefBad := [] })

/-- SP_BANK_RETIRE (Table 17-9). -/
def State.emitBank (s : State) (core bank step : Nat) : State :=
  s.emit (coreSrc core 3) 0x00A 0 0 0 [atBit core 0 ||| atBit bank 16 ||| atBit (bank / 8) 24 ||| atBit step 32]

/-- Removing a bank's group, or the core when it has lost a group already (R178). -/
def State.removeGroup (s : State) (core bank : Nat) : State :=
  let c := s.core core
  if c.gret = 0 then
    (s.emitBank core bank 1).modCore core fun c => { c with gret := c.gret ||| (1#4 <<< (bank / 8)), retiring := none }
  else
    (s.emit (coreSrc core 3) 0x00B (2 * 1) 0 0 [BitVec.ofNat 64 core]).modCore core fun c =>
      { c with retired := true, retiring := none }

/-- Saves of a core's teams, for those that can begin one; a relay team is never pre-empted (R300). -/
def State.saveAllOn (s : State) (core : Nat) : State :=
  (s.teamsOn core []).foldl (fun s t =>
    if t.relay.isNone ∧ (t.phase = .running ∨ t.phase = .draining ∨ t.phase = .halted) then s.beginSave t true else s) s

/-- BANK_RETIRE (R177, R178): a bank is retired and its group degraded, the pending parity updates
performed first; a second bank of a degraded group removes the group once every team of the core is
saved. -/
def execBankRetire (core bank : Nat) (s : State) : Host.Outcome State Fault Refusal :=
  let c := s.core core
  let g := bank / 8
  if bank ≥ 32 || c.retired || c.gret.getLsbD g || (c.degr.getLsbD g && c.rbank.getD g 0 == bank % 8) then
    .refused (.eventNotPending "BANK_RETIRE")
  else if !c.degr.getLsbD g then
    .next ((s.emitBank core bank 0).modCore core fun c =>
      { c with parity := [], degr := c.degr ||| (1#4 <<< g), rbank := c.rbank.set g (bank % 8) })
  else if (s.teamsOn core []).isEmpty then .next (s.removeGroup core bank)
  else
    let s1 := (s.saveAllOn core).modCore core fun c => { c with parity := [], retiring := some bank }
    if s1 == s then .refused (.eventNotPending "BANK_RETIRE") else .next s1

end Sys2Proof.Machine
end

