-- ==== Sys2Proof/Machine/Packets.lean ====
section
/-!
DEFINITION. Packets, descriptors and maquettes as the foundry reads and checks them (R269, R271 to R274,
R276 to R279, R298 to R300, R387). A check answers what it read, or the status of the first rule broken
(Table 13-4).
-/

namespace Sys2Proof.Machine

/-- A check: it may read memory, and answers a value or a rejection status. -/
abbrev Check (α : Type) := ExceptT Nat (StateM State) α

/-- Requiring a condition, else rejecting with a status. -/
def need (ok : Bool) (status : Nat) : Check Unit := if ok then pure () else throw status

/-- Bits hi:lo of a number of any width. -/
def bitsOf (n hi lo : Nat) : Nat := (n >>> lo) % 2 ^ (hi + 1 - lo)

/-- The 64-bit word at byte k of a structure. -/
def wordAt (bs : List Byte) (k : Nat) : Word := wordOf ((bs.drop k).take 8)

/-- An n-byte number at byte k of a structure. -/
def numAt (bs : List Byte) (k n : Nat) : Nat := leNat ((bs.drop k).take n)

/-! ## What the foundry reaches (R271, R273) -/

/-- Bytes of host memory as the host link returns them (assumption 4). -/
def State.hostBytes (s : State) (a n : Nat) : List Byte × State :=
  let (d, s1) := s.draw
  ((List.range n).map fun k => Config.hostByte (a + k) d, s1)

/-- The range of a VA that a packet or descriptor names for the foundry: enabled, not of peer kind, with
the permission; else RANGE_RULE. -/
def named (ctx : Nat) (va : Word) (n : Nat) (perm : Range → Bool) : Check Range := do
  let s ← get
  match (s.ctx ctx).findRange va n with
  | none => throw 0x05
  | some r => if perm r && r.kind != 2 then pure r else throw 0x05

/-- Reading a structure: RANGE_RULE for its VA, then FETCH. -/
def foundryRead (ctx : Nat) (va : Word) (n : Nat) : Check (List Byte) := do
  let r ← named ctx va n (·.prd)
  let s ← get
  if r.kind = 3 then
    let (bs, s1) := s.hostBytes (r.target va) n
    set s1
    pure bs
  else
    let (x, s1) := s.l2Read false (r.target va) n
    set s1
    match x with
    | .bytes bs none =>
      set (s1.foundrySaw 0 (r.target va) n 0 0)
      pure bs
    | _ => throw 0x09

/-- A signal word's address (R273): a multiple of 8, in a range with the permission. -/
def checkSignal (ctx : Nat) (va : Word) (perm : Range → Bool) : Check Unit := do
  need (va.toNat % 8 == 0) 0x05
  let _ ← named ctx va 8 perm

/-! ## The context's range registers (R246, R96) -/

/-- IA windows of the save areas of every context. -/
def State.saveAreas (s : State) : List (Nat × Nat) :=
  (s.ctxs.filter fun c => c.saveSize.toNat != 0).map fun c =>
    (c.saveBase.toNat / 65536 * 65536, c.saveSize.toNat * 65536)

/-- Reserved bits of a range register (Table 12-1), OFFSET bits 15:0 among them. -/
def rangeReserved (r : BitVec 256) : Bool :=
  r.extractLsb' 204 36 != 0 || r.extractLsb' 120 8 != 0 || r.extractLsb' 64 7 != 0 || r.extractLsb' 56 8 != 0 ||
    r.extractLsb' 0 16 != 0 || r.extractLsb' 128 16 != 0

/-- The rules of one enabled register. -/
def State.rangeOk (s : State) (r : Range) : Bool :=
  let size := r.limit - r.base
  let isLocal := decide (r.kind ≤ 1)
  decide (r.base < r.limit) &&
    (!isLocal || (decide (r.offset + size ≤ Config.iaTop) && s.saveAreas.all fun a => !meets r.offset size a.1 a.2)) &&
    (r.kind != 3 || !r.tc) && (isLocal || (!r.pex && !r.res))

/-- The enabled registers of a context keep the rules of R246. -/
def State.rangesOk (s : State) (ctx : Nat) : Bool :=
  let c := s.ctx ctx
  let on := c.rangeList.filter (·.en)
  on.all s.rangeOk && c.ranges.all (fun r => !r.getLsbD 79 || !rangeReserved r) &&
    on.all fun a => on.all fun b => a.idx == b.idx || !meets a.base (a.limit - a.base) b.base (b.limit - b.base)

/-! ## Kernel descriptors (R274, Table 13-7) -/

/-- The fields of a kernel descriptor. -/
def kernelOf (va : Word) (n : Nat) : Kernel :=
  let p := bitsOf n 263 232
  { va := va, codeBase := bitsOf n 511 448, codeSize := bitsOf n 447 416, entry := bitsOf n 415 384
    expect := bitsOf n 383 344, lease := BitVec.ofNat 16 (bitsOf n 343 328)
    emit := (List.range 4).map fun k => bitsOf n (279 + 16 * k) (264 + 16 * k)
    regg := bitsOf p 9 0, spg := bitsOf p 19 10, tiles := bitsOf p 24 20, paired := p.testBit 25
    g := bitsOf n 231 223, n := bitsOf n 222 214, warps := bitsOf n 213 207
    width := 16 * 2 ^ bitsOf n 206 205, idem := n.testBit 204 }

/-- The shape limits of R47 and Table 13-7. -/
def Kernel.shapeOk (k : Kernel) : Bool :=
  decide (k.width ≤ 64) && k.n % 8 == 0 && decide (8 ≤ k.n) && decide (k.n ≤ 256) && decide (1 ≤ k.g) && decide (k.g ≤ k.n) &&
    decide (1 ≤ k.warps) && decide (k.warps ≤ if k.paired then 64 else 32) &&
    decide (k.warps * k.width ≤ if k.paired then 2048 else 1024)

/-- The partition of R85 and R169. -/
def Kernel.poolOk (k : Kernel) : Bool :=
  let per := if k.paired then (k.warps + 1) / 2 else k.warps
  decide (regGranules per k.n k.g k.width ≤ k.regg) && decide (1 ≤ k.regg) && decide (k.regg ≤ 512) && decide (k.spg ≤ 384) &&
    decide (k.regg + k.spg + 9 * k.tiles ≤ 512)

/-- The code range of R36 and R251. -/
def Kernel.codeOk (k : Kernel) (c : Context) : Bool :=
  k.codeBase % 512 == 0 && decide (0 < k.codeSize) && k.codeSize % 12 == 0 && k.entry % 12 == 0 &&
    decide (k.entry < k.codeSize) && (c.codeRegister k).isSome

/-- A LANE node's kernel. -/
def Kernel.laneOk (k : Kernel) : Bool := k.width == 32 && k.warps == 1 && !k.paired && decide (2 ≤ k.g)

/-- A step program's kernel (R300): one warp of W = 32, register granules only, IDEM 0, EXPECT 1. -/
def Kernel.stepOk (k : Kernel) : Bool :=
  k.width == 32 && k.warps == 1 && !k.paired && k.spg == 0 && k.tiles == 0 && !k.idem && k.expect == 1

/-- Reading and checking a kernel descriptor, with a further shape rule, in the order of R387. -/
def checkKernel (ctx : Nat) (va : Word) (shape : Kernel → Bool) : Check Kernel := do
  let bs ← foundryRead ctx va 64
  let n := leNat bs
  let k := kernelOf va n
  need (va.toNat % 64 == 0 && bitsOf n 203 0 == 0 && bitsOf n 263 258 == 0 && k.expect != 0) 0x02
  need (k.shapeOk && shape k) 0x03
  need k.poolOk 0x04
  let s ← get
  need (k.codeOk (s.ctx ctx)) 0x06
  pure k

/-! ## Maquettes (R276 to R279) -/

/-- A node entry before its kernel is read (Table 13-9). -/
structure NodeEntry where
  kdesc : Word
  argBase : Word
  argStride : Nat
  out : List (Option Nat)
  timeout : Nat
  thresh : Nat
  lane : Bool
  reserved : Nat

/-- The fields of a node entry. -/
def nodeOf (n : Nat) : NodeEntry :=
  { kdesc := BitVec.ofNat 64 (bitsOf n 511 448), argBase := BitVec.ofNat 64 (bitsOf n 447 384)
    argStride := bitsOf n 383 352
    out := (List.range 4).map fun k =>
      (let e := bitsOf n (303 + 16 * k) (288 + 16 * k)
       if e = 0xFFFF then none else some e)
    timeout := bitsOf n 287 272, thresh := bitsOf n 271 266, lane := n.testBit 265, reserved := bitsOf n 264 0 }

/-- Cutting a byte list into entries. -/
def entriesOf (bs : List Byte) (size count : Nat) : List (List Byte) :=
  (List.range count).map fun k => (bs.drop (size * k)).take size

/-- The fields of an edge entry (R278), FREE at CAP (R281). -/
def edgeOf (bs : List Byte) : Edge :=
  let cap := numAt bs 8 4
  { qbase := wordAt bs 0, cap := cap, bound := numAt bs 12 4, consumer := numAt bs 16 2, free := cap, accepted := 0 }

/-- The nodes left after taking away those without a successor, again and again: none when the graph has
no cycle. -/
def cyclic (next : Nat → List Nat) : Nat → List Nat → Bool
  | 0, left => !left.isEmpty
  | fuel + 1, left => cyclic next fuel (left.filter fun n => (next n).any left.contains)

/-- The maquette rules (R279). -/
def maquetteOk (nodes : List Node) (edges : List Edge) (roots : List Nat) : Bool :=
  let outs (x : Node) : List Nat := x.out.filterMap id
  let emitOf (x : Node) (k : Nat) : Nat := x.kernel.emit.getD k 0
  let next (n : Nat) : List Nat :=
    match nodes[n]? with
    | some x => (outs x).filterMap fun e => (edges[e]?).bind fun y => if y.bound = 0 then some y.consumer else none
    | none => []
  nodes.all (fun x => (outs x).all (fun e => decide (e < edges.length)) && decide (outs x).Nodup && (x.lane || x.thresh == 1) &&
    (List.range 4).all fun k => match x.out.getD k none with
      | none => emitOf x k == 0
      | some e => match edges[e]? with
        | some y => decide ((if x.lane then 32 else 1) * emitOf x k ≤ y.cap)
        | none => false) &&
  edges.all (fun y => decide (y.consumer < nodes.length)) && roots.all (fun n => decide (n < nodes.length)) &&
  !cyclic next nodes.length (List.range nodes.length)

/-- What a GRAPH packet names. -/
structure Graph where
  maquette : Word
  nodes : List Node
  edges : List Edge
  roots : List Word

/-- Reading and checking the structures of a GRAPH packet, in the order of R387. -/
def checkGraph (ctx : Nat) (maquette rootList : Word) (count : Nat) : Check Graph := do
  let m ← foundryRead ctx maquette 32
  let (nodeVA, edgeVA, nn, ne) := (wordAt m 0, wordAt m 8, numAt m 16 2, numAt m 18 2)
  need (leNat (m.drop 20) == 0 && decide (1 ≤ nn) && decide (nn ≤ 256) && decide (ne ≤ 1024)) 0x02
  let _ ← named ctx nodeVA (64 * nn) (·.prd)
  if ne ≠ 0 then
    let _ ← named ctx edgeVA (32 * ne) (·.prd)
  let nb ← foundryRead ctx nodeVA (64 * nn)
  let entries := (entriesOf nb 64 nn).map fun b => nodeOf (leNat b)
  need (entries.all fun x => x.reserved == 0 && decide (1 ≤ x.thresh) && decide (x.thresh ≤ 32)) 0x02
  for x in entries do
    let _ ← named ctx x.kdesc 64 (·.prd)
  let eb ← if ne = 0 then pure [] else foundryRead ctx edgeVA (32 * ne)
  let edges := (entriesOf eb 32 ne).map edgeOf
  need (((entriesOf eb 32 ne).all fun b => leNat (b.drop 18) == 0) &&
    edges.all fun y => decide (1 ≤ y.cap) && decide (y.cap ≤ 2 ^ 20)) 0x02
  for y in edges do
    let _ ← named ctx y.qbase (9 * y.cap) fun r => r.prd && r.pwr
  let rb ← foundryRead ctx rootList (8 * count)
  let roots := (List.range count).map fun k => wordAt rb (8 * k)
  need (roots.all fun r => fieldOf r 63 52 == 0) 0x02
  let nodes ← entries.mapM fun x => do
    let k ← checkKernel ctx x.kdesc fun k => !x.lane || k.laneOk
    pure { kernel := k, argBase := x.argBase, argStride := x.argStride, out := x.out, timeout := x.timeout
           thresh := x.thresh, lane := x.lane, pending := [] : Node }
  need (maquetteOk nodes edges (roots.map fun r => fieldOf r 51 44)) 0x07
  pure ⟨maquette, nodes, edges, roots⟩

/-! ## Collective descriptors (R298 to R300) -/

/-- Is every K_d of the relay partition 0 (R297)? -/
def State.noRelay (s : State) : Bool := s.mgmt.relayPart.toNat % 2 ^ 32 == 0

/-- Reading and checking a collective descriptor and what it names; the collective is not yet live. The
in-switch reduction that no ISRPROG serves is refused. -/
def checkCollective (ctx : Nat) (va : Word) : Check Collective := do
  let bs ← foundryRead ctx va 128
  let n := leNat bs
  let f (hi lo : Nat) : Nat := bitsOf n hi lo
  let w (lo : Nat) : Word := BitVec.ofNat 64 (bitsOf n (lo + 63) lo)
  let (nranks, rank, cols) := (f 223 192, f 255 224, f 191 176)
  let bufs := [w 576, w 512, w 448, w 384]
  let sizes := [f 383 352, f 351 320, f 319 288, f 287 256]
  let isr := n.testBit 144
  need (va.toNat % 128 == 0 && f 159 156 == 0 && f 143 0 == 0 && decide (1 ≤ nranks) && decide (nranks ≤ 65536) &&
    decide (rank < nranks) && (cols == 0 || nranks % cols == 0) && bufs.all (fun b => b.toNat % 16 == 0) &&
    sizes.all (fun z => z % 16 == 0) && (!isr || crrsTypes (typOfCode (BitVec.ofNat 4 (f 151 148))) (f 147 146))) 0x02
  let pb ← foundryRead ctx (w 768) (4 * nranks)
  let peers := (List.range nranks).map fun k => numAt pb (4 * k) 4
  need (peers.all fun p => decide (p < 4096)) 0x02
  let prog ← checkKernel ctx (w 960) Kernel.stepOk
  let isrProg ← if w 896 = 0 then pure none else (some <$> checkKernel ctx (w 896) Kernel.stepOk)
  let tag := w 832
  let granted := isr && isrProg.isSome && Config.switchGrant tag
  let running := if granted then isrProg.getD prog else prog
  let s ← get
  let c := s.ctx ctx
  need ((bufs.zip sizes).all fun (b, z) => z == 0 || (match c.findRange b z with
    | some r => r.kind == 0 && r.prd && r.pwr && (c.leasesOf running).getLsbD r.idx
    | none => false)) 0x05
  need (!s.noRelay) 0x08
  need (!isr || granted || n.testBit 145) 0x0B
  need (s.coll? tag).isNone 0x0C
  pure { tag := tag, ctx := ctx, packet := 0, desc := va, progKernel := running, peers := peers
         args := [w 704, w 640], bufs := bufs, sizes := sizes, rank := rank, nranks := nranks, cols := cols
         wdt := (let d := f 175 160; if d = 0 then 10000 else d), e2e := n.testBit 155, chans := f 154 152 + 1
         isr := granted, cause := 0 }

/-! ## Cast descriptors (R351, Table 16-6) -/

/-- A shard table entry. -/
def shardOf (bs : List Byte) : CastShard :=
  { va := wordAt bs 0, len := numAt bs 8 8, off := numAt bs 16 8
    cands := ((List.range 4).map fun k => fieldOf (wordAt bs 24) (12 * k + 11) (12 * k)).filter (· != 0xFFF) }

/-- The field limits of a shard table entry. -/
def shardOk (bs : List Byte) : Bool :=
  numAt bs 0 8 % 16 == 0 && numAt bs 8 8 % 16 == 0 && decide (numAt bs 8 8 ≤ 2 ^ 36) && fieldOf (wordAt bs 24) 63 48 == 0

/-- Reading and checking a cast descriptor, its shard table and, for a save, its parity collective. -/
def checkCast (ctx : Nat) (va : Word) : Check (CastRun × Option Collective) := do
  let n := leNat (← foundryRead ctx va 64)
  let w (lo : Nat) : Word := BitVec.ofNat 64 (bitsOf n (lo + 63) lo)
  let (table, manifest, parcoll, pos, expVA) := (w 448, w 384, w 320, w 256, w 192)
  let (nshard, npos, restore) := (bitsOf n 159 144, bitsOf n 143 136, n.testBit 0)
  need (va.toNat % 64 == 0 && table.toNat % 32 == 0 && manifest.toNat % 64 == 0 && pos.toNat % 8 == 0 &&
    decide (1 ≤ nshard) && decide (nshard ≤ 4096) && bitsOf n 135 8 == 0 && bitsOf n 4 1 == 0 &&
    (restore || expVA == 0)) 0x02
  let tb ← foundryRead ctx table (32 * nshard)
  need ((entriesOf tb 32 nshard).all shardOk) 0x02
  let shards := (entriesOf tb 32 nshard).map shardOf
  let _ ← named ctx manifest (128 + 64 * nshard + 8 * npos) fun r => r.pwr && (!restore || r.prd)
  if npos ≠ 0 then
    let _ ← named ctx pos (8 * npos) fun r => if restore then r.pwr else r.prd
  if restore then
    let _ ← named ctx expVA 32 (·.prd)
  for x in shards do
    if x.len ≠ 0 then
      let _ ← named ctx x.va x.len fun r => if restore then r.pwr else r.prd
  let coll ← if restore ∨ parcoll = 0 then pure none else some <$> checkCollective ctx parcoll
  pure ({ restore := restore, manifest := manifest, pos := pos, expVA := expVA, gen := bitsOf n 191 160, npos := npos
          feed := n.testBit 5, board := n.testBit 6, rack := n.testBit 7, shards := shards
          parity := coll.map fun c => c.peers.getD (c.args.getD 0 0).toNat 0xFFF
          parityBufs := (coll.map fun c => c.bufs.zip c.sizes).getD [] }, coll)

/-! ## The packet's own words (R272, R273, Tables 13-5 and 13-6) -/

/-- KIND of a packet's header. -/
def kindOf (bs : List Byte) : Nat := fieldOf (wordAt bs 0) 4 1

/-- The kind-specific words of a packet are as Table 13-6 defines them. -/
def wordsOk (bs : List Byte) : Bool :=
  let zero (k : Nat) : Bool := leNat ((bs.take 128).drop k) == 0
  match kindOf bs with
  | 1 => decide (1 ≤ (wordAt bs 48).toNat) && decide ((wordAt bs 48).toNat < 2 ^ 32) && zero 64
  | 2 => decide (1 ≤ (wordAt bs 48).toNat) && decide ((wordAt bs 48).toNat < 2 ^ 16) && zero 56
  | 3 => fieldOf (wordAt bs 32) 63 5 == 0 && decide (1 ≤ fieldOf (wordAt bs 32) 4 1) &&
      decide (fieldOf (wordAt bs 32) 4 1 ≤ 8) && zero 104
  | 4 => decide ((wordAt bs 48).toNat ≤ 2) && zero 56
  | _ => zero 40

/-- The common words of a packet are as Table 13-5 defines them. -/
def headerOk (bs : List Byte) : Bool :=
  let h := wordAt bs 0
  fieldOf h 63 14 == 0 && fieldOf h 8 5 == 0 && fieldOf h 13 12 != 3 && fieldOf h 11 10 != 3 && numAt bs 28 4 == 0

/-- The signal addresses of a WAIT packet. -/
def waitsOf (bs : List Byte) : List Word :=
  (List.range (fieldOf (wordAt bs 32) 4 1)).map fun k => wordAt bs (40 + 8 * k)

/-- The VAs that a packet names for the foundry, checked in order (step 3 of R387). -/
def checkNamed (ctx : Nat) (bs : List Byte) : Check Unit := do
  let signal := wordAt bs 16
  if signal ≠ 0 then checkSignal ctx signal (·.pat)
  match kindOf bs with
  | 1 =>
    let _ ← named ctx (wordAt bs 32) 64 (·.prd)
    if wordAt bs 56 ≠ 0 then
      let _ ← named ctx (wordAt bs 56) 128 (·.prd)
  | 2 =>
    let _ ← named ctx (wordAt bs 32) 32 (·.prd)
    let _ ← named ctx (wordAt bs 40) (8 * (wordAt bs 48).toNat) (·.prd)
  | 3 =>
    for va in waitsOf bs do
      checkSignal ctx va (·.prd)
  | 4 => checkSignal ctx (wordAt bs 32) (·.pat)
  | _ =>
    let _ ← named ctx (wordAt bs 32) 64 (·.prd)

/-- The parent scope of a LAUNCH or GRAPH packet: 0, or live and open (R273). -/
def checkParent (ctx : Nat) (bs : List Byte) : Check Unit := do
  let h : Word := BitVec.ofNat 64 (numAt bs 24 4)
  if (kindOf bs = 1 ∨ kindOf bs = 2) ∧ h ≠ 0 then
    let s ← get
    need (match (s.ctx ctx).scope? h with | some e => !e.closed | none => false) 0x0A

/-- Steps 1 to 4 of R387. -/
def checkWords (ctx : Nat) (bs : List Byte) : Check Unit := do
  need (decide (1 ≤ kindOf bs) && decide (kindOf bs ≤ 5)) 0x01
  need (headerOk bs && wordsOk bs) 0x02
  let s ← get
  need (s.rangesOk ctx) 0x05
  checkNamed ctx bs
  checkParent ctx bs

end Sys2Proof.Machine
end

