-- ==== Sys2Proof/Machine/Cast.lean ====
section
/-!
DEFINITION. Casts (R350 to R355): the choice of partners, the copies of shards by the foundry's own
channels, the manifest (Table 16-7), and the restore.
-/

namespace Sys2Proof.Machine

/-! ## Reading and writing for the foundry -/

/-- Bytes of a VA of the context, with poison; none where they cannot be read. -/
def State.castGet (s : State) (ctx : Nat) (va : Word) (n : Nat) : Option (List Byte × Bool) × State :=
  match (s.ctx ctx).findRange va n with
  | none => (none, s)
  | some r =>
    if r.kind = 3 then
      let (bs, s1) := s.hostBytes (r.target va) n
      (some (bs, false), s1)
    else
      match s.l2Read false (r.target va) n with
      | (.bytes bs p, s1) => (some (bs, p.isSome), s1.foundrySaw 0 (r.target va) n 0 0)
      | (.failed _ _, s1) => (none, s1)

/-- Writing bytes at a VA of the context; nothing is written where they cannot be (assumption 25). -/
def State.castPut (s : State) (ctx : Nat) (va : Word) (bs : List Byte) : State :=
  match (s.ctx ctx).findRange va bs.length with
  | none => s
  | some r => if r.kind = 3 then s.output (.pcieWrite (r.target va) bs) else ((s.l2Put false (r.target va) bs).2).foundrySaw 1 (r.target va) bs.length 0 0

/-! ## Partners (R352) -/

/-- The topology word of this device (R350). -/
def State.topologyWord (s : State) : Word := (s.mgmt.topology &&& ~~~(0xFFFF#64)) ||| Config.devId.setWidth 64

/-- The topology word of a device, which may be this one. -/
def State.topologyOf (s : State) (dev : Nat) : Word :=
  if dev = Config.devId.toNat then s.topologyWord else Config.peerTopology dev

/-- The required domains that a device shares with this one: bit 0 feed, bit 1 board, bit 2 rack. -/
def State.shared (s : State) (c : CastRun) (dev : Nat) : Nat :=
  let same (hi lo : Nat) : Bool := fieldOf (s.topologyOf dev) hi lo == fieldOf s.topologyWord hi lo
  b2n (c.feed && same 31 16) + 2 * b2n (c.board && same 47 32) + 4 * b2n (c.rack && same 63 48)

/-- The peer-kind range of a context that names a device. -/
def Context.peerRange (c : Context) (dev : Nat) : Option Range :=
  c.rangeList.find? fun r => r.en && r.kind == 2 && r.peer == dev

/-- A candidate that meets every condition but the distinct domains. -/
def State.candidate (s : State) (ctx dev : Nat) : Bool :=
  dev != Config.devId.toNat && ((s.ctx ctx).peerRange dev).isSome && Config.reachable Config.devId.toNat dev

/-- The partner of a shard: the first eligible candidate; else the first that only shares a domain,
REDUCED; else FAILED. -/
def State.pairShard (s : State) (ctx : Nat) (c : CastRun) (x : CastShard) : CastShard :=
  let ok := x.cands.filter (s.candidate ctx)
  match ok.find? fun d => s.shared c d == 0 with
  | some d => { x with partner := d }
  | none =>
    match ok with
    | d :: _ => { x with partner := d, reduced := true }
    | [] => { x with failed := true }

/-- The RISK event of a reduced placement (Table 17-9). -/
def State.emitReduced (s : State) (p : PacketRun) (c : CastRun) (shard dev : Nat) : State :=
  s.emit (hubSrc (homeHub p.ctx) 10) 0x006 1 p.cause p.parent
    [atBit shard 0 ||| atBit dev 16 ||| atBit (s.shared c dev) 32 ||| atBit p.ctx 40, atBit c.gen 0]

/-! ## The copies (R353, R355) -/

/-- The partner's address of a shard and the range it goes through, where the range holds it with the
permission. -/
def Context.shardAt (c : Context) (x : CastShard) (perm : Range → Bool) : Option (Range × Nat) :=
  (c.peerRange x.partner).bind fun r =>
    if perm r && decide (x.off + x.len ≤ r.limit - r.base) then some (r, r.offset + x.off) else none

/-- The bytes that one step of a copy moves: one aligned unit of at most 16 (R353). -/
def CastShard.unit (x : CastShard) : Nat := Nat.min 16 (x.len - x.moved)

/-- A shard after further bytes of it were moved: the digest is taken during the copy (R212). -/
def CastShard.took (x : CastShard) (bs : List Byte) : CastShard :=
  let (h, tail) := sha256More x.hash x.tail bs
  { x with moved := x.moved + bs.length, hash := h, tail := tail }

/-- The digest of a shard all of whose bytes were moved. -/
def CastShard.sum (x : CastShard) : List Byte := sha256Of x.hash x.tail x.len

/-- The request of the foundry to a shard's partner. -/
def State.castRemote (s : State) (p : PacketRun) (x : CastShard) (r : Range) (a n : Nat) (kind : RemoteKind) : State :=
  s.output (.remote x.partner
    { dev := Config.devId.toNat, cause := p.cause, ia := a, len := n, tag := 0, tc := r.tc, kind := kind })

/-- Saving one unit of a shard: read, sent to the partner, its digest taken of the bytes sent. Poison is not
consumed. -/
def State.saveUnit (s : State) (p : PacketRun) (x : CastShard) : CastShard × State :=
  let (got, s1) := s.castGet p.ctx (x.va + BitVec.ofNat 64 x.moved) x.unit
  match got, (s1.ctx p.ctx).shardAt x (·.pwr) with
  | some (bs, bad), some (r, a) =>
    let (d, s2) := s1.draw
    let s3 := s2.castRemote p x r (a + x.moved) x.unit (.write bs)
    if Config.peerFault x.partner (a + x.moved) d != 0 then ({ x with failed := true }, s3)
    else ({ x.took bs with poisoned := x.poisoned || bad }, s3)
  | _, _ => ({ x with failed := true }, s1)

/-- Restoring one unit of a shard from its partner; one that cannot be had is a mismatch. -/
def State.restoreUnit (s : State) (p : PacketRun) (x : CastShard) : CastShard × State :=
  match (s.ctx p.ctx).shardAt x (·.prd) with
  | none => ({ x with mismatch := true }, s)
  | some (r, a) =>
    let (d, s1) := s.draw
    let s2 := s1.castRemote p x r (a + x.moved) x.unit .read
    if Config.peerFault x.partner (a + x.moved) d != 0 then ({ x with mismatch := true }, s2)
    else
      let bs := (List.range x.unit).map fun k => Config.peerByte x.partner (a + x.moved + k) d
      (x.took bs, s2.castPut p.ctx (x.va + BitVec.ofNat 64 x.moved) bs)

/-- A shard at the end of the copies: its digest when it was saved whole and clean, its mismatch when it was
restored and the digest is not the manifest's. -/
def CastShard.sealed (x : CastShard) (restore : Bool) : CastShard :=
  if restore then { x with mismatch := x.mismatch || x.sum != x.digest }
  else if x.failed || x.poisoned then x
  else { x with digest := x.sum }

/-- Is a shard still to be copied? -/
def CastShard.open_ (x : CastShard) : Bool := !x.failed && !x.mismatch && decide (x.moved < x.len)

/-- Changing a packet's cast. -/
def State.modCast (s : State) (p : PacketRun) (c : CastRun) : State := s.modPacket p.id fun p => { p with cast := some c }

/-- The next unit of the copies (step 1 of R353, step 2 of R355), in the order of the shards; after the last one the
digests are settled. -/
def State.castCopy (s : State) (p : PacketRun) (c : CastRun) : State :=
  match c.shards.zipIdx.find? fun x => x.1.open_ with
  | some (x, k) =>
    let (y, s1) := if c.restore then s.restoreUnit p x else s.saveUnit p x
    s1.modCast p { c with shards := c.shards.set k y }
  | none => s.modCast p { c with shards := c.shards.map (·.sealed c.restore), copied := true }

/-! ## The manifest (R354) -/

/-- The flags of a shard entry. -/
def CastShard.flags (x : CastShard) : Nat :=
  b2n x.reduced + 2 * b2n x.failed + 4 * b2n x.poisoned + 8 * b2n x.mismatch

/-- A shard's entry in the manifest. -/
def CastShard.entry (x : CastShard) : List Byte :=
  x.digest ++ bytes8 x.va ++ bytes8 (BitVec.ofNat 64 x.len) ++
    bytes8 (atBit x.partner 0 ||| atBit (x.off % 2 ^ 48) 16) ++ bytes8 (BitVec.ofNat 64 x.flags)

/-- RESULT and the number of affected shards. -/
def CastRun.status (c : CastRun) : Word :=
  let bad := c.shards.any fun x => x.failed || x.poisoned
  let result := if c.shards.any (·.mismatch) then 3 else if bad then 2
    else if c.parityReduced || c.shards.any (·.reduced) then 1 else 0
  let affected := (c.shards.filter fun x => x.flags != 0).length
  atBit result 0 ||| atBit affected 16

/-- Manifest bytes 32 to the end. -/
def State.manifestBody (s : State) (c : CastRun) (pdigest positions : List Byte) : List Byte :=
  bytes8 (BitVec.ofNat 64 c.gen) ++ bytes8 c.status ++ bytes8 s.topologyWord ++
    bytes8 (atBit c.shards.length 0 ||| atBit c.npos 16) ++ pdigest ++
    bytes8 (atBit ((c.parity.getD 0) % 4096) 0 ||| atBit (b2n c.parityReduced) 12) ++ List.replicate 24 0 ++
    c.shards.flatMap CastShard.entry ++ positions

/-- The partners of a save and the RISK events (R352). -/
def State.castPlace (s : State) (p : PacketRun) (c : CastRun) : State :=
  let shards := c.shards.map (s.pairShard p.ctx c)
  let s1 := (shards.zipIdx).foldl (fun s (x, k) => if x.reduced then s.emitReduced p c k x.partner else s) s
  let bad := match c.parity with | some d => s.shared c d != 0 | none => false
  let s2 := if bad then s1.emitReduced p c 0xFFFF (c.parity.getD 0) else s1
  s2.modCast p { c with shards := shards, parityReduced := bad, placed := true }

/-- PDIGEST: a holder that is this device computes SHA-256 over the parity bytes, a slice of one of the collective's
buffers, which the spec does not name (assumption 130); another holder's answer is a free value (assumption 5). -/
def State.parityDigest (s : State) (p : PacketRun) (c : CastRun) : List Byte × State :=
  match c.parity with
  | none => (List.replicate 32 0, s)
  | some holder =>
    let (d, s1) := s.draw
    if holder = Config.devId.toNat then
      let (off, s2) := s1.draw
      let (n, s3) := s2.draw
      let (va, size) := c.parityBufs.getD (d % 4) (0, 0)
      let at_ := off % (size + 1)
      match s3.castGet p.ctx (va + BitVec.ofNat 64 at_) (n % (size - at_ + 1)) with
      | (some (bs, _), s4) => (sha256 bs, s4)
      | (none, s4) => (natBytes d 32, s4)
    else (natBytes d 32, s1)

/-- Step 3 of a save: the manifest, MDIGEST last. -/
def State.castManifest (s : State) (p : PacketRun) (c : CastRun) : State :=
  let (pd, s1) := s.parityDigest p c
  let (pos, s2) := if c.npos = 0 then (some ([], false), s1) else s1.castGet p.ctx c.pos (8 * c.npos)
  let body := s2.manifestBody c pd (padTo (8 * c.npos) 0 ((pos.map (·.1)).getD []))
  (s2.castPut p.ctx (c.manifest + 32) body).castPut p.ctx c.manifest (sha256 body)

/-- The shards as the manifest gives their partners, OFF and digests. -/
def manifestShards (c : CastRun) (m : List Byte) : List CastShard :=
  (c.shards.zipIdx).map fun (x, i) =>
    let e := (m.drop (128 + 64 * i)).take 64
    { x with digest := e.take 32, partner := fieldOf (wordAt e 48) 11 0, off := fieldOf (wordAt e 48) 63 16
             reduced := false, failed := false, poisoned := false }

/-- The end of a restore that cannot be made: RESULT 4, and nothing else is written (step 1 of R355). -/
def State.castRefuse (s : State) (p : PacketRun) (c : CastRun) : State := s.castPut p.ctx (c.manifest + 40) (bytes8 4)

/-- Step 1 of a restore (R355): whether the manifest is the expected one; if so its shards are to be copied. -/
def State.castCheck (s : State) (p : PacketRun) (c : CastRun) : Bool × State :=
  let size := 128 + 64 * c.shards.length + 8 * c.npos
  let (m, s1) := s.castGet p.ctx c.manifest size
  let (e, s2) := s1.castGet p.ctx c.expVA 32
  let bytes := (m.map (·.1)).getD []
  let digest := sha256 (bytes.drop 32)
  if m.isSome && digest == bytes.take 32 && (e.map (·.1)) == some digest && wordAt bytes 32 == BitVec.ofNat 64 c.gen then
    (true, s2.modCast p { c with shards := manifestShards c bytes, image := bytes, placed := true })
  else (false, s2.castRefuse p c)

/-- The end of a restore whose shards have been copied (steps 3 and 4 of R355). -/
def State.castFinish (s : State) (p : PacketRun) (c : CastRun) : State :=
  let entries := 128 + 64 * c.shards.length
  let s1 := if c.shards.any (·.mismatch) || c.npos == 0 then s
    else s.castPut p.ctx c.pos ((c.image.drop entries).take (8 * c.npos))
  let s2 := (c.shards.zipIdx).foldl (fun s (x, i) =>
    if x.mismatch then
      (let at_ := 128 + 64 * i + 56
       s.castPut p.ctx (c.manifest + BitVec.ofNat 64 at_) (bytes8 (wordAt c.image at_ ||| 8)))
    else s) s1
  s2.castPut p.ctx (c.manifest + 40) (bytes8 c.status)

end Sys2Proof.Machine
end

