-- ==== Sys2Proof/Machine/Queues.lean ====
section
/-!
DEFINITION. User-mode queues (R269 to R271), the service of packets (R287), their decode (R273, R276,
R387), start and completion (R273), and the writes of the queue registers (Table 13-2).
-/

namespace Sys2Proof.Machine

/-! ## Rings (R269, R270) -/

/-- Fields of QCTL and QBASE. -/
def Queue.enabled (q : Queue) : Bool := q.ctl.getLsbD 8
def Queue.inHost (q : Queue) : Bool := q.ctl.getLsbD 9
def Queue.devn (q : Queue) : Bool := q.ctl.getLsbD 10
def Queue.slots (q : Queue) : Nat := 2 ^ (fieldOf q.ctl 15 12 + 4)
def Queue.ring (q : Queue) : Nat := fieldOf q.base 63 12 * 4096

/-- The address of the slot at READ, and of the notify word. -/
def Queue.slotAt (q : Queue) : Nat := q.ring + 128 * (q.read.toNat % q.slots)
def Queue.notifyAt (q : Queue) : Nat := q.ring + 128 * q.slots

/-- The packet in the slot at READ; none when a read of it meets poison or a missing page. -/
def State.ringSlot (s : State) (q : Queue) : Option (List Byte) × State :=
  if q.inHost then
    let (bs, s1) := s.hostBytes q.slotAt 128
    (some bs, s1)
  else match s.l2Read false q.slotAt 128 with
    | (.bytes bs none, s1) => (some bs, s1.foundrySaw 0 q.slotAt 128 0 0)
    | (_, s1) => (none, s1)

/-- VALID of a packet. -/
def validOf (bs : List Byte) : Bool := (wordAt bs 0).getLsbD 0

/-- A notice of a new WRITE (R270): ignored when it lowers WRITE. A decode that has stopped at a slot whose VALID
was 0 reads it again. -/
def lowers (w v : BitVec 32) : Bool := decide (1 ≤ (w - v).toNat) && decide ((w - v).toNat < 2 ^ 31)
def State.notice (s : State) (k : QKey) (v : BitVec 32) : State :=
  if lowers (s.queue k).write v then s else s.modQueue k fun q => { q with write := v, stalled := false }

/-- QNOTIFY (R270). -/
def execQnotify (q : QKey) (v : BitVec 32) (s : State) : Host.Outcome State Fault Refusal := .next (s.notice q v)

/-- NOTIFY_WORD_READ (R270): the foundry reads the notify word and takes a value that raises WRITE; a
read that finds none has no effect. -/
def execNotifyWordRead (k : QKey) (s : State) : Host.Outcome State Fault Refusal :=
  let q := s.queue k
  if !(s.serving && q.enabled && q.devn) then .refused (.eventNotPending "NOTIFY_WORD_READ")
  else match s.l2Word q.notifyAt with
    | (some x, s1) =>
      let v := x.setWidth 32
      if v = q.write ∨ lowers q.write v then .refused (.eventNotPending "NOTIFY_WORD_READ") else .next ((s1.foundrySaw 0 q.notifyAt 8 0 0).notice k v)
    | (none, _) => .refused (.eventNotPending "NOTIFY_WORD_READ")

/-- Does a QCTL value break R269: LOGSZ above 12, a reserved bit, DEVN with LOC? -/
def qctlBad (v : Word) : Bool :=
  decide (fieldOf v 15 12 > 12) || fieldOf v 63 16 != 0 || v.getLsbD 11 || fieldOf v 7 0 != 0 || (v.getLsbD 10 && v.getLsbD 9)

/-- QCTL_WRITE (R269): a rejected write keeps QCTL and shows RESERVED_SET; an accepted one clears
STATUS. -/
def execQctlWrite (k : QKey) (v : Word) (s : State) : Host.Outcome State Fault Refusal :=
  if qctlBad v then .next (s.modQueue k fun q => { q with status := 0x02 })
  else .next (s.modQueue k fun q => { q with ctl := v, status := 0 })

/-- QSTAT_ERR_CLEAR (R269, Table 13-2): decode resumes at READ + 1. -/
def execQstatErrClear (k : QKey) (s : State) : Host.Outcome State Fault Refusal :=
  if !(s.queue k).err then .next s
  else .next (s.modQueue k fun q => { q with err := false, read := q.read + 1, passed := [], stalled := false })

/-! ## Which packet is served (R287) -/

/-- A decoded packet of a queue that has not started. -/
def State.heldPacket (s : State) (k : QKey) : Option PacketRun :=
  s.packets.find? fun p => p.ctx == k.ctx && p.queue == k.q && !p.started

/-- Does a GRAPH decode wait: a live firing of the maquette, or no free instance id (R276)? -/
def Context.graphWaits (c : Context) (maquette : Word) : Bool :=
  c.firings.any (·.maquette == maquette) || decide (c.firings.length ≥ 4096)

/-- Does a decode that waits have to go on waiting? -/
def State.decodeWaits (s : State) (k : QKey) : Bool :=
  let c := s.ctx k.ctx
  match (s.queue k).held with
  | some (_, e, _) => c.freeScope.isNone || c.graphWaits e.obj
  | none => false

/-- A queue has a packet to decode. -/
def State.servable (s : State) (k : QKey) : Bool :=
  let c := s.ctx k.ctx
  let q := c.queue k.q
  c.enabled && !c.lost && !c.resetting && q.enabled && !q.err && !q.stalled && q.read != q.write &&
    (s.heldPacket k).isNone && !s.decodeWaits k && s.serving

/-- The queues of a hub's contexts that have a packet to decode, in their cycle's order. -/
def State.servables (s : State) (hub : Nat) : List QKey :=
  (s.ctxs.filter fun c => homeHub c.num == hub).flatMap fun c =>
    (c.queues.map fun q => (⟨c.num, q.num⟩ : QKey)).filter s.servable

/-- Packets of context `ctx` decoded ahead of the packet that waits in a queue. -/
def Queue.passedBy (q : Queue) (ctx : Nat) : Nat := ((q.passed.find? (·.1 == ctx)).map (·.2)).getD 0

/-- The class of a queue. -/
def State.clsOf (s : State) (k : QKey) : Nat := (s.ctx k.ctx).cls

/-- The first after the last served in the cycle of (context, queue). -/
def afterKey (last : Option QKey) (l : List QKey) : Option QKey :=
  match last.bind fun x => l.find? fun y => decide (x.ctx < y.ctx) || (x.ctx == y.ctx && decide (x.q < y.q)) with
  | some y => some y
  | none => l.head?

/-- The queue that a hub's foundry serves next: the highest class among those that no waiting packet of
a lower class holds back by QUOTA; within it, round-robin. -/
def State.nextQueue (s : State) (hub : Nat) : Option QKey :=
  let all := s.servables hub
  let free := all.filter fun x => all.all fun y =>
    decide (s.clsOf y ≤ s.clsOf x) || decide ((s.queue y).passedBy x.ctx < (s.ctx x.ctx).quota)
  (minOf (free.map s.clsOf)).bind fun cls =>
    let last := (s.lastServed.find? (·.1 == hub * 8 + cls)).map (·.2)
    afterKey last (free.filter fun x => s.clsOf x == cls)

/-- The round robin moves on. -/
def State.turned (s : State) (k : QKey) : State :=
  { s with lastServed := putBy (·.1) (homeHub k.ctx * 8 + s.clsOf k, k) s.lastServed }

/-- A packet of a queue has been decoded: packets of lower classes that wait have been passed. -/
def State.served (s : State) (k : QKey) : State :=
  let waiting := (s.servables (homeHub k.ctx)).filter fun y => decide (s.clsOf k < s.clsOf y)
  (waiting.foldl (fun s y => s.modQueue y fun q =>
    { q with passed := putBy (·.1) (k.ctx, q.passedBy k.ctx + 1) q.passed }) s).turned k

/-! ## Rejection (R271, Table 13-3) -/

/-- Rejecting the packet at READ: ERR, STATUS and the queue-error record. -/
def State.rejectPacket (s : State) (k : QKey) (status : Nat) (parent : Word) : State :=
  let hub := homeHub k.ctx
  let q := s.queue k
  let rec_ : List Word :=
    [ atBit 0x24 0 ||| atBit k.ctx 8 ||| atBit hub 14 ||| atBit status 16 ||| atBit k.q 24, atBit q.read.toNat 0, 0, 0,
      parent, s.timeAt (hubEmitter hub 10), 0, 0 ]
  (s.postRecord k.ctx hub rec_ parent 0).modQueue k fun q => { q with err := true, status := BitVec.ofNat 8 status, held := none }

/-! ## Waiting decodes (R273, R276) -/

/-- A wait of a decode ends. -/
def State.endHeld (s : State) (k : QKey) (parent : Word) : State :=
  match (s.queue k).held with
  | none => s
  | some (i, e, cid) =>
    let s1 := if i.isSome then s.emitWaitEnd (hubSrc (homeHub k.ctx) 10) k.ctx cid parent 0 e else s
    (s1.modQueue k fun q => { q with held := none }).grantEntry (homeHub k.ctx)

/-- A decode begins to wait: it takes the lowest free foundry entry, if any (R363). -/
def State.beginHeld (s : State) (k : QKey) (obj parent : Word) : State :=
  let hub := homeHub k.ctx
  let (cid, s1) := s.mint hub
  let e : WaitEntry := { kind := 13, obj := obj, since := s1.timeAt (hubEmitter hub 10) }
  let i := s1.freeIdx hub
  let s2 := if i.isSome then s1.emitWaitBegin (hubSrc hub 10) k.ctx cid parent e else s1
  s2.modQueue k fun q => { q with held := some (i, e, cid), heldParent := parent }

/-! ## Decode (R270, R273, R387) -/

/-- What step 5 and later checks of a packet give. -/
inductive Body where
  | launch (k : Kernel) (c : Option Collective)
  | graph (g : Graph)
  | plain
  | cast (r : CastRun) (c : Option Collective)

/-- Every check of a packet, in the order of R387. -/
def checkPacket (ctx : Nat) (bs : List Byte) : Check Body := do
  checkWords ctx bs
  match kindOf bs with
  | 1 =>
    let k ← checkKernel ctx (wordAt bs 32) fun _ => true
    let c ← if wordAt bs 56 = 0 then pure none else some <$> checkCollective ctx (wordAt bs 56)
    pure (.launch k c)
  | 2 => .graph <$> checkGraph ctx (wordAt bs 32) (wordAt bs 40) (wordAt bs 48).toNat
  | 5 => (fun x => .cast x.1 x.2) <$> checkCast ctx (wordAt bs 32)
  | _ => pure .plain

/-- Must the decode of a checked packet wait? -/
def State.mustWait (s : State) (ctx : Nat) (b : Body) : Bool :=
  let c := s.ctx ctx
  match b with
  | .launch _ _ => c.freeScope.isNone
  | .graph g => c.freeScope.isNone || c.graphWaits g.maquette
  | _ => false

/-- What the wait entry of a decode names: the maquette or kernel descriptor. -/
def Body.obj : Body → Word
  | .launch k _ => k.va
  | .graph g => g.maquette
  | _ => 0

/-- The packet as decoded, before its scope, firing or collective. -/
def packetOf (k : QKey) (id : Nat) (cause : Word) (index : BitVec 32) (bs : List Byte) : PacketRun :=
  let h := wordAt bs 0
  { id := id, ctx := k.ctx, queue := k.q, index := index, kind := kindOf bs, cause := cause, parent := wordAt bs 8
    barrier := h.getLsbD 9, acqsc := fieldOf h 11 10, relsc := fieldOf h 13 12, signal := wordAt bs 16, scope := 0
    started := false }

/-- Attaching a collective that is not live yet. -/
def State.attachColl (s : State) (p : PacketRun) (c : Option Collective) : State :=
  match c with
  | none => s
  | some c =>
    let (cause, s1) := s.mint (homeHub p.ctx)
    { s1 with collectives := s1.collectives ++ [{ c with packet := p.id, cause := cause }] }

/-- A firing with the lowest free instance id (R276), and its root records. -/
def State.openFiring (s : State) (p : PacketRun) (g : Graph) : Nat × State :=
  let used := (s.ctx p.ctx).firings.map (·.id)
  let id := ((List.range 4096).find? fun i => !used.contains i).getD 0
  let f : Firing := { id := id, packet := p.id, maquette := g.maquette, nodes := g.nodes, edges := g.edges }
  (id, s.modCtx p.ctx fun c => { c with firings := c.firings ++ [f] })

/-- Opening the packet scope, counted in its parent (R273). -/
def State.openPacketScope (s : State) (p : PacketRun) (parent : Word) : Word × State :=
  match s.allocScope p.ctx parent (some p.id) with
  | none => (0, s)
  | some (h, s1) => (h, s1.scopeUp p.ctx parent 1)

/-- Admitting a checked packet: its scope, firing, collective and effect. -/
def State.admitPacket (s : State) (p : PacketRun) (b : Body) (bs : List Byte) : State :=
  let parent : Word := BitVec.ofNat 64 (numAt bs 24 4)
  match b with
  | .launch k c =>
    let total := (wordAt bs 48).toNat
    let (h, s1) := s.openPacketScope p parent
    let p1 := { p with scope := h, kernel := some k, argVA := wordAt bs 40, total := total, collective := c.map (·.tag) }
    ({ s1 with packets := s1.packets ++ [p1] } : State).attachColl p1 c
  | .graph g =>
    let (h, s1) := s.openPacketScope p parent
    let (id, s2) := s1.openFiring p g
    let roots : List Record := g.roots.map fun r =>
      { node := id * 256 + fieldOf r 51 44, inst := fieldOf r 43 0, scope := h, cause := p.cause, edge := none }
    { s2 with packets := s2.packets ++ [{ p with scope := h, firing := id, roots := roots }] }
  | .cast r c =>
    ({ s with packets := s.packets ++ [{ p with cast := some r, collective := c.map (·.tag) }] } : State).attachColl p c
  | .plain =>
    let q := if p.kind = 3 then { p with orWait := (wordAt bs 32).getLsbD 0, waits := waitsOf bs }
      else { p with pendingEffect := [wordAt bs 32, wordAt bs 40, wordAt bs 48] }
    { s with packets := s.packets ++ [q] }

/-! ## Start (R272, R273) -/

/-- Every earlier packet of the queue has completed. -/
def State.barrierOpen (s : State) (p : PacketRun) : Bool :=
  !p.barrier || !s.packets.any fun x => x.ctx == p.ctx && x.queue == p.queue && decide (x.id < p.id)

/-- The effect of a SIGNAL packet, an atomic on the signal word at L2 with wrap; it is tried again while
the word's page does not translate (assumption 18). -/
def State.signalEffect (s : State) (p : PacketRun) : State :=
  match p.pendingEffect with
  | [va, x, op] =>
    let f (w : Word) : Word := if op = 0 then x else if op = 1 then w + x else w - x
    let atop : Atop := if op = 0 then .exch else .add
    match s.foundryUpdate p.ctx va f atop (if op = 2 then 0 - x else x) p.cause p.parent with
    | some s1 => s1.modPacket p.id fun p => { p with pendingEffect := [] }
    | none => s
  | _ => s

/-- Completing a packet whose own work is done. -/
def State.completeId (s : State) (id : Nat) : State :=
  match s.packet? id with
  | some p => s.completePacket p
  | none => s

/-- A SIGNAL packet that has started: its effect, then its completion. -/
def State.runSignal (s : State) (id : Nat) : State :=
  match s.packet? id with
  | none => s
  | some p =>
    let s1 := s.signalEffect p
    if ((s1.packet? id).map (·.pendingEffect)) == some [] then s1.completeId id else s1

/-- The parity collective of a CAST has retired, or there is none. -/
def State.parityDone (s : State) (p : PacketRun) : Bool := !s.collectives.any (·.packet == p.id)

/-- A CAST packet's next part (R353, R355): the placement or the check of the manifest, then unit after unit of the
copies, then the end. -/
def State.runCast (s : State) (id : Nat) : State :=
  match s.packet? id with
  | none => s
  | some p =>
    match p.cast with
    | none => s
    | some c =>
      if !c.placed then
        if c.restore then
          (let (good, s1) := s.castCheck p c
           if good then s1 else s1.completeId id)
        else s.castPlace p c
      else if !c.copied then s.castCopy p c
      else if c.restore then (s.castFinish p c).completeId id
      else if s.parityDone p then (s.castManifest p c).completeId id
      else s

/-- A CAST packet has a next part: it does not await its parity collective. -/
def State.castDue (s : State) (p : PacketRun) : Bool :=
  s.parityDone p || (match p.cast with | some c => !c.copied | none => false)

/-- A packet begins its work: its acquire at ACQSC has been made (every read of the foundry is at L2). A GRAPH's root
records are counted in its packet scope, which is closed with them (R273, R285). -/
def State.beginPacket (s : State) (p : PacketRun) : State :=
  let s1 := s.modPacket p.id fun p => { p with begun := true, started := decide (3 ≤ p.kind) }
  match p.kind with
  | 1 => s1.nextOfPacket p
  | 2 =>
    let s2 := (s1.scopeUp p.ctx p.scope p.roots.length).scopeClose p.ctx p.scope
    (s2.modPacket p.id fun p => { p with roots := [] }).arriveRecords p.ctx p.firing p.roots
  | 3 => s1
  | 4 => s1.runSignal p.id
  | _ => s1.runCast p.id

/-! ## The events -/

/-- Clearing the header word and advancing READ (R270). -/
def State.consume (s : State) (k : QKey) : State :=
  let q := s.queue k
  let s1 := if q.inHost then s.output (.pcieWrite q.slotAt (List.replicate 8 0))
    else ((s.l2Put false q.slotAt (List.replicate 8 0)).2).foundrySaw 1 q.slotAt 8 0 0
  s1.modQueue k fun q => { q with read := q.read + 1, passed := [] }

/-- The PACKET record (R378). -/
def State.emitPacket (s : State) (p : PacketRun) : State :=
  s.emit (hubSrc (homeHub p.ctx) 10) 0x029 0 p.cause p.parent
    [atBit p.ctx 0 ||| atBit p.queue 16 ||| atBit p.index.toNat 32]

/-- The packet's causal id: the one it waits with, else a new one of the home hub (R288). -/
def State.packetCause (s : State) (k : QKey) : Word × State :=
  match (s.queue k).held with
  | some (_, _, cid) => (cid, s)
  | none => s.mint (homeHub k.ctx)

/-- Decoding the packet at READ, whose bytes have been read: rejected, made to wait, or taken. None when
its rejection must wait for room in the fault queue. -/
def State.decodePacket (s : State) (k : QKey) (bs : List Byte) : Option State :=
  let parent := wordAt bs 8
  match (checkPacket k.ctx bs).run.run s with
  | (.error status, s1) =>
    if s1.fqRoom k.ctx then some (((s1.endHeld k parent).rejectPacket k status parent).turned k) else none
  | (.ok b, s1) =>
    if s1.mustWait k.ctx b then some ((if (s1.queue k).held.isSome then s1 else s1.beginHeld k b.obj parent).turned k)
    else
      let (cause, s2) := s1.packetCause k
      let (id, s3) := (s2.endHeld k parent).takeId
      let p := packetOf k id cause (s3.queue k).read bs
      let s4 := (((s3.consume k).admitPacket p b bs).emitPacket p).served k
      match s4.packet? id with
      | some p1 => some (if s4.barrierOpen p1 then s4.beginPacket p1 else s4)
      | none => some s4

/-- A packet event of one KIND (decode stops at a slot whose VALID, in the bytes read for the decode, is 0,
R270): the packet of the queue that is held behind BARRIER begins; or, in the
queue's turn, the packet at READ is decoded. -/
def State.packetEvent (s : State) (k : QKey) (kind : Nat) (name : String) : Host.Outcome State Fault Refusal :=
  match s.heldPacket k with
  | some p =>
    if s.serving && p.kind == kind && !p.begun && s.barrierOpen p then .next (s.beginPacket p) else .refused (.eventNotPending name)
  | none =>
    if s.nextQueue (homeHub k.ctx) != some k then .refused (.eventNotPending name)
    else match s.ringSlot (s.queue k) with
      | (none, _) => .refused (.eventNotPending name)
      | (some bs, s1) =>
        if !validOf bs then .next (s1.modQueue k fun q => { q with stalled := true })
        else if kindOf bs != kind then .refused (.eventNotPending name)
        else match s1.decodePacket k bs with
          | some s2 => .next s2
          | none => .refused (.eventNotPending name)

/-- LAUNCH (R273). -/
def execLaunchPacket (q : QKey) (s : State) : Host.Outcome State Fault Refusal := s.packetEvent q 1 "LAUNCH"

/-- GRAPH (R276). -/
def execGraphPacket (q : QKey) (s : State) : Host.Outcome State Fault Refusal := s.packetEvent q 2 "GRAPH"

/-- WAIT (R273). -/
def execWaitPacket (q : QKey) (s : State) : Host.Outcome State Fault Refusal := s.packetEvent q 3 "WAIT"

/-- A started packet of a queue and kind whose own work is not finished. -/
def State.unfinished (s : State) (k : QKey) (kind : Nat) : Option PacketRun :=
  s.packets.find? fun p => p.ctx == k.ctx && p.queue == k.q && p.kind == kind && p.started

/-- SIGNAL (R273): decode and effect; one whose word's page did not translate is tried again. -/
def execSignalPacket (q : QKey) (s : State) : Host.Outcome State Fault Refusal :=
  match (if s.serving then s.unfinished q 4 else none) with
  | some p =>
    let s1 := s.runSignal p.id
    if s1.packets == s.packets then s.packetEvent q 4 "SIGNAL" else .next s1
  | none => s.packetEvent q 4 "SIGNAL"

/-- CAST (R353): decode, and each next part of the work; a save ends once its parity collective has retired. -/
def execCastPacket (q : QKey) (s : State) : Host.Outcome State Fault Refusal :=
  match (if s.serving then s.unfinished q 5 else none) with
  | some p => if s.castDue p then .next (s.runCast p.id) else s.packetEvent q 5 "CAST"
  | none => s.packetEvent q 5 "CAST"

/-- BAD_KIND (R271): a packet with a reserved KIND, or a slot that cannot be read, is rejected; its
PARENT is not known in the second case and reads 0. -/
def execBadKind (k : QKey) (s : State) : Host.Outcome State Fault Refusal :=
  if (s.heldPacket k).isSome || s.nextQueue (homeHub k.ctx) != some k || !s.fqRoom k.ctx then
    .refused (.eventNotPending "BAD_KIND")
  else match s.ringSlot (s.queue k) with
    | (none, s1) => .next (((s1.endHeld k 0).rejectPacket k 0x09 0).turned k)
    | (some bs, s1) =>
      if !validOf bs || (decide (1 ≤ kindOf bs) && decide (kindOf bs ≤ 5)) then .refused (.eventNotPending "BAD_KIND")
      else match s1.decodePacket k bs with
        | some s2 => .next s2
        | none => .refused (.eventNotPending "BAD_KIND")

/-- Reading the signals of a WAIT packet: whether each is satisfied, its value at most 0 as signed. -/
def State.readWaits (s : State) (p : PacketRun) : List Bool × State :=
  p.waits.foldl (fun acc va =>
    let (x, s1) := acc.2.castGet p.ctx va 8
    (acc.1 ++ [match x with | some (bs, _) => decide ((wordOf bs).toInt ≤ 0) | none => false], s1)) ([], s)

/-- WAIT_PACKET_SATISFIED (R273): all, or any, of the signals are satisfied and the packet completes. A
host-kind signal is read afresh each time. -/
def execWaitPacketSatisfied (id : Nat) (s : State) : Host.Outcome State Fault Refusal :=
  match s.packet? id with
  | none => .refused (.eventNotPending "WAIT_PACKET_SATISFIED")
  | some p =>
    if p.kind != 3 || !p.started || !s.serving then .refused (.eventNotPending "WAIT_PACKET_SATISFIED")
    else
      let (l, s1) := s.readWaits p
      if (if p.orWait then l.any (· == true) else l.all (· == true)) then .next (s1.completeId id)
      else if s1.draws != s.draws then .next s1
      else .refused (.eventNotPending "WAIT_PACKET_SATISFIED")

end Sys2Proof.Machine
end

