-- ==== Sys2Proof/Machine/Relay.lean ====
section
/-!
DEFINITION. The relay partition and collectives (chapter 14): the relay data operations and their
messages (R305 to R308), joins and barriers (R309 to R311), the start, watchdog and cancellation of
collectives (R296, R299, R313).
-/

namespace Sys2Proof.Machine

/-! ## Buffers and slices (R298, R305) -/

/-- The rank that names the switch. -/
def switchRank : Nat := 2 ^ 32 - 1

/-- The VA of a slice of a buffer. -/
def Collective.slice (c : Collective) (buf off : Nat) : Word := c.bufs.getD buf 0 + BitVec.ofNat 64 off

/-- The IA of a slice of a context. -/
def Context.sliceIA (c : Context) (va : Word) (len : Nat) : Nat :=
  match c.findRange va len with | some r => r.target va | none => vaAddr va

/-- The IA ranges that an operation reads and writes. -/
def RelayOp.reads (o : RelayOp) (c : Context) : List (Nat × Nat) :=
  match o.kind with
  | .send | .copy => [(c.sliceIA o.src o.len, o.len)]
  | .reduce => [(c.sliceIA o.dst o.len, o.len)]
  | .recv => []
def RelayOp.writes (o : RelayOp) (c : Context) : List (Nat × Nat) :=
  match o.kind with
  | .send => []
  | _ => [(c.sliceIA o.dst o.len, o.len)]

/-- Do two lists of ranges share a byte? -/
def share (a b : List (Nat × Nat)) : Bool :=
  a.any fun x => b.any fun y => x.2 != 0 && y.2 != 0 && meets x.1 x.2 y.1 y.2

/-- Must an operation wait for an earlier one of its warp (R305)? -/
def RelayOp.behind (o p : RelayOp) (c : Context) : Bool :=
  share (o.reads c) (p.writes c) || share (o.writes c) (p.reads c ++ p.writes c)

/-! ## Accesses to buffers (R306) -/

/-- The party of a relay engine's access. -/
def RelayOp.party (o : RelayOp) (s : State) : Party :=
  { team := some o.key.team, isEngine := true, code := 11, serial := 0, cause := o.cause
    parent := s.opParent o.key o.cause, issued := some o.id }

/-- What an access to a slice gives: a value, or a fault code with its subcode and address. -/
abbrev Sliced (α : Type) := Except (Nat × Nat × Option Nat) α

/-- The range of a slice: lease kind, leased by the team, with the permission. -/
def State.sliceRange (s : State) (o : RelayOp) (va : Word) (perm : Range → Bool) : Sliced Range :=
  match (s.ctx o.key.ctx).findRange va o.len with
  | none => .error (0x10, 0, none)
  | some r =>
    let leased := match s.team? o.key.team with | some t => t.leases.getLsbD r.idx | none => false
    if r.kind ≠ 0 ∨ !leased then .error (0x11, 0, none)
    else if perm r then .ok r
    else .error (0x12, 0, none)

/-- The tag check of one sector's part of a slice, the fault of one that fails, and whether a watch slot of the own
team is hit. -/
def State.slicePart (s : State) (o : RelayOp) (r : Range) (va : Word) (kind n : Nat) :
    Option (Nat × Nat × Option Nat) × Bool × State :=
  let (tags, s1) := s.engineTag r va n
  let (hit, s2) := s1.watchL2 (o.party s1) kind (r.target va) n none
  let bad := match tags with
    | .same => none
    | .differs => some (0x1D, 0x04, none)
    | .poisoned => some (0x19, 0, some (r.target va))
  (bad, hit, s2)

/-- What a failed walk or poison is to an operation. -/
def Walk.relayFault (w : Walk) (ia : Nat) : Nat × Nat × Option Nat :=
  match w with
  | .poisoned _ => (0x19, 0, some ia)
  | _ => (0x18, 0, none)

/-- Reading a slice at L2, sector by sector. -/
def State.readSlice (s : State) (o : RelayOp) (va : Word) : Sliced (List Byte) × State :=
  match s.sliceRange o va (·.prd) with
  | .error e => (.error e, s)
  | .ok r =>
    (sectorsOf (r.target va) o.len).foldl (fun acc x =>
      match acc.1 with
      | .error e => (.error e, acc.2)
      | .ok bs =>
        let here := va + BitVec.ofNat 64 bs.length
        match acc.2.l2Bring false x.1 with
        | (.error w, s1) => (.error (w.relayFault (128 * x.1)), s1)
        | (.ok y, s1) =>
          let (bad, hit, s2) := s1.slicePart o r here 0 x.2.2
          if let some e := bad then (.error e, s2)
          else if y.poison then (.error (0x19, 0, some (128 * x.1)), s2)
          else if hit then (.error (0x16, 0, none), s2)
          else (.ok (bs ++ (y.data.drop x.2.1).take x.2.2), s2)) (.ok [], s)

/-- Writing a slice at L2, sector by sector; a mismatching sector is not written. -/
def State.writeSlice (s : State) (o : RelayOp) (va : Word) (bs : List Byte) : Sliced Unit × State :=
  match s.sliceRange o va (·.pwr) with
  | .error e => (.error e, s)
  | .ok r =>
    let ia := r.target va
    (sectorsOf ia o.len).foldl (fun acc x =>
      match acc.1 with
      | .error e => (.error e, acc.2)
      | .ok _ =>
        let done := 128 * x.1 + x.2.1 - ia
        match acc.2.l2Bring false x.1 with
        | (.error w, s1) => (.error (w.relayFault (128 * x.1)), s1)
        | (.ok y, s1) =>
          let (bad, hit, s2) := s1.slicePart o r (va + BitVec.ofNat 64 done) 1 x.2.2
          if let some e := bad then (.error e, s2)
          else
            let part := (bs.drop done).take x.2.2
            let s3 := (s2.noteCode x.1).l2Store y (sectorImage x.2.1 part) (byteMask x.2.1 x.2.2) false (some o.key.team)
              (s2.opTag o.key o.id)
            if hit then (.error (0x16, 0, none), s3) else (.ok (), s3)) (.ok (), s)

/-! ## The reduction (R307) -/

/-- op(in, local) of one element; OP is 0 add, 1 min, 2 max, 3 xor. No flag is raised. -/
def relayElem (t : Typ) (op : BitVec 2) (a b : Nat) : Nat :=
  if op = 3 then a ^^^ b
  else if t.isFlt then
    (if op = 0 then ((fpOf t).add .rn a b).code else ((fpOf t).minMax (op == 2) false a b).code)
  else if op = 0 then (a + b) % 2 ^ t.width
  else if (op == 2) == decide (readInt t a < readInt t b) then b
  else a

/-- The reduced slice. -/
def reduceSlice (t : Typ) (op : BitVec 2) (inn loc : List Byte) : List Byte :=
  let n := t.width / 8
  (List.range (loc.length / n)).flatMap fun k =>
    natBytes (relayElem t op (leNat ((inn.drop (n * k)).take n)) (leNat ((loc.drop (n * k)).take n))) n

/-! ## Messages (R306, R313) -/

/-- The collective makes progress: its watchdog restarts (R313). -/
def State.progress (s : State) (tag : Word) : State :=
  s.modColl tag fun c => { c with progress := s.clock, repeats := 0 }

/-- A message of a rank arrived with its step number. -/
def State.heard (s : State) (tag : Word) (rank step : Nat) : State :=
  (s.progress tag).modColl tag fun c => { c with lastStep := putBy (·.1) (rank, step) c.lastStep }

/-- Sending a message to a rank. -/
def State.tell (s : State) (c : Collective) (rank : Nat) (m : LinkMsg) : State := s.output (.relay (c.dev rank) m)

/-- The message of an operation's receive, and of its send half. -/
def RelayOp.recvMsg (o : RelayOp) (c : Collective) : RelayMsg :=
  { tag := o.tag, chan := o.chan, src := o.peer, dst := c.rank, slot := o.slot, occ := o.occR, step := o.step, len := o.len
    cause := o.minted, srcDev := Config.devId.toNat, dstDev := c.dev o.peer }
def RelayOp.sendMsg (o : RelayOp) (c : Collective) : RelayMsg :=
  { tag := o.tag, chan := o.chan, src := c.rank, dst := o.sendTo, slot := o.slot, occ := o.occS, step := o.step, len := o.len
    cause := o.minted, srcDev := Config.devId.toNat, dstDev := c.dev o.sendTo }

/-- Same key and occurrence (R306). -/
def sameKey (m n : RelayMsg) : Bool :=
  m.tag == n.tag && m.chan == n.chan && m.src == n.src && m.dst == n.dst && m.slot == n.slot && m.occ == n.occ

/-- An operation meets a fault. -/
def State.failRelay (s : State) (id code sub : Nat) (ia : Option Nat := none) : State :=
  s.modRelayOp id fun o => { o with failed := some (code, sub, ia) }

/-- A route to a rank's device exists (R305). -/
def Collective.routed (c : Collective) (rank : Nat) : Bool :=
  rank == switchRank || Config.reachable Config.devId.toNat (c.dev rank)

/-- A posted receive meets its request to send: the credit goes out, or the lengths differ; the credit
carries the receive's length either way, so that the sender sees it too. -/
def State.matchRecv (s : State) (c : Collective) (o : RelayOp) (m : RelayMsg) : State :=
  let s1 := s.tell c o.peer (.credit (o.recvMsg c))
  if m.len = o.len then s1.modRelayOp o.id fun o => { o with matched := true }
  else (s1.modRelayOp o.id fun o => { o with matched := true }).failRelay o.id 0x1D 0x03

/-- Asking to send: the request goes to the peer. -/
def State.askSend (s : State) (c : Collective) (o : RelayOp) : State :=
  if c.routed o.sendTo then
    (s.tell c o.sendTo (.sendRequest (o.sendMsg c))).modRelayOp o.id fun o => { o with since := s.clock }
  else s.failRelay o.id 0x1D 0x05

/-- An operation starts. -/
def State.postRelay (s : State) (c : Collective) (o : RelayOp) : State :=
  let s1 := s.modRelayOp o.id fun o => { o with posted := true, since := s.clock }
  match o.kind with
  | .send => s1.askSend c o
  | .copy => s1
  | _ =>
    if !c.routed o.peer then s1.failRelay o.id 0x1D 0x05
    else match c.requests.find? (sameKey · (o.recvMsg c)) with
      | some m => (s1.modColl c.tag fun c => { c with requests := c.requests.filter fun x => !sameKey x m }).matchRecv c o m
      | none => s1

/-- The relay teams of a collective are halted (R302). -/
def State.collHalted (s : State) (tag : Word) : Bool :=
  (s.relayTeams tag).any fun t => t.phase == .halting || t.phase == .halted

/-- May an operation start: it waits for no earlier one of its warp (R305), and the relay teams are not
halted (R302)? -/
def State.mayPost (s : State) (o : RelayOp) : Bool :=
  !o.posted && !s.collHalted o.tag &&
    !((s.relayOf o.key).filter fun p => decide (p.id < o.id)).any (o.behind · (s.ctx o.key.ctx))

/-- Starting the operations of a warp that may start. -/
def State.startRelay (s : State) (k : WKey) : State :=
  (s.relayOf k).foldl (fun s o =>
    if !s.mayPost o then s
    else match s.coll? o.tag with
      | some g => s.postRelay g o
      | none => s) s

/-! ## Issue (R301, R305) -/

/-- The collective of a relay warp. -/
def Env.coll (e : Env) : Option Collective := e.t.relay.bind fun r => e.s.coll? r.tag

/-- The channel of a relay warp. -/
def Env.chan (e : Env) : Nat := (e.t.relay.map (·.chan)).getD 0

/-- The counters an operation waits for at issue (R305). -/
def Warp.openPath (w : Warp) : Option Path := [Path.ld, .st, .sp].find? fun p => decide (0 < w.counter p)

/-- The waits of a relay data operation before it executes. -/
def Env.relayData (e : Env) (f : Collective → Act) : Act :=
  match e.coll with
  | none => .wait e.s
  | some c =>
    let open_ := e.s.relayOf e.k
    match decide (64 ≤ open_.length), open_.head?, e.w.openPath with
    | true, some o, _ => .wait (e.s.beginWait e.k (limitWait c o))
    | _, _, some p => .wait (e.s.beginWait e.k
        { kind := 8, obj := BitVec.ofNat 64 (Path.code p), a1 := BitVec.ofNat 64 (e.w.counter p) })
    | _, _, none => f c

/-- A precise RELAY trap (Table 14-5). -/
def Env.relayTrap (e : Env) (sub off : Nat) : Act := e.trap 0x1D 255 (atBit sub 0 ||| atBit off 8)

/-- The checks of a slice. -/
def Collective.sliceOk (c : Collective) (buf off len : Nat) : Bool :=
  off % 16 == 0 && len % 16 == 0 && decide (len ≤ 2 ^ 24) && decide (off + len ≤ c.sizes.getD buf 0)

/-- The check of a peer. -/
def Collective.peerOk (c : Collective) (peer : Nat) (switch : Bool) : Bool :=
  (peer == switchRank && switch && c.isr) || (decide (peer < c.nranks) && peer != c.rank)

/-- Occurrences used under a key. -/
def used (l : List (Nat × Nat × Nat × Nat)) (chan peer slot : Nat) : Nat :=
  ((l.find? fun x => x.1 == chan && x.2.1 == peer && x.2.2.1 == slot).map (·.2.2.2)).getD 0
def use (l : List (Nat × Nat × Nat × Nat)) (chan peer slot : Nat) : List (Nat × Nat × Nat × Nat) :=
  (chan, peer, slot, used l chan peer slot + 1) :: l.filter fun x => !(x.1 == chan && x.2.1 == peer && x.2.2.1 == slot)

/-- The step number is taken and raised (R301). -/
def State.raiseStep (s : State) (k : WKey) : State := s.modWarp k fun w => { w with stepNo := w.stepNo + 1 }

/-- Issuing a relay data operation: its number, causal id, step and occurrences; it starts at once when
no earlier one stands in its way. -/
def Env.fork (e : Env) (c : Collective) (kind : RelayKind) (slot peer : Nat) (fwd : Option Nat) (off : Nat)
    (src dst : Word) (len : Nat)
    (op : BitVec 2) (ty : Typ) (offD : Nat := 0) : Act :=
  let (id, s0) := e.s.takeId
  let (own, s1) := s0.mint e.t.hub
  let (cause, s2) := s1.takeCause (hubOfCore e.w.core) id own e.w.cause
  let receives := kind == .recv || kind == .reduce
  let sendTo := match kind with | .send => some peer | _ => fwd
  let o : RelayOp :=
    { id := id, key := e.k, tag := c.tag, chan := e.chan, kind := kind, cause := cause, minted := own, pc := e.w.pc, serial := e.w.serial
      step := e.w.stepNo.toNat, slot := slot, peer := peer, fwd := fwd
      occR := used c.recvs e.chan peer slot, occS := (sendTo.map fun p => used c.sends e.chan p slot).getD 0
      off := off, offD := offD, src := src, dst := dst, len := len, op := op, ty := ty }
  let s3 := s2.modColl c.tag fun c =>
    { c with recvs := if receives then use c.recvs e.chan peer slot else c.recvs
             sends := match sendTo with | some p => use c.sends e.chan p slot | none => c.sends }
  .next ((({ s3 with relayOps := s3.relayOps ++ [o] } : State).raiseStep e.k).startRelay e.k)

/-- Operand C of a relay instruction. -/
def Env.scalarC (e : Env) (imm : BitVec 28) : Nat :=
  match cOperand imm with | some o => (e.scalar o).toNat | none => 0

def execCsend (o : Ops (BitVec 16)) (s : State) : Host.Outcome State Fault Refusal :=
  runSeq (.csend o) s fun e => e.relayData fun c =>
    let (peer, off, len) := ((e.scalar o.a).toNat, (e.scalar o.b).toNat, e.scalarC o.imm)
    if !c.sliceOk (mfield o 0 2) off len then e.relayTrap 0x02 off
    else if !c.peerOk peer true then e.relayTrap 0x01 off
    else e.fork c .send (mfield o 2 6) peer none off (c.slice (mfield o 0 2) off) 0 len 0 .z64

def execCrecv (o : Ops (BitVec 16)) (s : State) : Host.Outcome State Fault Refusal :=
  runSeq (.crecv o) s fun e => e.relayData fun c =>
    let (peer, off, len) := ((e.scalar o.a).toNat, (e.scalar o.b).toNat, e.scalarC o.imm)
    if !c.sliceOk (mfield o 0 2) off len then e.relayTrap 0x02 off
    else if !c.peerOk peer true then e.relayTrap 0x01 off
    else e.fork c .recv (mfield o 2 6) peer none off 0 (c.slice (mfield o 0 2) off) len 0 .z64

def execCrrs (o : Ops (BitVec 16)) (s : State) : Host.Outcome State Fault Refusal :=
  runSeq (.crrs o) s fun e => e.relayData fun c =>
    let (peer, off, len) := ((e.scalar o.a).toNat, (e.scalar o.b).toNat, e.scalarC o.imm)
    let fwd := if o.mod.getLsbD 15 then some (e.scalar o.d).toNat else none
    if !c.sliceOk (mfield o 0 2) off len then e.relayTrap 0x02 off
    else if !(c.peerOk peer false && fwd.all (c.peerOk · false)) then e.relayTrap 0x01 off
    else
      let va := c.slice (mfield o 0 2) off
      e.fork c .reduce (mfield o 2 6) peer fwd off va va len (o.mod.extractLsb' 8 2)
        ((typOfCode (o.mod.extractLsb' 10 4)).getD .z64)

def execCcopy (o : Ops (BitVec 16)) (s : State) : Host.Outcome State Fault Refusal :=
  runSeq (.ccopy o) s fun e => e.relayData fun c =>
    let (dst, src, len) := ((e.scalar o.d).toNat, (e.scalar o.a).toNat, (e.scalar o.b).toNat)
    if !c.sliceOk (mfield o 2 2) src len then e.relayTrap 0x02 src
    else if !c.sliceOk (mfield o 0 2) dst len then e.relayTrap 0x02 dst
    else e.fork c .copy 0 0 none src (c.slice (mfield o 2 2) src) (c.slice (mfield o 0 2) dst) len 0 .z64 dst

/-! ## The messages that arrive (R306) -/

/-- A message arrives from a rank: the watchdog restarts; while the relay teams are halted it is held,
and it is answered when they are not. One of a collective that is not live any more is dropped. -/
def State.arrived (s : State) (tag : Word) (rank step : Nat) (x : LinkMsg) (name : String)
    (f : Collective → State → State) : Host.Outcome State Fault Refusal :=
  match s.coll? tag with
  | none => .next s
  | some c =>
    let again := c.held.contains x
    if s.collHalted tag then
      (if again then .refused (.eventNotPending name)
       else .next ((s.heard tag rank step).modColl tag fun c => { c with held := c.held ++ [x] }))
    else
      let s1 := if again then s.modColl tag fun c => { c with held := c.held.erase x } else s.heard tag rank step
      .next (f c s1)

/-- RELAY_SEND_REQUEST (R306): matched with a posted receive, or held; before the collective is live it
is held too. -/
def execRelaySendRequest (m : RelayMsg) (s : State) : Host.Outcome State Fault Refusal :=
  if (s.coll? m.tag).isNone then .next { s with relayWaiting := s.relayWaiting ++ [.sendRequest m] }
  else s.arrived m.tag m.src m.step (.sendRequest m) "RELAY_SEND_REQUEST" fun c s1 =>
    match s1.relayOps.find? fun o =>
        (o.kind == .recv || o.kind == .reduce) && o.posted && !o.matched && o.failed.isNone && sameKey m (o.recvMsg c) with
    | some o => s1.matchRecv c o m
    | none => s1.modColl m.tag fun c => { c with requests := c.requests ++ [m] }

/-- The operation whose send half a message answers. -/
def State.senderOf (s : State) (c : Collective) (m : RelayMsg) : Option RelayOp :=
  s.relayOps.find? fun o => o.tag == c.tag && o.posted && o.sending && o.failed.isNone && sameKey m (o.sendMsg c)

/-- RENDEZVOUS_CREDIT (R306): the receive is posted; the payload moves, or the lengths differ. -/
def execRendezvousCredit (m : RelayMsg) (s : State) : Host.Outcome State Fault Refusal :=
  s.arrived m.tag m.dst m.step (.credit m) "RENDEZVOUS_CREDIT" fun c s1 =>
    match s1.senderOf c m with
    | none => s1
    | some o =>
      if o.sent then s1
      else if m.len ≠ o.len then s1.failRelay o.id 0x1D 0x03
      else
        let s2 := s1.modRelayOp o.id fun o => { o with sent := true }
        if o.len = 0 then s2.tell c o.sendTo (.payload (o.sendMsg c) [])
        else match s2.readSlice o (if o.kind == .reduce then o.dst else o.src) with
          | (.error (code, sub, ia), s3) => s3.failRelay o.id code sub ia
          | (.ok bs, s3) => s3.tell c o.sendTo (.payload (o.sendMsg c) bs)

/-- A payload in its receive slice: written, or reduced into it. -/
def State.receive (s : State) (o : RelayOp) (data : List Byte) : Sliced Unit × State :=
  if o.len = 0 then (.ok (), s)
  else if o.kind == .reduce then
    match s.readSlice o o.dst with
    | (.error e, s1) => (.error e, s1)
    | (.ok old, s1) => s1.writeSlice o o.dst (reduceSlice o.ty o.op data old)
  else s.writeSlice o o.dst data

/-- RELAY_PAYLOAD (R306, R307): the payload of a matched receive is performed at L2 and acknowledged; a
`crrs` with SND then asks to forward the result. -/
def execRelayPayload (m : RelayMsg) (data : List Byte) (s : State) : Host.Outcome State Fault Refusal :=
  s.arrived m.tag m.src m.step (.payload m data) "RELAY_PAYLOAD" fun c s1 =>
    match s1.relayOps.find? fun o => o.matched && !o.received && o.failed.isNone && sameKey m (o.recvMsg c) with
    | none => s1
    | some o =>
      match s1.receive o data with
      | (.error (code, sub, ia), s2) => s2.failRelay o.id code sub ia
      | (.ok _, s2) =>
        let s3 := (s2.tell c o.peer (.ack (o.recvMsg c))).modRelayOp o.id fun o => { o with received := true }
        if o.fwd.isSome then s3.askSend c { o with received := true } else s3

/-- RELAY_ACK (R306): the receiving device has performed a send's bytes. -/
def execRelayAck (m : RelayMsg) (s : State) : Host.Outcome State Fault Refusal :=
  s.arrived m.tag m.dst m.step (.ack m) "RELAY_ACK" fun c s1 =>
    match s1.senderOf c m with
    | some o => s1.modRelayOp o.id fun o => { o with acked := true }
    | none => s1

/-! ## Completion (R305 to R308) -/

/-- Has everything that an operation awaits happened? -/
def RelayOp.done (o : RelayOp) : Bool :=
  match o.kind with
  | .send => o.acked
  | .recv => o.received
  | .reduce => o.received && (o.fwd.isNone || o.acked)
  | .copy => o.posted

/-- Removing an operation: it has completed, and later ones may start. -/
def State.endRelay (s : State) (o : RelayOp) : State :=
  let c := s.ctx o.key.ctx
  let s1 := { s with relayOps := s.relayOps.filter (·.id != o.id) }
  let s2 := (s1.modWarp o.key fun w => { w with relayWritten := w.relayWritten ++ o.writes c }).progress o.tag
  (s2.startRelay o.key).settle o.key

/-- Was the slice at which an operation met its fault the one it writes? -/
def RelayOp.atDst (o : RelayOp) : Bool :=
  match o.kind with
  | .send => false
  | .copy => o.failedDst
  | _ => true

/-- The deferred fault of an operation; a RELAY record holds the byte offset of the slice that met it. -/
def State.faultRelay (s : State) (o : RelayOp) (code sub : Nat) (ia : Option Nat) : State :=
  let va := if o.atDst then o.dst else o.src
  let off := if o.failedDst then o.offD else o.off
  let f : FaultInfo :=
    { code := code, pc := o.pc, cause := o.cause, serial := o.serial, warp := o.key.w
      addr := if code = 0x1D then atBit sub 0 ||| atBit off 8 else va
      wobj := (((s.warp? o.key).bind (·.wait)).map (·.obj)).getD 0
      wkind := (((s.warp? o.key).bind (·.wait)).map (·.kind)).getD 0 }
  let s1 := { s with relayOps := s.relayOps.filter (·.id != o.id) }
  (s1.deferFault o.key f ia).settle o.key

/-- RELAY_OP_COMPLETE (R305): an operation completes, a `ccopy` performing its copy; or its deferred fault
is raised. One that could not start while the relay teams were halted (R302) starts. -/
def execRelayOpComplete (id : Nat) (s : State) : Host.Outcome State Fault Refusal :=
  match s.relayOps.find? (·.id == id) with
  | none => .refused (.eventNotPending "RELAY_OP_COMPLETE")
  | some o =>
    match o.failed with
    | some (code, sub, ia) =>
      if s.fqRoom o.key.ctx then .next (s.faultRelay o code sub ia) else .refused (.eventNotPending "RELAY_OP_COMPLETE")
    | none =>
      if !o.posted then
        match s.coll? o.tag, s.mayPost o with
        | some c, true => .next (s.postRelay c o)
        | _, _ => .refused (.eventNotPending "RELAY_OP_COMPLETE")
      else if !o.done then .refused (.eventNotPending "RELAY_OP_COMPLETE")
      else if o.kind == .copy && o.len != 0 then
        match s.readSlice o o.src with
        | (.error (code, sub, ia), s1) => .next (s1.failRelay o.id code sub ia)
        | (.ok bs, s1) =>
          match s1.writeSlice o o.dst bs with
          | (.error (code, sub, ia), s2) =>
            .next ((s2.failRelay o.id code sub ia).modRelayOp o.id fun o => { o with failedDst := true })
          | (.ok _, s2) => .next (s2.endRelay o)
      else .next (s.endRelay o)

/-! ## Joins (R309, R310) -/

/-- Waiting until at most n operations are incomplete, then the flash invalidation of the L1. -/
def Env.join (e : Env) (n : Nat) (sig : Word) (f : Env → Act) : Act :=
  match e.coll with
  | none => .wait e.s
  | some c =>
    let open_ := e.s.relayOf e.k
    if n < open_.length then .wait (e.s.beginWait e.k (joinWait c open_ sig))
    else f { e with s := e.s.flashInvalidate e.w.core }

/-- Step 1 of a step completion: in every core that runs a team of the collective's launch, the L1
sectors of the bytes written become invalid but for bytes of their own stores. -/
def State.dropLines (s : State) (c : Collective) (l : List (Nat × Nat)) : State :=
  let cores := (s.teams.filter fun t => t.packet == some c.packet && t.relay.isNone && t.resident).flatMap Team.cores
  let hit (sec : Nat) : Bool := l.any fun x => x.2 != 0 && meets (128 * sec) 128 x.1 x.2
  cores.foldl (fun s core => s.modCore core fun u =>
    { u with l1 := u.l1.filterMap fun x =>
        if hit x.sector then (if x.isDirty then some { x with valid := x.dirty } else none) else some x }) s

/-- The checks of the signal address of `cwait.sig`, made at issue as for `sigdec` (R294): the code of
the one that fails. -/
def Env.signalBad (e : Env) (va : Word) : Option Nat :=
  if va.toNat % 8 ≠ 0 then some 0x06
  else match e.ctx.findRange va 8 with
    | none => some 0x10
    | some r =>
      if r.kind = 0 ∧ !e.t.leases.getLsbD r.idx then some 0x11
      else if r.kind = 2 ∨ !r.pat then some 0x12
      else none

/-- `cwait`: joins, and with SIG the step completion, whose subtraction is an atomic with release at dv
(R309). -/
def execCwait (o : Ops (BitVec 16)) (s : State) : Host.Outcome State Fault Refusal :=
  runSeq (.cwait o) s fun e =>
    if o.mod = 1 then
      let va := e.scalar o.a
      match e.signalBad va with
      | some code => e.trap code 255 va
      | none => e.join o.imm.toNat va fun e =>
        match e.coll with
        | none => .wait e.s
        | some c => e.signal (.cwait o) o.a .atomic fun e va r => e.afterRelease .dv fun e =>
          let s1 := e.signalAdd va r (BitVec.allOnes 64)
          .next ((s1.dropLines c e.w.relayWritten).modWarp e.k fun w => { w with relayWritten := [] })
    else e.join o.imm.toNat 0 fun e => .next e.s

/-- `cdone`: waits for every operation, then `exit` (R310). -/
def execCdone (o : Ops (BitVec 16)) (s : State) : Host.Outcome State Fault Refusal :=
  runRaw (.cdone o) s fun e => e.join 0 0 fun e => .enter ((e.s.endWait e.k).exitWarp e.k)

/-! ## cpeer, crank, cbar (R311) -/

/-- The rank of `cpeer`; the divisor and floor modulo of R311. -/
def peerOf (c : Collective) (form : Nat) (k : Int) : Nat :=
  let (r, n, w) := (c.rank, c.nranks, c.cols)
  match form with
  | 0 => (((r : Int) + k) % n).toNat
  | 1 => r / w * w + (((r % w : Nat) : Int) + k).emod w |>.toNat
  | _ => ((((r / w : Nat) : Int) + k) % ((n / w : Nat) : Int)).toNat * w + r % w

def execCpeer (o : Ops (BitVec 16)) (s : State) : Host.Outcome State Fault Refusal :=
  runSeq (.cpeer o) s fun e =>
    match e.coll with
    | none => .wait e.s
    | some c =>
      if o.mod ≠ 0 ∧ c.cols = 0 then e.relayTrap 0x06 0
      else .next (e.setS o.d (BitVec.ofNat 64 (peerOf c o.mod.toNat (e.scalar o.a).toInt)))

def execCrank (o : Ops (BitVec 16)) (s : State) : Host.Outcome State Fault Refusal :=
  runSeq (.crank o) s fun e =>
    match e.coll with
    | none => .wait e.s
    | some c =>
      let x := match o.mod.toNat with
        | 0 => c.rank
        | 1 => c.nranks
        | 2 => c.cols
        | _ => b2n c.isr + 2 * b2n c.e2e
      .next (e.setS o.d (BitVec.ofNat 64 x))

/-- A waiting warp sees the arrivals: its wait ends, or its entry is rewritten. -/
def State.wakeCbar (s : State) (k : WKey) : State :=
  match s.team? k.team, s.warp? k with
  | some t, some w =>
    match t.relay.bind fun r => s.coll? r.tag with
    | none => s
    | some c =>
      if w.act != .cbar then s
      else if (c.lateAt w.cbars).isEmpty then
        (if w.halted then s else ((s.leaveWait k).advance k).progress c.tag)
      else if w.wait.isSome then s.beginWait k (cbarWait c w.cbars)
      else s
  | _, _ => s

/-- What names this device's own rank to CBAR_ARRIVAL. -/
def ownArrival (c : Collective) : CbarFrom := ⟨c.rank, 0, c.cause, Config.devId.toNat, Config.devId.toNat⟩

/-- The warps of a collective's relay teams. -/
def State.relayWarps (s : State) (tag : Word) : List WKey := (s.relayTeams tag).flatMap fun t => t.warps.map t.wkey

/-- The message of a relay team's `cbar` to a rank: its step number is the one the instruction took. -/
def Env.cbarMsg (e : Env) (c : Collective) (rank : Nat) : LinkMsg :=
  .cbar c.tag ⟨c.rank, e.w.stepNo.toNat, e.w.cause, Config.devId.toNat, c.dev rank⟩ e.chan

/-- `cbar`: counted here, told to every other rank, and waited for (R311). -/
def execCbar (o : Ops (BitVec 16)) (s : State) : Host.Outcome State Fault Refusal :=
  runRaw (.cbar o) s fun e =>
    match e.coll with
    | none => .wait e.s
    | some c =>
      let n := e.w.cbars + 1
      let s1 := (e.s.raiseStep e.k).modWarp e.k fun w => { w with cbars := n, cbarFrom := e.s.clock }
      let s2 := s1.modColl c.tag fun c => c.arrive c.rank e.chan
      let s3 := (List.range c.nranks).foldl (fun s r => if r = c.rank then s else s.tell c r (e.cbarMsg c r)) s2
      let s4 := s3.enterWait e.k .cbar (cbarWait (c.arrive c.rank e.chan) n)
      .enter ((s4.relayWarps c.tag).foldl State.wakeCbar s4)

/-- CBAR_ARRIVAL (R311): an arrival of another rank's relay team is counted, and waits whose teams have
all arrived end; for this device's own rank, a warp that could not go on when its wait was over (it was
halted) goes on. One that comes before the collective is live here is kept. -/
def execCbarArrival (tag : Word) (rank : CbarFrom) (chan : Nat) (s : State) : Host.Outcome State Fault Refusal :=
  match s.coll? tag with
  | none => .next { s with relayWaiting := s.relayWaiting ++ [.cbar tag rank chan] }
  | some c =>
    let s1 := if rank.rank = c.rank then s
      else (s.heard tag rank.rank rank.step).modColl tag fun c => c.arrive rank.rank chan
    let s2 := (s1.relayWarps tag).foldl State.wakeCbar s1
    if rank.rank = c.rank && s2 == s then .refused (.eventNotPending "CBAR_ARRIVAL") else .next s2

/-! ## The start of a collective (R296, R297, R299, R300) -/

/-- Non-relay teams that hold a relay core. -/
def State.onRelayCores (s : State) : List Team :=
  s.teams.filter fun t => t.resident && t.relay.isNone && t.cores.any s.isRelayCore

/-- Pre-empting a team for a collective (R296): in its mode; one whose pending records exceed the region
is flushed when it can be, else stops as for a save. -/
def State.evict (s : State) (t : Team) : State :=
  if s.pendingBytes t ≤ 65536 then s.preempt t true
  else if t.kernel.idem && t.flushable && t.phase != .halted then s.flushTeam t
  else s.beginSave t true

/-- The relay team of one channel, if a relay core has room for it. -/
def State.placeRelay (s : State) (p : PacketRun) (c : Collective) (chan : Nat) : Option State :=
  let cores := (List.range Config.cores).filter (s.fitsAt c.progKernel true [])
  match s.freeFrame c.ctx c.progKernel.frameSize, cores with
  | some a, _ :: _ =>
    let (n, s1) := s.draw
    let (id, s2) := s1.takeId
    let l : Launch :=
      { id := id, ctx := c.ctx, packet := p.id, kernel := c.progKernel, inst := 0
        args := [c.desc, BitVec.ofNat 64 chan, c.args.getD 0 0, c.args.getD 1 0], scopes := [p.scope], records := []
        firing := none, node := 0, parent := p.cause }
    some (s2.placeTeam l (cores.getD (n % cores.length) 0) a (some ⟨c.tag, chan⟩))
  | _, _ => none

/-- A message that came before the collective was live: a request to send, or a `cbar` arrival. -/
def Collective.early (c : Collective) (x : LinkMsg) : Collective :=
  let heard (rank step : Nat) : List (Nat × Nat) := putBy (·.1) (rank, step) c.lastStep
  match x with
  | .sendRequest m => { c with requests := c.requests ++ [m], lastStep := heard m.src m.step }
  | .cbar _ x chan => { c.arrive x.rank chan with lastStep := heard x.rank x.step }
  | _ => c

/-- The TAG of a relay message. -/
def msgTag (x : LinkMsg) : Option Word :=
  match x with
  | .sendRequest m | .credit m | .payload m _ | .ack m => some m.tag
  | .cbar tag _ _ => some tag
  | .access _ => none

/-- The collective goes live: the messages that came before are its own now, in order. -/
def State.goLive (s : State) (packet : Nat) (tag : Word) : State :=
  { s with collectives := updIf (fun c => c.packet == packet && c.tag == tag) (fun c =>
             (s.relayWaiting.filter (msgTag · == some tag)).foldl Collective.early
               { c with live := true, progress := s.clock }) s.collectives
           relayWaiting := s.relayWaiting.filter (msgTag · != some tag) }

/-- The launch that waits for its collective, in the wait table. -/
def State.collWaits (s : State) (c : Collective) : Option State :=
  (s.launches.find? (·.packet == c.packet)).bind fun l =>
    s.launchWaits l { kind := 13, obj := c.progKernel.va, a0 := BitVec.ofNat 64 (c.progKernel.granules true) }

/-- COLLECTIVE_START (R299): the relay cores are cleared of other teams, the relay teams start, one per
channel, and the collective goes live; until there is room its launch waits. -/
def execCollectiveStart (id : Nat) (s : State) : Host.Outcome State Fault Refusal :=
  match s.packet? id, s.collectives.find? fun c => c.packet == id && !c.live with
  | some p, some c =>
    let ready := s.serving && p.begun && (match p.cast with | some r => r.copied | none => true)
    let x := s.ctx c.ctx
    if !ready || (s.coll? c.tag).isSome || x.lost || x.resetting then .refused (.eventNotPending "COLLECTIVE_START")
    else match x.leasesAwaited c.progKernel, s.launches.find? (·.packet == id) with
      | r :: _, some l =>
        (match (x.leasesAwaited c.progKernel).find? fun r => !l.noticed.contains r with
        | some r => if s.fqRoom c.ctx then .next (s.leaseNotice l r) else .refused (.eventNotPending "COLLECTIVE_START")
        | none => s.admitLater l { kind := 12, obj := BitVec.ofNat 64 r } false)
      | _ :: _, none => .refused (.eventNotPending "COLLECTIVE_START")
      | [], _ =>
        let movable := s.onRelayCores.filter fun t => t.phase == .running || t.phase == .halted || t.phase == .draining
        if !movable.isEmpty && movable.any (·.phase != .draining) then
          .next ((movable.filter (·.phase != .draining)).foldl State.evict s)
        else
          let placed := if s.onRelayCores.isEmpty && (x.codeRegister c.progKernel).isSome then
              (List.range c.chans).foldl (fun acc ch => acc.bind fun s => s.placeRelay p c ch) (some s)
            else none
          match placed, s.collWaits c with
          | some s1, _ => .next (s1.goLive id c.tag)
          | none, some s1 => .next s1
          | none, none => .refused (.eventNotPending "COLLECTIVE_START")
  | _, _ => .refused (.eventNotPending "COLLECTIVE_START")

/-! ## The watchdog (R313) -/

/-- Something of a collective that waits: the rank it waits for, since when, its kind (0 receive, 1 send,
2 `cbar`), the causal id, the step, the slot and channel, the warp. -/
structure Item where
  rank : Nat
  since : Nat
  kind : Nat
  cause : Word
  step : Nat
  slot : Nat
  chan : Nat
  key : WKey

/-- The item of a data operation that awaits its message or its receiver. -/
def RelayOp.item (o : RelayOp) : Option Item :=
  if !o.posted || o.failed.isSome || o.kind == .copy then none
  else if o.sending then
    (if o.sent then none else some ⟨o.sendTo, o.since, 1, o.cause, o.step, o.slot, o.chan, o.key⟩)
  else if o.received then none
  else some ⟨o.peer, o.since, 0, o.cause, o.step, o.slot, o.chan, o.key⟩

/-- The items of a warp that waits in `cbar`. -/
def cbarItems (c : Collective) (t : Team) (w : Warp) : List Item :=
  if w.act == .cbar then
    ((c.lateAt w.cbars).eraseDups).map fun r =>
      ⟨r, w.cbarFrom, 2, w.cause, (w.stepNo - 1).toNat, 0, (t.relay.map (·.chan)).getD 0, t.wkey w⟩
  else []

/-- Every pending item of a collective. -/
def State.items (s : State) (c : Collective) : List Item :=
  ((s.relayOps.filter (·.tag == c.tag)).filterMap RelayOp.item) ++
    (s.relayTeams c.tag).flatMap fun t => t.warps.flatMap (cbarItems c t)

/-- `x` has waited at least as long as `y`; ties go to the lower rank. -/
def Item.longer (x y : Item) : Bool := x.since < y.since || (x.since == y.since && x.rank ≤ y.rank)

/-- The item that has waited longest; ties go to the lowest rank. -/
def oldest : List Item → Option Item
  | [] => none
  | x :: l => some ((oldest l).elim x fun y => if x.longer y then x else y)

/-- The record of Table 14-7 and the COLL_WATCHDOG event. -/
def State.watchdogRecord (s : State) (c : Collective) (x : Item) : State :=
  let w := s.warp? x.key
  let hub := match w with | some w => hubOfCore w.core | none => homeHub c.ctx
  let serial := ((w.map (·.serial)).getD 0) &&& 0xFFFFFFFFFFFF#64
  let parent := s.opParent x.key x.cause
  let pstep := ((c.lastStep.find? (·.1 == x.rank)).map (·.2)).getD 0xFFFFFFFF
  let waited := Nat.min ((s.clock - x.since) / 1000) 0xFFFFFFFF
  let rep := Nat.min c.repeats 65535
  let s1 := s.emit (hubSrc hub 10) 0x004 (auxCtx c.ctx) x.cause parent
    [c.tag, atBit x.rank 0 ||| atBit x.step 32, atBit pstep 0 ||| atBit rep 32 ||| atBit x.kind 48, atBit (c.dev x.rank) 0]
  s1.postRecord c.ctx hub
    [ atBit 0x23 0 ||| atBit c.ctx 8 ||| atBit hub 14, atBit x.kind 12 ||| atBit x.chan 15 ||| atBit x.slot 18 ||| atBit waited 32,
      atBit rep 0 ||| (serial <<< 16), atBit pstep 0 ||| atBit x.step 32, x.cause, s.timeAt (hubEmitter hub 10),
      atBit (c.dev x.rank) 20 ||| atBit x.rank 32, c.tag ] x.cause parent

/-- COLL_WATCHDOG (R313): the period expires and the first late participant is named; nothing halts. With
nothing pending there is no participant and the period starts again. -/
def execCollWatchdog (tag : Word) (s : State) : Host.Outcome State Fault Refusal :=
  match s.coll? tag with
  | none => .refused (.eventNotPending "COLL_WATCHDOG")
  | some c =>
    if s.clock < c.progress + c.wdt * 100000 || !s.fqRoom c.ctx then .refused (.eventNotPending "COLL_WATCHDOG")
    else match oldest (s.items c) with
      | none => .next (s.modColl tag fun c => { c with progress := s.clock })
      | some x =>
        .next ((s.watchdogRecord c x).modColl tag fun c => { c with progress := s.clock, repeats := c.repeats + 1 })

/-! ## Cancellation (R313) and the partition (R295) -/

/-- COLLECTIVE_CANCEL (R313): the relay teams stop and their pending items are discarded; STATUS becomes
cancelled unless it is faulted. A TAG without a live collective has no effect. -/
def execCollectiveCancel (tag : Word) (s : State) : Host.Outcome State Fault Refusal :=
  match s.coll? tag with
  | none => .next s
  | some c =>
    let h := ((s.packet? c.packet).map (·.scope)).getD 0
    let s1 := s.modScope c.ctx h fun e => { e with status := if e.status = 1 then 1 else 2 }
    let teams := s1.relayTeams tag
    let s2 := teams.foldl (fun s t => (s.modTeam t.key fun t => { t with faulted := true }).discardTeam t.key)
      (s1.modColl tag fun c => { c with cancelled := true, requests := [] })
    .next ((s2.settleCollective tag).settlePackets c.ctx)

/-- RELAY_PARTITION_WRITE (R295): the value takes effect, or is held while a collective is live, the
later replacing the earlier. Bits 63:32 are reserved and keep 0 (R4). -/
def execRelayPartitionWrite (x : Word) (s : State) : Host.Outcome State Fault Refusal :=
  let v := x &&& 0xFFFFFFFF#64
  if s.anyLive then .next { s with mgmt := { s.mgmt with relayHeld := some v } }
  else .next { s with mgmt := { s.mgmt with relayPart := v, relayHeld := none } }

/-- RELAY_PARTITION_APPLY (R295). -/
def execRelayPartitionApply (s : State) : Host.Outcome State Fault Refusal :=
  match s.mgmt.relayHeld with
  | none => .refused (.eventNotPending "RELAY_PARTITION_APPLY")
  | some v =>
    if s.anyLive then .refused (.eventNotPending "RELAY_PARTITION_APPLY")
    else .next { s with mgmt := { s.mgmt with relayPart := v, relayHeld := none } }

end Sys2Proof.Machine
end

