-- ==== Sys2Proof/Machine/Links.lean ====
section
/-!
DEFINITION. The Ralbex links and the PCIe link as this device sees them: flits that arrive (R303), link
retrains, and the accesses of peers served at this device's L2 (R207).
-/

namespace Sys2Proof.Machine

/-! ## Accesses of peers (R207) -/

/-- The access as the watch filter and the recorder name it: no warp of this device, over a link. -/
def peerParty (r : RemoteAccess) : Party :=
  { team := none, isEngine := true, code := 12, serial := 0, cause := r.cause, parent := 0 }

/-- Bytes that an access touches. -/
def peerSize (r : RemoteAccess) : Nat :=
  match r.kind with
  | .write bs => bs.length
  | .reduce _ _ bs => bs.length
  | .read => r.len

/-- What the watch filter counts it as. -/
def peerWatch : RemoteKind → Nat
  | .read => 0
  | .write _ => 1
  | .reduce _ _ _ => 2

/-- The fault of a peer's access is recorded here (R207): a record of the form of Table 15-2, in the stele
only, because no context of this device is concerned; ADDR is an IA. -/
def State.recordRemote (s : State) (r : RemoteAccess) (code : Nat) : State :=
  let hub := Config.lineHub false (r.ia / 512) % 4
  let f : FaultInfo := { code := code, pc := 0, cause := r.cause, addr := BitVec.ofNat 64 r.ia, aux := 1, late := true }
  let ws := faultWords (s.timeAt (hubEmitter hub 8)) 0 0 hub f {}
  (s.emit (hubSrc hub 8) 0x001 0 r.cause 0 (ws.take 4)).emit (hubSrc hub 8) 0x001 1 r.cause 0 (ws.drop 4)

/-- The answer to a peer: data and a fault code, 0 for none; a fault is recorded here too. -/
def State.replyRemote (s : State) (r : RemoteAccess) (data : List Byte) (code : Nat) : State :=
  (if code = 0 then s else s.recordRemote r code).output (.remoteReply r.dev data code)

/-- Every sector of an access brought into L2: none, or the code of the walk that failed. -/
def State.remoteWalk (s : State) (r : RemoteAccess) : Option Nat × State :=
  (sectorsOf r.ia (peerSize r)).foldl (fun acc x =>
    match acc.1 with
    | some c => (some c, acc.2)
    | none =>
      match acc.2.l2Bring false x.1 with
      | (.ok _, s1) => (none, s1)
      | (.error (.poisoned _), s1) => (some 0x19, s1)
      | (.error _, s1) => (some 0x18, s1)) (none, s)

/-- The tag check of every sector's part with the access's pointer tag (R259). -/
def State.remoteTags (s : State) (r : RemoteAccess) : TagCheck × State :=
  (sectorsOf r.ia (peerSize r)).foldl (fun acc x =>
    let a : LaneAccess := { lane := 255, va := atBit r.tag.toNat 56, ia := 128 * x.1 + x.2.1, tc := r.tc }
    let (c, s1) := acc.2.tagCheck a x.2.2
    (if acc.1 == .same then c else acc.1, s1)) (.same, s)

/-- The bytes of an access and whether one comes from a poisoned sector. -/
def State.remoteBytes (s : State) (r : RemoteAccess) : List Byte × Option Nat × State :=
  match s.l2Read false r.ia (peerSize r) with
  | (.bytes bs p, s1) => (bs, p, s1)
  | (.failed _ _, s1) => (List.replicate (peerSize r) 0, none, s1)

/-- The frame of a poisoned sector that was consumed here is retired (R346). -/
def State.retireAt (s : State) (ia : Nat) : State :=
  (s.poisonAt (ia / 128)).foldl State.retireFrame s

/-- The access performed, with what its tag check found. -/
def State.performPeer (s : State) (r : RemoteAccess) (tags : TagCheck) : State :=
  match r.kind with
  | .read =>
    if tags != .same then s.replyRemote r [] (tags.code 0x13)
    else
      let (bs, p, s1) := s.remoteBytes r
      s1.replyRemote r bs (if p.isSome then 0x19 else 0)
  | .write bs => ((s.l2Put false r.ia bs).2).replyRemote r [] (tags.code 0x14)
  | .reduce op ty bs =>
    let (old, p, s1) := s.remoteBytes r
    match p with
    | some a => (s1.retireAt a).replyRemote r [] 0x19
    | none =>
      let a : LaneAccess := { lane := 0, va := 0, ia := r.ia, data := wordOf bs }
      let new := natBytes (atomFold ty op (leNat old) [a]) bs.length
      ((s1.l2Put false r.ia new).2).replyRemote r [] (tags.code 0x14)

/-- REMOTE_ACCESS_SERVE (R207): a peer's access is served at this device's L2: translated, tag-checked,
performed and answered. A store or reduction that mismatches is performed (R206); a fault goes back to
the peer. -/
def execRemoteAccessServe (r : RemoteAccess) (s : State) : Host.Outcome State Fault Refusal :=
  match s.remoteWalk r with
  | (some c, s1) => .next (s1.replyRemote r [] c)
  | (none, s1) =>
    let (tags, s2) := s1.remoteTags r
    .next (((s2.performPeer r tags).watchL2 (peerParty r) (peerWatch r.kind) r.ia (peerSize r) none).2)

/-! ## Links (R303, R366) -/

/-- The hub that carries a Ralbex port (R5). -/
def hubOfPort (p : Nat) : Nat := if p < 5 then 0 else if p < 10 then 1 else if p < 14 then 2 else 3

/-- The number by which the PCIe link is counted, and that its records carry. -/
def pciePort : Nat := 18
def portCode (p : Nat) : Nat := if p = pciePort then 0xFF else p

/-- One more in a list of counts by port. -/
def countPort (l : List (Nat × Nat)) (p : Nat) : List (Nat × Nat) :=
  putBy (·.1) (p, ((l.find? (·.1 == p)).map (·.2)).getD 0 + 1) l

/-- The count of a port. -/
def portCount (l : List (Nat × Nat)) (p : Nat) : Nat := ((l.find? (·.1 == p)).map (·.2)).getD 0

/-- A link error: the record of its kind and the PF's vector 65 (R366). -/
def State.linkError (s : State) (kind port count : Nat) : State :=
  let hub := if port = pciePort then 0 else hubOfPort port
  (s.emit (hubSrc hub 12) kind 0 0 0 [atBit (portCode port) 0, BitVec.ofNat 64 count]).output (.msix 0 65)

/-- What an intact flit carries reaches its engine. -/
def State.deliver (s : State) : LinkMsg → Host.Outcome State Fault Refusal
  | .access r => execRemoteAccessServe r s
  | .sendRequest m => execRelaySendRequest m s
  | .credit m => execRendezvousCredit m s
  | .payload m data => execRelayPayload m data s
  | .ack m => execRelayAck m s
  | .cbar tag rank chan => execCbarArrival tag rank chan s

/-- RALBEX_FLIT (R303): a flit that fails its check is replayed by the link, recorded and counted toward
the risk estimate; an intact one is acted on. -/
def execRalbexFlit (port : Nat) (intact : Bool) (m : LinkMsg) (s : State) : Host.Outcome State Fault Refusal :=
  if intact then s.deliver m
  else
    let l := countPort s.mgmt.replays port
    let s1 := { s with mgmt := { s.mgmt with replays := l } }
    .next (((s1.riskEvent .replay).linkError 0x027 port (portCount l port)).output (.replayRequest port))

/-- LINK_RETRAIN (R303): a link retrains and agrees new keys; recorded and counted. None is the PCIe
link. -/
def execLinkRetrain (port : Option Nat) (s : State) : Host.Outcome State Fault Refusal :=
  let p := port.getD pciePort
  let l := countPort s.mgmt.retrains p
  let s1 := { s with mgmt := { s.mgmt with retrains := l } }
  .next ((s1.riskEvent .retrain).linkError 0x028 p (portCount l p))

end Sys2Proof.Machine
end

