-- ==== Sys2Proof/Machine/Contexts.lean ====
section
/-!
DEFINITION. What the driver writes about contexts and memory: context control and core sets (R268), the
context reset (R334), translation commands (R250), range registers (R369), the function binding (R367),
and host accesses through window B (R368).
-/

namespace Sys2Proof.Machine

/-! ## Context control and core set (R268) -/

/-- Contexts of the device (R10). -/
def contexts : Nat := 64

/-- A team of the context is resident. -/
def State.hasResident (s : State) (ctx : Nat) : Bool := s.teams.any fun t => t.ctx == ctx && t.resident

/-- The fields of the context control register (Table 13-1); reserved bits read 0 (R4). -/
def controlMask : Word := 0x000000FFFF00009F#64

/-- CONTEXT_CONTROL_WRITE (R268): ignored while the context has a resident team. -/
def execContextControlWrite (ctx : Nat) (v : Word) (s : State) : Host.Outcome State Fault Refusal :=
  if ctx ≥ contexts || s.hasResident ctx then .next s
  else .next (s.modCtx ctx fun c => { c with control := v &&& controlMask })

/-- Word j of the core set replaced. -/
def putCoreSet (x : BitVec 576) (j : Nat) (v : Word) : BitVec 576 :=
  (x &&& ~~~((BitVec.allOnes 64).setWidth 576 <<< (64 * j))) ||| (v.setWidth 576 <<< (64 * j))

/-- CORE_SET_WRITE (R268): ignored while the context has a resident team. -/
def execCoreSetWrite (ctx j : Nat) (v : Word) (s : State) : Host.Outcome State Fault Refusal :=
  if ctx ≥ contexts || j ≥ 9 || s.hasResident ctx then .next s
  else .next (s.modCtx ctx fun c => { c with coreSet := putCoreSet c.coreSet j v })

/-! ## Context reset (R334) -/

/-- The reset begins: the queues stop and lose EN, the work is discarded without records. -/
def State.beginReset (s : State) (ctx : Nat) : State :=
  (s.dropWork ctx).modCtx ctx fun c =>
    { c with resetting := true
             queues := c.queues.map fun q => { q with ctl := q.ctl &&& ~~~(0x100#64), held := none, passed := [] } }

/-- CTXRESET (R334); held during an update of the foundry firmware (R372). -/
def ctxReset (ctx : Nat) (s : State) : Host.Outcome State Fault Refusal :=
  .next (if ctx < contexts then s.beginReset ctx else s)
def execCtxReset (ctx : Nat) (s : State) : Host.Outcome State Fault Refusal := s.command (.reset ctx) (ctxReset ctx s)

/-- Requests of a context that have neither completed nor been dropped. -/
def State.requestsOpen (s : State) (ctx : Nat) : Bool :=
  s.ops.any (·.key.ctx == ctx) || s.cores.any fun c => c.wbs.any (·.owner.ctx == ctx)

/-- What step 4 clears. -/
def Context.cleared (c : Context) : Context :=
  { c with resetting := false, lost := false, scopes := [], firings := [], uses := List.replicate 16 0
           serials := [0, 0, 0, 0], lastTid := 0, fqWrite := 0, fqRead := 0, held := [] }

/-- CONTEXT_RESET_COMPLETE (R334): every request has completed or been dropped, and the context's state is
cleared; range, save-area, context-control, core-set and fault-queue base registers keep their values. -/
def execContextResetComplete (ctx : Nat) (s : State) : Host.Outcome State Fault Refusal :=
  if !(s.ctx ctx).resetting || s.requestsOpen ctx then .refused (.eventNotPending "CONTEXT_RESET_COMPLETE")
  else .next (s.modCtx ctx Context.cleared)

/-! ## Translation commands (R250) -/

/-- Level of the span of a command: the page size it covers; none is all IA. -/
def spanBytes (v : Word) : Option Nat :=
  match fieldOf v 57 56 with
  | 0 => some (2 ^ 16)
  | 1 => some (2 ^ 21)
  | 2 => some (2 ^ 32)
  | _ => none

/-- The reserved bits, and the alignment of PAGE to SPAN. -/
def translationBad (v : Word) : Bool :=
  fieldOf v 61 58 != 0 || fieldOf v 55 36 != 0 ||
    (match spanBytes v with | some n => fieldOf v 35 0 * 65536 % n != 0 | none => false)

/-- Do bytes of IA meet the span? -/
def inSpan (v : Word) (a n : Nat) : Bool :=
  match spanBytes v with
  | some m => meets a n (fieldOf v 35 0 * 65536) m
  | none => true

/-- The effect of an accepted command: OP 1 writes back and invalidates the L2 lines of the span under the
entries still in place; cached entries of the span are dropped. -/
def State.runTranslation (s : State) (v : Word) : State :=
  let s1 := if fieldOf v 63 62 = 1 then
      (s.l2Lines.filter fun l => !l.1 && inSpan v (512 * l.2) 512).foldl State.l2Evict s
    else s
  { s1 with tlb := s1.tlb.filter fun t =>
      let n := if t.leaf then pageSize t.level else entrySpan t.level
      !inSpan v (t.page * n) n }

/-- The command in progress completes; STATUS stays 0 for one that is held behind it. -/
def State.endTranslation (s : State) : State :=
  match s.mgmt.transBusy with
  | none => s
  | some v =>
    let s1 := s.runTranslation v
    { s1 with mgmt := { s1.mgmt with transBusy := none, transStatus := !s.mgmt.heldCommands.any HostCommand.isTranslation } }

/-- Writing a translation command: rejected, or accepted; one in progress completes first. -/
def State.translation (s : State) (v : Word) : State :=
  let s1 := s.endTranslation
  if fieldOf v 63 62 ≥ 2 || translationBad v then
    { s1 with mgmt := { s1.mgmt with transStatus := true, transRej := true } }
  else { s1 with mgmt := { s1.mgmt with transBusy := some v, transStatus := false, transRej := false } }

/-- TRANSLATION_DROP (R250): a command with OP 0. -/
def execTranslationDrop (v : Word) (s : State) : Host.Outcome State Fault Refusal :=
  if fieldOf v 63 62 = 0 then s.command (.translation v) (.next (s.translation v))
  else .refused (.eventNotPending "TRANSLATION_DROP")

/-- TRANSLATION_WRITEBACK_INVALIDATE (R250): a command with OP 1. -/
def execTranslationWritebackInvalidate (v : Word) (s : State) : Host.Outcome State Fault Refusal :=
  if fieldOf v 63 62 = 1 then s.command (.translation v) (.next (s.translation v))
  else .refused (.eventNotPending "TRANSLATION_WRITEBACK_INVALIDATE")

/-- TRANSLATION_OP_RESERVED (R250): a command with OP 2 or 3 is rejected. -/
def execTranslationOpReserved (v : Word) (s : State) : Host.Outcome State Fault Refusal :=
  if fieldOf v 63 62 ≥ 2 then s.command (.translation v) (.next (s.translation v))
  else .refused (.eventNotPending "TRANSLATION_OP_RESERVED")

/-- TRANSLATION_COMMAND_COMPLETE (R250). -/
def execTranslationCommandComplete (s : State) : Host.Outcome State Fault Refusal :=
  if s.mgmt.transBusy.isSome then .next s.endTranslation else .refused (.eventNotPending "TRANSLATION_COMMAND_COMPLETE")

/-! ## Range registers (R369) -/

/-- The 256 bits of four words, without USE (Table 12-1). Reserved fields are held as written: set, they keep
the teams of the context from starting (R246); they read 0 (R4). -/
def rangeWords (w0 w1 w2 w3 : Word) : BitVec 256 := (w3 &&& 0x0000FFFFFFFFFFFF#64) ++ w2 ++ w1 ++ w0

/-- RANGE_REGISTER_COMMIT (R369): a write of word 1 commits the staged words with it. -/
def execRangeRegisterCommit (ctx k : Nat) (v : Word) (s : State) : Host.Outcome State Fault Refusal :=
  if ctx ≥ contexts || k ≥ 16 then .next s
  else .next (s.modCtx ctx fun c =>
    let st := c.staged.getD k [0, 0, 0]
    { c with ranges := c.ranges.set k (rangeWords (st.getD 0 0) v (st.getD 1 0) (st.getD 2 0)) })

/-- Staging word 0, 2 or 3 of a range register (R369). -/
def State.stageWord (s : State) (ctx k i : Nat) (v : Word) : State :=
  let j := if i = 0 then 0 else i - 1
  s.modCtx ctx fun c => { c with staged := c.staged.set k ((c.staged.getD k [0, 0, 0]).set j v) }

/-! ## The function binding (R367) -/

/-- IDLE of CTXSTAT: no live, halted or saved team (Table 18-8). -/
def State.idle (s : State) (ctx : Nat) : Bool := !s.teams.any fun t => t.ctx == ctx && t.phase != .retired

/-- The context is idle after a reset: nothing has been decoded or started since. -/
def State.idleAfterReset (s : State) (ctx : Nat) : Bool :=
  let c := s.ctx ctx
  s.idle ctx && !c.resetting && !c.lost && c.serials.all (· == 0) &&
    !s.packets.any (·.ctx == ctx) && !s.launches.any (·.ctx == ctx)

/-- FUNCTION_BINDING_WRITE (R367): byte b of word j binds context 8j + b, if that context may be rebound;
bit 6 is reserved. -/
def execFunctionBindingWrite (j : Nat) (v : Word) (s : State) : Host.Outcome State Fault Refusal :=
  if j ≥ 8 then .next s
  else
    let bind (l : List (BitVec 8)) (b : Nat) : List (BitVec 8) :=
      if s.idleAfterReset (8 * j + b) then l.set (8 * j + b) (v.extractLsb' (8 * b) 8 &&& 0xBF#8) else l
    .next { s with mgmt := { s.mgmt with binding := (List.range 8).foldl bind s.mgmt.binding } }

/-! ## Window B (R368) -/

/-- WBBASE and WBLIMIT of a function. -/
def Mgmt.wbBaseOf (m : Mgmt) (fn : Nat) : Word := ((m.wbBase.find? (·.1 == fn)).map (·.2)).getD 0
def Mgmt.wbLimitOf (m : Mgmt) (fn : Nat) : Word := ((m.wbLimit.find? (·.1 == fn)).map (·.2)).getD 0

/-- Unsupported Request: nothing changes. -/
def State.unsupported (s : State) : State := s.output (.windowB false [])

/-- The host as the watch filter names it. -/
def hostParty : Party := { team := none, isEngine := true, code := 12, serial := 0, cause := 0, parent := 0 }

/-- The function logs an Unsupported Request error under AER. -/
def State.logUnsupported (s : State) (fn : Nat) : State := s.output (.aerUnsupported fn)

/-- A host read, and whether it reached memory: Unsupported Request, logged under AER, where a walk fails;
poisoned data is a free value. -/
def State.hostRead (s : State) (fn : Nat) (phys : Bool) (a n : Nat) : Bool × State :=
  match s.l2Read phys a n with
  | (.failed _ _, s1) => (false, s1.unsupported.logUnsupported fn)
  | (.bytes bs none, s1) => (true, s1.output (.windowB true bs))
  | (.bytes bs (some _), s1) =>
    let (d, s2) := s1.draw
    (true, s2.output (.windowB true (natBytes d bs.length)))

/-- A host write, and whether any of it reached memory: a sector whose walk fails is discarded, and the
error logged under AER. -/
def State.hostWrite (s : State) (fn : Nat) (phys : Bool) (a : Nat) (bs : List Byte) : Bool × State :=
  let r := (sectorsOf a bs.length).foldl (fun (r : Bool × Bool × State) x =>
    let part := (bs.drop (128 * x.1 + x.2.1 - a)).take x.2.2
    match r.2.2.l2Write phys x.1 (sectorImage x.2.1 part) (byteMask x.2.1 x.2.2) with
    | (none, s1) => (true, r.2.1, s1)
    | (some _, s1) => (r.1, true, s1)) (false, false, s)
  (r.1, if r.2.1 then r.2.2.logUnsupported fn else r.2.2)

/-- HOST_WINDOW_B_ACCESS (R368, R242): performed at L2, by IA or, through the PF with PHYS, by PA. -/
def execHostWindowBAccess (a : HostAccess) (s : State) : Host.Outcome State Fault Refusal :=
  let base := s.mgmt.wbBaseOf a.fn
  let phys := a.fn == 0 && base.getLsbD 63
  let n := match a.write with | some bs => bs.length | none => a.len
  let at_ := fieldOf base 51 0 / 65536 * 65536 + a.off
  if a.off + n > (s.mgmt.wbLimitOf a.fn).toNat || at_ + n > (if phys then Config.memTop else Config.iaTop) then
    .next s.unsupported
  else
    let (reached, s1) := match a.write with
      | some bs => s.hostWrite a.fn phys at_ bs
      | none => s.hostRead a.fn phys at_ n
    if phys || !reached then .next s1
    else .next (s1.watchL2 hostParty (if a.write.isSome then 1 else 0) at_ n none).2

end Sys2Proof.Machine
end

