-- ==== Sys2Proof/Machine/Cordic.lean ====
section
/-!
DEFINITION. The CORDIC functions (R138, R139): the reference procedure in signed fixed point with 62
fraction bits, its constants, the argument reductions and the special cases of Table 7-6.
-/

namespace Sys2Proof.Machine

/-! ## Fixed point -/

/-- Fraction bits of the procedure. -/
def cf : Nat := 62

/-- a / b rounded to the nearest integer, ties to even; b above 0. -/
def rneDiv (a : Int) (b : Nat) : Int :=
  let q := a / (b : Int)
  let r := a % (b : Int)
  if (b : Int) < 2 * r ∨ (2 * r = b ∧ q % 2 = 1) then q + 1 else q

/-- num * 2^e rounded to an integer, ties to even. -/
def rneScale (num : Int) (e : Int) : Int :=
  if 0 ≤ e then num * 2 ^ e.toNat else rneDiv num (2 ^ (-e).toNat)

/-- A product and a quotient of fixed-point numbers. -/
def fxMul (a b : Int) : Int := rneDiv (a * b) (2 ^ cf)
def fxDiv (a b : Int) : Int := if b < 0 then rneDiv (-a * 2 ^ cf) b.natAbs else rneDiv (a * 2 ^ cf) b.natAbs

/-- The fixed-point 1. -/
def fxOne : Int := 2 ^ cf

/-! ## Constants: series with guard bits, rounded to 62 fraction bits -/

/-- Bits of the constants before rounding. -/
def guardBits : Nat := 200

/-- The terms 1 / ((2 k + 1) d^(2 k + 1)) summed, alternating for atan, in units of 2^-p. `n`: terms
left, `k`: the next, `pw`: 2^p / d^(2 k + 1). -/
def arcSeries (alt : Bool) (d2 : Nat) : Nat → Nat → Nat → Int
  | 0, _, _ => 0
  | n + 1, k, pw =>
    let t : Int := pw / (2 * k + 1)
    (if alt && k % 2 == 1 then -t else t) + arcSeries alt d2 n (k + 1) (pw / d2)

/-- atan(1/d) and atanh(1/d) in units of 2^-p, for d at least 2. -/
def arcRecip (alt : Bool) (p d : Nat) : Int := arcSeries alt (d * d) (p / 2 + 2) 0 (2 ^ p / d)

/-- pi in units of 2^-p (Machin's formula). -/
def piBits (p : Nat) : Int := 16 * arcRecip true p 5 - 4 * arcRecip true p 239

/-- atc(i) and ath(i). -/
def atc (i : Nat) : Int :=
  if i = 0 then rneScale (piBits guardBits) ((cf : Int) - guardBits - 2)
  else rneScale (arcRecip true guardBits (2 ^ i)) ((cf : Int) - guardBits)
def ath (i : Nat) : Int := rneScale (arcRecip false guardBits (2 ^ i)) ((cf : Int) - guardBits)

/-- ln 2 = 2 atanh(1/3), and pi / 2. -/
def fxLn2 : Int := rneScale (2 * arcRecip false guardBits 3) ((cf : Int) - guardBits)
def fxHalfPi : Int := rneScale (piBits guardBits) ((cf : Int) - guardBits - 1)

/-- The integer square root, bit by bit. -/
def isqrt (n : Nat) : Nat → Nat → Nat
  | 0, r => r
  | k + 1, r => if (r + 2 ^ k) * (r + 2 ^ k) ≤ n then isqrt n k (r + 2 ^ k) else isqrt n k r

/-- The step sequences: circular from 0; hyperbolic from 1, with 4 and 13 twice (R139). -/
def circSteps (n : Nat) : List Nat := List.range n
def hypSteps (n : Nat) : List Nat :=
  (((List.range 4).map (· + 1)) ++ ((List.range 10).map (· + 4)) ++ ((List.range 27).map (· + 13))).take n

/-- The reciprocal of the product of the step gains: sqrt(1 + 4^-i), or sqrt(1 - 4^-i). -/
def gainRecip (hyp : Bool) (steps : List Nat) : Int :=
  -- the product of the squares is num / den
  let num := steps.foldl (fun a i => a * (if hyp then 4 ^ i - 1 else 4 ^ i + 1)) 1
  let den := steps.foldl (fun a i => a * 4 ^ i) 1
  let x := den * 2 ^ (2 * guardBits) / num
  rneScale (isqrt x (guardBits + 2) 0) ((cf : Int) - guardBits)

def gainC (n : Nat) : Int := gainRecip false (circSteps n)
def gainH (n : Nat) : Int := gainRecip true (hypSteps n)

/-! ## The iteration -/

/-- The three registers. -/
structure Xyz where
  x : Int
  y : Int
  z : Int

/-- One step: `hyp` chooses the sign of x's update and the angle, `vec` the direction. -/
def cordicStep (hyp vec : Bool) (v : Xyz) (i : Nat) : Xyz :=
  let dir : Int := if vec then (if v.y < 0 then 1 else -1) else (if 0 ≤ v.z then 1 else -1)
  let dx := dir * (v.y / 2 ^ i)
  { x := if hyp then v.x + dx else v.x - dx
    y := v.y + dir * (v.x / 2 ^ i)
    z := v.z - dir * (if hyp then ath i else atc i) }

/-- The n steps. -/
def cordicRun (hyp vec : Bool) (n : Nat) (v : Xyz) : Xyz :=
  (if hyp then hypSteps n else circSteps n).foldl (cordicStep hyp vec) v

/-! ## The functions before rounding

Each takes a finite non-zero |x| = m * 2^e with its sign and gives the value as an exact dyadic number;
`none` stands for a case of the special column. -/

/-- A fixed-point number times 2^k as a value. -/
def fxVal (v : Int) (k : Int) : FpVal := .num (decide (v < 0)) v.natAbs (k - cf)

/-- m * 2^e as fixed point. -/
def toFx (m : Nat) (e : Int) : Int := rneScale m (e + cf)

/-- Bits of pi for the reduction of any finite argument. -/
def piWide : Nat := 1400

/-- q, the integer nearest x * 2 / pi, and r = x - q * pi / 2 rounded to fixed point (Table 7-6), for x
= m * 2^e. -/
def reduceTrig (m : Nat) (e : Int) : Int × Int :=
  -- x and pi / 2 in units of 2^-(piWide + 1)
  let x : Int := rneScale m (e + piWide + 1)
  let h := piBits piWide
  let q := rneDiv x h.natAbs
  (q, rneScale (x - q * h) ((cf : Int) - piWide - 1))

/-- sin x or cos x. -/
def cordicTrig (cos : Bool) (n : Nat) (neg : Bool) (m : Nat) (e : Int) : FpVal :=
  let (q, r) := reduceTrig m e
  let q := if neg then -q else q
  let r := if neg then -r else r
  let v := cordicRun false false n ⟨gainC n, 0, r⟩
  let k := (q % 4).toNat
  let y := match k, cos with
    | 0, false => v.y | 0, true => v.x
    | 1, false => v.x | 1, true => -v.y
    | 2, false => -v.y | 2, true => -v.x
    | _, false => -v.x | _, true => v.y
  fxVal y 0

/-- atan x. -/
def cordicAtan (n : Nat) (neg : Bool) (m : Nat) (e : Int) : FpVal :=
  let big := if 0 ≤ e then decide (1 < m * 2 ^ e.toNat) else decide (2 ^ (-e).toNat < m)
  let t := if big then (if 0 ≤ e then rneDiv (2 ^ cf) (m * 2 ^ e.toNat) else rneDiv (2 ^ (cf + (-e).toNat)) m)
    else toFx m e
  let z := (cordicRun false true n ⟨fxOne, t, 0⟩).z
  let a := if big then fxHalfPi - z else z
  match fxVal a 0 with
  | .num s u k => .num (s != neg) u k
  | v => v

/-- 2^f * 2^i from the fraction f in fixed point: the sum x + y, and the scaling apart. -/
def cordicExp (n : Nat) (f : Int) : Int :=
  let v := cordicRun true false n ⟨gainH n, 0, fxMul f fxLn2⟩
  v.x + v.y

/-- 2^x for an x that is no integer. -/
def cordicExp2 (n : Nat) (neg : Bool) (m : Nat) (e : Int) : FpVal :=
  -- no integer: e < 0
  let d : Nat := 2 ^ (-e).toNat
  let x : Int := if neg then -(m : Int) else m
  let i := x / (d : Int)
  let f := rneDiv ((x - i * d) * 2 ^ cf) d
  fxVal (cordicExp n f) (boundExp i)

/-- log2 x for x > 0. -/
def cordicLog2 (n : Nat) (m : Nat) (e : Int) : FpVal :=
  let lg := Nat.log2 m
  let k := (lg : Int) + e
  let u := toFx m (-(lg : Int))
  let z := (cordicRun true true n ⟨u + fxOne, u - fxOne, 0⟩).z
  fxVal (k * 2 ^ cf + fxDiv (2 * z) fxLn2) 0

/-- tanh x. For |x| of at least 1, u is kept exact before (1 - u) / (1 + u) is formed (DESIGN CHOICE,
assumption 109). -/
def cordicTanh (n : Nat) (neg : Bool) (m : Nat) (e : Int) : FpVal :=
  let lg := (Nat.log2 m : Int) + e
  let v : Int :=
    if lg < 0 then
      let w := cordicRun true false n ⟨gainH n, 0, toFx m e⟩
      fxDiv w.y w.x
    else if 12 ≤ lg then fxOne
    else
      -- u = 2^v with v = -2 |x| / ln 2
      let a := fxDiv (-2 * rneScale m (e + cf)) fxLn2
      let i := a / 2 ^ cf
      let f := a % 2 ^ cf
      let s := cordicExp n f
      let one : Int := 2 ^ (cf + (-i).toNat)
      rneDiv ((one - s) * 2 ^ cf) (one + s).natAbs
  match fxVal v 0 with
  | .num s u k => .num (s != neg) u k
  | v => v

/-- sqrt x or 1 / sqrt x for x > 0: x = m' * 4^k with 1/2 <= m' < 2. The rounding of the quotient of `crsq` to 62
fraction bits falls on 1 / s, and the scaling by 2^(-k) is exact (DESIGN CHOICE, assumption 119). -/
def cordicRoot (recip : Bool) (n : Nat) (m : Nat) (e : Int) : FpVal :=
  let lg := (Nat.log2 m : Int) + e
  let top := if lg % 2 = 0 then lg else lg + 1
  let k := top / 2
  let u := toFx m (e - top)
  let q := fxOne / 4
  let s := fxMul (cordicRun true true n ⟨u + q, u - q, 0⟩).x (gainH n)
  if recip then fxVal (fxDiv fxOne s) (-k) else fxVal s k

/-! ## Rounding and special cases (Table 7-6) -/

/-- A result that does not come from the exact column: rounded once, and inexact (R138). Where the value before
rounding is itself a representable tiny number, NX is raised without UF (DESIGN CHOICE, assumption 108). -/
def inexactRes (f : FpFmt) (rnd : Rnd) (v : FpVal) : FpRes :=
  let r := f.round rnd false v
  ⟨r.code, r.fl ||| flNX⟩

/-- An exact result. -/
def exactRes (f : FpFmt) (rnd : Rnd) (v : FpVal) : FpRes := f.round rnd false v

/-- Is m * 2^e an integer; is m a power of two? -/
def isInteger (m : Nat) (e : Int) : Bool := decide (0 ≤ e) || m % 2 ^ (-e).toNat == 0
def isPow2 (m : Nat) : Bool := m == 2 ^ Nat.log2 m

/-- The integer m * 2^e, bounded beyond every exponent range. -/
def boundedInt (m : Nat) (e : Int) : Int :=
  if 13 ≤ (Nat.log2 m : Int) + e then 5000 else boundExp (if 0 ≤ e then (m : Int) * 2 ^ e.toNat else (m : Int) / 2 ^ (-e).toNat)

/-- A CORDIC instruction: `g` gives the result for each value that is no NaN. A NaN raises no NX (DESIGN CHOICE,
assumption 110). -/
def cordicOp (i : Instr) (o : Ops MK) (s : State) (g : FpFmt → Nat → FpVal → FpRes) :
    Host.Outcome State Fault Refusal :=
  runSeq i s fun e =>
    let f := fpOf o.mod.ty
    e.fpWrite i o.d o.nf o.mod.ty o.mod.pk [e.w.srcShape o.a] fun l k =>
      let a := e.elem o.mod.ty o.a l k
      let r : FpRes := match f.val a with
        | .nan _ => ⟨f.nan, 0⟩
        | v => g f o.mod.iter.toNat v
      r.reading f [a]

/-- The invalid result. -/
def invalidRes (f : FpFmt) : FpRes := ⟨f.nan, flIV⟩

def execCsin (o : Ops MK) (s : State) : Host.Outcome State Fault Refusal :=
  cordicOp (.csin o) o s fun f n v =>
    match v with
    | .num neg m e => if m = 0 then ⟨f.signBit neg, 0⟩ else inexactRes f o.mod.rnd (cordicTrig false n neg m e)
    | _ => invalidRes f

def execCcos (o : Ops MK) (s : State) : Host.Outcome State Fault Refusal :=
  cordicOp (.ccos o) o s fun f n v =>
    match v with
    | .num neg m e =>
      if m = 0 then exactRes f o.mod.rnd (.num false 1 0) else inexactRes f o.mod.rnd (cordicTrig true n neg m e)
    | _ => invalidRes f

def execCatan (o : Ops MK) (s : State) : Host.Outcome State Fault Refusal :=
  cordicOp (.catan o) o s fun f n v =>
    match v with
    | .num neg m e => if m = 0 then ⟨f.signBit neg, 0⟩ else inexactRes f o.mod.rnd (cordicAtan n neg m e)
    | .inf neg => ⟨(f.round o.mod.rnd false (.num neg (piBits guardBits).natAbs (-(guardBits : Int) - 1))).code, 0⟩
    | .nan _ => invalidRes f

def execCexp2 (o : Ops MK) (s : State) : Host.Outcome State Fault Refusal :=
  cordicOp (.cexp2 o) o s fun f n v =>
    match v with
    | .num neg m e =>
      if isInteger m e then
        let i := if m = 0 then 0 else boundedInt m e
        exactRes f o.mod.rnd (.num false 1 (if neg then -i else i))
      else inexactRes f o.mod.rnd (cordicExp2 n neg m e)
    | .inf neg => ⟨if neg then 0 else f.inf false, 0⟩
    | .nan _ => invalidRes f

def execClog2 (o : Ops MK) (s : State) : Host.Outcome State Fault Refusal :=
  cordicOp (.clog2 o) o s fun f n v =>
    match v with
    | .num neg m e =>
      if m = 0 then ⟨f.inf true, flDZ⟩
      else if neg then invalidRes f
      else if isPow2 m then exactRes f o.mod.rnd (fpOfInt ((Nat.log2 m : Int) + e))
      else inexactRes f o.mod.rnd (cordicLog2 n m e)
    | .inf neg => if neg then invalidRes f else ⟨f.inf false, 0⟩
    | .nan _ => invalidRes f

def execCtanh (o : Ops MK) (s : State) : Host.Outcome State Fault Refusal :=
  cordicOp (.ctanh o) o s fun f n v =>
    match v with
    | .num neg m e => if m = 0 then ⟨f.signBit neg, 0⟩ else inexactRes f o.mod.rnd (cordicTanh n neg m e)
    | .inf neg => exactRes f o.mod.rnd (.num neg 1 0)
    | .nan _ => invalidRes f

/-- x = 4^k: its k. -/
def pow4 (m : Nat) (e : Int) : Option Int :=
  let lg := (Nat.log2 m : Int) + e
  if isPow2 m && lg % 2 == 0 then some (lg / 2) else none

def execCrsq (o : Ops MK) (s : State) : Host.Outcome State Fault Refusal :=
  cordicOp (.crsq o) o s fun f n v =>
    match v with
    | .num neg m e =>
      if m = 0 then ⟨f.inf neg, flDZ⟩
      else if neg then invalidRes f
      else match pow4 m e with
        | some k => exactRes f o.mod.rnd (.num false 1 (-k))
        | none => inexactRes f o.mod.rnd (cordicRoot true n m e)
    | .inf neg => if neg then invalidRes f else ⟨0, 0⟩
    | .nan _ => invalidRes f

def execCsqrt (o : Ops MK) (s : State) : Host.Outcome State Fault Refusal :=
  cordicOp (.csqrt o) o s fun f n v =>
    match v with
    | .num neg m e =>
      if m = 0 then ⟨f.signBit neg, 0⟩
      else if neg then invalidRes f
      else match pow4 m e with
        | some k => exactRes f o.mod.rnd (.num false 1 k)
        | none => inexactRes f o.mod.rnd (cordicRoot false n m e)
    | .inf neg => if neg then invalidRes f else ⟨f.inf false, 0⟩
    | .nan _ => invalidRes f

end Sys2Proof.Machine
end

