-- ==== Sys2Proof/Machine/CrossLane.lean ====
section
/-!
DEFINITION. The cross-lane instructions (R140 to R145) and `rng` (R146).
-/

namespace Sys2Proof.Machine

/-! ## Lanes outside the effective mask -/

/-- Does an indexed operand name a register past N in some lane of the warp? R102 checks only the
lanes of the effective mask. -/
def Env.strays (e : Env) (o : Operand) : Bool :=
  (List.range e.width).any fun l =>
    match e.w.regOf o l with | some r => decide (e.t.kernel.n ≤ r) | none => false

/-- The word of an operand in any lane of the warp; of a register that does not exist, a free value
(assumption 19). -/
def Env.anyLane (e : Env) (o : Operand) (l : Nat) : Word :=
  match e.w.regOf o l with
  | some r => if e.t.kernel.n ≤ r then BitVec.ofNat 64 (Config.freeNat (e.s.draws + l)) else e.lane o l
  | none => e.lane o l

/-- The free values of stray lanes have been drawn. -/
def Env.afterStrays (e : Env) (o : Operand) : Env :=
  if e.strays o then { e with s := { e.s with draws := e.s.draws + e.width } } else e

/-- The lanes of the effective mask for which a test holds. -/
def Env.where (e : Env) (f : Nat → Bool) : Mask :=
  e.lanes.foldl (fun m l => if f l then m ||| (1#64 <<< l) else m) 0

/-! ## shfl, bcast, vote, match (R141, R142) -/

/-- The source (lane, sub-element) of lane l, sub-element k, for index b (R141). -/
def shflSource (mode width cnt l k b : Nat) : Nat × Nat :=
  match mode with
  | 0 => (b % (width * cnt) / cnt, b % (width * cnt) % cnt)
  | 1 => (if l < b then l else l - b, k)
  | 2 => (if width ≤ l + b then l else l + b, k)
  | _ => (l ^^^ (b % width), k)

def execShfl (o : Ops MA) (s : State) : Host.Outcome State Fault Refusal :=
  runSeq (.shfl o) s fun e =>
    let cnt := pkCount o.mod.pk
    let src (l k : Nat) : Nat × Nat := shflSource o.mod.sub.toNat e.width cnt l k (e.elemB o l k)
    let r := e.elemwise o.mod.ty o.mod.pk [e.w.srcShape o.a, e.w.srcShapeB o] none fun l k =>
      elemOf (e.anyLane o.a (src l k).1) o.mod.ty.width (src l k).2
    let from? (p : Operand → Nat → Bool) (l : Nat) : Bool := (List.range cnt).any fun k => p o.a (src l k).1
    (e.afterStrays o.a).put (.shfl o) o.d
      { r with poison := e.where (from? e.w.poisonAt), recon := e.where (from? e.w.reconAt) }

def execBcast (o : Ops MA) (s : State) : Host.Outcome State Fault Refusal :=
  runSeq (.bcast o) s fun e =>
    let m := (e.laneB o 0).toNat % e.width
    let r := e.elemwise o.mod.ty o.mod.pk [] none fun _ k => elemOf (e.anyLane o.a m) o.mod.ty.width k
    (e.afterStrays o.a).put (.bcast o) o.d
      { r with poison := e.where fun _ => e.w.poisonAt o.a m, recon := e.where fun _ => e.w.reconAt o.a m }

/-- The value of `vote` for the mask q of an effective mask m (R142). -/
def voteValue (op : Nat) (m q : Mask) : Word :=
  match op with
  | 0 => q
  | 1 => BitVec.ofNat 64 (b2n (q != 0))
  | 2 => BitVec.ofNat 64 (b2n (q == m))
  | _ => BitVec.ofNat 64 (popElem 64 q.toNat)

def execVote (o : Ops MA) (s : State) : Host.Outcome State Fault Refusal :=
  runSeq (.vote o) s fun e =>
    .next (e.setS o.d (voteValue (o.mod.sub.toNat % 4) e.m (e.m &&& e.pred o.a (o.mod.sub.getLsbD 4))))

def execMatchX (o : Ops MA) (s : State) : Host.Outcome State Fault Refusal :=
  runSeq (.matchX o) s fun e =>
    e.put (.matchX o) o.d (e.result [e.w.srcShape o.a] none fun l =>
      e.where fun m => e.elem o.mod.ty o.a m 0 == e.elem o.mod.ty o.a l 0)

/-! ## Reductions and prefixes (R143, R144) -/

/-- The operation of `redx` and `scanx` on integer patterns; sums are kept exact for the clamp. -/
def foldInt (t : Typ) (op : Nat) (x y : Int) : Int :=
  match op with
  | 0 => x + y
  | 1 => if y < x then y else x
  | 2 => if x < y then y else x
  | 3 => readInt t (wrapInt t.width x &&& wrapInt t.width y)
  | 4 => readInt t (wrapInt t.width x ||| wrapInt t.width y)
  | _ => readInt t (wrapInt t.width x ^^^ wrapInt t.width y)

/-- The operation on floating-point codes. -/
def foldFp (f : FpFmt) (rnd : Rnd) (op : Nat) (x y : Nat) : FpRes :=
  match op with
  | 0 => f.add rnd x y
  | 1 => f.minMax false false x y
  | _ => f.minMax true false x y

/-- A value that stands without an operation: a NaN becomes canonical, IV when it signals; DN when it is
subnormal, as for every operand that is read (R112). -/
def loneFp (f : FpFmt) (x : Nat) : FpRes :=
  match f.val x with
  | .nan sig => ⟨f.nan, flIf sig flIV⟩
  | _ => ⟨x, f.readFl x⟩

/-- The tree of R143 over lane positions lo to lo + 2^n - 1; none where no lane is in the mask. -/
def treeFold {α : Type} (leaf : Nat → Option α) (op : α → α → α) : Nat → Nat → Option α
  | 0, lo => leaf lo
  | n + 1, lo =>
    match treeFold leaf op n lo, treeFold leaf op n (lo + 2 ^ n) with
    | some x, some y => some (op x y)
    | some x, none => some x
    | none, y => y

/-- One sub-element position reduced (R143). -/
def Env.reduce (e : Env) (o : Ops MA) (k : Nat) : FpRes :=
  let op := (o.mod.sub.setWidth 3).toNat
  let t := o.mod.ty
  let leaf {α : Type} (g : Nat → α) (l : Nat) : Option α := if e.m.has l then some (g (e.elem t o.a l k)) else none
  if t.isFlt then
    let f := fpOf t
    match e.lanes with
    | [l] => loneFp f (e.elem t o.a l k)
    | _ =>
      (treeFold (leaf fun x => (⟨x, 0⟩ : FpRes)) (fun x y =>
        let r := foldFp f o.mod.rnd op x.code y.code
        ⟨r.code, r.fl ||| x.fl ||| y.fl⟩) (Nat.log2 e.width) 0).getD ⟨0, 0⟩
  else
    ⟨narrowInt t o.mod.sat ((treeFold (leaf (readInt t)) (foldInt t op) (Nat.log2 e.width) 0).getD 0), 0⟩

def execRedx (o : Ops MA) (s : State) : Host.Outcome State Fault Refusal :=
  runSeq (.redx o) s fun e =>
    let r := (List.range (pkCount o.mod.pk)).map fun k => e.reduce o k
    e.fpWrite (.redx o) o.d o.nf o.mod.ty o.mod.pk [] fun _ k => r.getD k ⟨0, 0⟩

/-- The prefixes of integer values, exact for sums. -/
def intPrefixes (t : Typ) (op : Nat) : Option Int → List Nat → List Int
  | _, [] => []
  | acc, x :: xs =>
    let v := match acc with | some a => foldInt t op a (readInt t x) | none => readInt t x
    v :: intPrefixes t op (some v) xs

/-- The prefixes of floating-point values, each with the flags of the operation that combines it. -/
def fpPrefixes (f : FpFmt) (rnd : Rnd) (op : Nat) : Option Nat → List Nat → List FpRes
  | _, [] => []
  | acc, x :: xs =>
    let v := match acc with | some a => foldFp f rnd op a x | none => loneFp f x
    v :: fpPrefixes f rnd op (some v.code) xs

/-- The identity that the first lane receives with `.ex` (R144). -/
def scanIdentity (t : Typ) (op : Nat) : Nat :=
  if t.isFlt then
    match op with
    | 0 => 0
    | 1 => (fpOf t).inf false
    | _ => (fpOf t).inf true
  else
    match op with
    | 1 => wrapInt t.width (Typ.greatest t)
    | 2 => wrapInt t.width (Typ.least t)
    | 3 => 2 ^ t.width - 1
    | _ => 0

/-- The prefixes of one sub-element position over the effective lanes, in order: value and flags. The
flags stay in the lane whose value is combined, with `.ex` too. -/
def Env.prefixes (e : Env) (o : Ops MA) (k : Nat) : List FpRes :=
  let op := (o.mod.sub.setWidth 3).toNat
  let t := o.mod.ty
  let xs := e.lanes.map fun l => e.elem t o.a l k
  let incl := if t.isFlt then fpPrefixes (fpOf t) o.mod.rnd op none xs
    else (intPrefixes t op none xs).map fun v => (⟨narrowInt t o.mod.sat v, 0⟩ : FpRes)
  if o.mod.sub.getLsbD 3 then
    List.zipWith (fun c r => ⟨c, r.fl⟩) (scanIdentity t op :: incl.map (·.code)) incl
  else incl

/-- The result is general (R144). -/
def execScanx (o : Ops MA) (s : State) : Host.Outcome State Fault Refusal :=
  runSeq (.scanx o) s fun e =>
    let rows := (List.range (pkCount o.mod.pk)).map fun k => e.lanes.zip (e.prefixes o k)
    let at' (l k : Nat) : FpRes := (((rows.getD k []).find? (·.1 == l)).map (·.2)).getD ⟨0, 0⟩
    e.fpWrite (.scanx o) o.d o.nf o.mod.ty o.mod.pk [.g] at'

/-! ## perm and rng (R145, R146) -/

/-- Bytes chosen from the 16 bytes of a and the old destination. -/
def permBytes (a dold b : Word) : Word :=
  let src := bytes8 a ++ bytes8 dold
  wordOf ((List.range 8).map fun i => src.getD ((b.toNat >>> (4 * i)) % 16) 0)

def execPerm (o : Ops MA) (s : State) : Host.Outcome State Fault Refusal :=
  runSeq (.perm o) s fun e =>
    let r := e.result [e.w.srcShape o.a, e.w.srcShapeB o, e.w.srcShape o.d] none fun l =>
      permBytes (e.lane o.a l) (e.lane o.d l) (e.laneB o l)
    e.put (.perm o) o.d
      { r with poison := e.poisonOf o.a ||| e.poisonOf o.d, recon := e.reconOf o.a ||| e.reconOf o.d }

/-- One round of `rng`. -/
def rngRound (k x : Word) (i : Nat) : Word :=
  let x := x + k + BitVec.ofNat 64 i * 0x9E3779B97F4A7C15#64
  let x := x ^^^ (x >>> 29)
  let x := x * 0xBF58476D1CE4E5B9#64
  x ^^^ (x >>> 32)

/-- Key and counter to 64 bits (R146). -/
def rngWord (k x : Word) : Word := (List.range 6).foldl (rngRound k) x

def execRng (o : Ops MA) (s : State) : Host.Outcome State Fault Refusal :=
  runSeq (.rng o) s fun e =>
    e.put (.rng o) o.d (e.result [.g] none fun l => rngWord (e.lane o.a l) (e.laneB o l))

end Sys2Proof.Machine
end

