-- ==== Sys2Proof/Machine/Firmware.lean ====
section
/-!
DEFINITION. Firmware (R372): the live update of the foundry firmware with its roll-back, the commands
held meanwhile, and the selection of a slot for the next power-on.
-/

namespace Sys2Proof.Machine

/-- The slot in a list, false slot A and true slot B. -/
def slotOf (l : List FwSlot) (b : Bool) : FwSlot := l.getD (b2n b) ⟨0, 0, 0, 0, false, none⟩

/-- The running foundry image. -/
def Mgmt.running (m : Mgmt) : FwSlot := slotOf m.fwSlots m.fwActive

/-- The digest of the foundry image in a slot. -/
def Mgmt.fwDigest (m : Mgmt) (b : Bool) : List Byte := (slotOf m.fwSlots b).digest.getD (Config.shipped true b)

/-- The digests of measurement 3 so far (R370): the boot image's, then each extension. -/
def Mgmt.measuredNow (m : Mgmt) : List (List Byte) := if m.measured.isEmpty then [m.fwDigest m.fwActive] else m.measured

/-- Performing a held command. -/
def State.perform1 (s : State) : HostCommand → Host.Outcome State Fault Refusal
  | .halt k => dbgHalt k s
  | .resume k => dbgResume k s
  | .step k w => dbgStep k w s
  | .snap k => dbgSnap k s
  | .load k => dbgLoad k s
  | .discard k => dbgDiscard k s
  | .badDebug ctx v => dbgcmdUndefinedOp ctx v s
  | .reset ctx => ctxReset ctx s
  | .replayPage p => replayPage p s
  | .replayAll ctx => replayAll ctx s
  | .translation v => .next (s.translation v)

/-- Held commands performed in their order of arrival; one that has to wait (a halt without room for its
record) stays held, and those after it with it. -/
def State.performHeld : List HostCommand → State → State
  | [], s => s
  | c :: l, s =>
    match s.perform1 c with
    | .next s1 => State.performHeld l s1
    | _ => (c :: l).foldl State.holdCommand s

/-- Gathering on every node of a firing, and of every context; gather timeouts are measured from now. -/
def State.gatherFiring (s : State) (ctx : Nat) (f : Firing) : State :=
  (List.range f.nodes.length).foldl (fun s n =>
    State.gather ctx f.id n (((f.nodes[n]?).map (·.pending.length)).getD 0 + 1)
      (s.modFiring ctx f.id fun f => f.modNode n fun x => { x with last := s.clock })) s
def State.gatherAll (s : State) : State :=
  s.ctxs.foldl (fun s c => c.firings.foldl (fun s f => s.gatherFiring c.num f) s) s

/-- Service resumes: held commands, waiting records, and vector 64 (R366, R372). -/
def State.resumeService (s : State) (result : Nat) : State :=
  let held := s.mgmt.heldCommands
  let s1 := { s with mgmt := { s.mgmt with fwPhase := .idle, fwResult := result, fwCandidate := none, heldCommands := [] } }
  (State.performHeld held s1.gatherAll).output (.msix 0 64)

/-- FIRMWARE_LIVE_UPDATE (R372): FWCMD with OP 1; decode stops at the packet boundary and verification
starts. While RESULT is 1 it is ignored. -/
def execFirmwareLiveUpdate (s : State) : Host.Outcome State Fault Refusal :=
  if s.mgmt.fwResult = 1 then .next s
  else .next { s with mgmt := { s.mgmt with fwPhase := .verify, fwResult := 1 } }

/-- The bytes of the image staged at FWIMG, where they can be read. -/
def State.stagedImage (s : State) : Option (List Byte) × State :=
  match s.l2Read false s.mgmt.fwImg.toNat s.mgmt.fwLen.toNat with
  | (.bytes bs none, s1) => (some bs, s1.foundrySaw 0 s.mgmt.fwImg.toNat s.mgmt.fwLen.toNat 0 0)
  | (_, s1) => (none, s1)

/-- A slot that holds an image whose header the model does not read: what the header says is free (assumption 5). -/
def State.freeSlot (s : State) (image : List Byte) : FwSlot × State :=
  let (d, s1) := s.draw
  (⟨d % 65536, d / 2 ^ 16 % 65536, d / 2 ^ 32 % 65536, d / 2 ^ 48 % 256, d.testBit 63, some (sha256 image)⟩, s1)

/-- FIRMWARE_SLOT_SELECT (R372): FWCMD with OP 2 selects the inactive slot of the staged image's kind. The kind stands in
the image's header, whose layout the spec does not give: which of the two it names is free, and so is whether the
image is put into that slot (assumption 132). -/
def execFirmwareSlotSelect (s : State) : Host.Outcome State Fault Refusal :=
  if s.mgmt.fwResult = 1 then .next s
  else
    let (n, s1) := s.draw
    let (image, s2) := s1.stagedImage
    let (slot, s3) := s2.freeSlot (image.getD [])
    let m := s3.mgmt
    let put (l : List FwSlot) (active : Bool) : List FwSlot :=
      if image.isSome && n.testBit 1 then l.set (b2n !active) slot else l
    .next { s3 with mgmt :=
      if n % 2 = 0 then { m with fwSelect := some !m.fwActive, fwSlots := put m.fwSlots m.fwActive }
      else { m with mgSelect := some !m.mgActive, mgSlots := put m.mgSlots m.mgActive } }

/-- FIRMWARE_CMD_IGNORED (R372): another OP, or any while RESULT is 1. -/
def execFirmwareCmdIgnored (op : BitVec 4) (s : State) : Host.Outcome State Fault Refusal :=
  if s.mgmt.fwResult = 1 || (op != 1 && op != 2) then .next s
  else .refused (.eventNotPending "FIRMWARE_CMD_IGNORED")

/-- The longest image (Table 18-4). -/
def imageLimit : Nat := 2 ^ 23

/-- FIRMWARE_VERIFY_COMPLETE (R372, steps 3 to 5): the staged image is read, and the verdict on its header and
signature, whose layout and key the model does not have, comes with the event; on success the handover is written, and
the image runs from the inactive slot and is measured. One that cannot be read has no good signature. -/
def execFirmwareVerifyComplete (v : FwVerdict) (s : State) : Host.Outcome State Fault Refusal :=
  if s.mgmt.fwPhase ≠ .verify then .refused (.eventNotPending "FIRMWARE_VERIFY_COMPLETE")
  else
    let (image, s1) := s.stagedImage
    let m := s1.mgmt
    match image with
    | none => .next (s1.resumeService 4)
    | some bs =>
      if !(v.signatureGood && v.foundryKind) || decide (imageLimit < m.fwLen.toNat) then .next (s1.resumeService 4)
      else if v.svn < m.running.svn then .next (s1.resumeService 5)
      else if m.handover < v.handLo || v.handHi < m.handover then .next (s1.resumeService 6)
      else
        let digest := sha256 bs
        let slot : FwSlot := ⟨v.major, v.minor, v.svn, m.handover, true, some digest⟩
        .next { s1 with mgmt :=
          { m with fwSlots := m.fwSlots.set (b2n !m.fwActive) slot, fwCandidate := some v, fwPhase := .heartbeat
                   fwStarted := s1.clock, measured := m.measuredNow ++ [digest] } }

/-- Nanoseconds within which the first heartbeat must come. -/
def heartbeatNs : Nat := 20000000

/-- FIRST_HEARTBEAT (R372, step 6): in time, the inactive slot becomes active. A heartbeat that comes late
changes nothing: the roll-back is due. -/
def execFirstHeartbeat (s : State) : Host.Outcome State Fault Refusal :=
  let m := s.mgmt
  if m.fwPhase ≠ .heartbeat then .refused (.eventNotPending "FIRST_HEARTBEAT")
  else if m.fwStarted + heartbeatNs < s.clock then .next s
  else .next (State.resumeService { s with mgmt := { m with fwActive := !m.fwActive } } 2)

/-- HEARTBEAT_TIMEOUT (R372, step 6): the new slot is marked invalid, the old image restarts with the
unchanged structure, and measurement 3 is extended again. -/
def execHeartbeatTimeout (s : State) : Host.Outcome State Fault Refusal :=
  let m := s.mgmt
  if m.fwPhase ≠ .heartbeat || s.clock < m.fwStarted + heartbeatNs then .refused (.eventNotPending "HEARTBEAT_TIMEOUT")
  else
    let bad := { slotOf m.fwSlots (!m.fwActive) with valid := false }
    .next (State.resumeService { s with mgmt :=
      { m with fwSlots := m.fwSlots.set (b2n !m.fwActive) bad, measured := m.measuredNow ++ [m.fwDigest m.fwActive] } } 3)

/-- The held commands are tried again once the update is over. -/
def State.retryHeld (s : State) : Host.Outcome State Fault Refusal :=
  match s.mgmt.heldCommands with
  | [] => .refused (.eventNotPending "HALT")
  | l =>
    let s1 := State.performHeld l { s with mgmt := { s.mgmt with heldCommands := [] } }
    if s1.mgmt.heldCommands == l || !s.serving then .refused (.eventNotPending "HALT") else .next s1

/-- A halt that awaits room is tried again. -/
def State.retryHalt (c : HostCommand) (s : State) : Host.Outcome State Fault Refusal :=
  if !s.serving then .refused (.eventNotPending "HALT")
  else State.perform1 { s with mgmt := { s.mgmt with haltsWaiting := s.mgmt.haltsWaiting.erase c } } c

end Sys2Proof.Machine
end

