-- ==== Sys2Proof/Machine/Upsets.lean ====
section
/-!
DEFINITION. Errors of the storage that holds program state (R342, R345), for the structures of Table 16-1
whose errors no other operation shows: registers, tiles, the L1, the L2, what is cached of code,
translations and tags, the memory stacks, the stele. Silicon errors are part of the environment (assumption 9).
-/

namespace Sys2Proof.Machine

/-- The warp's registers as an emitter, and the word of an error within them. -/
def State.registerSrc (s : State) (k : WKey) : Src :=
  coreSrc (((s.warp? k).map (·.core)).getD 0) 0 (((s.warp? k).map fun w => quadOf w.slot).getD 0)

/-- Physical memory with the tag carve-out: 768 GiB (R8). -/
def hbmTop : Nat := 768 * 2 ^ 30

/-- The sectors that a granule's uncorrectable error poisons: its own, and those whose tags it holds (R345). -/
def poisonedBy (pa : Nat) : List Nat :=
  if pa < Config.memTop then [pa / 128]
  else if pa < hbmTop then pa / 128 :: (List.range 16).map ((pa - Config.memTop) / 32 * 16 + ·)
  else []

/-- A granule of the memory stacks is uncorrectable: its sectors are poison. -/
def State.poisonGranule (s : State) (pa : Nat) : State := { s with poisoned := (poisonedBy pa).foldl setInsert s.poisoned }

/-- A stele record that cannot be corrected: what it reads as is free (assumption 9). -/
def State.spoilRecord (s : State) (h n : Nat) : State :=
  let (ws, s1) := (List.range 8).foldl (fun acc _ => (let (d, s1) := acc.2.draw; (acc.1 ++ [BitVec.ofNat 64 d], s1)))
    (([] : List Word), s)
  s1.modHub h fun u => { u with stele := { u.stele with records := u.stele.records.set n ws } }

/-- The number of a register's word in its core's pool (R85): in its row while it is general, else in the
armature; each warp's registers lie together (assumption 126). -/
def State.registerWord (s : State) (k : WKey) (v lane : Nat) (high : Bool) : Nat :=
  match s.team? k.team, s.warp? k with
  | some t, some w =>
    let before := (t.warps.filter fun x => x.core == w.core && decide (x.num < w.num)).length
    let r := w.vreg v
    let part := t.kernel.n * 16 + t.kernel.g * t.kernel.width * 8
    let at_ := if r.shape = .g && !r.spilled then t.kernel.n * 16 + (r.row * t.kernel.width + lane) * 8 else v * 16
    s.poolAt w.core k.team + (before * part + at_) / 4 + b2n high
  | _, _ => 0

/-- The number of a scalar register's word: above the words of the pool (assumption 126). -/
def State.scalarWord (s : State) (k : WKey) (n : Nat) (high : Bool) : Nat :=
  poolWords + 128 * (((s.warp? k).map (·.slot)).getD 0) + 2 * n + b2n high

/-- The number of a tile element's word in its core's pool (assumption 126). -/
def State.tileWord (s : State) (k : TKey) (half num elem : Nat) : Nat :=
  match s.team? k with
  | some t => s.poolAt (t.core + half) k + 1024 * (t.kernel.regg + t.kernel.spg) + 9216 * num + elem
  | none => 0

/-- The first IA that a cached entry covers. -/
def TlbEntry.first (e : TlbEntry) : Nat := e.page * if e.leaf then pageSize e.level else entrySpan e.level

/-- The structure code of an ECC_CORRECT record, its emitter and the location: the IA or PA of the word, or its
number within the structure (Table 17-9). -/
def Stored.record (s : State) : Stored → Nat × Src × Nat
  | .register k v lane high => (0, s.registerSrc k, s.registerWord k v lane high)
  | .scalar k n high => (0, s.registerSrc k, s.scalarWord k n high)
  | .tile k half num elem => (1, coreSrc (((s.team? k).map (·.core)).getD 0 + half) 2, s.tileWord k half num elem)
  | .l1 core sec word => (3, coreSrc core 4, 128 * sec + 8 * word)
  | .l1Tag core line => (3, coreSrc core 4, 512 * line)
  | .l2 _ sec word => (5, hubSrc (Config.lineHub false (sec / 4) % 4) 8, 128 * sec + 8 * word)
  | .l2Tag _ line => (6, hubSrc (Config.lineHub false line % 4) 8, 512 * line)
  | .code core ia => (4, coreSrc core 0, ia)
  | .loop k ia => (4, s.registerSrc k, ia)
  | .translation e => (6, hubSrc (Config.walkHub (pageOf e.first) % 4) 9, e.first)
  | .tagCache pa => (6, hubSrc ((streamKey (pa / 128)).stack / 3) 8, pa)
  | .hbm pa => (7, hubSrc ((streamKey (pa / 128)).stack / 3) 14, pa)
  | .stele h n word => (8, hubSrc h 15, 8 * n + word)

/-- Clean L1 sectors of a core that meet a test leave it, to be fetched again. -/
def State.l1Refetch (s : State) (core : Nat) (p : L1Sector → Bool) : State :=
  s.modCore core fun c => { c with l1 := c.l1.filter fun x => x.isDirty || !p x }

/-- A correctable error: the value is delivered corrected; a clean or cached copy is fetched again (Table 16-1). -/
def State.refetch (s : State) : Stored → State
  | .l1 core sec _ => s.l1Refetch core (·.sector == sec)
  | .l1Tag core line => s.l1Refetch core (·.sector / 4 == line)
  | .l2Tag ph line => { s with l2 := s.l2.filter fun x => x.dirty != 0 || !(x.phys == ph && x.sector / 4 == line) }
  | .code core ia => s.modCore core fun c => { c with icache := c.icache.filter (·.1 != ia) }
  | .loop k ia => s.modWarp k fun w => { w with loopBuf := w.loopBuf.filter (·.1 != ia) }
  | .translation e => { s with tlb := s.tlb.filter (· != e) }
  | _ => s

/-- An uncorrectable error makes poison at the granule of R345; a U or A register becomes general with that
lane poisoned, and while no row is to be had the error does not show. An error of a line's tag poisons what the line
holds; a cached instruction or translation is poison to what uses it (R35). -/
def State.poisonStored (s : State) (x : Stored) : Option State :=
  match x with
  | .register k v lane _ =>
    match s.team? k.team, s.warp? k with
    | some t, some w =>
      if (w.vreg v).spilled then some s
      else (s.makeG k t [] v).map fun s1 => s1.modWarp k fun w =>
        w.setV v { w.vreg v with poison := (w.vreg v).poison ||| (1#64 <<< lane) }
    | _, _ => some s
  | .scalar k n _ => some (s.modWarp k fun w => { w with sPoison := w.sPoison ||| (1#64 <<< n) })
  | .tile k half num elem =>
    some (s.modTeam k fun t =>
      let y := t.tile half num
      t.setTile { y with poison := if y.poison.contains elem then y.poison else elem :: y.poison })
  | .l1 core sec _ => some (s.modCore core fun c => { c with l1 := updIf (·.sector == sec) (fun y => { y with poison := true }) c.l1 })
  | .l1Tag core line =>
    some (s.modCore core fun c => { c with l1 := updIf (·.sector / 4 == line) (fun y => { y with poison := true }) c.l1 })
  | .l2 ph sec _ => some { s with l2 := updIf (fun y => y.phys == ph && y.sector == sec) (fun y => { y with poison := true }) s.l2 }
  | .l2Tag ph line =>
    some { s with l2 := updIf (fun y => y.phys == ph && y.sector / 4 == line) (fun y => { y with poison := true }) s.l2 }
  | .code core ia => some (s.modCore core fun c => if c.icache.any (·.1 == ia) then { c with badCode := ia :: c.badCode } else c)
  | .loop k ia => some (s.modWarp k fun w => if w.loopBuf.any (·.1 == ia) then { w with badLoop := ia :: w.badLoop } else w)
  | .translation e => some { s with tlb := updIf (· == e) (fun t => { t with bad := true }) s.tlb }
  | .tagCache pa | .hbm pa => some (s.poisonGranule pa)
  | .stele h n _ => some (s.spoilRecord h n)

/-- A storage error shows (R342): corrected, counted and recorded as an ordinary event; or poison. -/
def storageError (u : Upset) (s : State) : Host.Outcome State Fault Refusal :=
  match u with
  | .storage x fixable =>
    let s1 := { s with upsets := s.upsets.erase u }
    let (code, src, at_) := x.record s
    if fixable then .next ((s1.refetch x).eccCorrected src code at_)
    else match s1.poisonStored x with
      | some s2 => .next (s2.riskEvent .mc)
      | none => .refused (.eventNotPending "ECC_CORRECT")
  | _ => .refused (.eventNotPending "ECC_CORRECT")

end Sys2Proof.Machine
end

