-- ==== Sys2Proof/Machine/Manage.lean ====
section
/-!
DEFINITION. The management controller: the risk estimate (R348, R349), power and temperature (R373, R374),
the L2 code (R343), scrubbing (R342), time (R362), the stele (R356, R364), device reset and power (R375).
-/

namespace Sys2Proof.Machine

/-! ## Risk (R348, R349) -/

/-- The events of one term in the last so many seconds. -/
def State.riskCount (s : State) (e : RiskEvent) (seconds : Nat) : Nat :=
  (s.mgmt.riskEvents.filter fun x => x.2 == e && decide (s.clock ≤ x.1 + seconds * 1000000000)).length

/-- The five terms (Table 16-4): CE, VC, MC, TH, LK. -/
def State.riskTerms (s : State) (margin : Nat) : List Nat :=
  [ Nat.min 64 (s.riskCount .ce 60 / 16), Nat.min 96 (8 * s.riskCount .vc 60), Nat.min 128 (64 * s.riskCount .mc 600),
    Nat.min 80 (8 * (10 - margin)), Nat.min 64 (16 * s.riskCount .retrain 60 + s.riskCount .replay 60 / 256) ]

/-- TH, ARM, CTX and QUEUE of RISKCTL (Table 16-5). -/
def Mgmt.riskTh (m : Mgmt) : Nat := fieldOf m.riskCtl 7 0
def Mgmt.riskArm (m : Mgmt) : Bool := m.riskCtl.getLsbD 8
def Mgmt.riskQueue (m : Mgmt) : QKey := ⟨fieldOf m.riskCtl 14 9, fieldOf m.riskCtl 20 15⟩

/-- The pending risk packet is over once the foundry has decoded it. -/
def State.riskDecoded (s : State) : State :=
  match s.mgmt.riskPending with
  | some (k, some n) =>
    if lowers (s.queue k).read n then { s with mgmt := { s.mgmt with riskPending := none } } else s
  | _ => s

/-- Posting the risk packet (R270): bytes 8 to 127, then the header with VALID, then WRITE. None while the
ring is full, or the image cannot be read. -/
def State.postRisk (s : State) (k : QKey) : Option State :=
  let q := s.queue k
  if (q.write - q.read).toNat ≥ q.slots then none
  else match s.castGet k.ctx (s.mgmt.riskPkt &&& ~~~(0x7F#64)) 128 with
    | (none, _) => none
    | (some (bs, _), s1) =>
      let at_ := q.ring + 128 * (q.write.toNat % q.slots)
      let head := bytes8 (wordOf (bs.take 8) ||| 1)
      let s2 := if q.inHost then (s1.output (.pcieWrite (at_ + 8) (bs.drop 8))).output (.pcieWrite at_ head)
        else ((s1.l2Put false (at_ + 8) (bs.drop 8)).2.l2Put false at_ head).2
      let s3 := { s2 with mgmt := { s2.mgmt with riskPending := some (k, some q.write) } }
      some (s3.notice k (q.write + 1))

/-- The packet of a crossing: posted now, or waiting while the ring is full. -/
def State.riskPost (s : State) : State :=
  match s.mgmt.riskPending with
  | some (k, none) => (s.postRisk k).getD s
  | _ => s

/-- A crossing (R349): the RISK event, vector 64, and with ARM and nothing pending the packet. -/
def State.crossing (s : State) (terms : List Nat) (risk : Nat) : State :=
  let m := s.mgmt
  let bytes := terms ++ [risk, m.riskTh]
  let s1 := (s.emit mgmtSrc 0x006 0 0 0 [wordOf (bytes.map (BitVec.ofNat 8))]).output (.msix 0 64)
  if m.riskArm && m.riskPending.isNone then
    State.riskPost { s1 with mgmt := { s1.mgmt with riskPending := some (m.riskQueue, none) } }
  else s1

/-- The throttle point, a junction temperature in degrees (R374). -/
def throttlePoint : Nat := 105

/-- RISK_SAMPLE (R348): `temp` is the highest junction temperature of any die; its distance to the throttle point is
the smallest margin. -/
def execRiskSample (temp : Nat) (s : State) : Host.Outcome State Fault Refusal :=
  let terms := s.riskTerms (throttlePoint - temp)
  let risk := Nat.min 255 (terms.foldl (· + ·) 0)
  let m := s.mgmt
  let crossed := m.riskTh != 0 && decide (m.riskTh ≤ risk) && m.samples.length == 1000 &&
    m.samples.all fun x => decide (x < m.riskTh)
  let s1 := { s with mgmt :=
    { m with risk := BitVec.ofNat 8 risk, samples := (risk :: m.samples).take 1000
             riskEvents := m.riskEvents.filter fun x => decide (s.clock ≤ x.1 + 600000000000) } }
  let s2 := s1.riskDecoded.riskPost
  .next (if crossed then s2.crossing terms risk else s2)

/-! ## Power (R373, R374) -/

/-- A cap within its bounds. -/
def clampNat (lo hi n : Nat) : Nat := Nat.min hi (Nat.max lo n)

/-- The direction and cause of a die's step by its own power and temperature: none, or down or up with the cause of
the THROTTLE record. -/
def Mgmt.throttleStep (m : Mgmt) (r : PowerReading) : Option (Bool × Nat) :=
  let cap := clampNat 100 1100 (m.dieCap.getD r.die 1100)
  if cap < r.diePower then some (false, 0)
  else if throttlePoint < r.temp then some (false, 2)
  else if 100 * r.peakPower < 95 * cap then some (true, 3)
  else none

/-- One step of a die's clock, between 800 MHz and 1.9 GHz, and its THROTTLE record. -/
def State.stepDie (s : State) (die : Nat) (up : Bool) (cause : Nat) : State :=
  let m := s.mgmt
  let clk := m.dieClk.getD die 1900
  let new := if up then Nat.min 1900 (clk + 25) else if clk ≤ 825 then 800 else clk - 25
  if die ≥ 8 || new = clk then s
  else
    let s1 := { s with mgmt := { m with dieClk := m.dieClk.set die new, throttleSteps := m.throttleSteps + 1 } }
    s1.emit mgmtSrc 0x020 0 0 0 [atBit new 0 ||| atBit die 16 ||| atBit cause 24]

/-- Module power above MODCAP. -/
def Mgmt.overModule (m : Mgmt) (r : PowerReading) : Bool := decide (clampNat 3000 6000 m.modCap < r.modulePower)

/-- THROTTLE (R373): one 10 us step of a die, or, with the module above its cap, of every die together. -/
def execThrottle (r : PowerReading) (s : State) : Host.Outcome State Fault Refusal :=
  let own := s.mgmt.throttleStep r
  if s.mgmt.overModule r then
    .next ((List.range 8).foldl (fun s d =>
      s.stepDie d false (match own with | some (false, c) => if d = r.die then c else 1 | _ => 1)) s)
  else match own with
    | some (up, cause) => .next (s.stepDie r.die up cause)
    | none => .next s

/-! ## The L2 code (R343) -/

/-- Lines of a hub's slices. -/
def State.hubLines (s : State) (hub : Nat) : List (Bool × Nat) :=
  s.l2Lines.filter fun l => Config.lineHub l.1 l.2 % 4 == hub

/-- Writing back and invalidating ways 7 and 15 of a hub's slices. Which lines lie in them is free
(assumption 5); afterwards no set holds more than 14. -/
def State.giveUpWays (s : State) (hub : Nat) : State :=
  let s1 := (s.hubLines hub).foldl (fun s l =>
    let (n, s1) := s.draw
    if n % 8 = 0 then s1.l2Evict l else s1) s
  (s1.hubLines hub).foldl (fun s l =>
    let set := sameSet s.l2Lines l
    if 14 < set.length then (match set.getLast? with | some x => s.l2Evict x | none => s) else s) s1

/-- A change of code begins: its record, and for DEC-TED the ways given up. -/
def State.beginChange (s : State) (hub : Nat) (toDecTed : Bool) : State :=
  let mv := (s.hub hub).rail
  let s1 := s.emit (hubSrc hub 8) 0x00C 0 0 0 [atBit hub 0 ||| atBit (b2n toDecTed) 8 ||| atBit (mv % 65536) 16]
  (if toDecTed then s1.giveUpWays hub else s1).modHub hub fun u => { u with changing := some toDecTed, reverse := false }

/-- The code that a rail voltage asks for: none between the two thresholds. -/
def wantedCode (mv : Nat) : Option Bool :=
  if mv < Config.vth then some true else if Config.vth + 20 ≤ mv then some false else none

/-- L2_MODE (R343): the hub's rail voltage; a crossing starts a change, or during one asks for the reverse
change after it. -/
def execL2Mode (hub millivolts : Nat) (s : State) : Host.Outcome State Fault Refusal :=
  if hub ≥ 4 then .next s
  else
    let s1 := s.modHub hub fun u => { u with rail := millivolts }
    let u := s1.hub hub
    match wantedCode millivolts, u.changing with
    | none, _ => .next s1
    | some w, some d => .next (s1.modHub hub fun u => { u with reverse := w != d })
    | some w, none => .next (if w == u.decTed then s1 else s1.beginChange hub w)

/-- L2_MODE_CHANGE_COMPLETE (R343): the new code is in use, and L2DT counts it; a reverse change follows. -/
def execL2ModeChangeComplete (hub : Nat) (s : State) : Host.Outcome State Fault Refusal :=
  match (s.hub hub).changing with
  | none => .refused (.eventNotPending "L2_MODE_CHANGE_COMPLETE")
  | some d =>
    let again := (s.hub hub).reverse
    let s1 := s.modHub hub fun u => { u with decTed := d, changing := none, reverse := false }
    .next (if again then s1.beginChange hub (!d) else s1)

/-! ## Scrubbing (R342, R345) -/

/-- SCRUB (R342): a granule read by the daily scrub: corrected and written back, or marked as poison. -/
def execScrub (pa : Nat) (e : EccResult) (s : State) : Host.Outcome State Fault Refusal :=
  match e with
  | .clean => .next s
  | .corrected => .next (s.eccCorrected mgmtSrc 7 pa)
  | .uncorrectable =>
    .next ((s.poisonGranule pa).riskEvent .mc)

/-! ## Time (R362) -/

/-- The SYNC record of a stamping point. -/
def State.emitSync (s : State) (point : Nat) (lock : Bool) (offset : Word) : State :=
  s.emit ⟨point, 15, 0⟩ 0x02D 0 0 0 [atBit (b2n lock) 0, offset]

/-- A correction of a counter that is `offset` ahead of true time: at the first lock a counter that is behind steps
forward; every other correction is slewed from here on. -/
def Emitter.disciplined (m : Emitter) (clock : Nat) (offset : Int) (unc : Nat) : Emitter :=
  let step := decide (offset < 0) && !m.everLocked
  { m with base := m.counter clock + (if step then offset.natAbs else 0), slew := if step then 0 else -offset
           unc := unc, locked := true, everLocked := true, lostAt := none, synced := clock }

/-- A counter whose lock is lost runs on uncorrected. -/
def Emitter.adrift (m : Emitter) (clock : Nat) : Emitter :=
  { m with base := m.counter clock, slew := 0, synced := clock, locked := false, lostAt := some clock }

/-- TIME_SYNC (R362): the servo corrects a stamping point whose counter is off by `offset`. -/
def execTimeSync (point : Nat) (offset : Int) (unc : Nat) (s : State) : Host.Outcome State Fault Refusal :=
  .next ((s.modEmitter point fun m => m.disciplined s.clock offset unc).emitSync point true (BitVec.ofInt 64 offset))

/-- STAMPING_POINT_LOCK_LOSS (R362): UNC reads 0xFFFF from 1 s later; the offset recorded is free. -/
def execStampingPointLockLoss (point : Nat) (s : State) : Host.Outcome State Fault Refusal :=
  if !(s.emitter point).locked then .refused (.eventNotPending "STAMPING_POINT_LOCK_LOSS")
  else
    let (n, s1) := s.draw
    .next ((s1.modEmitter point fun m => m.adrift s.clock).emitSync point false
      (BitVec.ofNat 64 n))

/-! ## The stele (R356, R364) -/

/-- STELE_RECORD_WRITE (R356): an emitter's oldest record is written to its segment. -/
def execSteleRecordWrite (e : Nat) (s : State) : Host.Outcome State Fault Refusal :=
  if (s.emitter e).buffer.isEmpty then .refused (.eventNotPending "STELE_RECORD_WRITE") else .next (s.writeOldest e)

/-- STELE_ERASE (R364): obeyed only while the device is held in reset. -/
def execSteleErase (s : State) : Host.Outcome State Fault Refusal :=
  if s.mgmt.inReset then .next { s with mgmt := { s.mgmt with steleErasing := true, steleRej := false } }
  else .next { s with mgmt := { s.mgmt with steleRej := true } }

/-- STELE_ERASE_COMPLETE (R364): all four segments are zero and STHEAD is 0. -/
def execSteleEraseComplete (s : State) : Host.Outcome State Fault Refusal :=
  if !s.mgmt.steleErasing then .refused (.eventNotPending "STELE_ERASE_COMPLETE")
  else .next { s with mgmt := { s.mgmt with steleErasing := false }
                      hubs := s.hubs.map fun u => { u with stele := { u.stele with records := [], head := 0 } } }

/-! ## Device reset and power (R364, R374, R375) -/

/-- Every buffered record reaches its segment. -/
def State.drainEmitters (s : State) : State :=
  s.emitters.foldl (fun s e => e.buffer.foldl (fun s _ => s.writeOldest e.num) s) s

/-- What a core keeps: what is retired of it. -/
def Core.afterReset (c : Core) : Core :=
  { num := c.num, retired := c.retired, degr := c.degr, gret := c.gret, rbank := c.rbank }

/-- The slot that the boot ROM runs: the selected or active one when its image is good and its SVN is at
least the fused minimum, else the other; and whether it fell back. -/
def bootSlot (l : List FwSlot) (active : Bool) (select : Option Bool) : Bool × Bool :=
  let want := select.getD active
  let x := slotOf l want
  if x.valid && decide (Config.minSvn ≤ x.svn) then (want, false) else (!want, true)

/-- The management registers after a device reset: the device registers at their reset values; what is
kept in flash, fuses and counters since power-on stays. The boot ROM starts the foundry firmware again (step 2 of
R375), whose measurement starts again; a reset that replaces the management controller's firmware boots the selected
slot of it, or the inactive one. The start goes on from step 2; a device that is held in reset has its link
trained. -/
def Mgmt.afterReset (m : Mgmt) (cause : Nat) (hold : Bool) : Mgmt :=
  let (f, back) := bootSlot m.fwSlots m.fwActive none
  let (g, back') := if cause = 2 then bootSlot m.mgSlots m.mgActive (some (m.mgSelect.getD !m.mgActive))
    else (m.mgActive, false)
  { fwSlots := m.fwSlots, fwActive := f, fwSelect := m.fwSelect, fwBootFallback := back || back'
    handover := m.handover, mgSlots := m.mgSlots, mgSelect := if cause = 2 then none else m.mgSelect, mgActive := g
    measured := [m.fwDigest f], sigTop := m.sigTop, sigLow := m.sigLow, throttleSteps := m.throttleSteps
    replays := m.replays, retrains := m.retrains, steleErasing := m.steleErasing, steleRej := m.steleRej
    riskEvents := m.riskEvents, samples := m.samples, started := if hold then 3 else 2, inReset := hold }

/-- A context after a device reset: reset as R334 gives. -/
def Context.afterReset (c : Context) : Context :=
  { c.cleared with queues := c.queues.map fun q => { q with ctl := q.ctl &&& ~~~(0x100#64), held := none, passed := [] } }

/-- A hub after a device reset: the stele, the retired frames and the minted ids stay. -/
def Hub.afterReset (u : Hub) : Hub :=
  { num := u.num, causes := u.causes, stele := u.stele, retiredFrames := u.retiredFrames, unlisted := u.unlisted
    decTed := u.decTed, changing := u.changing, reverse := u.reverse, rail := u.rail }

/-- Each segment's first record after a reset (R364, Table 17-9). -/
def State.resetRecords (s : State) (cause : Nat) : State :=
  (List.range 4).foldl (fun s h =>
    s.toStele h (s.recordWords (hubSrc h 15) 0x00E true 0 0 0 [BitVec.ofNat 64 (s.hub h).stele.head, atBit cause 0])) s

/-- The device after a reset (R375): steps 2 to 6 repeated, or held before them. -/
def State.restart (s : State) (cause : Nat) (hold : Bool) : State :=
  let s1 := s.drainEmitters
  let s2 : State :=
    { State.reset with
      tick := s.tick, clock := s.clock, draws := s.draws, nextId := s.nextId, inputs := s.inputs, upsets := s.upsets
      outputs := s1.outputs, cores := s1.cores.map Core.afterReset, hubs := s1.hubs.map Hub.afterReset
      emitters := s1.emitters, ctxs := s1.ctxs.map Context.afterReset, mgmt := s1.mgmt.afterReset cause hold }
  s2.resetRecords cause

/-- DEVICE_RESET (R375): by cause as Table 17-9 codes it. -/
def execDeviceReset (cause : Nat) (s : State) : Host.Outcome State Fault Refusal :=
  if s.mgmt.powered then .next (s.restart (cause % 256) false) else .refused (.eventNotPending "DEVICE_RESET")

/-- THERMAL_RESET (R374): at 115 degrees the device is held in reset, until it is reset or loses power. -/
def execThermalReset (temp : Nat) (s : State) : Host.Outcome State Fault Refusal :=
  if !s.mgmt.powered then .refused (.eventNotPending "THERMAL_RESET")
  else if temp < 115 then .next s
  else .next (s.restart 1 true)

/-- POWER_LOSS (R364): everything is lost but what lies in non-volatile memory: firmware slots, retired
frames and cores, the counters of the identity key. -/
def execPowerLoss (s : State) : Host.Outcome State Fault Refusal :=
  let m := s.mgmt
  .next { State.reset with
    tick := s.tick, clock := s.clock, draws := s.draws, nextId := s.nextId, inputs := s.inputs, upsets := s.upsets
    outputs := s.outputs
    cores := s.cores.map Core.afterReset
    hubs := s.hubs.map fun u => { num := u.num, retiredFrames := u.retiredFrames }
    mgmt := { fwSlots := m.fwSlots, fwActive := m.fwActive, fwSelect := m.fwSelect, handover := m.handover
              mgSlots := m.mgSlots, mgActive := m.mgActive, mgSelect := m.mgSelect, sigTop := m.sigTop
              sigLow := m.sigLow, started := 0, powered := false } }

/-- POWER_ON (R372, R375): the boot ROM chooses the slots and starts the firmware, which are the first two steps of the
start. -/
def execPowerOn (s : State) : Host.Outcome State Fault Refusal :=
  let m := s.mgmt
  if m.powered then .refused (.eventNotPending "POWER_ON")
  else
    let (f, back) := bootSlot m.fwSlots m.fwActive m.fwSelect
    let (g, back') := bootSlot m.mgSlots m.mgActive m.mgSelect
    .next { s with mgmt :=
      { m with powered := true, started := 2, fwActive := f, fwSelect := none, mgActive := g, mgSelect := none
               fwBootFallback := back || back', measured := [m.fwDigest f] } }

/-- The start is not over: the device is powered and not held in reset. -/
def Mgmt.starting (m : Mgmt) : Bool := m.powered && !m.inReset && decide (m.started < 6)

/-- The next step of the start (R375): the host link trains; HBM4E trains, and tags are 0; the Ralbex ports train;
every context is reset. -/
def State.startStep (s : State) : Host.Outcome State Fault Refusal :=
  let n := s.mgmt.started + 1
  let s1 := { s with mgmt := { s.mgmt with started := n } }
  .next (if n = 4 then { s1 with tags := [] } else if n = 6 then { s1 with ctxs := s1.ctxs.map Context.afterReset } else s1)

end Sys2Proof.Machine
end

