-- ==== Sys2Proof/Machine/SpAccess.lean ====
section
/-!
DEFINITION. The scratchpad instructions (R184 to R188): issue, service by the lane port in acceptance
order (R175), and completion.
-/

namespace Sys2Proof.Machine

/-! ## Issue -/

/-- SCOPE of a scratchpad access: dv, cl and sy behave as tm (R182). -/
def spScope (sc : Scope) : Scope := if sc = .wp then .wp else .tm

/-- The lowest lane whose offset is not a multiple of the size; then the lowest that leaves the
scratchpad (R181): a trap code and the lane. -/
def spFault (limit size : Nat) (l : List LaneAccess) : Option (Nat × LaneAccess) :=
  match l.find? fun a => a.ia % size != 0 with
  | some a => some (0x06, a)
  | none => (l.find? fun a => decide (limit < a.ia + size)).map fun a => (0x0D, a)

/-- The core whose lane port serves a lane's words (R170). -/
def Team.portOf (t : Team) (a : LaneAccess) : Nat := (t.homeCore (a.ia / 4)).1

/-- The parts of a byte range: each half of a pair has its own. -/
def Team.rangeParts (t : Team) (a : LaneAccess) : List LaneAccess :=
  let n := a.cmp.toNat
  let cut := t.share
  if t.kernel.paired && decide (a.ia < cut) && decide (cut < a.ia + n) then
    [{ a with cmp := BitVec.ofNat 64 (cut - a.ia) }, { a with ia := cut, cmp := BitVec.ofNat 64 (a.ia + n - cut) }]
  else [a]

/-- Putting an operation at the end of the lane ports that serve it: the core's own, and for words of the
other half of a pair the partner core's (R170, R175). -/
def Env.queueSp (e : Env) (i : Instr) (s : State) (lanes : List LaneAccess) (size : Nat) (uniform acquire : Bool)
    (layout : Word := 0) : State :=
  let (id, s1) := s.takeId
  let (seq, after) := s1.region e
  let op : SpOp :=
    { id := id, key := e.k, instr := i, pc := e.w.pc, cause := e.w.cause, serial := e.w.serial, lanes := lanes
      size := size, uniform := uniform, layout := layout, seq := seq, after := after, nth := e.w.issued + 1
      sent := ((lanes.map e.t.portOf).eraseDups).map fun p => (p, (s.core p).spTime) }
  let s2 := (s1.modWarp e.k fun w => w.countUp .sp id).modCore e.w.core fun c => { c with spOps := c.spOps ++ [op] }
  let s3 := ((lanes.map e.t.portOf).eraseDups).foldl (fun s p => s.modCore p fun c =>
    { c with port := c.port ++ [(e.w.core, id)] }) s2
  s3.countAccess e.k id acquire

/-- Is the operation an acquiring read of scope wp? It orders the warp's SP-path accesses alone (R182). -/
def SpOp.acquiresOwn (x : SpOp) : Bool :=
  match x.instr with
  | .lds o | .ldsx o | .atoms o | .reds o => o.mod.ord.acquires && o.mod.scope == .wp
  | _ => false

/-- An SP-path access is held back (R182): by an acquiring read that has not been served; a releasing write of
scope wp, by every earlier SP-path access of the warp. -/
def Env.heldOnSp (e : Env) (releasesOwn : Bool) : Bool :=
  e.heldByAcquire || (releasesOwn && e.w.counter .sp != 0) ||
    (e.s.core e.w.core).spOps.any fun x => x.key == e.k && x.acquiresOwn

/-- Issuing a lane access of scratchpad: `off` gives a lane's offset. -/
def Env.issueSp (e : Env) (i : Instr) (o : Ops MM) (atomic result : Bool) (off : Nat → Nat)
    (layout : Word := 0) : Act :=
  if e.heldOnSp (o.mod.ord.releases && o.mod.scope == .wp) || !e.w.roomOn .sp then .wait e.s
  else
    let size := accessSize o.mod.ty o.mod.pk
    let lanes := e.lanes.map (e.access o atomic off)
    match spFault e.t.kernel.scratch size lanes with
    | some (c, a) => e.trap c a.lane (BitVec.ofNat 64 a.ia)
    | none =>
      let go (e : Env) : Act :=
        let one := lanes.all (fun a => a.ia == (lanes.head?.map (·.ia)).getD 0) && e.m == fullMask e.width &&
          !(e.w.destRegs o.d e.lanes).2
        let dst := if result then e.prepLoad i e.s o.d one else some e.s
        match dst with
        | none => .wait e.s
        | some s => .next (e.queueSp i s lanes size one (o.mod.ord.acquires && o.mod.scope != .wp) layout)
      if o.mod.ord.releases then e.afterRelease (spScope o.mod.scope) go else go e

/-- The offset of a lane of a plain access (R185). -/
def Env.spOff (e : Env) (o : Ops MM) (atomic : Bool) (l : Nat) : Nat := (e.laneAddr o atomic l).toNat

def execLds (o : Ops MM) (s : State) : Host.Outcome State Fault Refusal :=
  runSeq (.lds o) s fun e => e.issueSp (.lds o) o false true (e.spOff o false)

def execSts (o : Ops MM) (s : State) : Host.Outcome State Fault Refusal :=
  runSeq (.sts o) s fun e => e.issueSp (.sts o) o false false (e.spOff o false)

def execAtoms (o : Ops MM) (s : State) : Host.Outcome State Fault Refusal :=
  runSeq (.atoms o) s fun e => e.issueSp (.atoms o) o true true (e.spOff o true)

def execReds (o : Ops MM) (s : State) : Host.Outcome State Fault Refusal :=
  runSeq (.reds o) s fun e => e.issueSp (.reds o) o true false (e.spOff o true)

/-- A swizzled access: its layout word must have ESZ 0 and TRANS 0 (R185). -/
def Env.issueSpx (e : Env) (i : Instr) (o : Ops MM) (result : Bool) : Act :=
  match layoutOf (e.scalar o.a) with
  | none => e.trap 0x02
  | some l =>
    if l.esz ≠ 0 ∨ l.kMajor then e.trap 0x02
    else e.issueSp i o false result (fun k => l.phys (e.lane o.b k + sextImm o.imm).toNat) (e.scalar o.a)

def execLdsx (o : Ops MM) (s : State) : Host.Outcome State Fault Refusal :=
  runSeq (.ldsx o) s fun e => e.issueSpx (.ldsx o) o true

def execStsx (o : Ops MM) (s : State) : Host.Outcome State Fault Refusal :=
  runSeq (.stsx o) s fun e => e.issueSpx (.stsx o) o false

/-- The range of `spinv` and `spfill`, checked (R187): a trap code otherwise. A range of length 0 that
starts beyond the scratchpad traps too: the rule does not say which of its lines holds of it (assumption
100). -/
def Env.spRange (e : Env) (a b : Word) : Option Nat :=
  if a.toNat % 4 ≠ 0 ∨ b.toNat % 4 ≠ 0 then some 0x06
  else if e.t.kernel.scratch < a.toNat + b.toNat then some 0x0D
  else none

/-- Issuing an operation on a byte range: start and length in `ia` and `cmp`, a pattern in `data`. -/
def Env.issueRange (e : Env) (i : Instr) (a b : Word) (pattern : Word) : Act :=
  if e.heldOnSp false || !e.w.roomOn .sp then .wait e.s
  else match e.spRange a b with
    | some c => e.trap c
    | none =>
      let x : LaneAccess := { lane := 255, va := a, ia := a.toNat, cmp := b, data := pattern }
      .next (e.queueSp i e.s (e.t.rangeParts x) 4 false false)

def execSpinv (o : Ops (BitVec 16)) (s : State) : Host.Outcome State Fault Refusal :=
  runSeq (.spinv o) s fun e => e.issueRange (.spinv o) (e.scalar o.a) (e.scalar o.b) 0

def execSpfill (o : Ops (BitVec 16)) (s : State) : Host.Outcome State Fault Refusal :=
  runSeq (.spfill o) s fun e => e.issueRange (.spfill o) (e.scalar o.a) (e.scalar o.b) (e.scalar o.d)

/-! ## spstat (R188) -/

/-- FORM 0: the team's counts (Table 9-4). -/
def Team.spCounts (t : Team) : Word := atBit t.recon 32 ||| atBit t.confl 0

/-- FORM 1: the core's health (Table 9-5). -/
def Core.spHealth (c : Core) : Word :=
  let rb := (List.range 4).foldl (fun (w : Word) g => w ||| atBit (c.rbank.getD g 0 % 8) (20 + 3 * g)) 0
  rb ||| atBit (if c.gret = 0 then 4 else 3) 16 ||| atBit c.gret.toNat 8 ||| atBit c.degr.toNat 0

/-- FORM 2: the word at an offset (Table 9-6). -/
def State.spWordInfo (s : State) (t : Team) (core off : Nat) : Word :=
  let (home, n) := t.homeCore (off / 4)
  let c := s.core home
  let (bank, row) := c.place n
  atBit bank 9 ||| atBit (b2n (home != core)) 5 ||| atBit (b2n (rowStale (c.parity.filter (·.group == bank / 8)) t.key row)) 4 |||
    atBit (b2n (t.word (off / 4)).valid) 3 ||| atBit (t.stamp (off / 2048)).toNat 0

def execSpstat (o : Ops (BitVec 16)) (s : State) : Host.Outcome State Fault Refusal :=
  runSeq (.spstat o) s fun e =>
    match o.mod.toNat with
    | 0 => .next (e.setS o.d e.t.spCounts)
    | 1 => .next (e.setS o.d (e.s.core e.w.core).spHealth)
    | _ =>
      if e.w.counter .sp ≠ 0 then e.waitCounters [(.sp, 0)]
      else match e.spRange (e.scalar o.a) 4 with
        | some c => e.trap c
        | none => .next (e.setS o.d (e.s.spWordInfo e.t e.w.core (e.scalar o.a).toNat))

/-! ## Service (R172 to R176) -/

/-- The words a lane's access touches. -/
def LaneAccess.words (a : LaneAccess) (size : Nat) : List Nat := wordsAt a.ia size

/-- What the operation does with words: it is a load; it reads; it writes. -/
def SpOp.doesLoad (x : SpOp) : Bool := match x.instr with | .lds _ | .ldsx _ => true | _ => false
def SpOp.atomic (x : SpOp) : Bool := match x.instr with | .atoms _ | .reds _ => true | _ => false

/-- The service of one pass of an operation on one core. The further lanes that lengthen an atomic's request
(R176) are those of the pass being served (DESIGN CHOICE, assumption 115). -/
def State.servePass (s : State) (t : Team) (x : SpOp) (lanes : List LaneAccess) (core : Nat) : Service :=
  let c := s.core core
  let base := t.baseOf core
  let hold (n : Nat) : Nat := if x.atomic then 1 + (lanes.filter fun a => a.ia / 4 - base == n).length else 1
  let bytes := coverBytes (lanes.map fun a => (a.ia, x.size))
  let full (n : Nat) : Bool := (List.range 4).all fun k => bytes.contains (4 * (n + base) + k)
  c.servePass x.doesLoad (x.doesLoad || x.atomic) (!x.doesLoad) full t.key
    (c.requests (x.size == 8) (lanes.map fun a => a.ia / 4 - base) hold)

/-- Serving the lanes of an operation that lie on a core, each pass of 32 after the other (R172): cycles,
the words served by reconstruction, and the state with what became of parity. -/
def State.serve (s : State) (t : Team) (x : SpOp) (core : Nat) (lanes : List LaneAccess) : Nat × List Nat × State :=
  let passes := [lanes.filter (·.lane < 32), lanes.filter fun a => decide (32 ≤ a.lane)]
  passes.foldl (fun acc l =>
    if l.isEmpty then acc
    else
      let r := acc.2.2.servePass t x l core
      (acc.1 + r.cycles, acc.2.1 ++ r.rebuilt.map (· + t.baseOf core),
        (acc.2.2.modCore core fun c => { c with parity := r.parity, spTime := c.spTime + r.cycles }).renewRelief t.key core r.fresh))
    (0, [], s)

/-- The cycles in which a port waits for an operation, whose service never begins earlier than 4 cycles after its
issue (R175): parity updates go on in them. -/
def State.idlePort (s : State) (core : Nat) (x : SpOp) : State :=
  s.modCore core fun c =>
    let since := ((x.sent.find? (·.1 == core)).map (·.2)).getD c.spTime
    let n := 4 - (c.spTime - since)
    { c with spTime := c.spTime + n, parity := if c.parity.isEmpty then [] else idleParity n c.parity }

/-- The counts of `spstat` FORM 0 after an operation: service cycles but the first, and words served by
reconstruction (R188). -/
def Team.countService (t : Team) (cycles rebuilt : Nat) : Team :=
  { t with confl := satAdd 32 t.confl (cycles - 1), recon := satAdd 32 t.recon rebuilt }

/-! ## Effects -/

/-- The lane's word, and poison of what it reads: plain, or of a reconstruction (R179). -/
def State.spLane (s : State) (t : Team) (rebuilt : List Nat) (ty : Typ) (pk : BitVec 2) (size : Nat) (a : LaneAccess) :
    LaneAccess :=
  let marks := (a.words size).map fun w => s.wordPoison t (rebuilt.contains w) w
  { a with data := fillBits ty pk (t.spNat a.ia size), poison := marks.any (·.1)
           recon := marks.any (·.2) && !marks.any fun m => m.1 && !m.2 }

/-- One word after the lanes' stores: the highest lane's bytes, poison by R345. -/
def SpWord.store (x : SpWord) (word size : Nat) (lanes : List LaneAccess) : SpWord :=
  let here := lanes.filter fun a => (wordsAt a.ia size).contains word
  let put (w : BitVec 32) (a : LaneAccess) : BitVec 32 :=
    (List.range 4).foldl (fun w k =>
      let p := 4 * word + k
      if a.ia ≤ p ∧ p < a.ia + size then putByte w k ((a.data >>> (8 * (p - a.ia))).setWidth 8) else w) w
  let covered := (List.range 4).all fun k => here.any fun a => decide (a.ia ≤ 4 * word + k) && decide (4 * word + k < a.ia + size)
  let old := x.poison && !covered
  { data := here.foldl put x.data, valid := true, poison := here.any (·.poison) || old
    recon := (here.any (·.recon) || (old && x.recon)) && (here.all fun a => !a.poison || a.recon) && (!old || x.recon) }

/-- Scratchpad after the stores of an instruction, its blocks stamped. -/
def Team.spStore (t : Team) (size : Nat) (lanes : List LaneAccess) (stamp : BitVec 3) : Team :=
  let words := (lanes.flatMap fun a => a.words size).eraseDups
  let t1 := words.foldl (fun t w => t.setWord w ((t.word w).store w size lanes)) t
  (words.map (· / 512)).eraseDups.foldl (fun t b => t.setStamp b stamp) t1

/-- Scratchpad after the atomics of an instruction (R186). -/
def Team.spAtomic (t : Team) (ty : Typ) (op : Atop) (size : Nat) (lanes : List LaneAccess) : Team :=
  (lanes.map (·.ia)).eraseDups.foldl (fun u off =>
    u.spWrite off (natBytes (atomFold ty op (t.spNat off size) (lanes.filter (·.ia == off))) size) false none) t

/-- The valid bits of a byte range clear (R187). -/
def Team.spInvalidate (t : Team) (off n : Nat) : Team :=
  { t with sp := t.sp.filterMap fun (w, x) =>
      if off ≤ 4 * w ∧ 4 * w < off + n then
        (if ({ x with valid := false } : SpWord) = spClear then none else some (w, { x with valid := false }))
      else some (w, x) }

/-- A pattern in every word of a byte range (R187). -/
def Team.spFill (t : Team) (off n : Nat) (pattern : Word) : Team :=
  t.spWrite off ((List.range (n / 4)).flatMap fun _ => natBytes pattern.toNat 4) false (some 0)

/-! ## A part of an operation at a port -/

/-- The span of a swizzled access; the span a reader checks stamps with (R159, R185). -/
def SpOp.span (x : SpOp) : BitVec 3 := ((layoutOf x.layout).map (·.span)).getD 0
def SpOp.checkSpan (x : SpOp) : Option (BitVec 3) := match x.instr with | .ldsx _ => some x.span | _ => none

/-- What a part that reads meets is kept in the operation (R159, R180). -/
def SpOp.meets (x : SpOp) (t : Team) (lanes : List LaneAccess) : SpOp :=
  let offs := coverBytes (lanes.map fun a => (a.ia, x.size))
  let first := (x.checkSpan.bind fun sp => t.firstMismatch sp offs).map fun m => (m, t.stamp (m / 2048))
  { x with
    unwritten := (x.unwritten ++ t.unwrittenWords offs).eraseDups
    mismatch := match x.mismatch, first with
      | some a, some b => some (if b.1 < a.1 then b else a)
      | some a, none => some a
      | none, b => b }

/-- The operation has met what stops it: in trap mode an unwritten word or another stamp. -/
def State.spStops (s : State) (x : SpOp) : Bool :=
  !(s.ctx x.key.ctx).warn && (!x.unwritten.isEmpty || x.mismatch.isSome)

/-- Replacing an operation of a core. -/
def State.setSp (s : State) (home : Nat) (x : SpOp) : State :=
  s.modCore home fun c => { c with spOps := updIf (·.id == x.id) (fun _ => x) c.spOps }

/-- Lanes marked as served by a port. -/
def SpOp.served (x : SpOp) (t : Team) (core : Nat) (f : LaneAccess → LaneAccess) : SpOp :=
  { x with lanes := x.lanes.map fun a => if t.portOf a == core && !a.done then { f a with done := true } else a }

/-- A load, as its lanes at one port are served. -/
def State.partLoad (s : State) (t : Team) (core home : Nat) (x : SpOp) (o : Ops MM) (lanes : List LaneAccess) : State :=
  let words := (lanes.flatMap fun a => a.words x.size).eraseDups
  let (cycles, rebuilt, s1) := s.serve t x core lanes
  let s2 := s1.showErrors t words rebuilt
  let (view, s3) := s2.spView ((s2.team? t.key).getD t) .sp words
  let y := x.served t core fun a => s3.spLane view rebuilt o.mod.ty o.mod.pk x.size a
  s3.setSp home { y with cycles := Nat.max x.cycles cycles, rebuilt := x.rebuilt + rebuilt.length }

/-- An atomic, as its lanes at one port are served: the words' present values are read and written as one
(R186, R234); a poisoned target is consumed (Table 16-3). -/
def State.partAtomic (s : State) (t : Team) (core home : Nat) (x : SpOp) (o : Ops MM) (lanes : List LaneAccess) : State :=
  let words := (lanes.flatMap fun a => a.words x.size).eraseDups
  let (cycles, rebuilt, s1) := s.serve t x core lanes
  let s2 := s1.showErrors t words rebuilt
  let u := (s2.team? t.key).getD t
  let marked := lanes.map (s2.spLane u rebuilt o.mod.ty o.mod.pk x.size)
  let y := x.served t core fun a =>
    match marked.find? (·.lane == a.lane) with
    | some b => { b with poison := false, recon := false, code := if !b.poison then 0 else if b.recon then 0x1B else 0x19 }
    | none => a
  let s3 := if marked.any (·.poison) then s2
    else s2.modTeam t.key fun t => t.writeAs { path := .sp } words fun t => t.spAtomic o.mod.ty o.mod.atop x.size lanes
  s3.setSp home { y with cycles := Nat.max x.cycles cycles, rebuilt := x.rebuilt + rebuilt.length }

/-- A store, as its lanes at one port are served. -/
def State.partStore (s : State) (t : Team) (core home : Nat) (x : SpOp) (stamp : BitVec 3) (lanes : List LaneAccess) : State :=
  let words := (lanes.flatMap fun a => a.words x.size).eraseDups
  let (cycles, _, s1) := s.serve t x core lanes
  let s2 := s1.modTeam t.key fun t =>
    (lanes.foldl (fun t a => t.breakWords (.scratch a.ia) x.size) t).writeAs { path := .sp } words fun t => t.spStore x.size lanes stamp
  s2.setSp home { x.served t core id with cycles := Nat.max x.cycles cycles }

/-- `spfill` and `spinv` on their part of a range. Their port cycles are not counted in CONFL, which counts
the cycles of requests (assumption 101). -/
def State.partRange (s : State) (t : Team) (core home : Nat) (x : SpOp) (fill : Bool) (lanes : List LaneAccess) : State :=
  let s1 := lanes.foldl (fun s a =>
    if fill then
      (s.noteWrite t a.ia a.cmp.toNat).modTeam t.key fun t =>
        t.writeAs { path := .sp } (wordsAt a.ia a.cmp.toNat) fun t => t.spFill a.ia a.cmp.toNat a.data
    else s.modTeam t.key fun t => t.spInvalidate a.ia a.cmp.toNat) s
  s1.setSp home (x.served t core id)

/-- Serving the part of an operation that lies at a core's port. A reader that is stopped changes and
delivers nothing. -/
def State.servePart (s0 : State) (t : Team) (core home : Nat) (x0 : SpOp) : State :=
  let s := s0.idlePort core x0
  let lanes := x0.lanes.filter fun a => t.portOf a == core && !a.done
  let x := if x0.doesLoad || x0.atomic then x0.meets t lanes else x0
  if s.spStops x then s.setSp home (x.served t core id)
  else
    match x.instr with
    | .lds o | .ldsx o => s.partLoad t core home x o lanes
    | .atoms o | .reds o => s.partAtomic t core home x o lanes
    | .stsx _ => s.partStore t core home x x.span lanes
    | .spfill _ => s.partRange t core home x true lanes
    | .spinv _ => s.partRange t core home x false lanes
    | _ => s.partStore t core home x 0 lanes

/-! ## Completion (R175) -/

/-- The operation has left the lane ports and SP falls. -/
def State.dropSp (s : State) (core : Nat) (x : SpOp) : State :=
  let s1 := s.modCore core fun c => { c with spOps := c.spOps.filter (·.id != x.id) }
  if x.dropped then s1 else s1.modWarp x.key fun w => w.countDown .sp x.id

/-- The words an acquiring read has read join what they complete (R240). -/
def State.joinSp (s : State) (x : SpOp) : State :=
  let acq (o : Ops MM) : Bool := o.mod.ord.acquires
  let own (o : Ops MM) : Bool := o.mod.scope == .wp
  match x.instr with
  | .lds o | .ldsx o | .atoms o | .reds o =>
    if acq o then s.modTeam x.key.team fun t => t.joinWords x.key.w (own o) (x.lanes.map fun a => .scratch a.ia) else s
  | _ => s

/-- What follows the completion of an operation: an acquire action, arrivals, retirement. -/
def State.afterSp (s : State) (core : Nat) (t : Team) (x : SpOp) : State :=
  (((s.joinSp x).dropSp core x).endAcquire x.key x.id core t.kernel.paired .tm).settle x.key

/-- A deferred fault of an operation (R168). -/
def SpOp.fault (x : SpOp) (s : State) (code lane : Nat) (addr : Word) : FaultInfo :=
  let w := s.warp? x.key
  { code := code, pc := x.pc, cause := x.cause, addr := addr, serial := x.serial, warp := x.key.w, lane := lane
    wobj := ((w.bind (·.wait)).map (·.obj)).getD 0, wkind := ((w.bind (·.wait)).map (·.kind)).getD 0, deferred := true
    skid := (w.map (·.issued)).getD 0 - x.nth }

/-- An operation ends in a deferred fault. -/
def State.failSp (s : State) (core : Nat) (t : Team) (x : SpOp) (f : FaultInfo) (ia : Option Nat := none) : State :=
  (((s.cancelLoad x.key x.lanes).dropSp core x |>.endAcquire x.key x.id core t.kernel.paired .tm).deferFault x.key f ia).settle x.key

/-- The record source of an operation: the scratchpad engine of its core. -/
def State.spSrc (s : State) (core : Nat) (x : SpOp) : Src :=
  coreSrc core 3 (match s.warp? x.key with | some w => quadOf w.slot | none => 0)

/-- The lowest lane that read an unwritten word. -/
def SpOp.unwrittenLane (x : SpOp) : Option LaneAccess :=
  x.lanes.find? fun a => (a.words x.size).any x.unwritten.contains

/-- The fault of trap mode (R180): SP_UNWRITTEN names the lowest lane and its offset; with a stamp that
differs as well, the lower offset decides, and the record carries it. -/
def SpOp.readFault (x : SpOp) (s : State) : Option FaultInfo :=
  let u := minOf ((coverBytes (x.lanes.map fun a => (a.ia, x.size))).filter fun o => x.unwritten.contains (o / 4))
  match x.mismatch, u with
  | none, none => none
  | some m, none => some (x.fault s 0x0B 255 (BitVec.ofNat 64 m.1))
  | none, some o =>
    let a := x.unwrittenLane
    some (x.fault s 0x0C ((a.map (·.lane)).getD 255) (BitVec.ofNat 64 ((a.map (·.ia)).getD o)))
  | some m, some o =>
    if o < m.1 then some (x.fault s 0x0C ((x.unwrittenLane.map (·.lane)).getD 255) (BitVec.ofNat 64 o))
    else some (x.fault s 0x0B 255 (BitVec.ofNat 64 m.1))

/-- The events of warn mode, each once (R159, R180). -/
def State.spEvents (s : State) (core : Nat) (t : Team) (x : SpOp) : State :=
  let s1 := match x.mismatch with
    | some (m, stamp) => s.warnMismatch (s.spSrc core x) t.ctx x.cause t.cause x.pc x.serial x.span stamp (m / 2048)
    | none => s
  match x.unwrittenLane with
  | some a =>
    let w := (minOf ((a.words x.size).filter x.unwritten.contains)).getD 0
    s1.warnUnwritten (s.spSrc core x) t.ctx x.cause t.cause x.pc x.serial a.lane (4 * w) x.unwritten.length
  | none => s1

/-- The results of an operation that has one. -/
def State.spResults (s : State) (t : Team) (x : SpOp) : Option State :=
  let write := s.writeLanes x.key t x.uniform (x.lanes.map fun a =>
    { lane := a.lane, reg := a.reg, value := a.data, poison := a.poison, recon := a.recon })
  match x.instr with
  | .lds _ | .ldsx _ | .atoms _ => if x.dropped then some s else write
  | _ => some s

/-- An operation whose lanes have all been served ends (R175): the fault it met, or its results; none while
a result waits for a row. One that is stopped in trap mode adds nothing to CONFL and RECON (DESIGN CHOICE,
assumption 116). -/
def State.finishSp (s : State) (core : Nat) (t : Team) (x : SpOp) : Option State :=
  let counted (s : State) : State := s.modTeam x.key.team fun t => t.countService x.cycles x.rebuilt
  if s.spStops x then (x.readFault s).map fun f => s.failSp core t x f
  else match x.lanes.find? (·.code != 0) with
    | some a => some ((counted (s.spEvents core t x)).failSp core t x (x.fault s a.code a.lane (BitVec.ofNat 64 a.ia)))
    | none => ((counted (s.spEvents core t x)).spResults t x).map fun s => s.afterSp core t x

/-- The operation ends when it can. -/
def State.tryFinishSp (s : State) (home id : Nat) : State :=
  match (s.core home).spOps.find? (·.id == id) with
  | none => s
  | some x =>
    match s.team? x.key.team with
    | none => s.dropSp home x
    | some t => if x.lanes.all (·.done) then (s.finishSp home t x).getD s else s

/-- An operation that waits only for a row. -/
def State.spWaiting (s : State) (core : Nat) : Option State :=
  ((s.core core).spOps.filter fun x => x.lanes.all (·.done)).findSome? fun x =>
    (s.team? x.key.team).bind fun t => if s.fqRoom x.key.ctx then s.finishSp core t x else none

/-- The first arrival at a port that is not held back by a `vend` (R227: what it holds back has not been
sent), with its operation. -/
def State.portHead (s : State) (core : Nat) : Option ((Nat × Nat) × Option SpOp) :=
  (s.core core).port.findSome? fun p =>
    match (s.core p.1).spOps.find? (·.id == p.2) with
    | none => some (p, none)
    | some x => if s.regionOpen x.key p.1 x.after then none else some (p, some x)

/-- SCRATCHPAD_ACCESS_COMPLETE (R170, R175): a result that waited for a row is written, or the next arrival
at the lane port is served. -/
def execScratchpadAccessComplete (core : Nat) (s : State) : Host.Outcome State Fault Refusal :=
  match s.spWaiting core with
  | some s1 => .next s1
  | none =>
    match s.portHead core with
    | none => .refused (.eventNotPending "SCRATCHPAD_ACCESS_COMPLETE")
    | some (p, none) => .next (s.modCore core fun c => { c with port := c.port.erase p })
    | some (p, some x) =>
      let s1 := s.modCore core fun c => { c with port := c.port.erase p }
      match s.team? x.key.team with
      | none => .next (s1.dropSp p.1 x)
      | some t =>
        if !s.fqRoom x.key.ctx then .refused (.eventNotPending "SCRATCHPAD_ACCESS_COMPLETE")
        else .next ((s1.servePart t core p.1 x).tryFinishSp p.1 p.2)

/-- PARITY_UPDATE (R174): the oldest stale row of a group is brought up to date; the later ones have waited
as long as it had to. -/
def execParityUpdate (core group : Nat) (s : State) : Host.Outcome State Fault Refusal :=
  match (s.core core).parity.find? (·.group == group) with
  | none => .refused (.eventNotPending "PARITY_UPDATE")
  | some p => .next (s.modCore core fun c =>
      { c with parity := (c.parity.erase p).map fun q => if q.group == group then { q with age := q.age + (3 - p.age) } else q })

end Sys2Proof.Machine
end

