-- ==== Sys2Proof/Machine/Hss.lean ====
section
/-!
DEFINITION. Signatures of the device identity key (R370, R371): HSS of RFC 8554 with two levels, each
LMS_SHA256_M32_H15 with LMOTS_SHA256_N32_W4. The key itself is the device's own (`Config.lmsSecret`).
-/

namespace Sys2Proof.Machine

/-- Numbers as RFC 8554 writes them: big-endian. -/
def u8str (n : Nat) : List Byte := natBytes n 1
def u16str (n : Nat) : List Byte := (natBytes n 2).reverse
def u32str (n : Nat) : List Byte := (natBytes n 4).reverse

/-- The height of a tree, its typecode and that of its one-time signatures, the values of one of them, and the longest
chain. -/
def lmsHeight : Nat := 15
def lmsType : Nat := 7
def otsType : Nat := 3
def otsValues : Nat := 67
def otsChain : Nat := 15

/-- The identifier of a tree, and what of it and its leaf begins each hash. -/
def lmsIdent (tree : Nat) : List Byte := natBytes (Config.lmsId tree).toNat 16
def lmsPrefix (tree node : Nat) : List Byte := lmsIdent tree ++ u32str node

/-- A private value of a leaf. -/
def otsPrivate (tree leaf i : Nat) : List Byte := natBytes (Config.lmsSecret tree leaf i).toNat 32

/-- The value after n steps of chain i from step j on. -/
def otsSteps (pre : List Byte) : Nat → Nat → List Byte → List Byte
  | _, 0, x => x
  | j, n + 1, x => otsSteps pre (j + 1) n (sha256 (pre ++ u8str j ++ x))

/-- Chain i of a leaf, so many steps from its private value. -/
def otsAt (tree leaf i n : Nat) : List Byte :=
  otsSteps (lmsPrefix tree leaf ++ u16str i) 0 n (otsPrivate tree leaf i)

/-- The public key of a leaf. -/
def otsPublic (tree leaf : Nat) : List Byte :=
  sha256 (lmsPrefix tree leaf ++ u16str 0x8080 ++ (List.range otsValues).flatMap fun i => otsAt tree leaf i otsChain)

/-- The digits of a hash, 4 bits each, and then those of their checksum. -/
def nibbles (bs : List Byte) : List Nat := bs.flatMap fun b => [b.toNat / 16, b.toNat % 16]
def otsDigits (hash : List Byte) : List Nat :=
  let d := nibbles hash
  d ++ (nibbles (u16str (16 * (d.map (otsChain - ·)).foldl (· + ·) 0))).take 3

/-- The one-time signature of a message under a leaf. -/
def otsSign (tree leaf : Nat) (msg : List Byte) : List Byte :=
  let c := natBytes (Config.lmsRandom tree leaf).toNat 32
  let hash := sha256 (lmsPrefix tree leaf ++ u16str 0x8181 ++ c ++ msg)
  u32str otsType ++ c ++ (otsDigits hash).zipIdx.flatMap fun (a, i) => otsAt tree leaf i a

/-- The node number r of a tree, at a height above the leaves. -/
def lmsNode (tree : Nat) : Nat → Nat → List Byte
  | 0, r => sha256 (lmsPrefix tree r ++ u16str 0x8282 ++ otsPublic tree (r - 2 ^ lmsHeight))
  | h + 1, r => sha256 (lmsPrefix tree r ++ u16str 0x8383 ++ lmsNode tree h (2 * r) ++ lmsNode tree h (2 * r + 1))

/-- The signature of a message under leaf q of a tree: the one-time signature and the path to the root. -/
def lmsSign (tree q : Nat) (msg : List Byte) : List Byte :=
  u32str q ++ otsSign tree q msg ++ u32str lmsType ++
    (List.range lmsHeight).flatMap fun i => lmsNode tree i (((2 ^ lmsHeight + q) / 2 ^ i) ^^^ 1)

/-- The public key of a tree. -/
def lmsPublic (tree : Nat) : List Byte := u32str lmsType ++ u32str otsType ++ lmsIdent tree ++ lmsNode tree lmsHeight 1

/-- The signature of a message under leaf `low` of the tree under leaf `top` of the top one. -/
def hssSign (top low : Nat) (msg : List Byte) : List Byte :=
  u32str 1 ++ lmsSign 0 top (lmsPublic (top + 1)) ++ lmsPublic (top + 1) ++ lmsSign (top + 1) low msg

end Sys2Proof.Machine
end

