-- ==== Sys2Proof/Machine/Spdm.lean ====
section
/-!
DEFINITION. Attestation (R370, R371): the SPDM requests that the PF's DOE mailbox answers. The layouts of
SPDM messages are not the spec's: an answer carries what the spec says of it (a version, digests,
measurements, a signature), and an error carries its code as SPDM 1.3 numbers it.
-/

namespace Sys2Proof.Machine

/-- SPDM codes of the requests (PRESUMED: SPDM 1.3). -/
def spdmGetDigests : Nat := 0x81
def spdmGetCertificate : Nat := 0x82
def spdmChallenge : Nat := 0x83
def spdmGetVersion : Nat := 0x84
def spdmGetMeasurements : Nat := 0xE0
def spdmGetCapabilities : Nat := 0xE1
def spdmNegotiate : Nat := 0xE3
def spdmKeyExchange : Nat := 0xE4
def spdmFinishCode : Nat := 0xE5
def spdmEndSession : Nat := 0xEC

/-- Codes of ERROR: InvalidRequest, Unspecified, UnsupportedRequest, InvalidSession (PRESUMED). -/
def spdmInvalidRequest : Byte := 0x01#8
def spdmInvalidSession : Byte := 0x02#8
def spdmUnspecified : Byte := 0x05#8
def spdmUnsupported : Byte := 0x07#8

/-- An answer, and an ERROR. -/
def State.answer (s : State) (req : Nat) (body : List Byte) : State := s.output (.spdm req true body)
def State.spdmError (s : State) (req : Nat) (code : Byte) : State := s.output (.spdm req false [code])

/-- GET_VERSION (R370): SPDM 1.3. -/
def execGetVersion (s : State) : Host.Outcome State Fault Refusal := .next (s.answer spdmGetVersion [0x13#8])

/-- GET_CAPABILITIES (R370); served even when the signature indices are exhausted (R371). -/
def execGetCapabilities (s : State) : Host.Outcome State Fault Refusal := .next (s.answer spdmGetCapabilities [])

/-- NEGOTIATE_ALGORITHMS (R370): HSS is the one acceptable algorithm. -/
def execNegotiateAlgorithms (offer : List SpdmAlg) (s : State) : Host.Outcome State Fault Refusal :=
  if offer.contains .hssLms then
    .next (State.answer { s with mgmt := { s.mgmt with negotiated := true } } spdmNegotiate [])
  else .next (s.spdmError spdmNegotiate spdmUnsupported)

/-- GET_DIGESTS (R370): SHA-256 of the certificate chain. -/
def execGetDigests (s : State) : Host.Outcome State Fault Refusal :=
  .next (s.answer spdmGetDigests (sha256 Config.certificate))

/-- GET_CERTIFICATE (R370): a part of the certificate chain. -/
def execGetCertificate (offset len : Nat) (s : State) : Host.Outcome State Fault Refusal :=
  .next (s.answer spdmGetCertificate ((Config.certificate.drop offset).take len))

/-- The leaves of each tree of the identity key (R371); no signature is left once the top tree's are used up. -/
def treeLeaves : Nat := 2 ^ lmsHeight
def Mgmt.exhausted (m : Mgmt) : Bool := decide (treeLeaves ≤ m.sigTop)

/-- The stores after an index has been used: the lower one counts, and the upper one with each of its rounds. -/
def Mgmt.commitIndex (m : Mgmt) : Mgmt :=
  if m.sigLow + 1 < treeLeaves then { m with sigLow := m.sigLow + 1 } else { m with sigTop := m.sigTop + 1, sigLow := 0 }

/-- A signed answer: its index is committed to both stores, and the answer leaves afterwards, so that a loss of power
between them costs one index and repeats none; with none left, ERROR Unspecified. -/
def State.signed (s : State) (req : Nat) (body nonce : List Byte) : State :=
  let m := s.mgmt
  if m.exhausted then s.spdmError req spdmUnspecified
  else { s with mgmt := { m.commitIndex with signing := m.signing ++ [⟨req, body, nonce ++ body, m.sigTop, m.sigLow⟩] } }

/-- The oldest signed answer leaves the device. -/
def State.releaseSigned (s : State) : Host.Outcome State Fault Refusal :=
  match s.mgmt.signing with
  | [] => .refused (.eventNotPending "CHALLENGE")
  | a :: l => .next (State.answer { s with mgmt := { s.mgmt with signing := l } } a.req
      (a.body ++ hssSign a.top a.low a.message))

/-- Measurement 3 (R370): the boot image's digest, extended by each update in order. -/
def Mgmt.measurement3 (m : Mgmt) : List Byte :=
  match m.measuredNow with
  | [] => []
  | d :: l => l.foldl (fun acc x => sha256 (acc ++ x)) d

/-- Measurement 2 (Table 18-3): the management controller's image in its active slot. -/
def Mgmt.measurement2 (m : Mgmt) : List Byte := (slotOf m.mgSlots m.mgActive).digest.getD (Config.shipped false m.mgActive)

/-- Security version numbers of both firmware kinds (measurement 5). -/
def Mgmt.measurement5 (m : Mgmt) : List Byte :=
  sha256 (natBytes m.running.svn 8 ++ natBytes (slotOf m.mgSlots m.mgActive).svn 8)

/-- A measurement by index (Table 18-3). -/
def Mgmt.measurementOf (m : Mgmt) (i : Nat) : Option (List Byte) :=
  match i with
  | 1 => some (Config.measurement 1)
  | 2 => some m.measurement2
  | 3 => some m.measurement3
  | 4 => some (Config.measurement 4)
  | 5 => some m.measurement5
  | _ => none

/-- CHALLENGE (R370, R371). -/
def execChallenge (nonce : List Byte) (s : State) : Host.Outcome State Fault Refusal :=
  .next (s.signed spdmChallenge (sha256 Config.certificate) nonce)

/-- GET_MEASUREMENTS (R370, R371), signed or not; an index that Table 18-3 does not give is an invalid
request. -/
def execGetMeasurements (index : Nat) (sign : Bool) (nonce : List Byte) (s : State) : Host.Outcome State Fault Refusal :=
  match s.mgmt.measurementOf index with
  | none => .next (s.spdmError spdmGetMeasurements spdmInvalidRequest)
  | some d => .next (if sign then s.signed spdmGetMeasurements d nonce else s.answer spdmGetMeasurements d)

/-- KEY_EXCHANGE (R370, R371): a signed answer opens a session, which FINISH establishes. -/
def execKeyExchange (session : Nat) (exchange : List Byte) (s : State) : Host.Outcome State Fault Refusal :=
  let s1 := s.signed spdmKeyExchange [] exchange
  if s.mgmt.exhausted then .next s1
  else .next { s1 with mgmt := { s1.mgmt with sessions := (session, false) :: s1.mgmt.sessions.filter (·.1 != session) } }

/-- FINISH (R370): whether the requester's verify data is right depends on keys outside the model and is
free. -/
def execSpdmFinish (session : Nat) (_verify : List Byte) (s : State) : Host.Outcome State Fault Refusal :=
  if !s.mgmt.sessions.any (·.1 == session) then .next (s.spdmError spdmFinishCode spdmInvalidSession)
  else
    let (n, s1) := s.draw
    if n % 2 = 0 then
      let l := s1.mgmt.sessions.map fun x => if x.1 == session then (x.1, true) else x
      .next (State.answer { s1 with mgmt := { s1.mgmt with sessions := l } } spdmFinishCode [])
    else .next (s1.spdmError spdmFinishCode spdmUnspecified)

/-- END_SESSION (R370). -/
def execEndSession (session : Nat) (s : State) : Host.Outcome State Fault Refusal :=
  if !s.mgmt.sessions.any (·.1 == session) then .next (s.spdmError spdmEndSession spdmInvalidSession)
  else .next (State.answer { s with mgmt := { s.mgmt with sessions := s.mgmt.sessions.filter (·.1 != session) } } spdmEndSession [])

/-! ## Keys of the link's encryption (R366) -/

/-- What a key message does to its stream. -/
def IdeStream.take (x : IdeStream) : KeyOp → IdeStream
  | .program key => { x with key := key }
  | .go => { x with going := !x.key.isEmpty }
  | .stop => { x with going := false }

/-- A key message takes effect when its session is established; otherwise it is dropped (assumption 131). -/
def State.takeKeyMessage (s : State) : Host.Outcome State Fault Refusal :=
  match s.mgmt.keyMessages with
  | [] => .refused (.eventNotPending "FINISH")
  | x :: l =>
    let m := { s.mgmt with keyMessages := l }
    .next { s with mgmt :=
      if m.sessions.contains (x.session, true) then
        { m with ide := m.ide.modify x.stream (IdeStream.take · x.op) }
      else m }

end Sys2Proof.Machine
end

