-- ==== Sys2Proof/Machine/Windows.lean ====
section
/-!
DEFINITION. Host window A (R369, Tables 18-6 to 18-8): what a write of each register does and what a read
returns; and the reads of window C (R363, R364): stele records, stele registers, wait-table entries.
-/

namespace Sys2Proof.Machine

/-! ## The parts of window A (R367, R368) -/

/-- Where an offset lies: the device area, or a register of the page of a bound context. -/
inductive Place where
  | device (off : Nat)
  | page (ctx off : Nat)
  deriving DecidableEq, Repr

/-- The contexts bound to a function, renumbered densely in increasing order (R367). -/
def State.boundTo (s : State) (fn : Nat) : List Nat := (List.range contexts).filter fun c => s.functionOf c == some fn

/-- The place of an offset in a function's window A; none where nothing lies. -/
def State.placeOf (s : State) (fn off : Nat) : Option Place :=
  if off < 0x01000000 then some (.device off)
  else ((s.boundTo fn)[(off - 0x01000000) / 0x40000]?).map fun c => .page c ((off - 0x01000000) % 0x40000)

/-- Index of an offset in an array of n registers at `base`, `step` bytes apart. -/
def indexIn (off base step n : Nat) : Option Nat :=
  if base ≤ off ∧ (off - base) % step = 0 ∧ (off - base) / step < n then some ((off - base) / step) else none

/-! ## Writes of the device area (Table 18-6) -/

/-- Changing a management register. -/
def State.setMgmt (s : State) (f : Mgmt → Mgmt) : Host.Outcome State Fault Refusal := .next { s with mgmt := f s.mgmt }

/-- A translation command by its OP (R250). -/
def State.writeTranslation (s : State) (v : Word) : Host.Outcome State Fault Refusal :=
  if fieldOf v 63 62 = 0 then execTranslationDrop v s
  else if fieldOf v 63 62 = 1 then execTranslationWritebackInvalidate v s
  else execTranslationOpReserved v s

/-- FWCMD by its OP (Table 18-4). -/
def State.writeFwcmd (s : State) (v : Word) : Host.Outcome State Fault Refusal :=
  match fieldOf v 3 0 with
  | 1 => execFirmwareLiveUpdate s
  | 2 => execFirmwareSlotSelect s
  | _ => execFirmwareCmdIgnored (v.setWidth 4) s

/-- The arrays of registers in the device area. -/
def State.writeDeviceArray (s : State) (off : Nat) (v : Word) : Host.Outcome State Fault Refusal :=
  match indexIn off 0x508 8 8, indexIn off 0x8000 8 8, indexIn off 0x8100 16 64, indexIn off 0x8108 16 64 with
  | some d, _, _, _ => s.setMgmt fun m => { m with dieCap := m.dieCap.set d (fieldOf v 10 0) }
  | _, some j, _, _ => execFunctionBindingWrite j v s
  | _, _, some f, _ =>
    s.setMgmt fun m => { m with wbBase := putBy (·.1) (f, v &&& 0x800FFFFFFFFF0000#64) m.wbBase }
  | _, _, _, some f => s.setMgmt fun m => { m with wbLimit := putBy (·.1) (f, v) m.wbLimit }
  | _, _, _, _ => .next s

/-- A write in the device area through the PF; read-only and unassigned offsets ignore it. -/
def State.writeDevice (s : State) (off : Nat) (v : Word) : Host.Outcome State Fault Refusal :=
  match off with
  | 0x100 => execRelayPartitionWrite (v &&& 0xFFFFFFFF#64) s
  | 0x108 => execCollectiveCancel v s
  | 0x200 => s.setMgmt fun m => { m with transRoot := v &&& 0x0000FFFFFFFFF800#64 }
  | 0x208 => s.writeTranslation v
  | 0x308 => s.setMgmt fun m => { m with riskCtl := v &&& 0x1FFFFF#64 }
  | 0x310 => s.setMgmt fun m => { m with riskPkt := v &&& ~~~(0x7F#64) }
  | 0x400 => s.setMgmt fun m => { m with topology := v &&& ~~~(0xFFFF#64) }
  | 0x500 => s.setMgmt fun m => { m with modCap := fieldOf v 12 0 }
  | 0x600 => s.setMgmt fun m => { m with fwImg := v &&& ~~~(0xFFF#64) }
  | 0x608 => s.setMgmt fun m => { m with fwLen := v &&& 0xFFFFFF#64 }
  | 0x610 => s.writeFwcmd v
  | _ => s.writeDeviceArray off v

/-! ## Writes of a context's page (Table 18-8) -/

/-- DBGCMD by its OP (Table 15-4). -/
def State.writeDbgcmd (s : State) (ctx : Nat) (v : Word) : Host.Outcome State Fault Refusal :=
  let k : TKey := ⟨ctx, fieldOf v 31 0⟩
  match fieldOf v 63 60 with
  | 1 => execDbgHalt k s
  | 2 => execDbgResume k s
  | 3 => execDbgStep k (fieldOf v 37 32) s
  | 4 => execDbgSnap k s
  | 5 => execDbgLoad k s
  | 6 => execDbgDiscard k s
  | _ => execDbgcmdUndefinedOp ctx v s

/-- A queue register (Table 13-2). -/
def State.writeQueue (s : State) (k : QKey) (reg : Nat) (v : Word) : Host.Outcome State Fault Refusal :=
  match reg with
  | 0x00 => .next (s.modQueue k fun q => { q with base := v &&& ~~~(0xFFF#64) })
  | 0x08 => execQctlWrite k v s
  | 0x18 => execQnotify k (v.setWidth 32) s
  | 0x20 => if v.getLsbD 8 then execQstatErrClear k s else .next s
  | _ => .next s

/-- Word i of range register k (R369). -/
def State.writeRange (s : State) (ctx k i : Nat) (v : Word) : Host.Outcome State Fault Refusal :=
  if i = 1 then execRangeRegisterCommit ctx k v s else .next (s.stageWord ctx k i v)

/-- The arrays of registers in a context's page. -/
def State.writePageArray (s : State) (ctx off : Nat) (v : Word) : Host.Outcome State Fault Refusal :=
  match indexIn off 0x40 8 9, indexIn off 0x1000 8 64, indexIn off 0x2000 8 512 with
  | some j, _, _ => execCoreSetWrite ctx j v s
  | _, some n, _ => s.writeRange ctx (n / 4) (n % 4) v
  | _, _, some n => s.writeQueue ⟨ctx, n / 8⟩ (8 * (n % 8)) v
  | _, _, _ => .next s

/-- A write in a context's page; read-only and unassigned offsets ignore it. -/
def State.writePage (s : State) (ctx off : Nat) (v : Word) : Host.Outcome State Fault Refusal :=
  match off with
  | 0x000 => execContextControlWrite ctx v s
  | 0x008 => if v.getLsbD 0 then execCtxReset ctx s else .next s
  | 0x100 => .next (s.modCtx ctx fun c => { c with saveBase := v })
  | 0x108 => .next (s.modCtx ctx fun c => { c with saveSize := v })
  | 0x200 => .next (s.modCtx ctx fun c => { c with fqBase := v &&& ~~~(0xFFF#64) })
  | 0x208 => execFqctlWrite ctx v s
  | 0x218 => execFqreadWrite ctx (v.setWidth 32) s
  | 0x300 => execDbgctlWrite ctx (v.getLsbD 0) s
  | 0x308 => s.writeDbgcmd ctx v
  | 0x400 => if v.getLsbD 63 then execReplayAll ctx s else execReplayPage ⟨ctx, fieldOf v 35 0⟩ s
  | _ => s.writePageArray ctx off v

/-- May an access reach a register of window A: one aligned read or write of 8 bytes (R369)? -/
def wholeRegister (off n : Nat) : Bool := off % 8 == 0 && n == 8

/-- REGISTER_WRITE (R369): a write of these bytes to window A of a function. One aligned write of 8 bytes to a register
that has a row of its own does what that row gives; one to an offset where nothing lies changes nothing; nor does a
VF's to the device area. A write of another size or alignment is an Unsupported Request, and changes nothing. -/
def execRegisterWrite (fn off : Nat) (data : List Byte) (s : State) : Host.Outcome State Fault Refusal :=
  if !wholeRegister off data.length then .next s.unsupported
  else match s.placeOf fn off with
    | some (.device o) => if fn = 0 then s.writeDevice o (wordOf data) else .next s
    | some (.page c o) => s.writePage c o (wordOf data)
    | none => .next s

/-! ## Reads of window A (R369) -/

/-- DEVSTAT (R375). -/
def Mgmt.devstat (m : Mgmt) : Word := atBit (b2n m.ready) 0 ||| atBit (b2n m.inReset) 1

/-- A version word: major and minor, 16 bits each (R4: the bits above are reserved and read 0). -/
def FwSlot.version (x : FwSlot) : Word := atBit (x.major % 65536) 16 ||| atBit (x.minor % 65536) 0

/-- FWSTAT (Table 18-4). -/
def Mgmt.fwstat (m : Mgmt) : Word :=
  atBit m.running.major 48 ||| atBit (m.running.minor % 65536) 32 ||| atBit (m.handover % 256) 24 ||| atBit m.fwResult 4 |||
    atBit (b2n m.fwBootFallback) 3 ||| atBit (b2n m.fwActive) 0

/-- DEVSTAT and the identity registers (Table 18-7), which every function shows. -/
def Mgmt.identity (m : Mgmt) (off : Nat) : Option Word :=
  match off with
  | 0x00 => some m.devstat
  | 0x10 => some (atBit 0x42 8 ||| atBit 1 0)
  | 0x18 => some m.running.version
  | 0x20 => some (slotOf m.mgSlots m.mgActive).version
  | 0x28 => some (atBit 1 16 ||| atBit 2 0)
  | _ => none

/-- The capacity entry of a core (R344). -/
def Core.capacityEntry (c : Core) : Word := atBit (b2n c.retired) 31 ||| atBit c.capacity 0

/-- Entry i of a hub's retired-frame list (R346). -/
def Hub.frameEntry (u : Hub) (i : Nat) : Word :=
  match u.retiredFrames[i]? with
  | some f => atBit 1 63 ||| atBit f 16
  | none => 0

/-- Word j of the function-binding table. -/
def Mgmt.bindingWord (m : Mgmt) (j : Nat) : Word := wordOf ((m.binding.drop (8 * j)).take 8)

/-- The arrays of the device area. -/
def State.readDeviceArray (s : State) (off : Nat) : Word :=
  let m := s.mgmt
  match indexIn off 0x508 8 8, indexIn off 0x580 8 8, indexIn off 0x1000 8 576, indexIn off 0x4000 8 2048,
    indexIn off 0x8000 8 8, indexIn off 0x8100 16 64, indexIn off 0x8108 16 64 with
  | some d, _, _, _, _, _, _ => BitVec.ofNat 64 (m.dieCap.getD d 1100)
  | _, some d, _, _, _, _, _ => BitVec.ofNat 64 (m.dieClk.getD d 1900)
  | _, _, some c, _, _, _, _ => (s.core c).capacityEntry
  | _, _, _, some n, _, _, _ => (s.hub (n / 512)).frameEntry (n % 512)
  | _, _, _, _, some j, _, _ => m.bindingWord j
  | _, _, _, _, _, some f, _ => m.wbBaseOf f
  | _, _, _, _, _, _, some f => m.wbLimitOf f
  | _, _, _, _, _, _, _ => 0

/-- A read in the device area through the PF. -/
def State.readDevice (s : State) (off : Nat) : Word :=
  let m := s.mgmt
  match off with
  | 0x100 => m.relayPart
  | 0x200 => m.transRoot
  | 0x208 => atBit (b2n m.transStatus) 0 ||| atBit (b2n m.transRej) 1
  | 0x300 => m.risk.setWidth 64
  | 0x308 => m.riskCtl
  | 0x310 => m.riskPkt
  | 0x400 => s.topologyWord
  | 0x500 => BitVec.ofNat 64 m.modCap
  | 0x600 => m.fwImg
  | 0x608 => m.fwLen
  | 0x618 => m.fwstat
  | 0x700 => BitVec.ofNat 64 s.capacityTop
  | _ => (m.identity off).getD (s.readDeviceArray off)

/-- FQSTAT (Table 15-1). -/
def Context.fqstat (c : Context) : Word :=
  atBit (b2n c.rfail) 32 ||| atBit c.held.length 16 ||| atBit (c.noring % 2 ^ 15) 1 ||| atBit (b2n c.fqFull) 0

/-- QSTAT (Table 13-2): IDLE while READ equals WRITE and no packet is in decode. -/
def Queue.qstat (q : Queue) : Word :=
  atBit (b2n (q.read == q.write && q.held.isNone)) 9 ||| atBit (b2n q.err) 8 ||| q.status.setWidth 64

/-- CTXSTAT (Table 18-8). -/
def State.ctxstat (s : State) (ctx : Nat) : Word :=
  let c := s.ctx ctx
  atBit (b2n c.resetting) 0 ||| atBit (b2n c.lost) 1 ||| atBit (b2n (s.idle ctx)) 2

/-- A register of a queue. -/
def Queue.register (q : Queue) (reg : Nat) : Word :=
  match reg with
  | 0x00 => q.base
  | 0x08 => q.ctl
  | 0x10 => q.read.setWidth 64
  | 0x20 => q.qstat
  | _ => 0

/-- The bits of a range register's word that read as they are: reserved ones read 0 (R4, Table 12-1). -/
def rangeFields (i : Nat) : Word :=
  match i with
  | 0 => 0x00FFFFFFFFFF0000
  | 1 => 0x00FFFFFFFFFFFF80
  | 2 => BitVec.allOnes 64
  | _ => 0xFFF

/-- Word i of a range register, with USE (Table 12-1). -/
def Context.rangeWord (c : Context) (k i : Nat) : Word :=
  ((c.ranges.getD k 0).extractLsb' (64 * i) 64 &&& rangeFields i) ||| (if i = 3 then atBit (c.uses.getD k 0 % 65536) 48 else 0)

/-- The arrays of a context's page. -/
def Context.readArray (c : Context) (off : Nat) : Word :=
  match indexIn off 0x40 8 9, indexIn off 0x1000 8 64, indexIn off 0x2000 8 512 with
  | some j, _, _ => c.coreSet.extractLsb' (64 * j) 64
  | _, some n, _ => c.rangeWord (n / 4) (n % 4)
  | _, _, some n => (c.queue (n / 8)).register (8 * (n % 8))
  | _, _, _ => 0

/-- A read in a context's page. -/
def State.readPage (s : State) (ctx off : Nat) : Word :=
  let c := s.ctx ctx
  match off with
  | 0x000 => c.control
  | 0x010 => s.ctxstat ctx
  | 0x100 => c.saveBase
  | 0x108 => c.saveSize
  | 0x200 => c.fqBase
  | 0x208 => c.fqCtl &&& 0xF100#64
  | 0x210 => c.fqWrite.setWidth 64
  | 0x218 => c.fqRead.setWidth 64
  | 0x220 => c.fqstat
  | 0x300 => atBit (b2n c.attach) 0
  | 0x310 => BitVec.ofNat 64 c.dbgStat
  | 0x318 => c.dbgFrame
  | _ => c.readArray off

/-- A read of n bytes of window A of a function (R369): none is Unsupported Request. -/
def State.readWindowA (s : State) (fn off n : Nat) : Option Word :=
  if !wholeRegister off n then none
  else match s.placeOf fn off with
    | some (.device o) => some (if fn = 0 then s.readDevice o else (s.mgmt.identity o).getD 0)
    | some (.page c o) => some (s.readPage c o)
    | none => some 0

/-! ## Reads of window C (R363, R364) -/

/-- Record number n of a hub's segment: the slot's eight words, zeros where nothing was written. -/
def State.steleRecord (s : State) (h n : Nat) : List Word :=
  let g := (s.hub h).stele
  let back := (g.head + 2 * steleSlots - 1 - n % steleSlots) % steleSlots
  if back < g.records.length then (g.records[g.records.length - 1 - back]?).getD (List.replicate 8 0)
  else List.replicate 8 0

/-- STHEAD, STDROP and STSTAT (Table 17-4). -/
def State.sthead (s : State) (h : Nat) : Word := BitVec.ofNat 64 (s.hub h).stele.head
def State.stdrop (s : State) (h : Nat) : Word := BitVec.ofNat 64 (s.hub h).stele.drop
def State.ststat (s : State) : Word := atBit (b2n s.mgmt.steleRej) 1 ||| atBit (b2n s.mgmt.steleErasing) 0

/-- The words of an entry in use (Table 17-3). -/
def WaitEntry.words (e : WaitEntry) (ctx core slot : Nat) (serial cid : Word) : List Word :=
  [ atBit slot 50 ||| atBit core 56,
    (serial <<< 16) ||| atBit ctx 2 ||| atBit e.kind 8 ||| atBit (core / 256) 0, e.a0, e.a1, e.a2, e.obj, cid, e.since ]

/-- The warp in a slot of a core, with its team. -/
def State.warpIn (s : State) (core slot : Nat) : Option (Team × Warp) :=
  s.teams.findSome? fun t => (t.warps.find? fun w => w.core == core && w.slot == slot && w.wait.isSome).map fun w => (t, w)

/-- The awaited set of a launch's entry as it is now: FREE of the edge it awaits (R363, Table 17-5). -/
def State.launchNow (s : State) (l : Launch) (e : WaitEntry) : WaitEntry :=
  match e.kind, (s.launchFiring l).bind fun f => f.edges[e.obj.toNat]? with
  | 11, some x => { e with a0 := BitVec.ofNat 64 x.free }
  | _, _ => e

/-- The waiting launch or decode that holds a foundry entry of a hub: context, causal id, entry. -/
def State.foundryWait (s : State) (h i : Nat) : Option (Nat × Word × WaitEntry) :=
  let launch := s.launches.findSome? fun l =>
    if homeHub l.ctx = h ∧ l.waitIdx = some i then
      l.wait.map fun e => (l.ctx, ((s.packet? l.packet).map (·.cause)).getD 0, s.launchNow l e)
    else none
  let decode := s.ctxs.findSome? fun c =>
    if homeHub c.num = h then c.queues.findSome? fun q => match q.held with
      | some (some j, e, cid) => if j = i then some (c.num, cid, e) else none
      | _ => none
    else none
  launch.orElse fun _ => decode

/-- Entry i of a hub's wait table (R363): eight words, zeros when it is not in use. -/
def State.waitTable (s : State) (h i : Nat) : List Word :=
  let none_ := List.replicate 8 (0 : Word)
  if i < 9216 then
    let core := 144 * h + i / 64
    match s.warpIn core (i % 64) with
    | some (t, w) => (w.wait.map fun e => (s.awaitNow t w e).words t.ctx core (i % 64) (w.serial &&& 0xFFFFFFFFFFFF#64) w.cause).getD none_
    | none => none_
  else match s.foundryWait h i with
    | some (ctx, cid, e) => e.words ctx 0x3FF 0 0 cid
    | none => none_

/-- Bytes of the stele in window C: four segments of 2^28 records of 64 bytes (R364, R368). -/
def segmentBytes : Nat := steleSlots * 64
def steleBytes : Nat := 4 * segmentBytes

/-- A byte of the words of a record or entry. -/
def byteOf (ws : List Word) (k : Nat) : Byte := ((ws.getD (k / 8) 0).extractLsb' (8 * (k % 8)) 8)

/-- The stele registers by number (Table 17-4): STHEAD h, STDROP h, STERASE, which is not read, STSTAT. -/
def State.steleRegister (s : State) (i : Nat) : Word :=
  if i < 4 then s.sthead i else if i < 8 then s.stdrop (i - 4) else if i = 9 then s.ststat else 0

/-- The byte of window C at an offset (R368): the stele's records, then the wait tables and the stele registers where
the device puts them; 0 elsewhere (assumption 133). -/
def State.windowCByte (s : State) (off : Nat) : Byte :=
  if off < steleBytes then byteOf (s.steleRecord (off / segmentBytes) (off % segmentBytes / 64)) (off % 64)
  else
    let o := off - steleBytes
    let table := (List.range 4).find? fun h => decide (Config.waitTableAt h ≤ o ∧ o < Config.waitTableAt h + 64 * 10240)
    let register := (List.range 10).find? fun i => decide (Config.steleRegisterAt i ≤ o ∧ o < Config.steleRegisterAt i + 8)
    match table, register with
    | some h, _ => byteOf (s.waitTable h ((o - Config.waitTableAt h) / 64)) ((o - Config.waitTableAt h) % 64)
    | none, some i => byteOf [s.steleRegister i] (o - Config.steleRegisterAt i)
    | none, none => 0

/-- A read of n bytes of window C: the PF's only; none is Unsupported Request (R368). -/
def State.readWindowC (s : State) (fn off n : Nat) : Option (List Byte) :=
  if fn = 0 ∧ off + n ≤ 2 ^ 37 then some ((List.range n).map fun k => s.windowCByte (off + k)) else none

end Sys2Proof.Machine
end

