-- ==== Sys2Proof/Machine/Dispatch.lean ====
section
/-!
DEFINITION. The one match over all instructions: each arm is one call of that instruction's meaning.
-/

namespace Sys2Proof.Machine

def exec (i : Instr) (s : State) : Host.Outcome State Fault Refusal :=
  match i with
  | .nop o => Sys2Proof.Machine.execNop o s
  | .bra o => Sys2Proof.Machine.execBra o s
  | .brx o => Sys2Proof.Machine.execBrx o s
  | .call o => Sys2Proof.Machine.execCall o s
  | .callx o => Sys2Proof.Machine.execCallx o s
  | .ret o => Sys2Proof.Machine.execRet o s
  | .bc o => Sys2Proof.Machine.execBc o s
  | .bany o => Sys2Proof.Machine.execBany o s
  | .ball o => Sys2Proof.Machine.execBall o s
  | .vif o => Sys2Proof.Machine.execVif o s
  | .velse o => Sys2Proof.Machine.execVelse o s
  | .vend o => Sys2Proof.Machine.execVend o s
  | .vbrk o => Sys2Proof.Machine.execVbrk o s
  | .vcont o => Sys2Proof.Machine.execVcont o s
  | .lbrk o => Sys2Proof.Machine.execLbrk o s
  | .loop o => Sys2Proof.Machine.execLoop o s
  | .loopx o => Sys2Proof.Machine.execLoopx o s
  | .yield o => Sys2Proof.Machine.execYield o s
  | .sleep o => Sys2Proof.Machine.execSleep o s
  | .exit o => Sys2Proof.Machine.execExit o s
  | .bar o => Sys2Proof.Machine.execBar o s
  | .bara o => Sys2Proof.Machine.execBara o s
  | .barw o => Sys2Proof.Machine.execBarw o s
  | .waitc o => Sys2Proof.Machine.execWaitc o s
  | .waitp o => Sys2Proof.Machine.execWaitp o s
  | .trap o => Sys2Proof.Machine.execTrap o s
  | .bkpt o => Sys2Proof.Machine.execBkpt o s
  | .li o => Sys2Proof.Machine.execLi o s
  | .lih o => Sys2Proof.Machine.execLih o s
  | .sadd o => Sys2Proof.Machine.execSadd o s
  | .ssub o => Sys2Proof.Machine.execSsub o s
  | .smul o => Sys2Proof.Machine.execSmul o s
  | .smulh o => Sys2Proof.Machine.execSmulh o s
  | .sand o => Sys2Proof.Machine.execSand o s
  | .sor o => Sys2Proof.Machine.execSor o s
  | .sxor o => Sys2Proof.Machine.execSxor o s
  | .snot o => Sys2Proof.Machine.execSnot o s
  | .sshl o => Sys2Proof.Machine.execSshl o s
  | .sshr o => Sys2Proof.Machine.execSshr o s
  | .ssra o => Sys2Proof.Machine.execSsra o s
  | .smin o => Sys2Proof.Machine.execSmin o s
  | .smax o => Sys2Proof.Machine.execSmax o s
  | .sclz o => Sys2Proof.Machine.execSclz o s
  | .spopc o => Sys2Proof.Machine.execSpopc o s
  | .scmp o => Sys2Proof.Machine.execScmp o s
  | .ssel o => Sys2Proof.Machine.execSsel o s
  | .smov o => Sys2Proof.Machine.execSmov o s
  | .sext o => Sys2Proof.Machine.execSext o s
  | .sbfe o => Sys2Proof.Machine.execSbfe o s
  | .iadd o => Sys2Proof.Machine.execIadd o s
  | .isub o => Sys2Proof.Machine.execIsub o s
  | .imul24 o => Sys2Proof.Machine.execImul24 o s
  | .imul o => Sys2Proof.Machine.execImul o s
  | .imulh o => Sys2Proof.Machine.execImulh o s
  | .imad24 o => Sys2Proof.Machine.execImad24 o s
  | .iabs o => Sys2Proof.Machine.execIabs o s
  | .ineg o => Sys2Proof.Machine.execIneg o s
  | .imin o => Sys2Proof.Machine.execImin o s
  | .imax o => Sys2Proof.Machine.execImax o s
  | .iand o => Sys2Proof.Machine.execIand o s
  | .ior o => Sys2Proof.Machine.execIor o s
  | .ixor o => Sys2Proof.Machine.execIxor o s
  | .inot o => Sys2Proof.Machine.execInot o s
  | .ishl o => Sys2Proof.Machine.execIshl o s
  | .ishr o => Sys2Proof.Machine.execIshr o s
  | .isra o => Sys2Proof.Machine.execIsra o s
  | .irot o => Sys2Proof.Machine.execIrot o s
  | .iclz o => Sys2Proof.Machine.execIclz o s
  | .ipopc o => Sys2Proof.Machine.execIpopc o s
  | .ibrev o => Sys2Proof.Machine.execIbrev o s
  | .ibfe o => Sys2Proof.Machine.execIbfe o s
  | .ibfi o => Sys2Proof.Machine.execIbfi o s
  | .isel o => Sys2Proof.Machine.execIsel o s
  | .icmp o => Sys2Proof.Machine.execIcmp o s
  | .iaddc o => Sys2Proof.Machine.execIaddc o s
  | .isad o => Sys2Proof.Machine.execIsad o s
  | .iavg o => Sys2Proof.Machine.execIavg o s
  | .idp4 o => Sys2Proof.Machine.execIdp4 o s
  | .iext o => Sys2Proof.Machine.execIext o s
  | .ilop3 o => Sys2Proof.Machine.execIlop3 o s
  | .ishfd o => Sys2Proof.Machine.execIshfd o s
  | .fadd o => Sys2Proof.Machine.execFadd o s
  | .fsub o => Sys2Proof.Machine.execFsub o s
  | .fmul o => Sys2Proof.Machine.execFmul o s
  | .fma o => Sys2Proof.Machine.execFma o s
  | .fnma o => Sys2Proof.Machine.execFnma o s
  | .fms o => Sys2Proof.Machine.execFms o s
  | .fnms o => Sys2Proof.Machine.execFnms o s
  | .fmin o => Sys2Proof.Machine.execFmin o s
  | .fmax o => Sys2Proof.Machine.execFmax o s
  | .fabs o => Sys2Proof.Machine.execFabs o s
  | .fneg o => Sys2Proof.Machine.execFneg o s
  | .fcpsgn o => Sys2Proof.Machine.execFcpsgn o s
  | .fcmp o => Sys2Proof.Machine.execFcmp o s
  | .fclass o => Sys2Proof.Machine.execFclass o s
  | .frcp o => Sys2Proof.Machine.execFrcp o s
  | .frnd o => Sys2Proof.Machine.execFrnd o s
  | .fscale o => Sys2Proof.Machine.execFscale o s
  | .fexpt o => Sys2Proof.Machine.execFexpt o s
  | .fmant o => Sys2Proof.Machine.execFmant o s
  | .fdot2 o => Sys2Proof.Machine.execFdot2 o s
  | .fsat o => Sys2Proof.Machine.execFsat o s
  | .cvt o => Sys2Proof.Machine.execCvt o s
  | .cvtmx o => Sys2Proof.Machine.execCvtmx o s
  | .cvtsc o => Sys2Proof.Machine.execCvtsc o s
  | .flgr o => Sys2Proof.Machine.execFlgr o s
  | .flgc o => Sys2Proof.Machine.execFlgc o s
  | .csin o => Sys2Proof.Machine.execCsin o s
  | .ccos o => Sys2Proof.Machine.execCcos o s
  | .catan o => Sys2Proof.Machine.execCatan o s
  | .cexp2 o => Sys2Proof.Machine.execCexp2 o s
  | .clog2 o => Sys2Proof.Machine.execClog2 o s
  | .ctanh o => Sys2Proof.Machine.execCtanh o s
  | .crsq o => Sys2Proof.Machine.execCrsq o s
  | .csqrt o => Sys2Proof.Machine.execCsqrt o s
  | .shfl o => Sys2Proof.Machine.execShfl o s
  | .bcast o => Sys2Proof.Machine.execBcast o s
  | .vote o => Sys2Proof.Machine.execVote o s
  | .matchX o => Sys2Proof.Machine.execMatchX o s
  | .redx o => Sys2Proof.Machine.execRedx o s
  | .scanx o => Sys2Proof.Machine.execScanx o s
  | .perm o => Sys2Proof.Machine.execPerm o s
  | .mov o => Sys2Proof.Machine.execMov o s
  | .movi o => Sys2Proof.Machine.execMovi o s
  | .shape o => Sys2Proof.Machine.execShape o s
  | .mkaff o => Sys2Proof.Machine.execMkaff o s
  | .expand o => Sys2Proof.Machine.execExpand o s
  | .xset o => Sys2Proof.Machine.execXset o s
  | .xmov o => Sys2Proof.Machine.execXmov o s
  | .fld o => Sys2Proof.Machine.execFld o s
  | .mma o => Sys2Proof.Machine.execMma o s
  | .accz o => Sys2Proof.Machine.execAccz o s
  | .accld o => Sys2Proof.Machine.execAccld o s
  | .accst o => Sys2Proof.Machine.execAccst o s
  | .accrd o => Sys2Proof.Machine.execAccrd o s
  | .accwr o => Sys2Proof.Machine.execAccwr o s
  | .bton o => Sys2Proof.Machine.execBton o s
  | .btpass o => Sys2Proof.Machine.execBtpass o s
  | .btq o => Sys2Proof.Machine.execBtq o s
  | .fldsc o => Sys2Proof.Machine.execFldsc o s
  | .acccp o => Sys2Proof.Machine.execAcccp o s
  | .lds o => Sys2Proof.Machine.execLds o s
  | .sts o => Sys2Proof.Machine.execSts o s
  | .atoms o => Sys2Proof.Machine.execAtoms o s
  | .spinv o => Sys2Proof.Machine.execSpinv o s
  | .spstat o => Sys2Proof.Machine.execSpstat o s
  | .ldsx o => Sys2Proof.Machine.execLdsx o s
  | .stsx o => Sys2Proof.Machine.execStsx o s
  | .reds o => Sys2Proof.Machine.execReds o s
  | .spfill o => Sys2Proof.Machine.execSpfill o s
  | .ld o => Sys2Proof.Machine.execLd o s
  | .st o => Sys2Proof.Machine.execSt o s
  | .atom o => Sys2Proof.Machine.execAtom o s
  | .red o => Sys2Proof.Machine.execRed o s
  | .ldr o => Sys2Proof.Machine.execLdr o s
  | .str o => Sys2Proof.Machine.execStr o s
  | .redr o => Sys2Proof.Machine.execRedr o s
  | .pref o => Sys2Proof.Machine.execPref o s
  | .fence o => Sys2Proof.Machine.execFence o s
  | .fencex o => Sys2Proof.Machine.execFencex o s
  | .l1inv o => Sys2Proof.Machine.execL1inv o s
  | .l1wb o => Sys2Proof.Machine.execL1wb o s
  | .sld o => Sys2Proof.Machine.execSld o s
  | .sst o => Sys2Proof.Machine.execSst o s
  | .satom o => Sys2Proof.Machine.execSatom o s
  | .cpy o => Sys2Proof.Machine.execCpy o s
  | .cpys o => Sys2Proof.Machine.execCpys o s
  | .cpyg o => Sys2Proof.Machine.execCpyg o s
  | .cpygat o => Sys2Proof.Machine.execCpygat o s
  | .cpyq o => Sys2Proof.Machine.execCpyq o s
  | .tagst o => Sys2Proof.Machine.execTagst o s
  | .tagld o => Sys2Proof.Machine.execTagld o s
  | .tagset o => Sys2Proof.Machine.execTagset o s
  | .watch o => Sys2Proof.Machine.execWatch o s
  | .unwatch o => Sys2Proof.Machine.execUnwatch o s
  | .watchq o => Sys2Proof.Machine.execWatchq o s
  | .emit o => Sys2Proof.Machine.execEmit o s
  | .emitn o => Sys2Proof.Machine.execEmitn o s
  | .emitq o => Sys2Proof.Machine.execEmitq o s
  | .fsopen o => Sys2Proof.Machine.execFsopen o s
  | .fsclose o => Sys2Proof.Machine.execFsclose o s
  | .fswait o => Sys2Proof.Machine.execFswait o s
  | .fsjoin o => Sys2Proof.Machine.execFsjoin o s
  | .fsstat o => Sys2Proof.Machine.execFsstat o s
  | .sigdec o => Sys2Proof.Machine.execSigdec o s
  | .sigadd o => Sys2Proof.Machine.execSigadd o s
  | .sigwait o => Sys2Proof.Machine.execSigwait o s
  | .csend o => Sys2Proof.Machine.execCsend o s
  | .crecv o => Sys2Proof.Machine.execCrecv o s
  | .crrs o => Sys2Proof.Machine.execCrrs o s
  | .ccopy o => Sys2Proof.Machine.execCcopy o s
  | .cwait o => Sys2Proof.Machine.execCwait o s
  | .cpeer o => Sys2Proof.Machine.execCpeer o s
  | .cbar o => Sys2Proof.Machine.execCbar o s
  | .cdone o => Sys2Proof.Machine.execCdone o s
  | .crank o => Sys2Proof.Machine.execCrank o s
  | .evt o => Sys2Proof.Machine.execEvt o s
  | .clkr o => Sys2Proof.Machine.execClkr o s
  | .causer o => Sys2Proof.Machine.execCauser o s
  | .rng o => Sys2Proof.Machine.execRng o s
  | .evtp o => Sys2Proof.Machine.execEvtp o s
  | .sysr o => Sys2Proof.Machine.execSysr o s
  | .sysw o => Sys2Proof.Machine.execSysw o s
  | .icinv o => Sys2Proof.Machine.execIcinv o s
  | .dbgh o => Sys2Proof.Machine.execDbgh o s
  | .pwrq o => Sys2Proof.Machine.execPwrq o s
  | .illegalOpcode w => Sys2Proof.Machine.execIllegalOpcode w s
  | .regReload k v => Sys2Proof.Machine.execRegReload k v s
  | .siblingHalt k => Sys2Proof.Machine.execSiblingHalt k s
  | .faultRecordDrain ctx => Sys2Proof.Machine.execFaultRecordDrain ctx s
  | .teamHaltComplete k => Sys2Proof.Machine.execTeamHaltComplete k s
  | .lateFault id => Sys2Proof.Machine.execLateFault id s
  | .teamAdmit id => Sys2Proof.Machine.execTeamAdmit id s
  | .drainExpiry k => Sys2Proof.Machine.execDrainExpiry k s
  | .teamSave k => Sys2Proof.Machine.execTeamSave k s
  | .quarantineWrite k => Sys2Proof.Machine.execQuarantineWrite k s
  | .teamRestore k => Sys2Proof.Machine.execTeamRestore k s
  | .teamStart k => Sys2Proof.Machine.execTeamStart k s
  | .requestComplete id => Sys2Proof.Machine.execRequestComplete id s
  | .tagProbeVerdict id => Sys2Proof.Machine.execTagProbeVerdict id s
  | .pageWalk id => Sys2Proof.Machine.execPageWalk id s
  | .hubStageReport core p => Sys2Proof.Machine.execHubStageReport core p s
  | .faultWindowClose p => Sys2Proof.Machine.execFaultWindowClose p s
  | .replayPage p => Sys2Proof.Machine.execReplayPage p s
  | .replayAll ctx => Sys2Proof.Machine.execReplayAll ctx s
  | .replayWalkResult p => Sys2Proof.Machine.execReplayWalkResult p s
  | .rd q => Sys2Proof.Machine.execRd q s
  | .wr q => Sys2Proof.Machine.execWr q s
  | .mwr q => Sys2Proof.Machine.execMwr q s
  | .rdata q tag => Sys2Proof.Machine.execRdata q tag s
  | .wack q tag => Sys2Proof.Machine.execWack q tag s
  | .parityUpdate core group => Sys2Proof.Machine.execParityUpdate core group s
  | .bankRetire core bank => Sys2Proof.Machine.execBankRetire core bank s
  | .poolCompactorMove k => Sys2Proof.Machine.execPoolCompactorMove k s
  | .mmaStart core arr => Sys2Proof.Machine.execMmaStart core arr s
  | .mmaComplete core arr => Sys2Proof.Machine.execMmaComplete core arr s
  | .mxOpComplete core id => Sys2Proof.Machine.execMxOpComplete core id s
  | .batonHandoff k => Sys2Proof.Machine.execBatonHandoff k s
  | .barrierWake k => Sys2Proof.Machine.execBarrierWake k s
  | .sleepExpiry k => Sys2Proof.Machine.execSleepExpiry k s
  | .sigwaitReread k => Sys2Proof.Machine.execSigwaitReread k s
  | .scopeReply k => Sys2Proof.Machine.execScopeReply k s
  | .emitRecordArrival k => Sys2Proof.Machine.execEmitRecordArrival k s
  | .gatherTimeout ctx firing node => Sys2Proof.Machine.execGatherTimeout ctx firing node s
  | .copyCommandStart core ch => Sys2Proof.Machine.execCopyCommandStart core ch s
  | .copyDataReturn core ch => Sys2Proof.Machine.execCopyDataReturn core ch s
  | .copyCommandComplete core ch => Sys2Proof.Machine.execCopyCommandComplete core ch s
  | .remoteAccessServe r => Sys2Proof.Machine.execRemoteAccessServe r s
  | .qnotify q v => Sys2Proof.Machine.execQnotify q v s
  | .notifyWordRead q => Sys2Proof.Machine.execNotifyWordRead q s
  | .qctlWrite q v => Sys2Proof.Machine.execQctlWrite q v s
  | .qstatErrClear q => Sys2Proof.Machine.execQstatErrClear q s
  | .launchPacket q => Sys2Proof.Machine.execLaunchPacket q s
  | .graphPacket q => Sys2Proof.Machine.execGraphPacket q s
  | .waitPacket q => Sys2Proof.Machine.execWaitPacket q s
  | .signalPacket q => Sys2Proof.Machine.execSignalPacket q s
  | .castPacket q => Sys2Proof.Machine.execCastPacket q s
  | .badKind q => Sys2Proof.Machine.execBadKind q s
  | .waitPacketSatisfied id => Sys2Proof.Machine.execWaitPacketSatisfied id s
  | .collectiveStart id => Sys2Proof.Machine.execCollectiveStart id s
  | .relaySendRequest m => Sys2Proof.Machine.execRelaySendRequest m s
  | .relayPayload m data => Sys2Proof.Machine.execRelayPayload m data s
  | .relayAck m => Sys2Proof.Machine.execRelayAck m s
  | .relayOpComplete id => Sys2Proof.Machine.execRelayOpComplete id s
  | .cbarArrival tag rank chan => Sys2Proof.Machine.execCbarArrival tag rank chan s
  | .collWatchdog tag => Sys2Proof.Machine.execCollWatchdog tag s
  | .ralbexFlit port intact m => Sys2Proof.Machine.execRalbexFlit port intact m s
  | .linkRetrain port => Sys2Proof.Machine.execLinkRetrain port s
  | .contextControlWrite ctx v => Sys2Proof.Machine.execContextControlWrite ctx v s
  | .coreSetWrite ctx j v => Sys2Proof.Machine.execCoreSetWrite ctx j v s
  | .ctxReset ctx => Sys2Proof.Machine.execCtxReset ctx s
  | .contextResetComplete ctx => Sys2Proof.Machine.execContextResetComplete ctx s
  | .fqctlWrite ctx v => Sys2Proof.Machine.execFqctlWrite ctx v s
  | .fqreadWrite ctx v => Sys2Proof.Machine.execFqreadWrite ctx v s
  | .dbgHalt k => Sys2Proof.Machine.execDbgHalt k s
  | .dbgResume k => Sys2Proof.Machine.execDbgResume k s
  | .dbgStep k w => Sys2Proof.Machine.execDbgStep k w s
  | .dbgSnap k => Sys2Proof.Machine.execDbgSnap k s
  | .dbgLoad k => Sys2Proof.Machine.execDbgLoad k s
  | .dbgDiscard k => Sys2Proof.Machine.execDbgDiscard k s
  | .dbgcmdUndefinedOp ctx v => Sys2Proof.Machine.execDbgcmdUndefinedOp ctx v s
  | .dbgctlWrite ctx attach => Sys2Proof.Machine.execDbgctlWrite ctx attach s
  | .translationDrop v => Sys2Proof.Machine.execTranslationDrop v s
  | .translationWritebackInvalidate v => Sys2Proof.Machine.execTranslationWritebackInvalidate v s
  | .translationOpReserved v => Sys2Proof.Machine.execTranslationOpReserved v s
  | .translationCommandComplete => Sys2Proof.Machine.execTranslationCommandComplete s
  | .rangeRegisterCommit ctx k v => Sys2Proof.Machine.execRangeRegisterCommit ctx k v s
  | .functionBindingWrite j v => Sys2Proof.Machine.execFunctionBindingWrite j v s
  | .relayPartitionWrite v => Sys2Proof.Machine.execRelayPartitionWrite v s
  | .relayPartitionApply => Sys2Proof.Machine.execRelayPartitionApply s
  | .collectiveCancel tag => Sys2Proof.Machine.execCollectiveCancel tag s
  | .riskSample temp => Sys2Proof.Machine.execRiskSample temp s
  | .firmwareLiveUpdate => Sys2Proof.Machine.execFirmwareLiveUpdate s
  | .firmwareSlotSelect => Sys2Proof.Machine.execFirmwareSlotSelect s
  | .firmwareCmdIgnored op => Sys2Proof.Machine.execFirmwareCmdIgnored op s
  | .firmwareVerifyComplete v => Sys2Proof.Machine.execFirmwareVerifyComplete v s
  | .firstHeartbeat => Sys2Proof.Machine.execFirstHeartbeat s
  | .heartbeatTimeout => Sys2Proof.Machine.execHeartbeatTimeout s
  | .throttle r => Sys2Proof.Machine.execThrottle r s
  | .thermalReset temp => Sys2Proof.Machine.execThermalReset temp s
  | .l2Mode hub millivolts => Sys2Proof.Machine.execL2Mode hub millivolts s
  | .l2ModeChangeComplete hub => Sys2Proof.Machine.execL2ModeChangeComplete hub s
  | .scrub pa e => Sys2Proof.Machine.execScrub pa e s
  | .timeSync point offset unc => Sys2Proof.Machine.execTimeSync point offset unc s
  | .steleRecordWrite emitter => Sys2Proof.Machine.execSteleRecordWrite emitter s
  | .steleErase => Sys2Proof.Machine.execSteleErase s
  | .steleEraseComplete => Sys2Proof.Machine.execSteleEraseComplete s
  | .deviceReset cause => Sys2Proof.Machine.execDeviceReset cause s
  | .powerOn => Sys2Proof.Machine.execPowerOn s
  | .powerLoss => Sys2Proof.Machine.execPowerLoss s
  | .hostWindowBAccess a => Sys2Proof.Machine.execHostWindowBAccess a s
  | .registerWrite fn off data => Sys2Proof.Machine.execRegisterWrite fn off data s
  | .getVersion => Sys2Proof.Machine.execGetVersion s
  | .getCapabilities => Sys2Proof.Machine.execGetCapabilities s
  | .negotiateAlgorithms offer => Sys2Proof.Machine.execNegotiateAlgorithms offer s
  | .getDigests => Sys2Proof.Machine.execGetDigests s
  | .getCertificate offset len => Sys2Proof.Machine.execGetCertificate offset len s
  | .challenge nonce => Sys2Proof.Machine.execChallenge nonce s
  | .getMeasurements index sign nonce => Sys2Proof.Machine.execGetMeasurements index sign nonce s
  | .keyExchange session exchange => Sys2Proof.Machine.execKeyExchange session exchange s
  | .spdmFinish session verify => Sys2Proof.Machine.execSpdmFinish session verify s
  | .endSession session => Sys2Proof.Machine.execEndSession session s
  | .writeBackAcknowledge core id => Sys2Proof.Machine.execWriteBackAcknowledge core id s
  | .scratchpadAccessComplete core => Sys2Proof.Machine.execScratchpadAccessComplete core s
  | .icinvAcknowledge k => Sys2Proof.Machine.execIcinvAcknowledge k s
  | .rendezvousCredit m => Sys2Proof.Machine.execRendezvousCredit m s
  | .stampingPointLockLoss point => Sys2Proof.Machine.execStampingPointLockLoss point s
  | .sequentialFetchPastCode => Sys2Proof.Machine.execSequentialFetchPastCode s

end Sys2Proof.Machine
end

