-- ==== Sys2Proof/Machine/Events.lean ====
section
/-!
DEFINITION. The steps of the device's own agents that may be due, read off what the state holds in
progress. Each is the meaning of an event of the opcode table, applied to what names it; one that is not
due after all answers a refusal and is passed over.
-/

namespace Sys2Proof.Machine

/-- A step of an agent. -/
abbrev Event := State → Host.Outcome State Fault Refusal

/-- Events of a warp: the end of its wait, its stop, its reload. -/
def Team.warpEvents (s : State) (t : Team) (w : Warp) : List Event :=
  let k := t.wkey w
  let ends : List Event := match w.act with
    | .barWait _ => [execBarrierWake k]
    | .bton _ => [execBatonHandoff k]
    | .sleep => [execSleepExpiry k]
    | .sigWait _ => [execSigwaitReread k]
    | .scopeTrip _ | .scopeWait _ _ => [execScopeReply k]
    | .emitTrip _ _ => [execEmitRecordArrival k]
    | .sigTrip => [State.signalReply k]
    | .icinv _ _ => [execIcinvAcknowledge k]
    | .cbar =>
      match t.relay with
      | some r => (s.coll? r.tag).toList.map fun c => execCbarArrival r.tag (ownArrival c) r.chan
      | none => []
    | .run | .exited => []
  let reload : List Event := match w.reloading with
    | some (v, _) => [execRegReload k v]
    | none => []
  ends ++ reload ++ (if w.halted then [] else [execSiblingHalt k])

/-- Events of a team. -/
def Team.events (s : State) (t : Team) : List Event :=
  let k := t.key
  let own : List Event := match t.phase with
    | .starting => [execTeamStart k]
    | .draining => [execDrainExpiry k]
    | .halting => [execTeamHaltComplete k]
    | .saving => [execTeamSave k, execQuarantineWrite k]
    | .saved => [execTeamRestore k]
    | .running | .halted => [execQuarantineWrite k]
    | .flushed | .retired => []
  own ++ t.warps.flatMap (Team.warpEvents s t)

/-- Events of a core: its engines, its write-backs, its fault filter, a bank being retired. -/
def Core.events (c : Core) : List Event :=
  let n := c.num
  (c.wbs.map fun b => execWriteBackAcknowledge n b.id) ++
    (if c.spOps.isEmpty && c.port.isEmpty then [] else [execScratchpadAccessComplete n]) ++
    (c.mxOps.flatMap fun o => [execMxOpComplete n o.id]) ++
    (if c.mxOps.isEmpty then [] else [execMmaStart n 0, execMmaStart n 1, execMmaComplete n 0, execMmaComplete n 1]) ++
    ((c.parity.map (·.group)).eraseDups.map fun g => execParityUpdate n g) ++
    (c.channels.zipIdx.flatMap fun (q, ch) =>
      if q.isEmpty then [] else [execCopyCommandStart n ch, execCopyDataReturn n ch, execCopyCommandComplete n ch]) ++
    (c.filter.map fun p => execHubStageReport n p.page) ++
    (c.retiring.toList.map fun b => execBankRetire n b)

/-- Banks whose corrected errors within the last hour pass the threshold of 64: management firmware retires
them (R177). -/
def State.failingBanks (s : State) (c : Core) : List Nat :=
  let recent := (c.bankErrors.filter fun x => decide (s.clock < x.2 + 3600000000000)).map (·.1)
  recent.eraseDups.filter fun b => decide (64 < recent.count b)

/-- Events of a memory operation. -/
def MemOp.events (o : MemOp) : List Event := [execTagProbeVerdict o.id, execRequestComplete o.id]

/-- Events of a base-die stream. -/
def StreamState.events (x : StreamState) : List Event :=
  (if x.requests.isEmpty then [] else [execRd x.key, execWr x.key, execMwr x.key]) ++
    x.replies.map fun r => if r.read then execRdata x.key r.tag else execWack x.key r.tag

/-- Events of a queue: its notify word, and the packet at its head by KIND. -/
def Queue.events (ctx : Nat) (q : Queue) : List Event :=
  let k : QKey := ⟨ctx, q.num⟩
  [execNotifyWordRead k, execLaunchPacket k, execGraphPacket k, execWaitPacket k, execSignalPacket k, execCastPacket k,
    execBadKind k]

/-- Events of a context: its reset, held fault records, queues, gather timeouts. -/
def Context.events (c : Context) : List Event :=
  (if c.resetting then [execContextResetComplete c.num] else []) ++
    (if c.held.isEmpty then [] else [execFaultRecordDrain c.num]) ++
    c.queues.flatMap (Queue.events c.num) ++
    c.firings.flatMap fun f => (List.range f.nodes.length).map fun n => execGatherTimeout c.num f.id n

/-- Events of a page fault. -/
def PageFault.events (f : PageFault) : List Event := [execFaultWindowClose f.page, execReplayWalkResult f.page]

/-- Events of a collective: its start or its watchdog, and the messages held while it was halted. -/
def Collective.events (c : Collective) : List Event :=
  (if c.live then [execCollWatchdog c.tag] else [execCollectiveStart c.packet]) ++
    c.held.map fun m s => s.deliver m

/-- Events of the management controller. -/
def Mgmt.events (m : Mgmt) : List Event :=
  (if m.transBusy.isSome then [execTranslationCommandComplete] else []) ++
    (if m.relayHeld.isSome then [execRelayPartitionApply] else []) ++
    (if m.fwPhase == .heartbeat then [execHeartbeatTimeout] else []) ++
    (if m.heldCommands.isEmpty then [] else [State.retryHeld]) ++ m.haltsWaiting.map State.retryHalt ++
    (if m.signing.isEmpty then [] else [State.releaseSigned]) ++
    (if m.keyMessages.isEmpty then [] else [State.takeKeyMessage]) ++ (if m.starting then [State.startStep] else []) ++
    (if m.steleErasing then [execSteleEraseComplete] else [])

/-- Every event that may be due, but for those below. -/
def State.events (s : State) : List Event :=
  s.teams.flatMap (Team.events s) ++ s.cores.flatMap Core.events ++
    (s.cores.flatMap fun c => (s.failingBanks c).map (execBankRetire c.num)) ++ s.ops.flatMap MemOp.events ++
    s.streams.flatMap StreamState.events ++ s.pageFaults.flatMap PageFault.events ++
    (s.lateFaults.map fun f => execLateFault f.id) ++ s.ctxs.flatMap Context.events ++
    (s.launches.map fun l => execTeamAdmit l.id) ++
    ((s.packets.filter (·.kind == 3)).map fun p => execWaitPacketSatisfied p.id) ++
    s.collectives.flatMap Collective.events ++ (s.relayOps.map fun o => execRelayOpComplete o.id) ++
    ((s.hubs.filter (·.changing.isSome)).map fun u => execL2ModeChangeComplete u.num) ++
    (s.upsets.map storageError) ++ s.mgmt.events

/-- Page walks, and the writes of records to the stele, which an L2 slice serves before and after its data
(Table 3-4). -/
def State.walks (s : State) : List Event := s.ops.map fun o => execPageWalk o.id
def State.recordWrites (s : State) : List Event :=
  (s.emitters.filter fun e => !e.buffer.isEmpty).map fun e => execSteleRecordWrite e.num

/-- The steps that come from outside: host writes and requests, messages and accesses of peers, links,
sensors, time, firmware, power (assumption 4). -/
def isInput : Instr → Bool
  | .replayPage _ | .replayAll _ | .bankRetire _ _ | .poolCompactorMove _ | .remoteAccessServe _ | .qnotify _ _
  | .qctlWrite _ _ | .qstatErrClear _ | .relaySendRequest _ | .relayPayload _ _ | .relayAck _ | .cbarArrival _ _ _
  | .rendezvousCredit _ | .ralbexFlit _ _ _ | .linkRetrain _ | .contextControlWrite _ _ | .coreSetWrite _ _ _
  | .ctxReset _ | .fqctlWrite _ _ | .fqreadWrite _ _ | .dbgHalt _ | .dbgResume _ | .dbgStep _ _ | .dbgSnap _
  | .dbgLoad _ | .dbgDiscard _ | .dbgcmdUndefinedOp _ _ | .dbgctlWrite _ _ | .translationDrop _
  | .translationWritebackInvalidate _ | .translationOpReserved _ | .rangeRegisterCommit _ _ _
  | .functionBindingWrite _ _ | .relayPartitionWrite _ | .collectiveCancel _ | .riskSample _ | .firmwareLiveUpdate
  | .firmwareSlotSelect | .firmwareCmdIgnored _ | .firmwareVerifyComplete _ | .firstHeartbeat | .throttle _
  | .thermalReset _ | .l2Mode _ _ | .scrub _ _ | .timeSync _ _ _ | .stampingPointLockLoss _ | .steleErase
  | .deviceReset _ | .powerOn | .powerLoss | .hostWindowBAccess _ | .registerWrite _ _ _ | .getVersion
  | .getCapabilities | .negotiateAlgorithms _ | .getDigests | .getCertificate _ _ | .challenge _
  | .getMeasurements _ _ _ | .keyExchange _ _ | .spdmFinish _ _ | .endSession _ => true
  | _ => false

/-- Power being applied: the one input that acts without power. -/
def isPowerOn : Instr → Bool
  | .powerOn => true
  | _ => false

/-- A request of the host over the PCIe link: a write or read of a window. Each is performed after the host's earlier
ones (R242). -/
def isHostRequest : Instr → Bool
  | .hostWindowBAccess _ | .registerWrite _ _ _ | .qnotify _ _ | .qctlWrite _ _ | .qstatErrClear _ | .replayPage _
  | .replayAll _ | .contextControlWrite _ _ | .coreSetWrite _ _ _ | .ctxReset _ | .fqctlWrite _ _ | .fqreadWrite _ _
  | .dbgHalt _ | .dbgResume _ | .dbgStep _ _ | .dbgSnap _ | .dbgLoad _ | .dbgDiscard _ | .dbgcmdUndefinedOp _ _
  | .dbgctlWrite _ _ | .translationDrop _ | .translationWritebackInvalidate _ | .translationOpReserved _
  | .rangeRegisterCommit _ _ _ | .functionBindingWrite _ _ | .relayPartitionWrite _ | .collectiveCancel _
  | .firmwareLiveUpdate | .firmwareSlotSelect | .firmwareCmdIgnored _ | .steleErase => true
  | _ => false

/-- What arrives over the Ralbex ports. -/
def isRalbex : Instr → Bool
  | .remoteAccessServe _ | .relaySendRequest _ | .relayPayload _ _ | .relayAck _ | .cbarArrival _ _ _
  | .rendezvousCredit _ | .ralbexFlit _ _ _ => true
  | _ => false

/-- Has what an input arrives over been trained: the host link in step 3 of the start, the Ralbex ports in step 5
(R375)? -/
def Mgmt.reaches (m : Mgmt) (i : Instr) : Bool :=
  if isHostRequest i then decide (3 ≤ m.started) else if isRalbex i then decide (5 ≤ m.started) else true

end Sys2Proof.Machine
end

