-- ==== Sys2Proof/Machine/Schedule.lean ====
section
/-!
DEFINITION. What happens in a step: the agents' steps that are due, the inputs that have arrived, the
warps that are ready; which of them comes (assumption 2); and the issue of a warp's next instruction.
-/

namespace Sys2Proof.Machine

/-- What may happen in a step: an agent's step, with its place in the order in which an L2 slice serves what
stands at it (R58); the input that comes first; the issue of a quad. -/
inductive Due where
  | event (place : Nat) (run : Event)
  | input
  | quad (core n : Nat)

/-- That order (Table 3-4): page walks, then data, then recorder writes. -/
def Due.place : Due → Nat
  | .event n _ => n
  | .input | .quad _ _ => 1

/-- Changing the state that an outcome goes on with. -/
def mapNext (f : State → State) (o : Host.Outcome State Fault Refusal) : Host.Outcome State Fault Refusal :=
  match o with
  | .next s => .next (f s)
  | .fault r => .fault r
  | .refused r => .refused r

/-- Running a fetched word of the issuing warp (Table 2-6). -/
def State.runWord (s : State) (x : BitVec 96) : Host.Outcome State Fault Refusal :=
  match decodeWord x with
  | .instr i => exec i s
  | .illegalOpcode => exec (.illegalOpcode x) s
  | .illegalOperand => illegalOperand x s

/-- Issuing the next instruction of the warp that `cur` names: a pending back edge first (R72), then
the checks of Table 2-6 in order. -/
def State.issue (s : State) (k : WKey) : Host.Outcome State Fault Refusal :=
  match s.team? k.team, s.warp? k with
  | some t, some w =>
    if w.bedge then .next (s.doBackEdge k)
    else if !t.kernel.inCode w.pc then exec .sequentialFetchPastCode s
    else match s.fetch t w with
      | .failed s1 f ia => .next (s1.trapped k f ia)
      | .word s1 x => s1.runWord x
  | _, _ => .fault .noSuchWarp

/-- Has every context room for the records it holds: no more than its hub buffer has (R318)? -/
def State.recordsFit (s : State) : Bool := s.ctxs.all fun c => decide (c.held.length ≤ 32)

/-- An answer that goes on, with room for what it records. -/
def goesOn (o : Host.Outcome State Fault Refusal) : Bool :=
  match o with
  | .next s => s.recordsFit
  | _ => false

/-! ## The issue of a quad (R53) -/

/-- The age at which a warp becomes aged. -/
def agedAge : Nat := 48

/-- The core and quad of a warp. -/
def State.quadOfWarp (s : State) (k : WKey) : Nat × Nat :=
  match s.warp? k with
  | some w => (w.core, quadOf w.slot)
  | none => (0, 0)

/-- The first of two keys of the order of issue, compared from the left. -/
def firstOf : List Nat → List Nat → Bool
  | x :: l, y :: m => decide (x < y) || (x == y && firstOf l m)
  | _, _ => true

/-- Where a ready warp stands in its quad's order: aged warps first, the one that became aged earliest; then
CLASS, whether it holds a baton of its core, age; ties go to the lower slot. -/
def State.issueKey (s : State) (k : WKey) : List Nat :=
  match s.team? k.team, s.warp? k with
  | some t, some w =>
    match w.agedAt with
    | some a => [0, a, w.slot]
    | none =>
      let holds := [false, true].any fun arr => t.baton w arr == .held w.num
      [1, (s.ctx k.ctx).cls, b2n !holds, agedAge - w.age, w.slot]
  | _, _ => [2]

/-- The warp that comes first. -/
def State.foremost (s : State) : List WKey → Option WKey
  | [] => none
  | k :: l => some (match s.foremost l with
    | some x => if firstOf (s.issueKey k) (s.issueKey x) then k else x
    | none => k)

/-- A cycle in which a warp was ready and not chosen, and one in which it issued. -/
def Warp.passedOver (now : Nat) (w : Warp) : Warp :=
  { w with age := w.age + 1
           agedAt := if w.agedAt.isNone && decide (agedAge ≤ w.age + 1) then some now else w.agedAt }
def Warp.chosen (w : Warp) : Warp := { w with age := 0, agedAt := none }

/-- Those of a quad's warps that are ready in this cycle: which of several is free, since what makes a warp
wait within an instruction's latency is timing (assumption 2). -/
def State.readyNow (s : State) (l : List WKey) : List WKey × State :=
  match l with
  | [] | [_] => (l, s)
  | _ =>
    let (n, s1) := s.draw
    let some_ := (l.zipIdx.filter fun x => n.testBit x.2).map (·.1)
    (if some_.isEmpty then l else some_, s1)

/-- The instructions a warp has issued. -/
def State.issuedBy (s : State) (k : WKey) : Option Nat := (s.warp? k).map (·.issued)

/-- Issuing the next instruction of a warp; a record that has no room makes it wait (R318). -/
def State.issueNext (s : State) (k : WKey) : Host.Outcome State Fault Refusal :=
  match State.issue { s with cur := some k } k with
  | .next s1 => .next (if s1.recordsFit then { s1 with cur := none } else { s with cur := none })
  | o => o

/-- Would the warp's next instruction issue, so that none of Table 3-2 holds for it? If not, what its waiting
changes: a reload that begins, a wait entered. -/
def State.attempt (s : State) (k : WKey) : Except State Unit :=
  match s.issueNext k with
  | .next s1 => if s1.issuedBy k == s.issuedBy k then .error s1 else .ok ()
  | _ => .ok ()

/-- The ready warps among these (R52), and the state with the waits of the others begun. -/
def State.settleReady (s : State) (l : List WKey) : List WKey × State :=
  l.foldl (fun acc k =>
    match acc.2.attempt k with
    | .ok _ => (acc.1 ++ [k], acc.2)
    | .error s1 => (acc.1, s1)) ([], s)

/-- A quad issues in one cycle (R53): the first of its ready warps; the other ready ones grow older. -/
def State.issueQuad (s : State) (core n : Nat) : Host.Outcome State Fault Refusal :=
  let (able, s0) := s.settleReady (s.mayIssue.filter fun k => s.quadOfWarp k == (core, n))
  let (l, s1) := s0.readyNow able
  match s1.foremost l with
  | none => .next s1
  | some k =>
    mapNext (fun s2 =>
      if s2.issuedBy k == s1.issuedBy k then s2
      else (l.filter (· != k)).foldl (fun s x => s.modWarp x (Warp.passedOver s.tick)) (s2.modWarp k Warp.chosen))
      (s1.issueNext k)

/-! ## What happens -/

/-- Everything that may happen in this step. -/
def State.due (s : State) : List Due :=
  let due (place : Nat) (l : List Event) : List Due := (l.filter fun f => goesOn (f s)).map (Due.event place)
  due 0 s.walks ++ due 1 s.events ++ due 2 s.recordWrites ++
    (if s.inputs.isEmpty then [] else [.input]) ++
    ((s.mayIssue.map s.quadOfWarp).eraseDups).map fun x => .quad x.1 x.2

/-- The one that happens: the only one, or the one the schedule names; of those that stand at an L2 slice with
it, which is free, the first in the slice's order (assumption 2). -/
def State.choose (s : State) : Option Due :=
  match s.due with
  | [] => none
  | [d] => some d
  | l =>
    let n := Config.schedule s.tick l.length
    let here := l.zipIdx.filterMap fun x => if (n / l.length).testBit x.2 then some x.1 else none
    l[n % l.length]?.map fun d => (here.find? fun x => decide (x.place < d.place)).getD d

/-- Taking the first input that need not wait; those before it keep their places, and a host request waits behind
an earlier one (R242), and what arrives over a link for its training (R375). What is no input, or comes while there is no power, is dropped. -/
def State.takeInput (s : State) : List Instr → List Instr → Host.Outcome State Fault Refusal
  | _, [] => .next s
  | before, i :: rest =>
    let s1 := { s with inputs := before ++ rest }
    if isHostRequest i && before.any isHostRequest || s.mgmt.powered && !s.mgmt.reaches i then s.takeInput (before ++ [i]) rest
    else if !isInput i || !(s.mgmt.powered || isPowerOn i) then .next s1
    else match exec i s1 with
      | .refused _ => s.takeInput (before ++ [i]) rest
      | .next s2 => if s2.recordsFit then .next s2 else s.takeInput (before ++ [i]) rest
      | o => o

/-- Running what was chosen. -/
def State.run (s : State) (d : Due) : Host.Outcome State Fault Refusal :=
  match d with
  | .event _ f => f s
  | .input => s.takeInput [] s.inputs
  | .quad core n => s.issueQuad core n

/-- Cycles of the die clock, 1.9 GHz, in a time (R2). -/
def cyclesIn (ns : Nat) : Nat := ns * 19 / 10

/-- Time passes (assumption 2): stale rows are brought up to date in it (R174), and the entries of the cause maps
that are done with are freed (R361). -/
def State.pass (s : State) : State :=
  { s.freeCauses with
    tick := s.tick + 1
    clock := s.clock + Config.elapsed s.tick
    cores := s.cores.map fun c =>
      if c.parity.isEmpty then c else { c with parity := idleParity (cyclesIn (Config.elapsed s.tick)) c.parity } }

/-- One step: time passes; then the warp that `cur` names issues when one is named, else what is chosen of all that
is due happens, if anything is. -/
def State.next (s : State) : Host.Outcome State Fault Refusal :=
  let s1 := s.pass
  match s.cur with
  | some k => s1.issueNext k
  | none =>
    match s1.choose with
    | some d => s1.run d
    | none => .next s1

end Sys2Proof.Machine
end

