-- ==== Sys2Proof/Machine/Step.lean ====
section
/-!
DEFINITION. One step of the machine, and the placing of an instruction where the next step fetches it.
-/

namespace Sys2Proof.Machine

/-- One step. -/
def step (s : State) : Host.Outcome State Fault Refusal := s.next

/-- The context, the page and the virtual address that `withFetchWord` uses: identity-mapped by a
range register of kind lease whose code the L2 holds. -/
def probeBase : Nat := 0x10000

/-- A kernel whose code is the one instruction at `probeBase`: W = 32, N = 64, one warp. -/
def probeKernel : Kernel :=
  { va := 0, codeBase := probeBase, codeSize := 12, entry := 0, expect := 0, lease := 1, emit := [],
    regg := 64, spg := 1, tiles := 1, paired := false, g := 32, n := 64, warps := 1, width := 32, idem := false }

/-- A warp at its start-up state (R49). -/
def probeWarp : Warp :=
  { num := 0, core := 0, slot := 0, serial := 0, cause := 0, pc := BitVec.ofNat 64 probeBase
    s := List.replicate 64 0, p := List.replicate 16 0, mask := BitVec.ofNat 64 (2 ^ 32 - 1)
    arrivals := List.replicate 8 (false, 0), v := List.replicate 64 {}, x := List.replicate 4 {}
    flags := List.replicate 32 0 }

/-- A team of that one warp; a relay team when the instruction is one of the relay group. -/
def probeTeam (relay : Bool) : Team :=
  { ctx := 0, tid := 0, kernel := probeKernel, phase := .running, core := 0, cause := 0, parent := 0
    packet := none, inst := 0, nodeRef := 0, scopes := [], args := [0, 0, 0, 0]
    relay := if relay then some ⟨1, 0⟩ else none
    warps := [probeWarp], barriers := List.replicate 8 {}, batons := List.replicate 4 .free
    leases := 1, expect := 0, frame := 0x100000, frameSize := 0, serialHub := 0 }

/-- A live collective of two ranks, for an instruction of the relay group. -/
def probeCollective : Collective :=
  { tag := 1, ctx := 0, packet := 0, desc := 0, progKernel := probeKernel, peers := [0, 1], args := [0, 0]
    bufs := [0x40000, 0x50000, 0x60000, 0x70000], sizes := [0x1000, 0x1000, 0x1000, 0x1000], rank := 0, nranks := 2
    cols := 1, wdt := 1, e2e := false, chans := 1, isr := false, cause := 0, live := true }

/-- A range register 0 that maps VA = IA below 2^20 with every permission, lease kind, resident. -/
def probeRange : BitVec 256 :=
  BitVec.ofNat 256 (2 ^ 71 + 2 ^ 72 + 2 ^ 73 + 2 ^ 74 + 2 ^ 75 + 2 ^ 79 + 16 * 2 ^ 80)

/-- An instruction placed where the next step fetches it: a context with the range, a team with one
warp at the instruction, its sector in L2, nothing cached of it in the core, and that warp chosen to
issue. It stands for the loading of a program (assumption 20). -/
def State.withFetchWord (s : State) (_nbits w : Nat) : State :=
  let sector : L2Sector :=
    ⟨false, probeBase / 128, probeBase / 128, putBytes (List.replicate 128 0) 0 (natBytes w 12), 0, false, none, 0⟩
  let s1 := s.modCtx 0 fun c => { c with ranges := c.ranges.set 0 probeRange }
  let s2 := s1.modCore 0 fun c =>
    { c with icache := c.icache.filter (·.1 != probeBase), badCode := c.badCode.filter (· != probeBase) }
  let relay := isRelayOpcode (BitVec.ofNat 96 w)
  { s2 with
    codeOld := s2.codeOld.filter (·.1 != probeBase / 128)
    l2 := sector :: s2.l2.filter fun x => !(x.phys == false && x.sector == probeBase / 128)
    collectives := if relay then probeCollective :: s2.collectives.filter (·.tag != 1) else s2.collectives
    teams := probeTeam relay :: s2.teams.filter fun t => !(t.ctx == 0 && t.tid == 0)
    cur := some ⟨0, 0, 0⟩ }

end Sys2Proof.Machine
end

