-- ==== Sys2Proof/Safety.lean ====
section
/-!
DEFINITION. What claims about runs are stated in: when the checks before an instruction let it execute,
what follows its effect, the parts of the state that moving on may change, and the invariants of the
state.
-/

namespace Sys2Proof.Machine

/-- A step from this state goes on. -/
def Safe (s : State) : Prop := ∃ t, step s = .next t

/-! ## An instruction that executes -/

/-- The lanes whose registers an instruction names: every lane of the warp for `shfl` and `bcast`. -/
def Env.seen (e : Env) (i : Instr) : List Nat := if i.crossLane then List.range e.width else e.lanes

/-- The issuing warp stands at instruction `i`, every check of R35 before the effect passes, and nothing
holds it back: `e.s` is the state, `e.k` the warp, `e.m` the effective mask. -/
structure Ready (i : Instr) (g : Sig) (e : Env) : Prop where
  cur : e.s.cur = some e.k
  team : e.s.team? e.k.team = some e.t
  warp : e.s.warp? e.k = some e.w
  sig : i.sig = some g
  relay : g.relay = true → e.t.relay.isSome = true
  operands : g.ok4 = true
  fits : g.fits e.t.kernel.n e.t.kernel.g = true
  order : g.ok5 = true
  width : g.w32 = true → e.t.kernel.width = 32
  mask : g.mask e.t e.w = some e.m
  full : g.full = true → e.w.mask &&& fullMask e.width = fullMask e.width
  index : (g.indexed && !i.neverFaults) = true → e.w.indexFault e.t.kernel.n (i.fields ++ g.reads.map (·.1)) e.lanes = none
  pending : ∀ n ∈ e.w.named (g.reads ++ g.dest) (e.seen i), (e.w.vreg n).pend = false
  scalarPending : e.s.scalarPending e.k i = false
  resident : ∀ n ∈ e.w.direct (g.reads ++ keptRegs g i e.width e.w e.m), (e.w.vreg n).spilled = false
  served : ∀ n ∈ e.w.indexed g.reads (e.seen i),
    (e.w.vreg n).spilled = false ∨ n ∈ e.w.served
  poison : i.neverFaults = false → e.w.consumed i g (if i.activeOnly then e.lanes.filter e.w.mask.has else e.lanes) = none
  scalarPoison : i.neverFaults = false → e.w.consumedScalar i = false
  strike : ∀ f, e.s.verify e i f = .none

/-- Rows can be had for the destination registers, whatever shape the result takes (R95). -/
def Env.HasRoom (e : Env) (g : Sig) (d : Operand) : Prop :=
  ∀ x, (e.write (e.named g) d x).isSome = true

/-- What follows the effect of an instruction after which the warp goes on to the next one: the move of
the PC (R71, R72), the end of its wait, its accounting. -/
def Env.after (e : Env) (t : State) : State := ((t.advance e.k).endWait e.k).issued e.k

/-- The same after an effect that has set the PC itself. -/
def Env.afterRaw (e : Env) (t : State) : State := (t.endWait e.k).issued e.k

/-- A ready instruction has this effect, and its warp moves to the next instruction. -/
def Env.Does (e : Env) (i : Instr) (g : Sig) (t : State) : Prop :=
  Ready i g e → exec i e.s = .next (e.after t)

/-- A ready instruction has this effect, the PC included. -/
def Env.DoesRaw (e : Env) (i : Instr) (g : Sig) (t : State) : Prop :=
  Ready i g e → exec i e.s = .next (e.afterRaw t)

/-- A ready instruction issues and its warp then waits in an activity. -/
def Env.Enters (e : Env) (i : Instr) (g : Sig) (t : State) : Prop :=
  Ready i g e → exec i e.s = .next (t.issued e.k)

/-- A ready instruction is held: it has not issued, and this is what the attempt leaves. -/
def Env.Holds (e : Env) (i : Instr) (g : Sig) (t : State) : Prop :=
  Ready i g e → exec i e.s = .next t

/-- A ready instruction traps precisely. -/
def Env.Traps (e : Env) (i : Instr) (g : Sig) (code : Nat) (lane : Nat := 255) (addr : Word := 0)
    (aux : Nat := 0) : Prop :=
  Ready i g e → exec i e.s = .next (e.s.trapped e.k (e.w.faultAt code lane addr aux) none)

/-- A ready instruction writes a scalar destination and its warp moves on. -/
def Env.Sets (e : Env) (i : Instr) (g : Sig) (d : Operand) (v : Word) : Prop := e.Does i g (e.setS d v)

/-- A ready instruction for which rows can be had writes a vector destination, and raises the flags that
`f` gives per lane unless NF is set; its warp moves on. -/
def Env.Gives (e : Env) (i : Instr) (g : Sig) (d : Operand) (x : VRes) (nf : Bool := true)
    (f : Nat → Fl := fun _ => 0) : Prop :=
  Ready i g e → e.HasRoom g d →
    ∃ t, e.write (e.named g) d x = some t ∧ exec i e.s = .next (e.after (e.raise nf f t))

/-! ## What an issue may change -/

/-- A warp without the fields that moving on may change: its PC and loop state, its wait entry, its issue
and skid counts, the operands served for the instruction. -/
def Warp.body (w : Warp) : Warp :=
  { w with pc := 0, mask := 0, loops := [], lc := [], bedge := false, wait := none, stopped := none, sleepLeft := 0
           sleepFrom := 0, halted := false, stopping := false, skid := 0, served := [], issued := 0 }

/-- The state without what moving on may change: those fields of the warp, the issue count and step of
its team, the recorder. -/
def State.body (s : State) (k : WKey) : State :=
  { s.modTeam k.team fun t =>
      { t with issued := 0, stepping := none, warps := updIf (·.num == k.w) Warp.body t.warps } with
    emitters := [], hubs := [] }

/-- The innermost loop level, if it ends at this instruction, takes its back edge without a trap (R72). -/
def State.edgeOk (s : State) (k : WKey) : Prop :=
  ∀ w, s.warp? k = some w → w.atEnd = true → ∃ u, w.backEdge 3 = .ok u

/-- Two states agree on everything the recorder does not hold of hubs and emitters. -/
def sameUnits (s t : State) : Prop :=
  (∀ h, { t.hub h with stele := {} } = { s.hub h with stele := {} }) ∧
    ∀ n, { t.emitter n with buffer := [], dropped := 0, firstKind := 0, lastKind := 0, firstTime := 0 } =
      { s.emitter n with buffer := [], dropped := 0, firstKind := 0, lastKind := 0, firstTime := 0 }

/-- Memory is the same: every byte, tag and poison mark, and what the caches and the base dies hold. -/
def sameMemory (s t : State) : Prop :=
  (∀ a, t.memByte a = s.memByte a) ∧ (∀ a, t.tagOf a = s.tagOf a) ∧ (∀ a, t.physPoison a = s.physPoison a) ∧
    t.l2 = s.l2 ∧ t.streams = s.streams ∧ t.cores = s.cores

/-! ## Invariants -/

/-- Memory, memory tags and poison marks are in their canonical form. -/
def State.MemoryCanonical (s : State) : Prop :=
  Memory.wf s.mem = true ∧ swf (0 : BitVec 4) 0 s.tags = true ∧ s.poisoned.Pairwise (· < ·)

/-- A warp has the registers its kernel gives it (R62, R84, R101). -/
def Warp.Whole (w : Warp) (k : Kernel) : Prop :=
  w.v.length = k.n ∧ w.s.length = 64 ∧ w.p.length = 16 ∧ w.x.length = 4

/-- Every warp of every team is whole. -/
def State.WarpsWhole (s : State) : Prop := ∀ t ∈ s.teams, ∀ w ∈ t.warps, w.Whole t.kernel

end Sys2Proof.Machine
end

