-- ==== Sys2Proof/Certificates/Slice0/Obligations.lean ====
section
/-!
DEFINITION. The statements about the machine: what reset leaves, the invariants that every step keeps, the
frame that every instruction shares, and what each instruction and each event of the opcode table does.
Each docstring names the rules of spec/ it rests on.
-/

open Sys2Proof Sys2Proof.Machine

/-! ## Reset, invariants, step, and the rules all instructions share -/

/-- R4, R62, R84, R251, R268, R322, R343, R362, R369, R373, R375: the machine right after reset. No team,
packet, operation or collective; no translation, cache line or packet in flight; every context's registers,
every queue, hub and emitter at the values the spec gives for reset. Memory tags are 0 (R258). The
model's choices among these: a byte of memory that nothing has written reads 0 (assumption 10), the translation
root and the context's save registers are 0 (assumption 11), no signature index is used (assumption 7). -/
def Obligations.ResetState : Prop :=
  let s := State.reset
  s.teams = [] ∧ s.launches = [] ∧ s.packets = [] ∧ s.ops = [] ∧ s.collectives = [] ∧ s.l2 = [] ∧ s.tlb = [] ∧
  s.streams = [] ∧ s.outputs = [] ∧ (∀ a, s.memByte a = 0) ∧ (∀ g, s.tagOf g = 0) ∧ (∀ x, s.physPoison x = false) ∧
  (∀ n, let c := s.ctx n
    c.control = 0x814000017#64 ∧ c.coreSet = 0 ∧
    (∀ k < 16, c.ranges[k]? = some 0) ∧ (∀ k < 16, c.uses[k]? = some 0) ∧ c.fqBase = 0 ∧ c.fqCtl = 0 ∧ c.fqWrite = 0 ∧
    c.fqRead = 0 ∧ c.rfail = false ∧ c.noring = 0 ∧ c.held = [] ∧ c.scopes = [] ∧ c.attach = false ∧ c.lost = false ∧
    c.serials = [0, 0, 0, 0]) ∧
  (∀ k, (s.queue k).ctl = 0 ∧ (s.queue k).read = 0 ∧ (s.queue k).write = 0 ∧ (s.queue k).err = false) ∧
  (∀ n, (s.core n).retired = false ∧ (s.core n).degr = 0 ∧ (s.core n).gret = 0 ∧ (s.core n).l1 = [] ∧ (s.core n).spOps = [] ∧
    (s.core n).mxOps = []) ∧
  (∀ h, (s.hub h).decTed = false ∧ (s.hub h).retiredFrames = [] ∧ (s.hub h).stele.head = 0) ∧
  (∀ n, (s.emitter n).buffer = [] ∧ (s.emitter n).locked = false ∧ s.uncAt n = 0xFFFF) ∧
  s.mgmt.risk = 0 ∧ s.mgmt.riskCtl = 0 ∧ s.mgmt.transRoot = 0 ∧ s.mgmt.relayPart = 0 ∧ s.mgmt.modCap = 6000 ∧
  s.mgmt.dieCap = List.replicate 8 1100 ∧ s.mgmt.fwResult = 0 ∧ s.mgmt.sigTop = 0 ∧ s.mgmt.sigLow = 0 ∧ s.mgmt.ready = true ∧
  s.causes = []

/-- The invariants of the model hold after reset: memory, tags and poison marks are in canonical form, and
every warp has the registers its kernel gives it. -/
def Obligations.ResetMeetsInvariants : Prop := State.reset.MemoryCanonical ∧ State.reset.WarpsWhole

/-- Every step keeps memory, memory tags and poison marks in canonical form: addresses strictly rising, and
no entry equal to what an unlisted one reads as. -/
def Obligations.StepKeepsMemoryCanonical : Prop :=
  ∀ s t : State, s.MemoryCanonical → step s = .next t → t.MemoryCanonical

/-- R62, R84, R101: every step leaves each warp with the N vector registers of its kernel, 64 scalar
registers, 16 predicates and 4 index registers. -/
def Obligations.StepKeepsWarpsWhole : Prop :=
  ∀ s t : State, s.WarpsWhole → step s = .next t → t.WarpsWhole

/-- R11 to R34: the word of an instruction decodes to that instruction, whatever its operands, modifiers,
guard and hints; and each word that decodes to an instruction is that instruction's word. -/
def Obligations.EncodeAndDecodeAgree : Prop :=
  (∀ (i : Instr) (w : BitVec 96), WellFormed i → encode i = some w → decode w = some i) ∧
  (∀ (w : BitVec 96) (i : Instr), decodeWord w = .instr i → encode i = some w)

/-- R3, R35, R36: a step of a warp that stands at a word of its code runs the instruction that the word
decodes to, in the state that the fetch leaves; the warp is then no longer the issuing one. An instruction that
records a fault for which there is no room (R318) has not issued. The word is the 12 bytes at the PC,
little-endian, when neither the core nor the warp's loop buffer keeps a copy of them and no store has changed
them since an `icinv`. A word that decodes to no instruction runs as its trap. That one warp issues in a step is the model's schedule (assumption 2). -/
def Obligations.StepRunsDecodedInstruction : Prop :=
  ∀ (s : State) (k : WKey) (t : Team) (w : Warp), s.cur = some k → s.team? k.team = some t → s.warp? k = some w →
    w.bedge = false → t.kernel.inCode w.pc = true →
    let runsAs (x : Host.Outcome State Fault Refusal) : Prop :=
      (∀ u, x = .next u → u.recordsFit = true → step s = .next { u with cur := none }) ∧
      (∀ u, x = .next u → u.recordsFit = false → step s = .next { s.pass with cur := none }) ∧
      (∀ f, x = .fault f → step s = .fault f) ∧ (∀ r, x = .refused r → step s = .refused r)
    let runs (i : Instr) (s1 : State) : Prop := runsAs (exec i s1)
    (∀ s1 x, s.pass.fetch t w = .word s1 x →
      (∀ i, decodeWord x = .instr i → runs i s1) ∧ (decodeWord x = .illegalOpcode → runs (.illegalOpcode x) s1) ∧
      (decodeWord x = .illegalOperand → runsAs (s1.runWord x))) ∧
    (∀ r bs u i, (s.ctx t.ctx).findRange w.pc 12 = some r → r.pex = true → w.looping w.pc = false →
      (s.pass.core w.core).badCode.contains (r.target w.pc) = false → s.pass.oldWords w.core (r.target w.pc) = [] →
      s.pass.l2Read false (r.target w.pc) 12 = (.bytes bs none, u) →
      let x := BitVec.ofNat 96 (leNat bs)
      decodeWord x = .instr i → runs i (u.cacheWord w.core (r.target w.pc) x))

/-- Tables 2-8, 4-3, 10-11 and 14-6: some words of the spec's tables decode to the instructions that the
tables name; the opcodes 0x000 and 0x3FF, and the reserved operand codes, are refused. -/
def Obligations.TableWordsDecode : Prop :=
  let word (w0 w1 w2 : BitVec 32) : BitVec 96 := w2 ++ w1 ++ w0
  decodeWord (word 0x06000380 0x00000215 0x00001020) =
    .instr (.csend ⟨⟨0, false⟩, false, 0, false, .v 0, .s 6, .s 10, 0x0000, 0x102⟩) ∧
  decodeWord (word 0x00000386 0 0) = .instr (.cbar ⟨⟨0, false⟩, false, 0, false, .v 0, .v 0, .v 0, 0, 0⟩) ∧
  decodeWord (word 0x05830385 0x00000001 0) = .instr (.cpeer ⟨⟨0, false⟩, false, 0, false, .s 6, .s 5, .v 0, 0, 0⟩) ∧
  decodeWord (word 0x0000020B 0x00418000 0) =
    .instr (.acccp ⟨⟨0, false⟩, false, 0, false, .v 0, .v 0, .v 0, ⟨4, 3, false, .bf16⟩, 0⟩) ∧
  decodeWord 0 = .illegalOpcode ∧ decodeWord (BitVec.ofNat 96 0x3FF) = .illegalOpcode ∧
  (∀ c : BitVec 9, 0x160 ≤ c.toNat → c.toNat < 0x180 → operandOfCode c = none)

/-- R4, R17, R33, R35, R37, R63, R97, R98, R102, R345: the checks before an instruction's own effect, for every
instruction of the instruction set, in their order; the first that fails is the one precise trap (`pref`, which
never faults after decode, skips those on its operands, R205). A
relay-group opcode outside a relay warp: 0x01; operands and register count: 0x02; order modifier: 0x03;
warp width: 0x0F; then, where the guard lets the instruction execute, an active mask that is not full: 0x04,
an index out of bounds: 0x07 in its lowest lane. A guard that is off skips the instruction; a register that
is pending holds it unchanged; it never stops the machine.
A warp whose PC is not an address of its code traps with code 0x05, one at a word whose opcode is not
assigned with ILLEGAL_OPCODE, one at a word that fails decode otherwise (R4, R33) with ILLEGAL_OPERAND, a relay
opcode outside a relay warp with ILLEGAL_OPCODE first (R35). -/
def Obligations.IssueChecksInOrder : Prop :=
  (∀ (i : Instr) (g : Sig) (s : State) (k : WKey) (t : Team) (w : Warp), i.sig = some g → s.cur = some k →
      s.team? k.team = some t → s.warp? k = some w →
      let traps (code : Nat) (lane : Nat) (addr : Word) : Prop := exec i s = .next (s.trapped k (w.faultAt code lane addr) none)
      let relay := g.relay = true ∧ t.relay = none
      let operands := g.ok4 = true ∧ g.fits t.kernel.n t.kernel.g = true
      let width := g.w32 = false ∨ t.kernel.width = 32
      let whole := fullMask t.kernel.width
      (∃ u, exec i s = .next u) ∧
      (relay → traps 0x01 255 0) ∧
      (¬ relay → ¬ operands → traps 0x02 255 0) ∧
      (¬ relay → operands → g.ok5 = false → traps 0x03 255 0) ∧
      (¬ relay → operands → g.ok5 = true → ¬ width → traps 0x0F 255 0) ∧
      (¬ relay → operands → g.ok5 = true → width →
        (g.mask t w = none → exec i s = .next ((s.advance k).issued k)) ∧
        (∀ m, g.mask t w = some m →
          let lanes := maskLanes t.kernel.width m
          let index := if g.indexed && !i.neverFaults then w.indexFault t.kernel.n (i.fields ++ g.reads.map (·.1)) lanes else none
          let seen := if i.crossLane then List.range t.kernel.width else lanes
          (g.full = true → w.mask &&& whole ≠ whole → traps 0x04 255 0) ∧
          (g.full = false ∨ w.mask &&& whole = whole →
            (∀ l a, index = some (l, a) → traps 0x07 l (BitVec.ofNat 64 a)) ∧
            (index = none →
              (∃ n ∈ w.named (g.reads ++ g.dest) seen, (w.vreg n).pend = true) ∨ s.scalarPending k i = true →
              exec i s = .next s))))) ∧
  (∀ (s : State) (k : WKey) (t : Team) (w : Warp), s.cur = some k → s.team? k.team = some t → s.warp? k = some w →
      (t.kernel.inCode w.pc = false → exec .sequentialFetchPastCode s = .next (s.trapped k (w.faultAt 0x05) none)) ∧
      (∀ x, decodeWord x = .illegalOpcode → exec (.illegalOpcode x) s = .next (s.trapped k (w.faultAt 0x01) none)) ∧
      (∀ x, decodeWord x = .illegalOperand → s.runWord x = .next (s.trapped k
        (w.faultAt (if isRelayOpcode x = true ∧ t.relay = none then 0x01 else 0x02)) none)))

/-- R315, R318, R319: taking a halting fault that does not lose the context, in a team that is not a relay
team. With room for its record, the warp stops where it is, or once its round trip is over (R327), the team halts
(one that is being saved is saved as halted) and counts as faulted, and its other warps are as they were but for their watch slots, which may
watch the fault queue the record is written to (R261); without room nothing changes. Table 15-2: the eight words of a fault record hold each of its fields in its place, and 0 in the reserved ones. That
the team counts as faulted at once is the model's reading (assumption 31). -/
def Obligations.TakingAFault : Prop :=
  (∀ (s : State) (k : WKey) (t : Team) (w : Warp) (f : FaultInfo) (ia : Option Nat), s.team? k.team = some t →
      s.warp? k = some w →
      (s.fqRoom k.ctx = false → s.takeFault k f ia = s) ∧
      (s.fqRoom k.ctx = true → t.phase.live = true → t.relay = none → f.code ≠ 0x19 → f.code ≠ 0x1B →
        ∃ u x, (s.takeFault k f ia).team? k.team = some u ∧ u.warp? k.w = some x ∧
          u.phase = (if t.phase = .saving ∧ t.stepping = none then .saving else .halting) ∧
          (t.phase = .saving → u.saveHalted = true) ∧ u.faulted = true ∧ u.stepping = t.stepping ∧
          (let trip := s.cur != some k && w.inTrip
           x.halted = !trip ∧ x.stopping = trip) ∧ x.pc = w.pc ∧ x.s = w.s ∧ x.v = w.v ∧ x.p = w.p ∧
          x.x = w.x ∧ x.flags = w.flags ∧ x.stack = w.stack ∧ x.loops = w.loops ∧
          ∀ n, n ≠ k.w → (u.warp? n).map (fun y => { y with watch := [] }) = (t.warp? n).map fun y => { y with watch := [] })) ∧
  (∀ (time : Word) (ctx tid hub : Nat) (f : FaultInfo) (g : RecordFlags), f.code < 2 ^ 8 → ctx < 2 ^ 6 → hub < 2 ^ 2 →
      f.lane < 2 ^ 8 → f.warp < 2 ^ 8 → f.wkind < 2 ^ 8 → f.aux < 2 ^ 16 → tid < 2 ^ 32 →
      let r := faultWords time ctx tid hub f g
      let w0 := r.getD 0 0
      let w1 := r.getD 1 0
      let w2 := r.getD 2 0
      r.length = 8 ∧
      (w0.extractLsb' 0 8).toNat = f.code ∧ (w0.extractLsb' 8 6).toNat = ctx ∧ (w0.extractLsb' 14 2).toNat = hub ∧
      w0.extractLsb' 16 8 = 0 ∧ w0.getLsbD 24 = f.precise ∧ w0.getLsbD 25 = f.deferred ∧ w0.getLsbD 26 = f.late ∧
      w0.getLsbD 27 = g.retired ∧ w0.getLsbD 28 = g.skid ∧ w0.getLsbD 29 = g.halted ∧ w0.getLsbD 30 = g.lost ∧
      w0.getLsbD 31 = g.flushed ∧ w0.extractLsb' 32 32 = 0 ∧ w1.extractLsb' 0 8 = 0 ∧ (w1.extractLsb' 8 8).toNat = f.lane ∧
      (w1.extractLsb' 16 8).toNat = f.warp ∧ (w1.extractLsb' 24 8).toNat = f.wkind ∧ (w1.extractLsb' 32 16).toNat = f.aux ∧
      (w1.extractLsb' 48 16).toNat + 2 ^ 16 * (w2.extractLsb' 0 16).toNat = tid ∧
      w2.extractLsb' 16 48 = f.serial.extractLsb' 0 48 ∧ r.drop 3 = [f.wobj, f.addr, f.pc, f.cause, time])

/-- R71, R72, R363: the frame of moving on. What follows an instruction's effect changes nothing but the PC
and loop state of the issuing warp, its wait entry, its issue and skid counts and its team's, and the recorder,
and stops a warp that a debugger steps (R322): its team, halted but for that step, is halting until the step is
complete; where no loop level ends at the instruction, the PC rises by 12. -/
def Obligations.MovingOnFrame : Prop :=
  ∀ (e : Env) (t : State), t.edgeOk e.k →
    let stepped := (t.team? e.k.team).any fun u => u.stepping == some e.k.w && u.phase == .halted
    (e.after t).body e.k = (if stepped then t.modTeam e.k.team fun u => { u with phase := .halting } else t).body e.k ∧ sameUnits t (e.after t) ∧ sameMemory t (e.after t) ∧
    ∀ w, t.warp? e.k = some w → w.atEnd = false →
      ∃ u, (e.after t).warp? e.k = some u ∧ u.pc = w.pc + 12 ∧ u.mask = w.mask ∧ u.loops = w.loops ∧ u.lc = w.lc

/-- R88, R91, R97, R102: writing a vector destination. Each effective lane of the register that the
destination names there takes its value; every other lane of a register that is no destination, or that needs no
reload, keeps the value it had, whatever their shapes, and whatever was spilled to make room; the other lanes of a
spilled one are those of its slot in the frame, reloaded into the row that it takes (R97); the register takes the shape of the result
under a full mask, else it is general; nothing else of the warp changes, and where
the destination registers hold rows already, memory and caches do not. A result said to be uniform or
affine must be so in all lanes. -/
def Obligations.VectorWritesReadBack : Prop :=
  ∀ (e : Env) (named : List Nat) (d : Operand) (x : VRes) (t : State), e.s.team? e.k.team = some e.t →
    e.s.warp? e.k = some e.w → e.width ≤ 64 → x.vals.length = e.width →
    (x.shape = .u → ∀ l < e.width, x.vals.getD l 0 = x.vals.getD 0 0) →
    (x.shape = .a → ∀ l < e.width, x.vals.getD l 0 = x.vals.getD 0 0 + BitVec.ofNat 64 l * x.stride.signExtend 64) →
    (∀ l ∈ e.lanes, ∀ r, e.w.regOf d l = some r → r < e.w.v.length) → e.lanes ≠ [] →
    e.write named d x = some t →
    (∃ u, t.warp? e.k = some u ∧
      (let dst := e.w.destRegs d e.lanes
       let full := e.m = fullMask e.width ∧ dst.2 = false
       let inRow (n : Nat) : Prop := (e.w.vreg n).shape = .g ∧ (e.w.vreg n).spilled = false
       let one (n : Nat) : Prop := dst.1 = [n] ∧ ((e.w.vreg n).shape = .g → (e.w.vreg n).spilled = false)
       (∀ r < e.w.v.length, ∀ l < e.width,
         (e.m.has l = true → e.w.regOf d l = some r → (u.vreg r).at l = x.vals.getD l 0) ∧
         (¬ (e.m.has l = true ∧ e.w.regOf d l = some r) →
           r ∉ dst.1 ∨ full ∨ one r ∨ (∀ n ∈ dst.1, inRow n) → (u.vreg r).at l = (e.w.vreg r).at l)) ∧
       (∀ n row s1, dst.1 = [n] → ¬ full → (e.w.vreg n).shape = .g → (e.w.vreg n).spilled = true →
         e.s.takeRow e.k e.t.kernel.g (n :: named) = some (row, s1) → ∀ l < e.width,
         ¬ (e.m.has l = true ∧ e.w.regOf d l = some n) →
           (u.vreg n).at l = (s1.readSlot e.k n (e.w.vreg n)).1.lanes.getD l 0)) ∧
      (let (regs, each) := e.w.destRegs d e.lanes
       ∀ r ∈ regs, (u.vreg r).shape =
         if e.m = fullMask e.width ∧ each = false ∧ x.poison = 0 then x.shape else .g) ∧
      u.s = e.w.s ∧ u.p = e.w.p ∧ u.x = e.w.x ∧ u.flags = e.w.flags ∧ u.pc = e.w.pc ∧ u.mask = e.w.mask ∧
      u.stack = e.w.stack ∧ u.loops = e.w.loops ∧ u.v.length = e.w.v.length) ∧
    ((∀ r ∈ (e.w.destRegs d e.lanes).1, (e.w.vreg r).shape = .g ∧ (e.w.vreg r).spilled = false) → sameMemory e.s t)

/-- R76, R95: the scalar, vector, CORDIC and cross-lane instructions (opcodes 0x040 to 0x1FF) touch no memory. One
that is ready, with every destination register holding its row, leaves every byte, tag and poison mark of
memory, the caches and the cores as they were, unless it traps. -/
def Obligations.RegisterInstructionsKeepMemory : Prop :=
  ∀ (i : Instr) (g : Sig) (e : Env) (w : BitVec 96) (u : State), encode i = some w →
    0x040 ≤ (w.extractLsb' 0 10).toNat → (w.extractLsb' 0 10).toNat < 0x200 → Ready i g e → e.s.edgeOk e.k →
    (∀ n ∈ e.w.named g.dest (e.seen i), (e.w.vreg n).shape = .g ∧ (e.w.vreg n).spilled = false) →
    exec i e.s = .next u → sameMemory e.s u ∨ ∃ f ia, u = e.s.trapped e.k f ia

/-- R194, R218, R219, R345: writes reach memory byte by byte. A write packet that a base die performs changes
exactly the bytes of its sector that its mask names, to its data; a write at L2 of a sector that L2 holds
changes exactly the bytes its mask names, and what L2 holds of the same location under another address follows
it (R220); a tag write changes one granule's tag; each keeps the canonical form. -/
def Obligations.WritesChangeNamedBytesOnly : Prop :=
  ∀ (s : State),
    (∀ (p : Packet) (a : Nat), p.data.length = 128 → s.MemoryCanonical →
      (s.physWrite p).MemoryCanonical ∧
      (s.physWrite p).memByte a =
        if a / 128 = p.pa ∧ p.mask.getLsbD (a % 128) = true then p.data.getD (a % 128) 0 else s.memByte a) ∧
    (∀ (phys : Bool) (sec : Nat) (x : L2Sector) (data : List Byte) (mask : BitVec 128) (poison : Bool) (owner : Option TKey),
      s.l2? phys sec = some x → x.data.length = 128 →
      let t := (s.l2Write phys sec data mask poison owner).2
      (∃ y, t.l2? phys sec = some y ∧ y.dirty = x.dirty ||| mask ∧
        (∀ b < 128, y.data.getD b 0 = if mask.getLsbD b then data.getD b 0 else x.data.getD b 0) ∧
        ∀ ph q, ¬ (ph = phys ∧ q = sec) → t.l2? ph q = (s.l2? ph q).map fun z =>
          if ph = phys ∧ z.pa = x.pa then { z with data := y.data, poison := y.poison } else z) ∧ t.mem = s.mem ∧ t.tags = s.tags ∧ t.teams = s.teams) ∧
    (∀ g h v, s.MemoryCanonical → (s.setTag g v).MemoryCanonical ∧
      (s.setTag g v).tagOf h = if h = g then v else s.tagOf h)

/-- R67: `bany` and `ball`. With q(l) = p(A)(l) xor PN, `bany` is taken when some active lane has q(l) = 1,
`ball` when there is an active lane and every active lane has q(l) = 1; a guard that is off skips both. -/
def Obligations.BanyAndBall : Prop :=
  ∀ (g : Sig) (e : Env) (o : Ops (BitVec 16)) (n : BitVec 4), o.a = .p n →
    let q (l : Nat) : Bool := (e.w.preg n).has l != o.mod.getLsbD 0
    let active (l : Nat) : Prop := e.w.mask.has l = true
    let target := e.w.pc + 12 * o.imm.signExtend 64
    let goes (i : Instr) (taken : Prop) : Prop :=
      (taken → e.t.kernel.inCode target = true → ∀ u, e.w.cancelTo target = some u →
        e.DoesRaw i g (e.s.modWarp e.k fun _ => { u with pc := target })) ∧
      (¬ taken → e.DoesRaw i g (e.s.advance e.k)) ∧
      (i.sig = some g → e.s.cur = some e.k → e.s.team? e.k.team = some e.t → e.s.warp? e.k = some e.w →
        g.check e.t = none → g.mask e.t e.w = none → exec i e.s = .next ((e.s.advance e.k).issued e.k))
    goes (.bany o) (∃ l < 64, active l ∧ q l = true) ∧
    goes (.ball o) ((∃ l < 64, active l) ∧ ∀ l < 64, active l → q l = true)

/-- R163: `accz` and `acccp`. Both check every tile number they name against T when they issue; at its
completion `accz` has set every element of its tile to +0, `acccp` has copied every element of its source
tile into its destination tile, and no other tile has changed. -/
def Obligations.TileClearAndCopy : Prop :=
  (∀ (g : Sig) (e : Env) (o : Ops MX),
    let tile := o.mod.acc.toNat + e.toff o.imm
    let tile2 := o.mod.sub.toNat % 32 + e.toff o.imm
    (e.t.kernel.tiles ≤ tile → e.Traps (.accz o) g 0x0E) ∧
    (tile < e.t.kernel.tiles → e.w.roomOn .mx = true →
      e.Does (.accz o) g (e.acceptMx (.accz o) e.s fun x => { x with tile := tile })) ∧
    (e.t.kernel.tiles ≤ tile ∨ e.t.kernel.tiles ≤ tile2 → e.Traps (.acccp o) g 0x0E) ∧
    (tile < e.t.kernel.tiles → tile2 < e.t.kernel.tiles → e.w.roomOn .mx = true →
      e.Does (.acccp o) g (e.acceptMx (.acccp o) e.s fun x => { x with tile := tile, tile2 := tile2 }))) ∧
  (∀ (s : State) (core id : Nat) (x : MxOp) (t : Team), (s.core core).mxOps.find? (·.id == id) = some x →
    s.team? x.key.team = some t → (s.core core).mxReady x = true → s.fqRoom x.key.ctx = true →
    ∃ f : Team → Team, (∀ o, x.instr = .accz o ∨ x.instr = .acccp o →
      exec (.mxOpComplete core id) s = .next (((s.modTeam x.key.team f).dropMx core x).settle x.key)) ∧
      (∀ o, x.instr = .accz o → ∀ u h n i j, i < 96 → j < 96 →
        ((f u).tile h n).at i j = if h = x.half ∧ n = x.tile then 0 else (u.tile h n).at i j) ∧
      (∀ o, x.instr = .acccp o → ∀ h n i j,
        ((f t).tile h n).at i j = if h = x.half ∧ n = x.tile2 then (t.tile x.half x.tile).at i j else (t.tile h n).at i j))

/-- R336: `trap`, `bkpt` and `dbgh`. `trap n` raises TRAP and `bkpt n` raises BKPT, each precise and with n in
AUX; `dbgh` raises DEBUG_HALT under ATTACH, and acts as `nop` without; none executes where its guard is
off. With room for the record, the fault is taken and the resume PC is the next instruction. -/
def Obligations.TrapInstructions : Prop :=
  ∀ (g : Sig) (e : Env) (o : Ops (BitVec 16)),
    let raises (i : Instr) (code aux : Nat) : Prop :=
      Ready i g e → e.s.fqRoom e.k.ctx = true →
        exec i e.s = .next (((e.s.countIssue e.k).takeFault e.k (e.w.faultAt code 255 0 aux) none).modWarp e.k fun w =>
          { w with pc := e.w.pc + 12 })
    let skips (i : Instr) : Prop :=
      i.sig = some g → e.s.cur = some e.k → e.s.team? e.k.team = some e.t → e.s.warp? e.k = some e.w →
        g.check e.t = none → g.mask e.t e.w = none → exec i e.s = .next ((e.s.advance e.k).issued e.k)
    (∀ code aux, (e.w.faultAt code 255 0 aux).precise = true ∧ (e.w.faultAt code 255 0 aux).aux = aux ∧
      (e.w.faultAt code 255 0 aux).pc = e.w.pc) ∧
    raises (.trap o) 0x21 o.imm.toNat ∧ raises (.bkpt o) 0x20 o.imm.toNat ∧
    (e.ctx.attach = true → Ready (.dbgh o) g e → e.s.fqRoom e.k.ctx = true → ∃ f : FaultInfo, f.code = 0x25 ∧
      exec (.dbgh o) e.s = .next (((e.s.countIssue e.k).takeFault e.k f none).modWarp e.k fun w =>
        { w with pc := e.w.pc + 12 })) ∧
    (e.ctx.attach = false → e.DoesRaw (.dbgh o) g (e.s.advance e.k) ∧ e.Does (.nop o) g e.s) ∧
    skips (.trap o) ∧ skips (.bkpt o) ∧ skips (.dbgh o)

/-! ## Scalar instructions -/

/-! ## The instructions of the warps: what each does when its checks pass -/

/-- R15, R19, R83, Tables 2-3 and 4-3: the values that the special registers read, and the result of every
scalar instruction, for every type, immediate form and destination (a destination %zero discards: `Env.setS`).
A result is formed exactly, clamped with SAT, else wrapped (R118), and extended to 64 bits by the type (R24).
%clk reads what `clkr` reads, the time of the core's emitter (R362). -/
def Obligations.ScalarResults : Prop :=
  ∀ (g : Sig) (e : Env) (o : Ops MA),
    let ty := o.mod.ty
    let w := ty.width
    let a := e.scalarA o
    let b := e.scalarB o
    let bits (n : Nat) : Word := extendTo64 ty n
    let exact (f : Int → Int → Int) : Word := bits (narrowInt ty o.mod.sat (f (readInt ty a) (readInt ty b)))
    e.Sets (.li o) g o.d (o.imm.signExtend 64) ∧
    e.Sets (.lih o) g o.d (lihValue o.mod.sub.toNat (e.scalar o.d) (o.imm.setWidth 16)) ∧
    e.Sets (.sadd o) g o.d (exact fun x y => x + y) ∧
    e.Sets (.ssub o) g o.d (exact fun x y => x - y) ∧
    e.Sets (.smul o) g o.d (exact fun x y => x * y) ∧
    e.Sets (.smulh o) g o.d (exact fun x y => x * y / 2 ^ w) ∧
    e.Sets (.sand o) g o.d (bits (a &&& b)) ∧
    e.Sets (.sor o) g o.d (bits (a ||| b)) ∧
    e.Sets (.sxor o) g o.d (bits (a ^^^ b)) ∧
    e.Sets (.snot o) g o.d (bits (2 ^ w - 1 - a)) ∧
    e.Sets (.sshl o) g o.d (bits (a * 2 ^ (b % w) % 2 ^ w)) ∧
    e.Sets (.sshr o) g o.d (bits (a / 2 ^ (b % w))) ∧
    e.Sets (.ssra o) g o.d (bits (wrapInt w (toSigned w a / 2 ^ (b % w)))) ∧
    e.Sets (.smin o) g o.d (exact fun x y => min x y) ∧
    e.Sets (.smax o) g o.d (exact fun x y => max x y) ∧
    e.Sets (.sclz o) g o.d (bits (if a = 0 then w else w - 1 - Nat.log2 a)) ∧
    e.Sets (.spopc o) g o.d (bits ((List.range w).countP fun k => a.testBit k)) ∧
    (o.d.isP = false →
      e.Sets (.scmp o) g o.d (if intCond o.mod.sub.toNat (readInt ty a) (readInt ty b) then 1 else 0)) ∧
    (∀ n, o.d = .p n →
      e.Does (.scmp o) g (e.s.modWarp e.k fun u =>
        u.setP n e.width (if intCond o.mod.sub.toNat (readInt ty a) (readInt ty b) then BitVec.allOnes 64 else 0))) ∧
    e.Sets (.ssel o) g o.d (bits
      (if e.w.mask &&& (if o.mod.sub.getLsbD 4 then ~~~(e.w.preg (o.mod.sub.setWidth 4))
          else e.w.preg (o.mod.sub.setWidth 4)) = 0 then b else a)) ∧
    e.Sets (.smov o) g o.d (bits a) ∧
    e.Sets (.sext o) g o.d (bits (extendField ty.signed 64 (b % 64 + 1) a)) ∧
    e.Sets (.sbfe o) g o.d (bits (extendField ty.signed 64 (min (b / 256 % 128) 64) (a / 2 ^ (b % 64)))) ∧
    (let reads (r : Special) (v : Word) : Prop := e.scalar (.special r) = v ∧ ∀ l, e.lane (.special r) l = v
     (∀ l < 64, (e.lane (.special .lane) l).toNat = l ∧ e.lane (.special .flags) l = (e.w.flags.getD l 0).setWidth 64) ∧
     reads .warp (BitVec.ofNat 64 e.w.num) ∧ reads .team (BitVec.ofNat 64 e.t.tid) ∧
     reads .node (BitVec.ofNat 64 e.t.nodeRef) ∧ reads .inst (BitVec.ofNat 64 e.t.inst) ∧
     reads .ctx (BitVec.ofNat 64 e.t.ctx) ∧ reads .core (BitVec.ofNat 64 e.w.core) ∧
     reads .clk (e.s.timeAt e.w.core) ∧ reads .cause e.w.cause ∧ reads .mask e.w.mask ∧ reads .serial e.w.serial ∧
     reads .lc0 (e.w.lc.getD 0 0) ∧ reads .lc1 (e.w.lc.getD 1 0) ∧ reads .lc2 (e.w.lc.getD 2 0) ∧ reads .zero 0)

/-! ## Vector integer instructions -/

/-- R128, R130, R131, Tables 5-2 and 7-3: the result of every vector integer instruction, element by
element in each effective lane, with the affine forms of Table 5-2; `vd` is D, a register or an indexed
code. Each result is formed exactly and clamped with SAT, else wrapped (R118). -/
def Obligations.VectorIntegerResults : Prop :=
  ∀ (g : Sig) (e : Env) (o : Ops MA),
    let ty := o.mod.ty
    let w := ty.width
    let sa := e.w.srcShape o.a
    let sb := e.w.srcShapeB o
    let int (f : Int → Int → Int) (a b : Nat) : Nat := narrowInt ty o.mod.sat (f (readInt ty a) (readInt ty b))
    let one (f : Nat → Nat) : VRes := e.elemwise ty o.mod.pk [sa] none fun l k => f (e.elem ty o.a l k)
    let two (aff : Option Word) (f : Nat → Nat → Nat) : VRes :=
      e.elemwise ty o.mod.pk [sa, sb] aff fun l k => f (e.elem ty o.a l k) (e.elemB o l k)
    let three (f : Nat → Nat → Nat → Nat) : VRes :=
      e.elemwise ty o.mod.pk [sa, sb, e.w.srcShape o.d] none fun l k =>
        f (e.elem ty o.a l k) (e.elemB o l k) (e.elem ty o.d l k)
    e.Gives (.iadd o) g o.d (two (addStride o.mod sa sb) (int fun x y => x + y)) ∧
    e.Gives (.isub o) g o.d (two (subStride o.mod sa sb) (int fun x y => x - y)) ∧
    e.Gives (.imul o) g o.d (two (mulStride o.mod sa sb (e.lane o.a 0) (e.laneB o 0)) (int fun x y => x * y)) ∧
    e.Gives (.imul24 o) g o.d (two none fun a b => wrapInt w (e24 ty a * e24 ty b)) ∧
    e.Gives (.imulh o) g o.d (two none (int fun x y => x * y / 2 ^ w)) ∧
    e.Gives (.imad24 o) g o.d (three fun a b d => wrapInt w (e24 ty a * e24 ty b + d)) ∧
    e.Gives (.iabs o) g o.d (one fun a => int (fun x _ => x.natAbs) a 0) ∧
    e.Gives (.ineg o) g o.d (one fun a => int (fun x _ => -x) a 0) ∧
    e.Gives (.imin o) g o.d (two none (int fun x y => min x y)) ∧
    e.Gives (.imax o) g o.d (two none (int fun x y => max x y)) ∧
    e.Gives (.iand o) g o.d (two none fun a b => a &&& b) ∧
    e.Gives (.ior o) g o.d (two none fun a b => a ||| b) ∧
    e.Gives (.ixor o) g o.d (two none fun a b => a ^^^ b) ∧
    e.Gives (.inot o) g o.d (one fun a => 2 ^ w - 1 - a % 2 ^ w) ∧
    e.Gives (.ishl o) g o.d (two none fun a b => a * 2 ^ (b % w) % 2 ^ w) ∧
    e.Gives (.ishr o) g o.d (two none fun a b => a / 2 ^ (b % w)) ∧
    e.Gives (.isra o) g o.d (two none fun a b => wrapInt w (toSigned w a / 2 ^ (b % w))) ∧
    e.Gives (.irot o) g o.d (two none (rotElem w (o.mod.sub.getLsbD 0))) ∧
    e.Gives (.iclz o) g o.d (one fun a => if a = 0 then w else w - 1 - Nat.log2 a) ∧
    e.Gives (.ipopc o) g o.d (one fun a => (List.range w).countP fun k => a.testBit k) ∧
    e.Gives (.ibrev o) g o.d (one (revElem w)) ∧
    e.Gives (.ibfe o) g o.d (two none fun a b => extendField ty.signed w (min (b / 256 % 128) w) (a / 2 ^ (b % 64))) ∧
    (∀ c, cOperand o.imm = some c →
      e.Gives (.ibfi o) g o.d (e.elemwise ty o.mod.pk [sa, e.w.srcShape o.b, e.w.srcShape c] none fun l k =>
        insertField w (e.elem ty o.a l k) (e.elem ty o.b l k) (e.elem ty c l k)) ∧
      e.Gives (.isel o) g o.d (e.elemwise ty o.mod.pk [sa, e.w.srcShape o.b, e.w.srcShape c] none fun l k =>
        if e.lane c l = 0 then e.elem ty o.b l k else e.elem ty o.a l k)) ∧
    e.Gives (.iavg o) g o.d (two none (int fun x y => (x + y + o.mod.sub.toNat) / 2)) ∧
    (o.mod.sub = 0 → e.Gives (.isad o) g o.d (two none fun a b => wrapInt w (readInt ty a - readInt ty b).natAbs)) ∧
    (o.mod.sub = 1 → e.Gives (.isad o) g o.d (three fun a b d => wrapInt w (d + (readInt ty a - readInt ty b).natAbs))) ∧
    e.Gives (.idp4 o) g o.d (three fun a b d =>
      narrowInt ty o.mod.sat (readInt ty d + dot4 (o.mod.sub.getLsbD 0) (o.mod.sub.getLsbD 1) a b)) ∧
    e.Gives (.iext o) g o.d (two none fun a b => extendField ty.signed w (b % w + 1) a) ∧
    (∀ r, o.a = .v r →
      e.Gives (.ilop3 o) g o.d (e.elemwise .z64 0 [sa, e.w.srcShape (.v (r + 1)), e.w.srcShape o.d] none fun l k =>
        lop3 o.imm.toNat (e.elem .z64 o.a l k) (e.elem .z64 (.v (r + 1)) l k) (e.elem .z64 o.d l k))) ∧
    e.Gives (.ishfd o) g o.d (three (funnel w (o.mod.sub.getLsbD 0)))

/-- R131, R133: comparisons and the carry instruction. A comparison writes the effective lanes of a
predicate, or all ones and zeros in each element of D; `iaddc` adds or subtracts with the carry in a
predicate and writes the carry or borrow out of each effective lane back to it. -/
def Obligations.ComparisonResults : Prop :=
  ∀ (g : Sig) (e : Env) (o : Ops MA),
    let ty := o.mod.ty
    let w := ty.width
    let sh := [e.w.srcShape o.a, e.w.srcShapeB o]
    let ci (l k : Nat) : Bool :=
      intCond o.mod.sub.toNat (readInt ty (e.elem ty o.a l k)) (readInt ty (e.elemB o l k))
    let cf (l k : Nat) : Bool × Fl := fpCond (fpOf ty) o.mod.sub.toNat (e.elem ty o.a l k) (e.elemB o l k)
    let fl (l : Nat) : Fl := laneFlags o.mod.pk fun k => ⟨0, (cf l k).2⟩
    let mask (c : Nat → Nat → Bool) : VRes := e.elemwise ty o.mod.pk sh none fun l k => if c l k then 2 ^ w - 1 else 0
    (o.d.isP = false → e.Gives (.icmp o) g o.d (mask ci)) ∧
    (∀ n, o.d = .p n → e.Does (.icmp o) g (e.setLanes e.s n fun l => ci l 0)) ∧
    (o.d.isP = false → e.Gives (.fcmp o) g o.d (mask fun l k => (cf l k).1) o.nf fl) ∧
    (∀ n, o.d = .p n → e.Does (.fcmp o) g (e.raise o.nf fl (e.setLanes e.s n fun l => (cf l 0).1))) ∧
    (let n : BitVec 4 := o.mod.sub.setWidth 4
     let sub := o.mod.sub.getLsbD 4
     let c (l : Nat) : Int := if (e.w.preg n).has l then 1 else 0
     let t (l : Nat) : Int :=
       if sub then (e.elem ty o.a l 0 : Int) - e.elemB o l 0 - c l else (e.elem ty o.a l 0 : Int) + e.elemB o l 0 + c l
     Ready (.iaddc o) g e → e.HasRoom g o.d →
       ∃ t1, e.write (e.named g) o.d (e.elemwise ty o.mod.pk [.g] none fun l _ => wrapInt w (t l)) = some t1 ∧
         exec (.iaddc o) e.s =
           .next (e.after (e.setLanes t1 n fun l => if sub then decide (t l < 0) else decide (2 ^ w ≤ t l))))

/-! ## Floating point, conversion and CORDIC -/

/-- R119 to R122, R132 to R134: the result and the sticky flags of every vector floating-point
instruction. Each arithmetic result is the exact value rounded once by RND; reading a subnormal raises DN
and a signalling NaN IV; NF suppresses the flags. `fabs`, `fneg` and `fcpsgn` move bits and raise none. -/
def Obligations.VectorFloatResults : Prop :=
  ∀ (g : Sig) (e : Env) (o : Ops MA),
    let ty := o.mod.ty
    let f := fpOf ty
    let rnd := o.mod.rnd
    let sa := e.w.srcShape o.a
    let sb := e.w.srcShapeB o
    let a (l k : Nat) : Nat := e.elem ty o.a l k
    let b (l k : Nat) : Nat := e.elemB o l k
    let writes (i : Instr) (srcs : List SrcShape) (r : Nat → Nat → FpRes) : Prop :=
      e.Gives i g o.d (e.elemwise ty o.mod.pk srcs none fun l k => (r l k).code) o.nf fun l => laneFlags o.mod.pk (r l)
    let one (i : Instr) (r : Nat → FpRes) : Prop := writes i [sa] fun l k => (r (a l k)).reading f [a l k]
    let two (i : Instr) (r : Nat → Nat → FpRes) : Prop :=
      writes i [sa, sb] fun l k => (r (a l k) (b l k)).reading f [a l k, b l k]
    let bits (i : Instr) (srcs : List SrcShape) (r : Nat → Nat → Nat) : Prop :=
      e.Gives i g o.d (e.elemwise ty o.mod.pk srcs none r)
    two (.fadd o) (fun x y => f.finish rnd false (fpSum rnd [f.val x, f.val y])) ∧
    two (.fsub o) (fun x y => f.finish rnd false (fpSum rnd [f.val x, (f.val y).flip])) ∧
    two (.fmul o) (fun x y => f.finish rnd false (fpMul (f.val x) (f.val y))) ∧
    (∀ c, cOperand o.imm = some c →
      let fused (i : Instr) (negP negC : Bool) : Prop :=
        writes i [sa, e.w.srcShape o.b, e.w.srcShape c] fun l k =>
          let y := e.elem ty o.b l k
          let z := e.elem ty c l k
          let p := fpMul (f.val (a l k)) (f.val y)
          let x := fpSum rnd [if negP then p.1.flip else p.1, if negC then (f.val z).flip else f.val z]
          (f.finish rnd false (x.1, x.2 ||| p.2)).reading f [a l k, y, z]
      fused (.fma o) false false ∧ fused (.fnma o) true false ∧ fused (.fms o) false true ∧ fused (.fnms o) true true) ∧
    two (.fmin o) (fun x y => f.minMax false (o.mod.sub.getLsbD 0) x y) ∧
    two (.fmax o) (fun x y => f.minMax true (o.mod.sub.getLsbD 0) x y) ∧
    bits (.fabs o) [sa] (fun l k => a l k % 2 ^ (ty.width - 1)) ∧
    bits (.fneg o) [sa] (fun l k => a l k ^^^ 2 ^ (ty.width - 1)) ∧
    bits (.fcpsgn o) [sa, sb] (fun l k => a l k % 2 ^ (ty.width - 1) + (b l k &&& 2 ^ (ty.width - 1))) ∧
    writes (.fclass o) [sa] (fun l k => ⟨fpClass f (a l k), if f.isSub (a l k) then flDN else 0⟩) ∧
    one (.frcp o) (fpRecip f rnd) ∧
    one (.frnd o) (fpRoundInt f rnd (o.mod.sub.getLsbD 0)) ∧
    writes (.fscale o) [sa, e.w.srcShape o.b] (fun l k =>
      (f.round rnd false ((f.val (a l k)).scale (boundExp (toSigned ty.width (e.elem ty o.b l k))))).reading f [a l k]) ∧
    one (.fexpt o) (fpExponent f) ∧
    one (.fmant o) (fpMantissa f) ∧
    one (.fsat o) (fpSat f) ∧
    (let r (l k : Nat) : FpRes :=
       let a0 := e.elem ty o.a l (2 * k)
       let a1 := e.elem ty o.a l (2 * k + 1)
       let b0 := e.elem ty o.b l (2 * k)
       let b1 := e.elem ty o.b l (2 * k + 1)
       let d := e.elem .f32 o.d l k
       let p := fpMul (f.val a0) (f.val b0)
       let q := fpMul (f.val a1) (f.val b1)
       let x := fpSum rnd [fmtF32.val d, p.1, q.1]
       ((fmtF32.finish rnd false (x.1, x.2 ||| p.2 ||| q.2)).reading f [a0, a1, b0, b1]).reading fmtF32 [d]
     e.Gives (.fdot2 o) g o.d
       (e.elemwise .f32 1 [sa, e.w.srcShape o.b, e.w.srcShape o.d] none fun l k => (r l k).code) o.nf
       fun l => laneFlags 1 (r l))

/-- R124, R135 to R137: the conversions, and the instructions that read and clear %flags. `cvtmx` writes two
registers of E2M1 elements and the E8M0 scale of each block of 32, one block a lane. UF of `cvtmx` is
the model's reading (assumption 105). -/
def Obligations.ConversionResults : Prop :=
  ∀ (g : Sig) (e : Env),
    (∀ o : Ops MC,
      let r (l k : Nat) : FpRes := convert o.mod (e.elem o.mod.sty o.a l k)
      e.Gives (.cvt o) g o.d
        (e.elemwise o.mod.ty o.mod.pk [e.w.srcShape o.a] none fun l k => (r l k).code) o.nf
        fun l => laneFlags o.mod.pk (r l)) ∧
    (∀ o : Ops MC,
      let r (l k : Nat) : FpRes := convertScaled o.mod ((e.lane o.b l).toNat % 256) (e.elem o.mod.sty o.a l k)
      e.Gives (.cvtsc o) g o.d
        (e.elemwise o.mod.ty o.mod.pk [e.w.srcShape o.a, e.w.srcShape o.b] none fun l k => (r l k).code) o.nf
        fun l => laneFlags o.mod.pk (r l)) ∧
    (∀ (o : Ops MC) (t1 t2 t3 : State),
      let blk (l : Nat) : Nat × List Nat × Fl := mxBlock (fpOf o.mod.sty) o.mod.rnd (e.block o l)
      let half (lo : Nat) : VRes := e.result [.g] none fun l =>
        BitVec.ofNat 64 (packElems 4 (((blk l).2.1.drop lo).take 16))
      e.write (e.named g) o.d (half 0) = some t1 →
      ({ e with s := t1 } : Env).write (e.named g) (.v (BitVec.ofNat 8 (o.d.vNum + 1))) (half 16) = some t2 →
      ({ e with s := t2 } : Env).write (e.named g) o.b (e.result [.g] none fun l => BitVec.ofNat 64 (blk l).1) = some t3 →
      e.Does (.cvtmx o) g (e.raise o.nf (fun l => (blk l).2.2) t3)) ∧
    (∀ o : Ops MA,
      let now : VRes := e.result [.g] none fun l => (e.w.flags.getD l 0).setWidth 64
      (o.mod.sub = 0 → e.Gives (.flgr o) g o.d now) ∧
      (o.mod.sub = 1 → Ready (.flgr o) g e → e.HasRoom g o.d →
        ∃ t, e.write (e.named g) o.d now = some t ∧
          exec (.flgr o) e.s = .next (e.after (e.setFlags (fun _ _ => 0) t))) ∧
      (o.mod.ib = true → e.Does (.flgc o) g (e.setFlags (fun _ x => x &&& ~~~(o.imm.setWidth 6)) e.s)) ∧
      (o.mod.ib = false → e.Does (.flgc o) g (e.setFlags (fun l x => x &&& ~~~((e.lane o.b l).setWidth 6)) e.s)))

/-- R138, R139, Table 7-6: each CORDIC instruction completes with one result `r` per element. NaN gives the
canonical NaN; the special and exact columns of Table 7-6 give their values; every other result is the value
before rounding of R139's procedure, as the model forms it in ITER steps, rounded once, with NX. That a NaN raises no
NX, that a result that is tiny and representable raises NX without UF, how `ctanh` keeps u, and where `crsq` rounds its
quotient are the model's choices (assumptions 108, 109, 110, 119). (How near the value lies to the function is the error
bound of R138, which is not stated here.) -/
def Obligations.CordicResults : Prop :=
  ∀ (g : Sig) (e : Env) (o : Ops MK),
    let f := fpOf o.mod.ty
    let rnd := o.mod.rnd
    let exact (x : FpVal) : FpRes := f.round rnd false x
    let bad : FpRes := ⟨f.nan, flIV⟩
    let n : Nat := o.mod.iter.toNat
    let rounded (r : FpRes) (x : FpVal) : Prop := r = ⟨(exact x).code, (exact x).fl ||| flNX⟩
    let isInt (m : Nat) (q : Int) (j : Nat) : Prop := (q ≤ 0 ∧ m = j * 2 ^ (-q).toNat) ∨ (0 ≤ q ∧ j = m * 2 ^ q.toNat)
    let gives (i : Instr) (p : FpVal → FpRes → Prop) : Prop :=
      Ready i g e → e.HasRoom g o.d → ∃ r : Nat → Nat → FpRes,
        (∀ l k, (∀ q, f.val (e.elem o.mod.ty o.a l k) = .nan q → r l k = ⟨f.nan, 0⟩) ∧
          p (f.val (e.elem o.mod.ty o.a l k)) (r l k)) ∧
        ∃ t, e.write (e.named g) o.d (e.elemwise o.mod.ty o.mod.pk [e.w.srcShape o.a] none fun l k => (r l k).code) =
            some t ∧
          exec i e.s = .next (e.after (e.raise o.nf (fun l => laneFlags o.mod.pk fun k =>
            (r l k).reading f [e.elem o.mod.ty o.a l k]) t))
    gives (.csin o) (fun v r => (∀ neg q, v = .num neg 0 q → r = ⟨f.signBit neg, 0⟩) ∧ (∀ neg, v = .inf neg → r = bad) ∧
      ∀ neg m q, v = .num neg m q → m ≠ 0 → rounded r (cordicTrig false n neg m q)) ∧
    gives (.ccos o) (fun v r => (∀ neg q, v = .num neg 0 q → r = exact (.num false 1 0)) ∧
      (∀ neg, v = .inf neg → r = bad) ∧
      ∀ neg m q, v = .num neg m q → m ≠ 0 → rounded r (cordicTrig true n neg m q)) ∧
    gives (.catan o) (fun v r => (∀ neg q, v = .num neg 0 q → r = ⟨f.signBit neg, 0⟩) ∧
      (∀ neg, v = .inf neg → r = ⟨(exact (.num neg (piBits guardBits).natAbs (-(guardBits : Int) - 1))).code, 0⟩) ∧
      ∀ neg m q, v = .num neg m q → m ≠ 0 → rounded r (cordicAtan n neg m q)) ∧
    gives (.cexp2 o) (fun v r => (∀ q, v = .inf q → r = ⟨if q then 0 else f.inf false, 0⟩) ∧
      (∀ neg m q (j : Nat), v = .num neg m q → isInt m q j →
        r = exact (.num false 1 (if neg then -(min j 5000 : Nat) else (min j 5000 : Nat)))) ∧
      ∀ neg m q, v = .num neg m q → (∀ j, ¬ isInt m q j) → rounded r (cordicExp2 n neg m q)) ∧
    gives (.clog2 o) (fun v r => (∀ neg q, v = .num neg 0 q → r = ⟨f.inf true, flDZ⟩) ∧
      (v = .inf false → r = ⟨f.inf false, 0⟩) ∧ (v = .inf true → r = bad) ∧
      (∀ m q, v = .num true m q → m ≠ 0 → r = bad) ∧
      (∀ (j : Nat) q, v = .num false (2 ^ j) q → r = exact (fpOfInt (j + q))) ∧
      ∀ m q, v = .num false m q → (∀ j, m ≠ 2 ^ j) → m ≠ 0 → rounded r (cordicLog2 n m q)) ∧
    gives (.ctanh o) (fun v r => (∀ neg q, v = .num neg 0 q → r = ⟨f.signBit neg, 0⟩) ∧
      (∀ neg, v = .inf neg → r = exact (.num neg 1 0)) ∧
      ∀ neg m q, v = .num neg m q → m ≠ 0 → rounded r (cordicTanh n neg m q)) ∧
    gives (.crsq o) (fun v r => (∀ neg q, v = .num neg 0 q → r = ⟨f.inf neg, flDZ⟩) ∧ (v = .inf false → r = ⟨0, 0⟩) ∧
      (v = .inf true → r = bad) ∧ (∀ m q, v = .num true m q → m ≠ 0 → r = bad) ∧
      (∀ (j : Nat) (h : Int), v = .num false (2 ^ j) (2 * h - j) → r = exact (.num false 1 (-h))) ∧
      ∀ m q, v = .num false m q → m ≠ 0 → (∀ (j : Nat) (h : Int), m = 2 ^ j → q ≠ 2 * h - j) →
        rounded r (cordicRoot true n m q)) ∧
    gives (.csqrt o) (fun v r => (∀ neg q, v = .num neg 0 q → r = ⟨f.signBit neg, 0⟩) ∧
      (v = .inf false → r = ⟨f.inf false, 0⟩) ∧ (v = .inf true → r = bad) ∧
      (∀ m q, v = .num true m q → m ≠ 0 → r = bad) ∧
      (∀ (j : Nat) (h : Int), v = .num false (2 ^ j) (2 * h - j) → r = exact (.num false 1 h)) ∧
      ∀ m q, v = .num false m q → m ≠ 0 → (∀ (j : Nat) (h : Int), m = 2 ^ j → q ≠ 2 * h - j) →
        rounded r (cordicRoot false n m q))

/-! ## Cross-lane and register instructions -/

/-- R140 to R146: the cross-lane instructions and `rng`. `shfl` and `bcast` read lanes outside the effective
mask (`Env.anyLane`) and pass poison on; `vote` writes an s register; `redx` reduces each sub-element position in the
tree of R143, which pairs by lane position, leaves out absent leaves and clamps once at the root; `scanx` forms prefixes
in lane order (R144); `perm` chooses bytes of A and the old D. What a lane outside the mask yields past N,
and the flags of an exclusive scan, are the model's choice (assumptions 19, 44). -/
def Obligations.CrossLaneResults : Prop :=
  ∀ (g : Sig) (e : Env) (o : Ops MA),
    let ty := o.mod.ty
    let pk := o.mod.pk
    let cnt := pkCount pk
    let sa := e.w.srcShape o.a
    let sb := e.w.srcShapeB o
    let each (d : Operand) (i : Instr) (x : VRes) : Prop :=
      Ready i g e → e.HasRoom g d →
        ∃ t, (e.afterStrays o.a).write (e.named g) d x = some t ∧ exec i e.s = .next (e.after t)
    (let src (l k : Nat) : Nat × Nat := shflSource o.mod.sub.toNat e.width cnt l k (e.elemB o l k)
     let any (p : Operand → Nat → Bool) (l : Nat) : Bool := (List.range cnt).any fun k => p o.a (src l k).1
     each o.d (.shfl o)
       { (e.elemwise ty pk [sa, sb] none fun l k => elemOf (e.anyLane o.a (src l k).1) ty.width (src l k).2) with
         poison := e.where (any e.w.poisonAt), recon := e.where (any e.w.reconAt) }) ∧
    (let m := (e.laneB o 0).toNat % e.width
     each o.d (.bcast o)
       { (e.elemwise ty pk [] none fun _ k => elemOf (e.anyLane o.a m) ty.width k) with
         poison := e.where fun _ => e.w.poisonAt o.a m, recon := e.where fun _ => e.w.reconAt o.a m }) ∧
    (let q := e.m &&& e.pred o.a (o.mod.sub.getLsbD 4)
     e.Sets (.vote o) g o.d (match o.mod.sub.toNat % 4 with
       | 0 => q
       | 1 => if q = 0 then 0 else 1
       | 2 => if q = e.m then 1 else 0
       | _ => BitVec.ofNat 64 ((List.range 64).countP fun l => q.getLsbD l))) ∧
    e.Gives (.matchX o) g o.d (e.result [sa] none fun l => e.where fun m => e.elem ty o.a m 0 == e.elem ty o.a l 0) ∧
    (let r (k : Nat) : FpRes := if k < cnt then e.reduce o k else ⟨0, 0⟩
     e.Gives (.redx o) g o.d (e.elemwise ty pk [] none fun _ k => (r k).code) o.nf fun _ => laneFlags pk r) ∧
    (let r (l k : Nat) : FpRes :=
       (((e.lanes.zip (if k < cnt then e.prefixes o k else [])).find? (·.1 == l)).map (·.2)).getD ⟨0, 0⟩
     e.Gives (.scanx o) g o.d (e.elemwise ty pk [.g] none fun l k => (r l k).code) o.nf fun l => laneFlags pk (r l)) ∧
    (let f := fpOf ty
     let op := (o.mod.sub.setWidth 3).toNat
     let iop (x y : Int) : Int := match op with
       | 0 => x + y
       | 1 => min x y
       | 2 => max x y
       | 3 => readInt ty (wrapInt ty.width x &&& wrapInt ty.width y)
       | 4 => readInt ty (wrapInt ty.width x ||| wrapInt ty.width y)
       | _ => readInt ty (wrapInt ty.width x ^^^ wrapInt ty.width y)
     let fop (x y : Nat) : FpRes := match op with
       | 0 => f.add o.mod.rnd x y
       | 1 => f.minMax false false x y
       | _ => f.minMax true false x y
     let lone (x : Nat) : FpRes := match f.val x with
       | .nan sig => ⟨f.nan, if sig then flIV else 0⟩
       | _ => ⟨x, f.readFl x⟩
     let ident : Nat :=
       if ty.isFlt then (match op with | 0 => 0 | 1 => f.inf false | _ => f.inf true)
       else match op with
         | 1 => wrapInt ty.width (Typ.greatest ty)
         | 2 => wrapInt ty.width (Typ.least ty)
         | 3 => 2 ^ ty.width - 1
         | _ => 0
     let at_ (j k : Nat) : Nat := e.elem ty o.a (e.lanes.getD j 0) k
     let ex := o.mod.sub.getLsbD 3
     (∀ (k : Nat) (node : Nat → Nat → Option Int), ty.isFlt = false →
       (∀ lo, node 0 lo = if e.m.has lo then some (readInt ty (e.elem ty o.a lo k)) else none) →
       (∀ n lo, node (n + 1) lo = Option.merge iop (node n lo) (node n (lo + 2 ^ n))) →
       e.reduce o k = ⟨narrowInt ty o.mod.sat ((node (Nat.log2 e.width) 0).getD 0), 0⟩) ∧
     (∀ (k : Nat) (node : Nat → Nat → Option FpRes), ty.isFlt = true → e.lanes.length ≠ 1 →
       (∀ lo, node 0 lo = if e.m.has lo then some ⟨e.elem ty o.a lo k, 0⟩ else none) →
       (∀ n lo, node (n + 1) lo = Option.merge (fun x y =>
         ⟨(fop x.code y.code).code, (fop x.code y.code).fl ||| x.fl ||| y.fl⟩) (node n lo) (node n (lo + 2 ^ n))) →
       e.reduce o k = (node (Nat.log2 e.width) 0).getD ⟨0, 0⟩) ∧
     (∀ k l, ty.isFlt = true → e.lanes = [l] → e.reduce o k = lone (e.elem ty o.a l k)) ∧
     (∀ (k : Nat) (v : Nat → Int), ty.isFlt = false → v 0 = readInt ty (at_ 0 k) →
       (∀ j, v (j + 1) = iop (v j) (readInt ty (at_ (j + 1) k))) →
       ∀ j, j < e.lanes.length → (e.prefixes o k)[j]? = some
         ⟨if ex then (if j = 0 then ident else narrowInt ty o.mod.sat (v (j - 1))) else narrowInt ty o.mod.sat (v j), 0⟩) ∧
     (∀ (k : Nat) (v : Nat → FpRes), ty.isFlt = true → v 0 = lone (at_ 0 k) →
       (∀ j, v (j + 1) = fop (v j).code (at_ (j + 1) k)) →
       ∀ j, j < e.lanes.length → (e.prefixes o k)[j]? = some
         ⟨if ex then (if j = 0 then ident else (v (j - 1)).code) else (v j).code, (v j).fl⟩)) ∧
    e.Gives (.perm o) g o.d
      { (e.result [sa, sb, e.w.srcShape o.d] none fun l => permBytes (e.lane o.a l) (e.lane o.d l) (e.laneB o l)) with
        poison := e.poisonOf o.a ||| e.poisonOf o.d, recon := e.reconOf o.a ||| e.reconOf o.d } ∧
    e.Gives (.rng o) g o.d (e.result [.g] none fun l => rngWord (e.lane o.a l) (e.laneB o l))

/-- R104 to R110: moves, the reading and making of shapes, index registers. A move passes poison on; an
affine 64-bit source keeps its stride; `expand` gives a U or A register a row and leaves its values. -/
def Obligations.RegisterMoveResults : Prop :=
  ∀ (g : Sig) (e : Env),
    (∀ o : Ops MA,
      e.Gives (.mov o) g o.d
        { (e.result [e.w.srcShape o.a] (moveStride o.mod (e.w.srcShape o.a)) fun l =>
            fillBits o.mod.ty o.mod.pk ((e.lane o.a l).toNat % 2 ^ laneBits o.mod.ty o.mod.pk)) with
          poison := e.poisonOf o.a, recon := e.reconOf o.a } ∧
      e.Gives (.movi o) g o.d (e.result [] none fun _ =>
        fillBits o.mod.ty o.mod.pk ((immLane o.mod.ty o.mod.pk o.imm).toNat % 2 ^ laneBits o.mod.ty o.mod.pk))) ∧
    (∀ o : Ops (BitVec 16),
      (∀ r, o.a = .v r → o.mod = 0 → e.Sets (.shape o) g o.d (shapeWord (e.w.vreg r.toNat))) ∧
      (∀ r, o.a = .v r → o.mod = 1 → e.Sets (.shape o) g o.d (e.w.vreg r.toNat).base) ∧
      (o.mod = 2 → e.Sets (.shape o) g o.d (atBit e.w.reloads 32 ||| atBit e.w.spills 0)) ∧
      (let t : BitVec 32 := (e.scalar o.b).setWidth 32
       e.Gives (.mkaff o) g o.d
         { shape := if t = 0 then .u else .a, stride := t
           vals := (List.range e.width).map fun l => e.scalar o.a + BitVec.ofNat 64 l * t.signExtend 64 }) ∧
      (∀ r, o.d = .v r → (e.w.vreg r.toNat).shape = .g → e.Does (.expand o) g e.s) ∧
      (∀ r t, o.d = .v r → (e.w.vreg r.toNat).shape ≠ .g → e.s.makeG e.k e.t [r.toNat] r.toNat = some t →
        e.Does (.expand o) g t) ∧
      (let sh := xShape (e.w.srcShape o.a)
       let x : XReg :=
         { idx := (List.range e.width).map fun l => (e.lane o.a l).setWidth 16
           bound := if o.mod.getLsbD 2 then BitVec.ofNat 8 (min (e.scalar o.b).toNat 255) else o.imm.setWidth 8
           shape := sh.1, stride := sh.2 }
       e.Does (.xset o) g (e.s.modWarp e.k fun w => { w with x := w.x.set (o.mod.toNat % 4) x })) ∧
      (let x := e.w.xreg (o.mod.setWidth 2)
       (o.mod.extractLsb' 4 2 = 0#2 → e.Gives (.xmov o) g o.d (xmovValue e.width x)) ∧
       (o.mod.extractLsb' 4 2 = 1#2 → e.Sets (.xmov o) g o.d (x.bound.setWidth 64)) ∧
       (o.mod.extractLsb' 4 2 = 2#2 →
         e.Does (.xmov o) g (e.s.modWarp e.k fun w => { w with x := w.x.set (o.mod.extractLsb' 2 2).toNat x }))))

/-- R106: `mkaff`. With base := s(A) and stride := the low 32 bits of s(B), sign-extended, each effective
lane l of D takes base + l * stride; under a full mask the register is recorded as A(base, stride), or as U
when the stride is 0, under a partial mask as G. -/
def Obligations.MkaffFormsAnAffineValue : Prop :=
  ∀ (g : Sig) (e : Env) (o : Ops (BitVec 16)) (n : BitVec 8), o.d = .v n → n.toNat < e.w.v.length → 0 < e.width →
    e.width ≤ 64 → e.s.edgeOk e.k → Ready (.mkaff o) g e → e.HasRoom g o.d →
    let base := e.scalar o.a
    let stride : BitVec 32 := (e.scalar o.b).extractLsb' 0 32
    ∃ t u, exec (.mkaff o) e.s = .next t ∧ t.warp? e.k = some u ∧
      (∀ l ∈ e.lanes, (u.vreg n.toNat).at l = base + BitVec.ofNat 64 l * stride.signExtend 64) ∧
      (e.m = fullMask e.width → (u.vreg n.toNat).shape = (if stride = 0 then .u else .a) ∧ (u.vreg n.toNat).base = base ∧
        (u.vreg n.toNat).stride = stride) ∧
      (e.m ≠ fullMask e.width → (u.vreg n.toNat).shape = .g)

/-! ## Control flow -/

/-- R37, R65 to R67, R74: the branches. A taken branch whose target is an instruction of the code sets the
PC, after cancelling the loop levels that do not hold the target; a call writes the return address. A
target outside the code traps with code 0x05, one that leaves a mask entry of a cancelled level open with
MASK_STACK. A branch that is not taken moves on. -/
def Obligations.BranchResults : Prop :=
  ∀ (g : Sig) (e : Env) (o : Ops (BitVec 16)),
    let direct := e.w.pc + 12 * o.imm.signExtend 64
    let next := e.w.pc + 12
    let jumps (i : Instr) (target : Word) (link : Warp → Warp) : Prop :=
      (e.t.kernel.inCode target = false → e.Traps i g 0x05) ∧
      (e.t.kernel.inCode target = true → e.w.cancelTo target = none → e.Traps i g 0x08) ∧
      (e.t.kernel.inCode target = true → ∀ u, e.w.cancelTo target = some u →
        e.DoesRaw i g (e.s.modWarp e.k fun _ => { link u with pc := target }))
    let branches (i : Instr) (taken : Prop) : Prop := (taken → jumps i direct id) ∧ (¬ taken → e.DoesRaw i g (e.s.advance e.k))
    let q := e.pred o.a (o.mod.getLsbD 0)
    jumps (.bra o) direct id ∧
    jumps (.brx o) (e.scalar o.a) id ∧
    jumps (.call o) direct (fun u => u.setS o.d next) ∧
    jumps (.callx o) (e.scalar o.a) (fun u => u.setS o.d next) ∧
    jumps (.ret o) (e.scalar o.a) id ∧
    branches (.bc o) (branchCond o.mod.toNat (e.scalar o.a) (e.scalar o.b) = true) ∧
    branches (.bany o) (e.w.mask &&& q ≠ 0) ∧
    branches (.ball o) (e.w.mask ≠ 0 ∧ e.w.mask &&& ~~~q = 0)

/-- R69 to R73: the mask stack and the hardware loops. `vif` pushes the active mask and keeps the lanes of its
predicate; `velse` takes the other lanes once; `vend` restores the saved mask. `loop` opens a level of LEN
instructions for COUNT passes, and steps over the body when COUNT is 0; an outermost one empties the loop
buffer (R75); `vbrk` and `vcont` take lanes out
until the level closes or its next back edge; `lbrk` closes the level. A full stack, an entry that is not
there, an entry of an outer level, and a second `velse` trap with MASK_STACK; a level that is not there, a
fourth level, a body longer than 256 and one that outlasts the level around it with LOOP. How nested levels
end together, and when an access before `vend` counts as performed, are the model's reading (assumptions 39, 50). -/
def Obligations.MaskStackAndLoopResults : Prop :=
  ∀ (g : Sig) (e : Env) (o : Ops (BitVec 16)),
    let q := e.pred o.a (o.mod.getLsbD 0)
    let depth := e.w.stack.length
    let set (w : Warp) : State := e.s.modWarp e.k fun _ => w
    (depth = 32 → e.Traps (.vif o) g 0x08) ∧
    (depth ≠ 32 → e.Does (.vif o) g (set { e.w with
      mask := e.w.mask &&& q, stack := ⟨e.w.mask, e.w.mask &&& ~~~q, false, e.w.issuedAcc⟩ :: e.w.stack })) ∧
    (depth ≤ e.w.sdIn → e.Traps (.velse o) g 0x08 ∧ e.Traps (.vend o) g 0x08) ∧
    (∀ x rest, e.w.stack = x :: rest → e.w.sdIn < depth →
      (x.e = true → e.Traps (.velse o) g 0x08) ∧
      (x.e = false → e.Does (.velse o) g (set { e.w with mask := x.alt, stack := { x with e := true } :: rest })) ∧
      e.Does (.vend o) g (set { e.w with
        mask := x.save, stack := rest
        regions := e.s.openRegions e.k e.w.core (e.w.regions ++ [(x.opened, e.w.issuedAcc)]) })) ∧
    (let opens (i : Instr) (count : Word) : Prop :=
       let len := o.mod.toNat
       let fin := e.w.pc + BitVec.ofNat 64 (12 * len)
       let inside := decide (e.w.pc.toNat + 12 * len < e.t.kernel.codeBase + e.t.kernel.codeSize)
       let nests := e.w.loops.length < 3 ∧ ∀ lv, e.w.loops.head? = some lv → lv.fin.ult fin = false
       (256 < len → e.Traps i g 0x09) ∧
       (len ≤ 256 → inside = false → e.Traps i g 0x05) ∧
       (len ≤ 256 → inside = true → ¬ nests → e.Traps i g 0x09) ∧
       (len ≤ 256 → inside = true → nests → count = 0 → e.DoesRaw i g (set { e.w with pc := fin + 12 })) ∧
       (len ≤ 256 → inside = true → nests → count ≠ 0 → e.DoesRaw i g (set { e.w with
         loops := ⟨e.w.pc + 12, fin, depth, 0, 0⟩ :: e.w.loops, lc := e.w.lc.set e.w.loops.length count
         loopBuf := if e.w.loops = [] then [] else e.w.loopBuf
         badLoop := if e.w.loops = [] then [] else e.w.badLoop
         pc := e.w.pc + 12 }))
     opens (.loop o) (o.imm.setWidth 64) ∧ opens (.loopx o) (e.scalar o.a)) ∧
    (e.w.loops = [] → e.Traps (.vbrk o) g 0x09 ∧ e.Traps (.vcont o) g 0x09 ∧ e.Traps (.lbrk o) g 0x09) ∧
    (∀ lv outer, e.w.loops = lv :: outer →
      let out := q &&& e.w.mask
      let inner := depth - lv.sdepth
      let stack := (e.w.stack.take inner).map (fun x => { x with save := x.save &&& ~~~out, alt := x.alt &&& ~~~out }) ++
        e.w.stack.drop inner
      e.Does (.vbrk o) g (set { e.w with
        mask := e.w.mask &&& ~~~out, stack := stack, loops := { lv with brk := lv.brk ||| out } :: outer }) ∧
      e.Does (.vcont o) g (set { e.w with
        mask := e.w.mask &&& ~~~out, stack := stack, loops := { lv with cont := lv.cont ||| out } :: outer }) ∧
      (depth ≠ lv.sdepth → e.Traps (.lbrk o) g 0x08) ∧
      (depth = lv.sdepth → e.DoesRaw (.lbrk o) g (set { e.w with
        mask := e.w.mask ||| lv.brk ||| lv.cont, loops := outer, pc := lv.fin + 12 })))

/-- R72: the back edge. At the last instruction of a level the count falls by 1; while it is not 0 and a
lane is left the PC returns to the level's start with the lanes of `vcont` back; else the level closes
with the lanes of `vbrk` back. A mask stack that is not at the level's depth is a MASK_STACK trap: nothing
of the warp changes but BEDGE and what the fault itself does. Elsewhere the PC rises by 12. -/
def Obligations.BackEdge : Prop :=
  ∀ (s : State) (k : WKey) (w : Warp), s.warp? k = some w →
    (w.atEnd = false → s.advance k = s.modWarp k fun u => { u with pc := u.pc + 12 }) ∧
    (∀ lv outer, w.loops = lv :: outer → lv.fin = w.pc → w.stack.length = lv.sdepth →
      let n := w.lc.getD outer.length 0 - 1
      let lc := w.lc.set outer.length n
      let lanes := w.mask ||| lv.cont
      (n ≠ 0 → lanes ≠ 0 → s.advance k = s.modWarp k fun u =>
        { u with mask := lanes, lc := lc, loops := { lv with cont := 0 } :: outer, pc := lv.start, bedge := false }) ∧
      (n = 0 ∨ lanes = 0 → (∀ x, outer.head? = some x → x.fin ≠ lv.fin) → s.advance k = s.modWarp k fun u =>
        { u with mask := lanes ||| lv.brk, lc := lc, loops := outer, pc := lv.fin + 12, bedge := false })) ∧
    (∀ lv outer, w.loops = lv :: outer → lv.fin = w.pc → w.stack.length ≠ lv.sdepth →
      s.advance k = (s.modWarp k (·.edged w true)).takeFault k (w.faultAt 0x08))

/-- R77 to R82, R315, R336: `nop`, `yield`, `sleep`, `exit`, the counter waits, the barriers, `trap`, `bkpt`
and `dbgh`. A wait whose counters are low enough goes on; a barrier instruction arrives, or traps when the
warp's last arrival is still pending; the operations it waited for are then complete for the warp (R240); `exit` ends the warp; `trap` and `bkpt` halt the team with codes 0x21
and 0x20, IMM in AUX, and the resume PC after them. `dbgh` halts it with DEBUG_HALT while ATTACH is 1; that its record
is a precise one too is the model's reading (assumption 57; Table 15-3 says only that it halts), and so is when
`bara` takes its ticket (assumption 38). -/
def Obligations.WarpControlResults : Prop :=
  ∀ (g : Sig) (e : Env) (o : Ops (BitVec 16)),
    e.Does (.nop o) g e.s ∧ e.Does (.yield o) g e.s ∧
    (let count := min ((e.scalar o.a).toNat + o.imm.toNat) (2 ^ 32 - 1)
     (count = 0 → e.DoesRaw (.sleep o) g (e.s.advance e.k)) ∧
     (count ≠ 0 → e.Enters (.sleep o) g
       (((e.s.advance e.k).modWarp e.k fun w => { w with sleepLeft := count, sleepFrom := e.s.clock }).enterWait e.k
         .sleep { kind := 14, a0 := BitVec.ofNat 64 count }))) ∧
    e.Enters (.exit o) g ((e.s.endWait e.k).exitWarp e.k) ∧
    (let field (lo : Nat) : Nat := (o.imm.toNat >>> lo) % 64
     e.w.counter .ld ≤ field 0 → e.w.counter .st ≤ field 6 → e.w.counter .cp ≤ field 12 → e.w.counter .mx ≤ field 18 →
       e.Does (.waitc o) g (e.s.modWarp e.k fun w =>
         (((w.joinWait .ld (field 0)).joinWait .st (field 6)).joinWait .cp (field 12)).joinWait .mx (field 18))) ∧
    (let path := pathOfNat o.mod.toNat
     e.w.counter path ≤ (e.scalar o.a).toNat →
       e.Does (.waitp o) g (e.s.modWarp e.k fun w => w.joinWait path (e.scalar o.a).toNat)) ∧
    (let b := o.mod.toNat
     ((e.w.arrival b).1 = true → e.Traps (.bara o) g 0x1E ∧ e.Traps (.bar o) g 0x1E) ∧
     ((e.w.arrival b).1 = false → e.Does (.bara o) g (e.startArrival b)) ∧
     ((e.w.arrival b).1 = false → ∀ t, e.waitBarrier (e.startArrival b) b = .next t → e.Does (.bar o) g t) ∧
     ((e.w.arrival b).1 = false → ∀ t, e.waitBarrier (e.startArrival b) b = .enter t → e.Enters (.bar o) g t) ∧
     ((e.w.arrival b).1 = false → e.Does (.barw o) g e.s) ∧
     ((e.w.arrival b).1 = true → (e.t.barrier b).phase ≠ (e.w.arrival b).2 → e.Does (.barw o) g (e.s.leaveBarrier e.k b)) ∧
     ((e.w.arrival b).1 = true → (e.t.barrier b).phase = (e.w.arrival b).2 →
       e.Enters (.barw o) g (e.s.enterWait e.k (.barWait b) (e.t.barrierWait b)))) ∧
    (let stops (i : Instr) (code aux : Nat) : Prop :=
       e.Holds i g ((e.s.trapped e.k (e.w.faultAt code 255 0 aux) none).modWarp e.k fun w => { w with pc := e.w.pc + 12 })
     e.s.fqRoom e.k.ctx = true →
       stops (.trap o) 0x21 o.imm.toNat ∧ stops (.bkpt o) 0x20 o.imm.toNat ∧
       (e.ctx.attach = true → stops (.dbgh o) 0x25 0)) ∧
    (e.ctx.attach = false → e.DoesRaw (.dbgh o) g (e.s.advance e.k))

/-! ## Emission, scopes, signals, system -/

/-- R281, R285, R286, R292, Tables 13-10 and 13-11: emitting records. With a reservation, room under the edge's
bound, scopes that accept the records and the release of device scope done, the records leave the warp,
the reservation falls, the edge's count of accepted records and the counts of their scopes rise, and the warp
waits for the round trip. No records move on at once; too small a reservation or a full edge traps with code 0x1C.
With the reservation and the bound met, a lane without a current scope traps with 0x1F, naming the lowest such
lane, and a current scope that is not live, or closed to the warp, traps with 0x1F: no record is sent. `emitq` reads the reservation. -/
def Obligations.EmitResults : Prop :=
  ∀ (g : Sig) (e : Env) (o : Ops (BitVec 16)),
    let slot := o.mod.toNat
    let emits (i : Instr) (l : List (Nat × Nat)) : Prop :=
      (l = [] → e.DoesRaw i g ((e.s.unflush e.k).advance e.k)) ∧
      (l ≠ [] → e.reservation slot < l.length → e.Traps i g 0x1C) ∧
      (l ≠ [] → l.length ≤ e.reservation slot → ∀ f n x, e.emitEdge slot = some (f, n, x) →
        (x.bound ≠ 0 → x.bound < x.accepted + l.length → e.Traps i g 0x1C) ∧
        ((x.bound = 0 ∨ x.accepted + l.length ≤ x.bound) →
          (∀ y, l.find? (fun y => (e.currentScope y.1).isNone) = some y → e.Traps i g 0x1F y.1) ∧
          ((∀ y ∈ l, (e.currentScope y.1).isSome = true) →
            (∃ y ∈ l, ∃ h, e.currentScope y.1 = some h ∧ e.ctx.accepts h e.t.counted = false) → e.Traps i g 0x1F) ∧
          ((∀ y ∈ l, ∃ h, e.currentScope y.1 = some h ∧ e.ctx.accepts h e.t.counted = true) →
          ∀ t0, e.release .dv = .ok t0 →
          let records := l.map fun y =>
            { node := f.id * 256 + x.consumer, inst := y.2, scope := (e.currentScope y.1).getD 0
              cause := e.w.cause, edge := some n : Record }
          let t1 := (t0.unflush e.k).modTeam e.k.team fun t =>
            { t with reserved := t.reserved.set slot (t.reserved.getD slot 0 - l.length) }
          let t2 := t1.modFiring e.k.ctx f.id fun f => f.modEdge n fun x => { x with accepted := x.accepted + l.length }
          let t3 := records.foldl (fun s r => s.scopeUp e.k.ctx r.scope 1) t2
          e.Enters i g (t3.enterWait e.k (.emitTrip f.id records)
            { kind := 15, obj := BitVec.ofNat 64 i.opcode, a0 := 0, a1 := BitVec.ofNat 64 l.length }))))
    emits (.emit o) (e.lanes.map fun l => (l, (e.lane o.a l).toNat % 2 ^ 44)) ∧
    emits (.emitn o) ((List.range (e.scalar o.b).toNat).map fun j => (0, ((e.scalar o.a).toNat + j) % 2 ^ 44)) ∧
    e.Sets (.emitq o) g o.d (BitVec.ofNat 64 (e.reservation slot))

/-- R284 to R286, R293: the scope instructions. Each has its effect on the scope table and waits for the
foundry's reply (WKIND 15), which `SCOPE_REPLY` delivers; `fswait` waits for the scope (WKIND 2). A handle
that is not live, a closed scope where an open one is asked, and a wait that could never end trap with code
0x1F. That `fsjoin` traps on a dead handle is the model's reading (assumption 24). -/
def Obligations.ScopeInstructionResults : Prop :=
  ∀ (g : Sig) (e : Env) (o : Ops (BitVec 16)),
    let h := e.scalar o.a
    let trips (i : Instr) (t : State) (r : ScopeReply) : Prop :=
      e.Enters i g (t.enterWait e.k (.scopeTrip r) { kind := 15, obj := BitVec.ofNat 64 i.opcode, a0 := h, a1 := 0 })
    let none' : ScopeReply := ⟨.special .zero, 0, none⟩
    (h ≠ 0 → e.ctx.accepts h e.t.counted = false → e.Traps (.fsopen o) g 0x1F) ∧
    (h = 0 ∨ e.ctx.accepts h e.t.counted = true →
      let pk : BitVec 4 := o.imm.setWidth 4
      ((e.s.unflush e.k).allocScope e.k.ctx h none = none →
        trips (.fsopen o) (e.s.unflush e.k) ⟨o.d, 0, some (pk, false)⟩) ∧
      ∀ new t, (e.s.unflush e.k).allocScope e.k.ctx h none = some (new, t) →
        trips (.fsopen o) (t.scopeUp e.k.ctx h 1) ⟨o.d, new, some (pk, true)⟩) ∧
    (e.ctx.scope? h = none →
      e.Traps (.fsclose o) g 0x1F ∧ e.Traps (.fswait o) g 0x1F ∧ e.Traps (.fsstat o) g 0x1F ∧
        (h ≠ 0 → e.Traps (.fsjoin o) g 0x1F)) ∧
    (∀ x, e.ctx.scope? h = some x →
      (x.closed = true → e.Traps (.fsclose o) g 0x1F) ∧
      (x.closed = false →
        trips (.fsclose o) (e.s.closeScope e.k.ctx h (o.mod.getLsbD 0) (o.mod.getLsbD 1)) none') ∧
      trips (.fsstat o) e.s ⟨o.d, x.statWord, none⟩ ∧
      (let own := e.t.counted.any fun c => e.ctx.under 257 c h
       (x.closed = false ∨ x.detach = true ∨ own = true → e.Traps (.fswait o) g 0x1F) ∧
       (x.closed = true → x.detach = false → own = false →
         e.Enters (.fswait o) g (e.s.enterWait e.k (.scopeWait o.d h) { kind := 2, obj := h, a0 := BitVec.ofNat 64 x.count })))) ∧
    (h = 0 → trips (.fsjoin o) (e.s.modWarp e.k fun w => { w with joined := none }) none') ∧
    (h ≠ 0 → (e.ctx.scope? h).isSome = true → trips (.fsjoin o) (e.s.modWarp e.k fun w => { w with joined := some h }) none')

/-- R197, R294: the signal instructions on a word that may be accessed: aligned, in a range that permits it,
not watched, with no older access of the warp to it, its page present, its tag matching and no poison.
`sigdec` adds -1 and `sigadd` s(B), after the release of their scope with `.rel`, and the warp then waits for the
reply of the round trip (WKIND 15, R363); `sigwait` reads the word,
writes it to D and moves on when its condition holds, else waits (WKIND 3). A word that is not aligned traps
with code 0x06, one in no range with 0x10, a lease the team does not hold with 0x11, a peer range or a missing
permission with 0x12. That a foundry-side signal waits for its page is the model's choice (assumption 18). -/
def Obligations.SignalInstructionResults : Prop :=
  ∀ (g : Sig) (e : Env) (o : Ops (BitVec 16)),
    let va := e.scalar o.a
    let all (p : Instr → OpKind → Prop) : Prop := p (.sigdec o) .atomic ∧ p (.sigadd o) .atomic ∧ p (.sigwait o) .load
    (va.toNat % 8 ≠ 0 → all fun i _ => e.Traps i g 0x06 255 va) ∧
    (va.toNat % 8 = 0 → e.ctx.findRange va 8 = none → all fun i _ => e.Traps i g 0x10 255 va) ∧
    (va.toNat % 8 = 0 → ∀ r, e.ctx.findRange va 8 = some r →
      (r.kind = 0 → e.t.leases.getLsbD r.idx = false → all fun i _ => e.Traps i g 0x11 255 va) ∧
      ((r.kind = 0 → e.t.leases.getLsbD r.idx = true) →
        all fun i kind => r.kind = 2 ∨ r.permits kind = false → e.Traps i g 0x12 255 va) ∧
      (let open? (i : Instr) (kind : OpKind) (t : State) : Prop :=
         (r.kind = 0 → e.t.leases.getLsbD r.idx = true) ∧ r.kind ≠ 2 ∧ r.permits kind = true ∧
         e.watchHit kind.watchKind 8 [{ lane := 255, va := va, ia := r.target va, rkind := r.kind }] = none ∧
         e.heldByAcquire = false ∧
         e.olderAccess 8 [{ lane := 255, va := va, ia := r.target va, rkind := r.kind }] = false ∧
         (r.kind = 3 → t = e.s) ∧
         (r.kind ≠ 3 →
           (∀ x ∈ (e.s.core e.w.core).l1, e.stray (r.target va) x = false) ∧
           e.s.wbPending e.w.core (r.target va / 128) = false ∧
           e.s.signalPage e.k e.w i va r kind = .ready t)
       let adds (i : Instr) (x count : Word) : Prop :=
         let update (t : State) : Prop := e.Enters i g ((({ e with s := t } : Env).signalAdd va r x).enterWait e.k .sigTrip
           { kind := 15, obj := BitVec.ofNat 64 i.opcode, a0 := va, a1 := count })
         ∀ t, open? i .atomic t →
           (o.mod.extractLsb' 3 2 ≠ 2#2 → update t) ∧
           (o.mod.extractLsb' 3 2 = 2#2 → ∀ t1, ({ e with s := t } : Env).release (sigScope o.mod) = .ok t1 → update t1)
       adds (.sigdec o) (BitVec.allOnes 64) 0 ∧ adds (.sigadd o) (e.scalar o.b) (e.scalar o.b) ∧
       ∀ t, open? (.sigwait o) .load t →
         let v := (t.signalValue r va (t.warpParty e.k e.w)).1
         let t1 := (t.signalValue r va (t.warpParty e.k e.w)).2
         let cond := o.mod.toNat / 32 % 8
         (branchCond cond v (e.scalar o.b) = true → e.DoesRaw (.sigwait o) g
           ((e.sigDone t1 o (wordPlace r.kind r.peer (r.target va)) v).advance e.k)) ∧
         (branchCond cond v (e.scalar o.b) = false → e.Enters (.sigwait o) g (t1.enterWait e.k (.sigWait o)
           { kind := 3, obj := va, a0 := v, a1 := e.scalar o.b, a2 := BitVec.ofNat 64 cond }))))

/-- R336 to R339, R362, R365, Tables 15-10 and 16-2: the system and recorder instructions. `sysr` reads a system register,
every field of it as Table 15-10 has it, and
`sysw` writes EXPECT or clears the team's flushable state; `icinv` makes the release of device scope, then checks
its range, and waits for the acknowledgements that every core has dropped it; that a trap of the check comes after
a release already made is how the model takes the rule's word "first" (assumption 111). `pwrq` reads the
power (a free value, assumption 5) or the clock and throttle count; `evt` and `evtp` write USER records; `clkr` reads the
time or its uncertainty, `causer` the causal id or its parent. -/
def Obligations.SystemAndRecorderResults : Prop :=
  ∀ (g : Sig) (e : Env) (o : Ops (BitVec 16)),
    e.Sets (.sysr o) g o.d (e.sysReg o.mod.toNat) ∧
    (let k := e.t.kernel
     let c := e.ctx
     let cap := e.s.capacityWord e.w.core
     let field (x : Word) (hi lo : Nat) : Nat := fieldOf x hi lo
     (k.n < 512 → k.g < 512 → k.warps < 128 → k.tiles < 32 → k.scratch / 16 < 2 ^ 21 →
       field (e.sysReg 0) 8 0 = k.n ∧ field (e.sysReg 0) 17 9 = k.g ∧ field (e.sysReg 0) 19 18 = k.widthCode ∧
       field (e.sysReg 0) 26 20 = k.warps ∧ field (e.sysReg 0) 31 27 = k.tiles ∧
       field (e.sysReg 0) 52 32 = k.scratch / 16 ∧ field (e.sysReg 0) 63 53 = if k.paired then 1 else 0) ∧
     (c.cls < 8 →
       field (e.sysReg 1) 2 0 = c.cls ∧ field (e.sysReg 1) 3 3 = (if c.warn then 1 else 0) ∧
       field (e.sysReg 1) 4 4 = (if c.verified then 1 else 0) ∧ field (e.sysReg 1) 5 5 = (if c.attach then 1 else 0) ∧
       field (e.sysReg 1) 13 6 = fieldOf c.control 31 24 ∧ field (e.sysReg 1) 63 14 = 0) ∧
     (e.sysReg 2 = cap ∧
       field cap 63 56 = 32 * ((List.range 4).filter fun h => (e.s.hub h).decTed).length ∧
       field cap 55 46 = 576 - (e.s.cores.filter (·.retired)).length ∧
       field cap 45 32 =
         min (((List.range 4).map fun h => (e.s.hub h).retiredFrames.length + (e.s.hub h).unlisted).sum) 16383 ∧
       field cap 31 24 = 0 ∧ field cap 23 20 = (e.s.core e.w.core).gret.toNat ∧
       field cap 19 16 = (e.s.core e.w.core).degr.toNat ∧
       (∀ q < 4, field cap (6 + 3 * q) (4 + 3 * q) = (e.s.core e.w.core).rbank.getD q 0 % 8) ∧
       field cap 3 0 = if (e.s.core e.w.core).gret = 0 then 4 else 3) ∧
     e.sysReg 3 = BitVec.ofNat 64 e.t.issued ∧
     field (e.sysReg 4) 15 0 = e.t.saves % 2 ^ 16 ∧ field (e.sysReg 4) 31 16 = e.t.drains % 2 ^ 16 ∧
     field (e.sysReg 4) 47 32 = e.t.flushes % 2 ^ 16 ∧ field (e.sysReg 4) 63 48 = 0) ∧
    (o.mod = 0x20 → e.Does (.sysw o) g (e.s.modTeam e.k.team fun t =>
      { t with expect := min (max (e.scalar o.a).toNat 1) (2 ^ 40 - 1) })) ∧
    (o.mod = 0x21 → e.Does (.sysw o) g (e.s.modTeam e.k.team fun t => { t with flushable := false })) ∧
    (let va := e.scalar o.a
     let n := (e.scalar o.b).toNat
     (n = 0 → e.DoesRaw (.icinv o) g (e.s.advance e.k)) ∧
     (n ≠ 0 → ∀ t, e.release .dv = .ok t →
       let stops (code : Nat) : Prop := e.Holds (.icinv o) g
         (if e.s.fqRoom e.k.ctx then t.trapped e.k (e.w.faultAt code 255 va 0) none else e.s)
       let c := ({ e with s := t } : Env).ctx
       (c.findRange va n = none → stops 0x10) ∧
       ∀ r, c.findRange va n = some r →
       (r.kind = 0 → e.t.leases.getLsbD r.idx = false → stops 0x11) ∧
       (r.kind ≠ 0 ∨ e.t.leases.getLsbD r.idx = true →
         (r.pex = false → stops 0x12) ∧
         (r.pex = true → e.Enters (.icinv o) g
           (t.enterWait e.k (.icinv (r.target va) n)
             { kind := 15, obj := BitVec.ofNat 64 (Instr.opcode (.icinv o)), a0 := va, a1 := BitVec.ofNat 64 n }))))) ∧
    (o.mod = 0 → e.Does (.pwrq o) g ({ e.s with draws := e.s.draws + 1 }.modWarp e.k fun w =>
      w.setS o.d (BitVec.ofNat 64 (Config.powerOf (Config.freeNat e.s.draws) % 2 ^ 32)))) ∧
    (o.mod ≠ 0 → e.Sets (.pwrq o) g o.d
      (atBit (e.s.mgmt.dieClk.getD (e.w.core / Config.coresPerDie) 1900 % 65536) 0 |||
        atBit (e.s.mgmt.throttleSteps % 2 ^ 32) 16)) ∧
    (let parent := if o.b = .special .zero then e.t.cause else e.scalar o.b
     e.Does (.evt o) g (e.s.emit (e.w.src 0) 0x100 o.imm.toNat e.w.cause parent (e.userPayload o.a)) ∧
     e.Does (.evtp o) g ((maskLanes e.width e.w.mask).foldl (fun s l =>
       s.emit (e.w.src 0) 0x101 o.imm.toNat e.w.cause parent [e.lane o.a l, e.scalar o.b, BitVec.ofNat 64 l, 0]) e.s)) ∧
    (o.mod = 0 → e.Sets (.clkr o) g o.d (e.s.timeAt e.w.core) ∧ e.Sets (.causer o) g o.d e.w.cause) ∧
    (o.mod ≠ 0 → e.Sets (.clkr o) g o.d (BitVec.ofNat 64 (e.s.uncAt e.w.core)) ∧ e.Sets (.causer o) g o.d e.t.cause)

/-! ## Memory, fences, scratchpad -/

/-- R76, R189, R190, R194, R197, R203, R227: the issue of the memory instructions. In order: an address that
is not a multiple of the access size traps with code 0x06 (32 for `tagst`), an access that fails its range,
lease or permission checks with the code of that check, in the lowest lane; a poisoned store to the host with
0x19, a watched access with 0x16. Otherwise, with its counter below 1,023, slots free, the release action of a
releasing order done, and rows for the result, the operation issues: it is queued, its path counter rises, and
the warp goes on without waiting for it; a store is write-through, or later performed in the L1, as its cache
operator, order and core ask. HITS per lane access is the model's reading (assumption 42). -/
def Obligations.MemoryInstructionsIssue : Prop :=
  ∀ (g : Sig) (e : Env) (o : Ops MM),
    let issues (i : Instr) (f : MemForm) : Prop :=
      let raw := e.accesses f
      let free := e.pathRoom f.kind = true ∧ (if f.kind.remote then e.remoteHeld else e.heldByAcquire) = false
      let aligned := ∀ a ∈ raw, a.va.toNat % f.align = 0
      (free → ∀ a, raw.find? (fun a => a.va.toNat % f.align != 0) = some a → e.Traps i g 0x06 a.lane a.va) ∧
      (free → aligned → ∀ c a, e.checkAll f raw = .error (c, a) → e.Traps i g c a.lane a.va) ∧
      (free → aligned → ∀ lanes, e.checkAll f raw = .ok lanes →
        (∀ a, lanes.find? (fun a => a.poison && a.rkind == 3) = some a → e.Traps i g 0x19 a.lane) ∧
        ((∀ a ∈ lanes, a.poison = true → a.rkind ≠ 3) →
          let seen := if f.kind = .tagStore ∨ f.kind = .tagLoad then none else e.watchHit f.kind.watchKind f.size lanes
          (∀ a, seen = some a → e.Traps i g 0x16 a.lane a.va) ∧
          (seen = none → e.slotsFree (requestsOf lanes).length = true → ∀ t0,
            ((o.mod.ord.releases = false ∨ (f.kind.remote = true ∧ e.remoteOpen = false)) ∧ t0 = e.s) ∨
              (o.mod.ord.releases = true ∧ f.kind.remote = false ∧ e.release o.mod.scope = .ok t0) →
            let wide := o.mod.scope.wide e.t.kernel.paired
            let through := !(o.mod.cache == .l1 || o.mod.cache == .ev) || (o.mod.ord.releases && wide) ||
              t0.isRelayCore e.w.core
            let e0 : Env := { e with s := t0 }
            (f.kind = .store → e.Does i g (e0.queueOp i f t0 lanes through)) ∧
            (f.kind ≠ .store → ∀ t1,
              (if f.kind.hasResult && !f.scalar then e0.prepLoad i t0 f.o.d (e0.uniformLoad f.o.d lanes) else some t0) = some t1 →
              e.Does i g (e0.queueOp i f t1 lanes false)))))
    let form (kind : OpKind) (scalar : Bool) : MemForm :=
      { kind := kind, o := o, scalar := scalar, size := laneBits o.mod.ty o.mod.pk / 8, align := laneBits o.mod.ty o.mod.pk / 8 }
    issues (.ld o) (form .load false) ∧ issues (.st o) (form .store false) ∧ issues (.atom o) (form .atomic false) ∧
    issues (.red o) (form .reduce false) ∧ issues (.ldr o) (form .remoteLoad false) ∧
    issues (.str o) (form .remoteStore false) ∧ issues (.redr o) (form .remoteReduce false) ∧
    issues (.sld o) (form .load true) ∧ issues (.sst o) (form .store true) ∧ issues (.satom o) (form .atomic true) ∧
    issues (.tagst o) { form .tagStore false with align := 32 } ∧ issues (.tagld o) (form .tagLoad false)

/-- R76, R190: queueing an operation numbers it, puts it last among the operations in flight with the lanes
it was given, raises the counter of its path by 1 and no other counter of the warp, and leaves memory, the
caches and every other warp as they were. -/
def Obligations.QueueingRaisesOneCounter : Prop :=
  ∀ (e : Env) (i : Instr) (f : MemForm) (s : State) (lanes : List LaneAccess) (through : Bool) (w : Warp),
    s.warp? e.k = some w →
    let t := e.queueOp i f s lanes through
    sameMemory s t ∧ t.nextId = s.nextId + 1 ∧
    (∃ op, t.ops = s.ops ++ [op] ∧ op.id = s.nextId ∧ op.key = e.k ∧ op.kind = f.kind ∧ op.lanes = lanes ∧
      op.size = f.size ∧ op.word = (encode i).getD 0) ∧
    (∃ u, t.warp? e.k = some u ∧
      (∀ p, u.counter p = w.counter p + if f.kind.path = some p then 1 else 0) ∧
      u.pc = w.pc ∧ u.s = w.s ∧ u.p = w.p ∧ u.v = w.v ∧ u.x = w.x ∧ u.flags = w.flags ∧ u.mask = w.mask ∧ u.stack = w.stack) ∧
    ∀ k', k' ≠ e.k → t.warp? k' = s.warp? k'

/-- R194: a store in write-back form of one lane to the L1. The bytes it names take the data's, every other
byte of its sector keeps what it was where the sector was present, and every
other sector that the L1 still holds is as it was; memory, L2 and the other cores are untouched. -/
def Obligations.WriteBackStoreWritesItsBytes : Prop :=
  ∀ (s : State) (core : Nat) (owner : TKey) (sec : Nat) (data : List Byte) (mask : BitVec 128) (poison last : Bool),
    data.length = 128 →
    (∀ x, (s.core core).l1? sec = some x → x.data.length = 128) →
    let t := s.l1Store core owner sec data mask poison last
    (∃ y, (t.core core).l1? sec = some y ∧ y.owner = some owner ∧
      (∀ b < 128, mask.getLsbD b = true → y.data[b]? = data[b]?) ∧
      ∀ x, (s.core core).l1? sec = some x → ∀ b < 128, mask.getLsbD b = false → y.data[b]? = x.data[b]?) ∧
    (∀ c, c ≠ core → t.core c = s.core c) ∧
    (∀ q y, q ≠ sec → (t.core core).l1? q = some y → (s.core core).l1? q = some y) ∧
    t.l2 = s.l2 ∧ t.mem = s.mem ∧ t.tags = s.tags ∧ t.poisoned = s.poisoned ∧ t.ops = s.ops ∧ t.teams = s.teams

/-- R199 to R201, R205, R265 to R267: `pref`, the fences, the L1 instructions, `tagset` and the watch
instructions. A prefetch drops the lanes that fail a check and never traps. A fence waits for what it orders
and then acquires; `fencex` pushes dirty sectors, makes joined engine writes visible to its path, invalidates as
its paths ask, and at sy reads the host link last, going on when the read is complete; `l1inv` and `l1wb` act on
the L1; `tagset` inserts a tag into bits 59:56; a watch slot is armed, disarmed and read. That `fence.acq`
waits for LD and SP, and what a path reads of another's scratchpad writes before a `fencex`, are the model's
reading (assumptions 51, 21). -/
def Obligations.FenceAndWatchResults : Prop :=
  ∀ (g : Sig) (e : Env),
    (∀ o : Ops MM,
      (let f : MemForm := { kind := .prefetch, o := o, size := laneBits o.mod.ty o.mod.pk / 8, align := laneBits o.mod.ty o.mod.pk / 8 }
       let sound (a : LaneAccess) : Bool := (e.w.indexFault e.t.kernel.n [o.b] [a.lane]).isNone &&
         !e.w.poisonAt o.b a.lane && !e.w.poisonAt o.a a.lane
       let lanes := ((e.accesses f).filter sound).filterMap fun a =>
         match e.checkAccess f a with | .ok b => some b | .error _ => none
       (lanes = [] ∨ e.slotsFree (requestsOf lanes).length = false → e.Does (.pref o) g e.s) ∧
       (lanes ≠ [] → e.slotsFree (requestsOf lanes).length = true →
         e.Does (.pref o) g (e.queueOp (.pref o) f e.s lanes false))) ∧
      (let sc := o.mod.scope
       (o.mod.ord = .rel → ∀ t, e.release sc = .ok t → e.Does (.fence o) g t) ∧
       (o.mod.ord = .ar → ∀ t, e.release sc = .ok t →
         e.Does (.fence o) g (t.acquire e.w.core e.t.kernel.paired sc)) ∧
       (o.mod.ord = .acq → sc = .wp ∨ (e.w.ldq = [] ∧ e.w.spq = []) →
         e.Does (.fence o) g (e.s.acquire e.w.core e.t.kernel.paired sc))) ∧
      e.Gives (.tagset o) g o.d (e.result [e.w.srcShape o.a, e.w.srcShape o.b] none fun l =>
        (e.lane o.a l &&& 0xF0FFFFFFFFFFFFFF#64) ||| atBit ((e.lane o.b l).toNat % 16) 56)) ∧
    (∀ o : Ops MF,
      let m := o.mod
      let wide := m.scope == .dv || m.scope == .cl || m.scope == .sy
      let pushes := MF.has m .st = true ∧ (m.dst = .cp ∨ m.dst = .rm ∨ wide = true ∨ e.t.kernel.paired = true)
      let drops := m.dst == .ld && (MF.has m .cp || MF.has m .rm || wide)
      let hostRead := m.scope = .sy ∧ MF.has m .st = true
      let visible (s : State) : State :=
        let s1 := s.modTeam e.k.team fun t => t.drain e.w (MF.has m) m.dst
        let s2 := if MF.has m .cp then s1.landCopies e.t else s1
        if drops then s2.flashInvalidate e.w.core else s2
      (e.w.release = .reading → e.Does (.fencex o) g (e.s.setRelease e.k .idle)) ∧
      (e.w.release ≠ .reading →
        (∀ p, p = Path.ld ∨ p = Path.st ∨ p = Path.sp → MF.has m p = true → e.w.counter p = 0) →
        ∀ t, (¬ pushes ∧ t = e.s) ∨ (pushes ∧ e.pushDirty (fun s => .next s) = .next t) →
          (¬ hostRead → e.Does (.fencex o) g ((visible t).setRelease e.k .idle)) ∧
          (hostRead → e.Holds (.fencex o) g ((visible t).hostFence e.k)))) ∧
    (∀ o : Ops (BitVec 16),
      e.Does (.l1inv o) g (e.s.flashInvalidate e.w.core) ∧
      (let l := (e.s.cleanAll e.w.core (ownedBy e.k.team)).1
       let t := (e.s.cleanAll e.w.core (ownedBy e.k.team)).2
       (e.w.roomOn .st = true → ∃ op : MemOp, op.id = t.nextId ∧ op.key = e.k ∧ op.kind = .writeBackAll ∧ op.writeBacks = l ∧
         e.Does (.l1wb o) g ({ t with nextId := t.nextId + 1, ops := t.ops ++ [op] }.modWarp e.k fun w => w.countUp .st t.nextId))) ∧
      (let va := e.scalar o.a
       let n := (e.scalar o.b).toNat
       let slot := o.mod.toNat % 4
       let scope := o.mod.toNat / 32 % 4
       (n = 0 → e.Traps (.watch o) g 0x02) ∧
       (n ≠ 0 → ∀ c, e.watchRange va n = .error c → e.Traps (.watch o) g c 255 va) ∧
       (n ≠ 0 → ∀ r, e.watchRange va n = .ok r →
         let x : WatchSlot :=
           { lo := r.target va, hi := r.target va + n, kinds := o.mod.extractLsb' 2 3, scope := scope
             lanes := e.w.preg (o.imm.setWidth 4) &&& fullMask e.width, hits := 0
             armedAt := e.s.nextId, armedOn := e.s.clock }
         let t1 := e.s.modWarp e.k fun w => { w with watch := w.watch.set slot none }
         (scope = 2 → 256 ≤ t1.dvSlots → e.Does (.watch o) g (t1.modWarp e.k (·.setS o.d 1))) ∧
         (scope ≠ 2 ∨ t1.dvSlots < 256 → e.Does (.watch o) g
           (t1.modWarp e.k fun w => Warp.setS { w with watch := w.watch.set slot (some x) } o.d 0)))) ∧
      e.Does (.unwatch o) g (e.s.modWarp e.k fun w =>
        { w with watch := if o.mod.getLsbD 2 then [none, none, none, none] else w.watch.set (o.mod.toNat % 4) none }) ∧
      e.Sets (.watchq o) g o.d (match e.w.watch.getD (o.mod.toNat % 4) none with | some x => x.word | none => 0))

/-- R169, R175, R181, R184 to R188: the scratchpad instructions. An access whose offset is not a multiple of
its size traps with code 0x06, one that leaves the scratchpad with 0x0D, a layout word that a swizzled
access may not carry with 0x02; otherwise, with SP below 1,023 and no earlier acquire before it, the operation takes the last place in the lane
port of each core whose half it touches and SP rises. That a `spinv` or `spfill` of length 0 beyond the scratchpad
traps too is the model's reading (assumption 100). `spstat` reads the counts, the core's health, or, with SP at 0, a word's place. -/
def Obligations.ScratchpadInstructionsIssue : Prop :=
  ∀ (g : Sig) (e : Env),
    (∀ o : Ops MM,
      let size := laneBits o.mod.ty o.mod.pk / 8
      let issues (i : Instr) (atomic result : Bool) (off : Nat → Nat) (layout : Word) : Prop :=
        let lanes := e.lanes.map (e.access o atomic off)
        let one := lanes.all (fun a => a.ia == (lanes.head?.map (·.ia)).getD 0) && e.m == fullMask e.width &&
          !(e.w.destRegs o.d e.lanes).2
        e.heldOnSp (o.mod.ord.releases && o.mod.scope == .wp) = false → e.w.roomOn .sp = true →
          (∀ a, lanes.find? (fun a => a.ia % size != 0) = some a → e.Traps i g 0x06 a.lane (BitVec.ofNat 64 a.ia)) ∧
          ((∀ a ∈ lanes, a.ia % size = 0) →
            (∀ a, lanes.find? (fun a => decide (e.t.kernel.scratch < a.ia + size)) = some a →
              e.Traps i g 0x0D a.lane (BitVec.ofNat 64 a.ia)) ∧
            ((∀ a ∈ lanes, a.ia + size ≤ e.t.kernel.scratch) → ∀ t0,
              (o.mod.ord.releases = false ∧ t0 = e.s) ∨ (o.mod.ord.releases = true ∧ e.release (spScope o.mod.scope) = .ok t0) →
              let e0 : Env := { e with s := t0 }
              ∀ t1, (if result then e0.prepLoad i t0 o.d one else some t0) = some t1 →
                e.Does i g (e0.queueSp i t1 lanes size one (o.mod.ord.acquires && o.mod.scope != .wp) layout)))
      let plain (atomic : Bool) (l : Nat) : Nat := (e.laneAddr o atomic l).toNat
      let swizzled (i : Instr) (result : Bool) : Prop :=
        (layoutOf (e.scalar o.a) = none → e.Traps i g 0x02) ∧
        (∀ x, layoutOf (e.scalar o.a) = some x →
          (x.esz ≠ 0 ∨ x.kMajor = true → e.Traps i g 0x02) ∧
          (x.esz = 0 → x.kMajor = false →
            issues i false result (fun k => x.phys (e.lane o.b k + o.imm.signExtend 64).toNat) (e.scalar o.a)))
      issues (.lds o) false true (plain false) 0 ∧ issues (.sts o) false false (plain false) 0 ∧
      issues (.atoms o) true true (plain true) 0 ∧ issues (.reds o) true false (plain true) 0 ∧
      swizzled (.ldsx o) true ∧ swizzled (.stsx o) false) ∧
    (∀ o : Ops (BitVec 16),
      (let a := e.scalar o.a
       let b := e.scalar o.b
       let fills (i : Instr) (pattern : Word) : Prop :=
         e.heldOnSp false = false → e.w.roomOn .sp = true →
           (a.toNat % 4 ≠ 0 ∨ b.toNat % 4 ≠ 0 → e.Traps i g 0x06) ∧
           (a.toNat % 4 = 0 → b.toNat % 4 = 0 → e.t.kernel.scratch < a.toNat + b.toNat → e.Traps i g 0x0D) ∧
           (a.toNat % 4 = 0 → b.toNat % 4 = 0 → a.toNat + b.toNat ≤ e.t.kernel.scratch →
             let x : LaneAccess := { lane := 255, va := a, ia := a.toNat, cmp := b, data := pattern }
             e.Does i g (e.queueSp i e.s (e.t.rangeParts x) 4 false false))
       fills (.spinv o) 0 ∧ fills (.spfill o) (e.scalar o.d)) ∧
      (o.mod = 0 → e.Sets (.spstat o) g o.d (atBit e.t.recon 32 ||| atBit e.t.confl 0)) ∧
      (o.mod = 1 → e.Sets (.spstat o) g o.d (e.s.core e.w.core).spHealth) ∧
      (o.mod = 2 → e.w.counter .sp = 0 → (e.scalar o.a).toNat % 4 = 0 → (e.scalar o.a).toNat + 4 ≤ e.t.kernel.scratch →
        e.Sets (.spstat o) g o.d (e.s.spWordInfo e.t e.w.core (e.scalar o.a).toNat)))

/-! ## Matrix instructions -/

/-- R148, R154, R157, R158, R161 to R165: the matrix instructions that operate on tiles and register groups. A
tile number at or above T traps with code 0x0E, an `mma` without its array's baton with 0x0A, a layout word
that is malformed or names another element size with 0x02, an offset that is not a multiple of 16 with 0x06,
an element outside the scratchpad with 0x0D. Otherwise, with MX below 1,023, the sequencer of the warp's core
accepts the operation, last in its list, with its tile, its words of layout and offset, the source registers as
they are, and MX rises (R168: one on a tile that a mismatch has stopped is dropped and counted in its record); an
`mma` whose array's queue already holds two is held, unchanged. The spec gives no order among these traps: that
poison comes first, then code 0x0E, then 0x02, 0x06 and 0x0D, are the model's choices (assumptions 113, 102), and
that an element's address does not wrap is its reading (assumption 49). -/
def Obligations.MatrixOperationsAreAccepted : Prop :=
  ∀ (g : Sig) (e : Env) (o : Ops MX),
    let tile := o.mod.acc.toNat + e.toff o.imm
    let bound := tile < e.t.kernel.tiles
    let tile2 := o.mod.sub.toNat % 32 + e.toff o.imm
    let accepts (i : Instr) (t : State) (f : MxOp → MxOp) : Prop :=
      e.w.roomOn .mx = true → e.Does i g (e.acceptMx i t f)
    let layoutThen (i : Instr) (esz rows cols : Nat) (P : Prop) : Prop :=
      (∀ c, e.layoutArgs o.a o.b esz = .error c → e.Traps i g c) ∧
      (∀ l b, e.layoutArgs o.a o.b esz = .ok (l, b) →
        (elementsInside e.t.kernel.scratch l b rows cols = false → e.Traps i g 0x0D) ∧
        (elementsInside e.t.kernel.scratch l b rows cols = true → P))
    let frag (i : Instr) (regs cols esz : Nat) : Prop :=
      layoutThen i esz 96 cols (∀ t, e.prepGroup (groupRegs o.d.vNum regs) = some t →
        accepts i t (fun x => { x with layout := e.scalar o.a, offset := e.scalar o.b, dst := o.d.vNum }))
    frag (.fld o) 24 (Fmt.chunk o.mod.fmt) (Fmt.esz o.mod.fmt) ∧ frag (.fldsc o) 2 4 1 ∧
    (¬ bound → e.Traps (.mma o) g 0x0E ∧ e.Traps (.accz o) g 0x0E ∧ e.Traps (.acccp o) g 0x0E ∧ e.Traps (.accld o) g 0x0E ∧
      e.Traps (.accst o) g 0x0E ∧ e.Traps (.accrd o) g 0x0E ∧ e.Traps (.accwr o) g 0x0E) ∧
    (bound →
      (e.t.baton e.w o.mod.arr ≠ .held e.w.num → e.Traps (.mma o) g 0x0A) ∧
      (e.t.baton e.w o.mod.arr = .held e.w.num →
        let waiting := (((e.s.core e.w.core).mmaQueue o.mod.arr).filter fun x => !x.started).length
        (2 ≤ waiting → e.Holds (.mma o) g e.s) ∧
        (waiting < 2 →
          let scales := if o.mod.fmt = .mxf4 then
              e.groupWords ((mmaScale o.imm false).getD (.v 0)).vNum 2 ++ e.groupWords ((mmaScale o.imm true).getD (.v 0)).vNum 2
            else []
          accepts (.mma o) e.s (fun x =>
            { x with tile := tile, arr := o.mod.arr, regs := e.groupWords o.a.vNum 24 ++ e.groupWords o.b.vNum 24 ++ scales }))) ∧
      accepts (.accz o) e.s (fun x => { x with tile := tile }) ∧
      (e.t.kernel.tiles ≤ tile2 → e.Traps (.acccp o) g 0x0E) ∧
      (tile2 < e.t.kernel.tiles →
        accepts (.acccp o) e.s (fun x => { x with tile := tile, tile2 := tile2 })) ∧
      (let whole (i : Instr) : Prop :=
         layoutThen i (if o.mod.sub.getLsbD 0 then 0 else 3) 96 96
           (accepts i e.s (fun x => { x with tile := tile, layout := e.scalar o.a, offset := e.scalar o.b }))
       whole (.accld o) ∧ whole (.accst o)) ∧
      (∀ t, e.prepGroup (groupRegs o.d.vNum 12) = some t →
        accepts (.accrd o) t (fun x => { x with tile := tile, dst := o.d.vNum })) ∧
      accepts (.accwr o) e.s (fun x =>
        { x with tile := tile, regs := e.groupWords o.a.vNum 12, poison := e.groupPoison o.a.vNum 12
                 recon := e.groupRecon o.a.vNum 12 }))

/-- R150, R151: the batons. `bton` takes a baton that is held by or passed to its warp, or free with no
lower waiter, and otherwise waits; `btpass` by a warp that does not hold the baton traps with code 0x0A;
with REL it frees the baton, named it passes it to a live warp of the core, else to the next warp of the
ring, and a pass to itself keeps it; `btq` reads the baton word. -/
def Obligations.BatonResults : Prop :=
  ∀ (g : Sig) (e : Env) (o : Ops MX),
    let arr := o.mod.arr
    let b := e.t.baton e.w arr
    let idx := e.t.batonIdx e.w arr
    let me := e.w.num
    let lowest := ∀ x ∈ e.t.warps, x.core = e.w.core → x.act = .bton arr → me ≤ x.num
    let pass (n : Nat) : State := e.s.setBaton e.k idx (if n = me then .held n else .passed n)
    (b = .held me ∨ b = .passed me ∨ (b = .free ∧ lowest) → e.Does (.bton o) g (e.s.setBaton e.k idx (.held me))) ∧
    (b ≠ .held me → b ≠ .passed me → (b = .free → ¬ lowest) →
      e.Enters (.bton o) g (e.s.enterWait e.k (.bton arr) (e.t.batonWait e.w arr))) ∧
    (b ≠ .held me → e.Traps (.btpass o) g 0x0A) ∧
    (b = .held me →
      (o.mod.sub.getLsbD 1 = true → e.Does (.btpass o) g (e.s.setBaton e.k idx .free)) ∧
      (o.mod.sub.getLsbD 1 = false → o.mod.sub.getLsbD 0 = false →
        e.Does (.btpass o) g (pass (e.t.ringNext e.w.core me))) ∧
      (o.mod.sub.getLsbD 1 = false → o.mod.sub.getLsbD 0 = true →
        let n := (e.scalar o.a).toNat
        let named := ∃ x ∈ e.t.warps, x.live = true ∧ x.core = e.w.core ∧ x.num = n
        (named → e.Does (.btpass o) g (pass n)) ∧ (¬ named → e.Traps (.btpass o) g 0x0A))) ∧
    e.Sets (.btq o) g o.d (e.t.batonWord e.w arr)

/-! ## Copy instructions -/

/-- R208 to R213: the copy instructions. A length that is not a multiple of 16 or above 2^24 traps with
code 0x02, a global address that is not a multiple of 16 with 0x06, two global sides that overlap with
0x02; a record address that is misaligned with 0x06; any failed check with its code. Otherwise, while the
channel holds fewer than 16 commands and CP is below 1,023, the command enters the channel last, with its own
causal id, its entry of the hub's cause map (with none free, its records bear its warp's id, R361) and its operands, and CP rises; a full channel holds the instruction. `cpyq` reads the channel. -/
def Obligations.CopyInstructionsIssue : Prop :=
  ∀ (g : Sig) (e : Env) (o : Ops MY),
    let ch := o.mod.ch.toNat
    let q := (e.s.core e.w.core).channel ch
    let n := (e.scalar o.b).toNat
    let badLength := n % 16 ≠ 0 ∨ 2 ^ 24 < n
    let issues (i : Instr) : Prop :=
      (∀ c, e.checkCopy i o = .error c → e.Traps i g c) ∧
      (∀ len, e.checkCopy i o = .ok len →
        (∀ c, e.checkRecord o.mod (e.copyRecord o) = some c → e.Traps i g c) ∧
        (e.checkRecord o.mod (e.copyRecord o) = none →
          (16 ≤ q.length ∨ e.w.roomOn .cp = false → e.Holds i g e.s) ∧
          (q.length < 16 → e.w.roomOn .cp = true →
            let m := e.s.mint (hubOfCore e.w.core)
            let x := { m.2 with nextId := m.2.nextId + 1 }.takeCause (hubOfCore e.w.core) m.2.nextId m.1 e.w.cause
            let c : CopyCmd :=
              { id := m.2.nextId, key := e.k, instr := i, pc := e.w.pc, cause := x.1, minted := m.1, serial := e.w.serial
                d := e.scalar o.d, a := e.scalar o.a, b := e.scalar o.b, record := e.copyRecord o, len := len
                nth := e.w.issued + 1 }
            e.Does i g ((x.2.modChannel e.w.core ch (· ++ [c])).modWarp e.k fun w =>
              w.countUp .cp m.2.nextId))))
    issues (.cpy o) ∧ issues (.cpys o) ∧ issues (.cpyg o) ∧ issues (.cpygat o) ∧
    (badLength → e.Traps (.cpy o) g 0x02 ∧ e.Traps (.cpys o) g 0x02 ∧ e.Traps (.cpyg o) g 0x02) ∧
    (¬ badLength → (e.scalar o.a).toNat % 16 ≠ 0 → e.Traps (.cpy o) g 0x06 ∧ e.Traps (.cpyg o) g 0x06) ∧
    e.Sets (.cpyq o) g o.d (
      let left := match q with
        | [] => 0
        | c :: _ => if c.running then (c.len - c.moved) / 16 else 0
      atBit left 16 ||| atBit (q.filter (·.key == e.k)).length 8 ||| atBit q.length 0)

/-! ## Collective instructions -/

/-- R301, R305 to R311: the collective instructions, in a relay warp whose collective is `c`. A data operation
waits while 64 are incomplete or an LD, ST or SP counter is not 0; a slice that is not in 16-byte units or
leaves its buffer traps as RELAY with subcode 2, a peer that is no other rank with subcode 1 (the switch is a
peer of `csend` and `crecv` alone, and only with an in-network program); otherwise it is issued as operation.
`cwait` and `cdone` wait until at most that many are incomplete and invalidate the L1; `cpeer` and `crank`
write ranks; `cbar` counts an arrival here, tells every other rank, and waits. Which error of several is
reported is the model's reading (assumption 71). -/
def Obligations.CollectiveInstructionResults : Prop :=
  ∀ (g : Sig) (e : Env) (o : Ops (BitVec 16)) (c : Collective), e.coll = some c →
    let openOps := e.s.relayOf e.k
    let ready := openOps.length < 64 ∧ e.w.counter .ld = 0 ∧ e.w.counter .st = 0 ∧ e.w.counter .sp = 0
    let m := o.mod.toNat
    let slot := m / 4 % 64
    let sliceOk (buf off len : Nat) : Prop :=
      off % 16 = 0 ∧ len % 16 = 0 ∧ len ≤ 2 ^ 24 ∧ off + len ≤ c.sizes.getD buf 0
    let rank (p : Nat) : Prop := p < c.nranks ∧ p ≠ c.rank
    let peerOk (p : Nat) : Prop := (p = 2 ^ 32 - 1 ∧ c.isr = true) ∨ rank p
    let relay (i : Instr) (sub off : Nat) : Prop := e.Traps i g 0x1D 255 (atBit sub 0 ||| atBit off 8)
    let a := (e.scalar o.a).toNat
    let b := (e.scalar o.b).toNat
    let len := e.scalarC o.imm
    let va := c.slice (m % 4) b
    let data (i : Instr) (peers : Prop) (issued : Act) : Prop :=
      ready →
        (¬ sliceOk (m % 4) b len → relay i 2 b) ∧
        (sliceOk (m % 4) b len → ¬ peers → relay i 1 b) ∧
        (sliceOk (m % 4) b len → peers → ∃ t, issued = .next t ∧ e.Does i g t)
    data (.csend o) (peerOk a) (e.fork c .send slot a none b va 0 len 0 .z64) ∧
    data (.crecv o) (peerOk a) (e.fork c .recv slot a none b 0 va len 0 .z64) ∧
    (let fwd := if o.mod.getLsbD 15 then some (e.scalar o.d).toNat else none
     data (.crrs o) (rank a ∧ ∀ p, fwd = some p → rank p) (e.fork c .reduce slot a fwd b va va len
       (o.mod.extractLsb' 8 2) ((typOfCode (o.mod.extractLsb' 10 4)).getD .z64))) ∧
    (let dest := (e.scalar o.d).toNat
     ready →
       (¬ sliceOk (m / 4 % 4) a b → relay (.ccopy o) 2 a) ∧
       (sliceOk (m / 4 % 4) a b → ¬ sliceOk (m % 4) dest b → relay (.ccopy o) 2 dest) ∧
       (sliceOk (m / 4 % 4) a b → sliceOk (m % 4) dest b →
         ∃ t, e.fork c .copy 0 0 none a (c.slice (m / 4 % 4) a) (c.slice (m % 4) dest) b 0 .z64 dest = .next t ∧
           e.Does (.ccopy o) g t)) ∧
    (let l1 := e.s.flashInvalidate e.w.core
     (o.mod = 0 → openOps.length ≤ o.imm.toNat → e.Does (.cwait o) g l1) ∧
     (o.mod = 1 → ∀ code, e.signalBad (e.scalar o.a) = some code → e.Traps (.cwait o) g code 255 (e.scalar o.a)) ∧
     (o.mod = 1 → e.signalBad (e.scalar o.a) = none → openOps.length ≤ o.imm.toNat → ∀ t,
       ({ e with s := l1 }.signal (.cwait o) o.a .atomic fun e va r => e.afterRelease .dv fun e =>
         .next (((e.signalAdd va r (BitVec.allOnes 64)).dropLines c e.w.relayWritten).modWarp e.k fun w =>
           { w with relayWritten := [] })) = .next t → e.Does (.cwait o) g t) ∧
     (openOps = [] → e.Enters (.cdone o) g ((l1.endWait e.k).exitWarp e.k))) ∧
    (o.mod ≠ 0 → c.cols = 0 → relay (.cpeer o) 6 0) ∧
    (let k := (e.scalar o.a).toInt
     (o.mod = 0 → c.nranks ≠ 0 →
       e.Sets (.cpeer o) g o.d (BitVec.ofNat 64 (((c.rank : Int) + k) % c.nranks).toNat)) ∧
     (o.mod = 1 → c.cols ≠ 0 → e.Sets (.cpeer o) g o.d
       (BitVec.ofNat 64 ((((c.rank / c.cols * c.cols : Nat) : Int) + (((c.rank % c.cols : Nat) : Int) + k) % c.cols).toNat))) ∧
     (o.mod = 2 → c.cols ≠ 0 → e.Sets (.cpeer o) g o.d
       (BitVec.ofNat 64 (((((c.rank / c.cols : Nat) : Int) + k) % ((c.nranks / c.cols : Nat) : Int)).toNat * c.cols +
         c.rank % c.cols)))) ∧
    e.Sets (.crank o) g o.d (BitVec.ofNat 64 (
      if m = 0 then c.rank else if m = 1 then c.nranks else if m = 2 then c.cols
      else (if c.isr then 1 else 0) + 2 * (if c.e2e then 1 else 0))) ∧
    (let n := e.w.cbars + 1
     let s1 := (e.s.raiseStep e.k).modWarp e.k fun w => { w with cbars := n, cbarFrom := e.s.clock }
     let s2 := s1.modColl c.tag fun c => c.arrive c.rank e.chan
     let s3 := (List.range c.nranks).foldl
       (fun s r => if r = c.rank then s
         else s.tell c r (.cbar c.tag ⟨c.rank, e.w.stepNo.toNat, e.w.cause, Config.devId.toNat, c.dev r⟩ e.chan)) s2
     let s4 := s3.enterWait e.k .cbar (cbarWait (c.arrive c.rank e.chan) n)
     e.Enters (.cbar o) g ((s4.relayWarps c.tag).foldl State.wakeCbar s4))

/-! ## Waits that end, halts -/

/-- R79, R81, R97, R151, R292 to R294, R338: the events that end a warp's wait. For a warp of a team that has
not stopped: a barrier wait ends once the phase has moved on, a sleep once its count has run out, a `bton`
once the warp may take the baton, a `sigwait` is read again, a scope instruction's reply writes its
destination, an `fswait` ends when the scope is done, the records of an emission reach their nodes, an `icinv` is
acknowledged once every core has dropped its range; a reload fills a row for the register it was started
for. -/
def Obligations.WaitsEnd : Prop :=
  ∀ (s : State) (k : WKey) (t : Team) (w : Warp), s.team? k.team = some t → s.warp? k = some w →
    let goesOn (i : Instr) (u : State) : Prop := exec i s = .next ((u.leaveWait k).advance k)
    (∀ b, w.act = .barWait b → t.still w = false → w.parked = false → (t.barrier b).phase ≠ (w.arrival b).2 →
      exec (.barrierWake k) s = .next (((s.leaveWait k).leaveBarrier k b).advance k)) ∧
    (w.act = .sleep → t.still w = false → s.sleepRemain w = 0 →
      exec (.sleepExpiry k) s = .next ((s.modWarp k fun w => { w with sleepLeft := 0 }).leaveWait k)) ∧
    (∀ arr, w.act = .bton arr → t.still w = false → t.mayTake w arr = true →
      exec (.batonHandoff k) s = .next (((s.setBaton k (t.batonIdx w arr) (.held w.num)).leaveWait k).advance k)) ∧
    (∀ o, w.act = .sigWait o → t.still w = false → w.parked = false → s.fqRoom k.ctx = true →
      exec (.sigwaitReread k) s = .next (Env.reread ⟨s, k, t, w, 0⟩ o)) ∧
    (∀ r, w.act = .scopeTrip r → s.serving = true →
      goesOn (.scopeReply k) (s.modWarp k fun w => w.reply t.kernel.width r)) ∧
    (∀ d h x, w.act = .scopeWait d h → s.serving = true → t.still w = false → (s.ctx k.ctx).scope? h = some x → x.done = true →
      exec (.scopeReply k) s = .next ((((((s.modWarp k fun w => w.setS d x.waitWord).freeScope k.ctx h).leaveWait k).acquire
        w.core t.kernel.paired .dv)).advance k)) ∧
    (∀ fid l, w.act = .emitTrip fid l →
      goesOn (.emitRecordArrival k) (s.arriveRecords k.ctx fid l)) ∧
    (∀ ia n, w.act = .icinv ia n → goesOn (.icinvAcknowledge k) (s.dropCode ia n)) ∧
    (∀ v named, w.reloading = some (v, named) →
      ((w.vreg v).spilled = false →
        exec (.regReload k v) s = .next (s.modWarp k fun w => { w with reloading := none })) ∧
      ((w.vreg v).spilled = true → ∀ row s0, s.takeRow k t.kernel.g named = some (row, s0) →
        let x := s0.readSlot k v ((s0.warp? k).getD w |>.vreg v)
        let s2 := x.2.emit (w.src 1) 0x022 (auxCtx k.ctx) w.cause t.cause (regEventPayload w.serial v (w.vreg v).rank)
        exec (.regReload k v) s = .next (s2.modWarp k fun w =>
          { (w.setV v { x.1 with spilled := false, row := row, dirty := false }) with
            reloads := satAdd 32 w.reloads 1, reloading := none, served := v :: w.served })))

/-- R168, R315, R317, R318, R321, R322, R328: a halt completes. A live warp of a halting team stops between
instructions, its round trip over, and writes its PC and its status word into its block; once every warp has
stopped and what the team had accepted is done, the records of dropped matrix operations are written, and then
the team is kept, under ATTACH or in a relay team, or discarded when the ring has room; a single step is then
done. A late fault is recorded and
acts by the state of its team; a fault record that was held is written once the ring has room; a read that was
sent before a stop comes back into quarantine. That bytes on a missing page are not written is the model's
choice (assumption 25), and so is the bit layout of a quarantine header: R328 names its contents alone
(assumption 26). -/
def Obligations.HaltsComplete : Prop :=
  ∀ (s : State),
    (∀ (k : WKey) (t : Team) (w : Warp), s.team? k.team = some t → s.warp? k = some w → t.phase = .halting →
      w.live = true → w.halted = false → w.inTrip = false →
      (w.stopping = true → exec (.siblingHalt k) s =
        .next ((s.suspendWait k).modWarp k fun w => { w with halted := true, stopping := false })) ∧
      (w.stopping = false →
      let s1 := (s.suspendWait k).modWarp k fun w => { w with halted := true }
      let s2 := s1.emit (w.src 0) 0x023 (auxCtx k.ctx) w.cause t.cause
        [w.pc, atBit (w.skid % 256) 0 ||| ((w.serial &&& 0xFFFFFFFFFFFF#64) <<< 8)]
      ∀ u, s2.warp? k = some u →
        exec (.siblingHalt k) s = .next (s2.l2PutMarked (t.block w.num) (clean (bytes8 w.pc ++ bytes8 u.statusWord))))) ∧
    (∀ (k : TKey) (t : Team), s.team? k = some t → t.phase = .halting → (∀ w ∈ t.warps, w.live = true → w.halted = true) →
      s.unitsBusy t = false →
      (∀ o ∈ s.ops, o.key.team = k → o.dropped = false → o.kind.path = some .ld → o.busy = false) →
      let s1 := if t.stepping.isSome then s.stepDone k.ctx else s
      (t.heldFaults ≠ [] → exec (.teamHaltComplete k) s = .next
        ((t.heldFaults.foldl (fun s h => s.recordFault t h.info { halted := h.first, skid := !h.first }) s).modTeam t.key
          fun t => { t with heldFaults := [] })) ∧
      (t.heldFaults = [] → (s.ctx k.ctx).attach = true ∨ t.relay.isSome = true → exec (.teamHaltComplete k) s =
        .next ((s1.stopCopies t CopyCmd.writesScratch).modTeam k fun u =>
          { u with phase := .halted, runTime := s.ranFor t, since := s.clock, stepping := none })) ∧
      (t.heldFaults = [] → (s.ctx k.ctx).attach = false → t.relay = none → s.fqRoom k.ctx = true →
        exec (.teamHaltComplete k) s = .next (s1.discardTeam k))) ∧
    (∀ (id : Nat) (f : LateFault), s.lateFaults.find? (·.id == id) = some f → s.fqRoom f.key.ctx = true →
      let s1 := { s with lateFaults := s.lateFaults.filter (·.id != id) }
      (s1.team? f.key = none → exec (.lateFault id) s = .next s1) ∧
      (∀ t, s1.team? f.key = some t → exec (.lateFault id) s = .next ((s1.lateOn t f).settleComplete f.key))) ∧
    (∀ (c : Nat) (r : List Word) (rest : List (List Word)), (s.ctx c).held = r :: rest →
      let s1 := s.modCtx c fun x => { x with held := rest }
      ((s.ctx c).fqEn = true → (s.ctx c).fqFull = false → exec (.faultRecordDrain c) s = .next (s1.ringWrite c r)) ∧
      ((s.ctx c).fqEn = false → exec (.faultRecordDrain c) s = .next (s1.countNoRing c))) ∧
    (∀ (k : TKey) (t : Team) (before after : List Quarantine) (q : Quarantine), s.team? k = some t →
      s.quarantine = before ++ q :: after → (∀ x ∈ before, x.key = k → x.written = true) → q.key = k → q.written = false →
      let head := bytes8 (BitVec.ofNat 64 q.addr) ++ bytes8 (atBit q.bytes.length 0 ||| atBit (b2n q.scratch) 63)
      exec (.quarantineWrite k) s =
        .next { s.l2PutMarked (t.quarantineAt + s.quarantineBytes k) (clean head ++ q.bytes.map fun b => (b, q.poison)) with
                quarantine := before ++ { q with written := true } :: after })

/-! ## Teams -/

/-- R49, R176, R178, R281, R289, R325, R326, R331: the life of a team at the foundry. A launch that may be
admitted, with its leases free, its edges with room, a frame and a place, is placed at one of the places with
all of them; without a place its wait entry appears, or teams are pre-empted. A starting team becomes eligible
with its pool and L1 clean; a draining team that has not retired in time is saved; a save writes the frame
once nothing is under way; the first saved team of its context comes back at a place of the core set; a move of
its pool reads every word as a load does and writes word and parity anew (R183). The
second bank lost in a core retires the core; a core that has lost no group loses the bank's group alone. The
choice among places, to whom freed space goes, and the pool by capacity are the model's choice (assumptions 5,
28, 61, 67). -/
def Obligations.TeamsAdmittedSavedRestored : Prop :=
  ∀ (s : State),
    (∀ (id : Nat) (l : Launch), s.launches.find? (·.id == id) = some l → s.mayAdmit l = true →
      (s.ctx l.ctx).leasesAwaited l.kernel = [] → s.edgeAwaited l = none → ∀ a, s.frameFor l = some a →
        (s.places l.ctx l.kernel ≠ [] → ∃ c ∈ s.places l.ctx l.kernel, exec (.teamAdmit id) s =
          .next (((s.draw.2.endLaunchWait l).placeTeam l c a none).launchStarted l)) ∧
        (s.places l.ctx l.kernel = [] → ∀ t, s.launchWaits l l.admissionWait = some t → exec (.teamAdmit id) s = .next t) ∧
        (s.places l.ctx l.kernel = [] → s.launchWaits l l.admissionWait = none → ∀ t, s.makeWay l = some t →
          exec (.teamAdmit id) s = .next t)) ∧
    (∀ (k : TKey) (t : Team), s.team? k = some t →
      (t.phase = .starting → exec (.teamStart k) s =
        .next (((t.cores.foldl State.flashInvalidate s).emitTeam t 0x02A).modTeam k fun t =>
          { t with phase := .running, since := s.clock })) ∧
      (t.phase = .draining → t.drainFrom + (s.drainTime t).getD 0 ≤ s.clock →
        exec (.drainExpiry k) s = .next (s.beginSave t t.forced)) ∧
      (t.phase = .saving → (∀ w ∈ t.warps, w.live = true → w.inTrip = false) → s.unitsBusy t = false →
        (∀ c ∈ t.cores, ∀ p ∈ (s.core c).parity, p.key ≠ k) →
        (s.copiesOf t ≠ [] → exec (.teamSave k) s = .next (s.stopCopies t fun _ => true)) ∧
        (s.copiesOf t = [] → (∀ q ∈ s.quarantine, q.key = k → q.written = true) →
          (∀ o ∈ s.ops, o.key.team = k → o.dropped = false → o.busy = false) →
          (s.pendingBytes t ≤ 65536 → exec (.teamSave k) s = .next (s.finishSave t)) ∧
          (65536 < s.pendingBytes t → t.forced = false → exec (.teamSave k) s = .next (s.withdrawSave t)))) ∧
      (t.phase = .saved → s.comeback k.ctx = some k → s.serving = true → (s.ctx k.ctx).lost = false →
        (s.ctx k.ctx).resetting = false → (∀ u ∈ s.cores, ∀ b ∈ u.wbs, b.owner ≠ k) → s.fqRoom k.ctx = true →
        s.places k.ctx t.kernel ≠ [] →
        ∃ c ∈ s.places k.ctx t.kernel, exec (.teamRestore k) s = .next (s.draw.2.restoreTeam t c)) ∧
      (let x := s.readPool t
       let s1 := t.cores.foldl (fun s n => s.modCore n fun c => { c with parity := c.parity.filter fun p => p.key != k }) x.2
       exec (.poolCompactorMove k) s = .next (s1.modTeam k fun t => { t with sp := x.1.sp, reliefBad := [] }))) ∧
    (∀ core bank : Nat, bank < 32 →
      let c := s.core core
      let g := bank / 8
      c.retired = false → c.gret.getLsbD g = false →
        (c.degr.getLsbD g = false → exec (.bankRetire core bank) s =
          .next ((s.emitBank core bank 0).modCore core fun c =>
            { c with parity := [], degr := c.degr ||| (1#4 <<< g), rbank := c.rbank.set g (bank % 8) })) ∧
        (c.degr.getLsbD g = true → c.rbank.getD g 0 ≠ bank % 8 → s.teamsOn core [] = [] →
          exec (.bankRetire core bank) s = .next (s.removeGroup core bank))) ∧
    (∀ core bank : Nat,
      let c := s.core core
      let d := (s.removeGroup core bank).core core
      d.retiring = none ∧
      (c.gret = 0 → d.gret = c.gret ||| (1#4 <<< (bank / 8)) ∧ d.retired = c.retired) ∧
      (c.gret ≠ 0 → d.gret = c.gret ∧ d.retired = true))

/-! ## Memory and engines at work -/

/-- R191, R194, R195, R249: what happens to memory operations in flight. With room for a fault record, a
request whose page is unknown is walked; the requests that are ready are performed one by one, in an order the
model leaves free among them; a store in write-back form that its L1 holds gets its verdicts once its pages are known; a
write-back reaches L2, the oldest of its physical sector first, and is acknowledged. The order of ready requests and the
moment a deferred fault is reported are the model's choice (assumptions 5, 52). -/
def Obligations.MemoryOperationsProceed : Prop :=
  ∀ (s : State),
    (∀ (id : Nat) (o : MemOp), s.ops.find? (·.id == id) = some o → s.fqRoom o.key.ctx = true →
      (∀ a, s.needsWalk o = some a →
        let pageOnly := o.kind.isTag || (o.cache == .nt && (o.kind == .load || o.kind == .store))
        exec (.pageWalk id) s = .next ((s.translate a.ia).2.walked o a (s.translate a.ia).1 (!pageOnly))) ∧
      (∀ l, s.readyRequests o = [l] → exec (.requestComplete id) s = .next ((s.perform o l).tryFinish id)) ∧
      (2 ≤ (s.readyRequests o).length → ∃ l ∈ s.readyRequests o,
        exec (.requestComplete id) s = .next ((s.draw.2.perform o l).tryFinish id)) ∧
      (o.probed ≠ [] → o.parked = [] →
        (∀ a, o.probed.find? (fun a => !o.walked.contains (pageOf a.ia)) = some a →
          exec (.tagProbeVerdict id) s = .next ((s.translate a.ia).2.walked o a (s.translate a.ia).1 false)) ∧
        ((∀ a ∈ o.probed, pageOf a.ia ∈ o.walked ∧ a.stored = true) → exec (.tagProbeVerdict id) s = .next ((s.verdict o).tryFinish id)))) ∧
    (∀ (core id : Nat) (b : WriteBack), (s.core core).wbs.find? (·.id == id) = some b →
      (∀ x ∈ (s.core core).wbs, s.sameSector x.sector b.sector = true → b.id ≤ x.id) →
      (∀ o ∈ s.ops, o.writeBacks.contains id = true → (∀ a ∈ o.lanes, a.code = 0) ∨ s.fqRoom o.key.ctx = true) →
      let s1 := s.modCore core fun c => { c with wbs := c.wbs.filter (·.id != b.id) }
      let r := s1.l2Write false b.sector b.data b.mask b.poison (some b.owner) (s.ownerTag core b.owner)
      let s2 := if r.1 = none then r.2 else r.2.lostWrite (128 * b.sector) b.mask (some b.owner)
      let s3 := ((s.ops.filter fun o => o.writeBacks.contains id).map (·.id)).foldl State.tryFinish s2
      let keys := s3.teams.flatMap fun t => if t.cores.contains core then t.warps.map t.wkey else []
      exec (.writeBackAcknowledge core id) s = .next ((keys.foldl State.settleArrivals s3).settleComplete b.owner))

/-- R249, R254 to R257: a core's report opens the entry of a page at its hub, or adds its accesses to it; the
entry's first record is written when its window ends; REPLAY marks one page or every page of a context; the
re-walk of a marked page closes the entry and re-issues what waits unless the page is MISSING, which writes a
new record and counts it. ACC of held copies is the model's reading (assumption 27). -/
def Obligations.PageFaultsAreReportedAndReplayed : Prop :=
  ∀ (s : State) (p : PageKey),
    (∀ core r, (s.core core).filter.find? (·.page == p) = some r →
      let f := s.report r
      let s1 := s.modCore core fun c => { c with filter := c.filter.filter (·.page != p) }
      (∀ x, s.pageFault? p = some x →
        exec (.hubStageReport core p) s = .next (s1.modFault p fun x => { x with acc := x.acc ||| f.acc })) ∧
      (s.pageFault? p = none → (s.pageFaults.filter (·.hub == f.hub)).length < 512 →
        exec (.hubStageReport core p) s = .next { s1 with pageFaults := s1.pageFaults ++ [f] })) ∧
    (s.mgmt.fwPhase = .idle → s.mgmt.heldCommands = [] →
      exec (.replayPage p) s = .next (s.modFault p fun f => { f with replay := true }) ∧
      exec (.replayAll p.ctx) s =
        .next { s with pageFaults := updIf (·.page.ctx == p.ctx) (fun f => { f with replay := true }) s.pageFaults }) ∧
    (∀ f, s.pageFault? p = some f →
      (f.windowOpen = true → f.since + 1000 ≤ s.clock → s.fqRoom p.ctx = true →
        exec (.faultWindowClose p) s =
          .next ((s.pageFaultRecord f).modFault p fun f => { f with windowOpen := false, recorded := true })) ∧
      (f.replay = true →
        (s.walk (p.page * 65536) ≠ .missing → exec (.replayWalkResult p) s = .next (s.unpark p)) ∧
        (s.walk (p.page * 65536) = .missing → f.windowOpen = true →
          exec (.replayWalkResult p) s = .next (s.modFault p fun f => { f with replay := false })) ∧
        (s.walk (p.page * 65536) = .missing → f.windowOpen = false → s.fqRoom p.ctx = true →
          let g := { f with replay := false, repeats := satAdd 16 f.repeats 1 }
          exec (.replayWalkResult p) s = .next
            ((((s.parkedOps p).map (·.key)).eraseDups.foldl State.refreshParked (s.modFault p fun _ => g)).pageFaultRecord g))))

/-- R216 to R219: the packets between hub and base die. A base die takes the first request of its stream: an
RD answers the 128 bytes as they are, a WR or MWR performs its bytes and answers, an MWR with the merge
flag when it covers granules in part. A reply frees its tag, and a read's data fill the sector. -/
def Obligations.PacketsAreTaken : Prop :=
  ∀ (s : State) (q : Stream),
    (∀ p rest n, (s.stream q).requests = p :: rest → p.tag = some n →
      let put (t : State) (r : Reply) : State :=
        t.setStream { t.stream q with requests := rest, replies := (t.stream q).replies ++ [r] }
      (p.kind = .rd → exec (.rd q) s = .next (put s (p.reply (s.physData p.pa).1 (s.physData p.pa).2))) ∧
      (p.kind = .wr → exec (.wr q) s = .next (put (s.physWrite p) (p.reply [] false))) ∧
      (p.kind = .mwr → exec (.mwr q) s = .next (put (s.physWrite p) (p.reply [] (!wholeGranules p.mask))))) ∧
    (∀ n r, (s.stream q).replies.find? (fun r => r.read && r.tag == n) = some r →
      let s1 := s.takeReply q r
      (r.fill = none → exec (.rdata q n) s = .next s1) ∧
      (∀ ph sec, r.fill = some (ph, sec) →
        (s1.l2? ph sec = none → exec (.rdata q n) s = .next (s1.l2Install ph sec r.pa r.data r.flag)) ∧
        (∀ x, s1.l2? ph sec = some x → exec (.rdata q n) s = .next s1))) ∧
    (∀ n r, (s.stream q).replies.find? (fun r => !r.read && r.tag == n) = some r →
      exec (.wack q n) s = .next (s.takeReply q r))

/-- R174, R175, R148, R166, R167, R208, R213: the engines of a core. A scratchpad result that waited for a row
is written; else the lane port serves its first arrival that no region holds back; the oldest stale parity row
of a group is brought up to date; an `mma` starts when its array is idle and nothing stands before it, and ends
by updating its tile, or as POISON when it reads a poisoned tile; the other matrix operations complete in
order; a copy channel starts its first command, the writes of the warp's earlier ones on it landed, moves it burst by burst, and ends it. How parity updates go on beside a service, and the order of a copy's bursts, are the model's choice (assumptions
23, 45). -/
def Obligations.CoreEnginesProceed : Prop :=
  ∀ (s : State) (core : Nat),
    let c := s.core core
    (∀ u, s.spWaiting core = some u → exec (.scratchpadAccessComplete core) s = .next u) ∧
    (∀ p x t, s.spWaiting core = none → s.portHead core = some (p, some x) → s.team? x.key.team = some t →
      s.fqRoom x.key.ctx = true → exec (.scratchpadAccessComplete core) s = .next
        (((s.modCore core fun c => { c with port := c.port.erase p }).servePart t core p.1 x).tryFinishSp p.1 p.2)) ∧
    (∀ g p, c.parity.find? (·.group == g) = some p →
      exec (.parityUpdate core g) s = .next (s.modCore core fun c =>
        { c with parity := (c.parity.erase p).map fun q => if q.group == g then { q with age := q.age + (3 - p.age) } else q })) ∧
    (∀ arr x rest, c.mmaQueue (arr == 1) = x :: rest →
      (x.started = false → c.mxReady x = true →
        exec (.mmaStart core arr) s = .next (s.modCore core fun c =>
          { c with mxOps := updIf (·.id == x.id) (fun y => { y with started := true }) c.mxOps })) ∧
      (∀ t o, s.team? x.key.team = some t → x.instr = .mma o → x.started = true → s.fqRoom x.key.ctx = true →
        let tile := t.tile x.half x.tile
        let clr := o.mod.sub.getLsbD 0
        (clr = false → tile.poison ≠ [] → exec (.mmaComplete core arr) s =
          .next (s.failMx core x (x.fault s (if tile.poison.all tile.recon.contains then 0x1B else 0x19)))) ∧
        (clr = true ∨ tile.poison = [] → s.arrayUpset core arr = none →
          exec (.mmaComplete core arr) s = .next (s.endMx core x fun t =>
            t.setTile (mmaTile o.mod.fmt clr x.regs (t.tile x.half x.tile)))))) ∧
    (∀ id x t, c.mxOps.find? (·.id == id) = some x → s.team? x.key.team = some t → (∀ o, x.instr ≠ .mma o) →
      c.mxReady x = true → s.fqRoom x.key.ctx = true → exec (.mxOpComplete core id) s = .next (s.finishMx core t x)) ∧
    (∀ ch x rest, c.channel ch = x :: rest →
      (x.running = false → exec (.copyCommandStart core ch) s =
        .next ((((s.core core).wbs.filter fun b => b.owner == x.key.team && b.chan == some (x.key.w, ch)).foldl
          (fun s b => s.landWrite core b) s).modChannel core ch (updIf (·.id == x.id) fun c => { c with running := true }))) ∧
      (∀ t, x.running = true → x.held = none → s.fqRoom x.key.ctx = true → s.team? x.key.team = some t →
        (x.moved < x.len → exec (.copyDataReturn core ch) s = .next (s.moveBurst t core ch x)) ∧
        (x.len ≤ x.moved → exec (.copyCommandComplete core ch) s = .next (s.endCopy t core ch x))))

/-! ## Queues, links, collectives -/

/-- R269 to R271, R273, R276, R282, R287, R353: the queues. A notice that does not lower WRITE is taken, one
that lowers it is ignored; the notify word is read as a notice; a QCTL with LOGSZ above 12, a reserved bit or
DEVN beside LOC keeps QCTL and shows RESERVED_SET; clearing ERR skips the packet at READ. In its queue's turn
the packet at READ is decoded as its KIND when its VALID is 1, and decode stops there when it is 0; a reserved KIND and a slot that cannot be read are rejected; a
packet held behind BARRIER begins when its barrier opens; SIGNAL and CAST packets go on with their own work (a cast: its places or the check of its manifest, its data 16
bytes a step, then the manifest or the end of the restore),
and a WAIT packet completes once its signals are satisfied. A partial wave forms once TIMEOUT has passed since
the last record arrived, of the first 32 pending records of its node. A queue that stopped at a VALID of 0 goes on
at the next notice. That clearing ERR lets it go on too, the retry of a signal whose page is missing, and that the
read of the notify word is an access of the foundry with causal id 0, are the model's choice (assumptions 18, 68,
69, 103). -/
def Obligations.QueueEvents : Prop :=
  ∀ (s : State) (k : QKey),
    let q := s.queue k
    (∀ v, (lowers q.write v = true → exec (.qnotify k v) s = .next s) ∧
      (lowers q.write v = false →
        exec (.qnotify k v) s = .next (s.modQueue k fun q => { q with write := v, stalled := false }))) ∧
    (∀ x s1, s.serving = true → q.ctl.getLsbD 8 = true → q.ctl.getLsbD 10 = true → s.l2Word q.notifyAt = (some x, s1) →
      x.setWidth 32 ≠ q.write → lowers q.write (x.setWidth 32) = false →
      exec (.notifyWordRead k) s = .next ((s1.foundrySaw 0 q.notifyAt 8 0 0).notice k (x.setWidth 32))) ∧
    (∀ v : Word,
      let bad := 12 < (v.extractLsb' 12 4).toNat ∨ v.extractLsb' 16 48 ≠ 0 ∨ v.getLsbD 11 = true ∨ v.extractLsb' 0 8 ≠ 0 ∨
        (v.getLsbD 10 = true ∧ v.getLsbD 9 = true)
      (bad → exec (.qctlWrite k v) s = .next (s.modQueue k fun q => { q with status := 0x02 })) ∧
      (¬ bad → exec (.qctlWrite k v) s = .next (s.modQueue k fun q => { q with ctl := v, status := 0 }))) ∧
    (q.err = false → exec (.qstatErrClear k) s = .next s) ∧
    (q.err = true → exec (.qstatErrClear k) s =
      .next (s.modQueue k fun q => { q with err := false, read := q.read + 1, passed := [], stalled := false })) ∧
    (s.heldPacket k = none → s.nextQueue (homeHub k.ctx) = some k →
      (∀ bs s1, s.ringSlot q = (some bs, s1) → validOf bs = false →
        exec (.launchPacket k) s = .next (s1.modQueue k fun q => { q with stalled := true })) ∧
      (∀ bs s1, s.ringSlot q = (some bs, s1) → validOf bs = true → ∀ s2, s1.decodePacket k bs = some s2 →
        (kindOf bs = 1 → exec (.launchPacket k) s = .next s2) ∧
        (kindOf bs = 2 → exec (.graphPacket k) s = .next s2) ∧
        (kindOf bs = 3 → exec (.waitPacket k) s = .next s2) ∧
        (kindOf bs = 4 → s.unfinished k 4 = none → exec (.signalPacket k) s = .next s2) ∧
        (kindOf bs = 5 → s.unfinished k 5 = none → exec (.castPacket k) s = .next s2) ∧
        (kindOf bs = 0 ∨ 5 < kindOf bs → s.fqRoom k.ctx = true → exec (.badKind k) s = .next s2)) ∧
      (∀ s1, s.ringSlot q = (none, s1) → s.fqRoom k.ctx = true →
        exec (.badKind k) s = .next (((s1.endHeld k 0).rejectPacket k 0x09 0).turned k))) ∧
    (∀ p, s.heldPacket k = some p → s.serving = true → p.begun = false → s.barrierOpen p = true →
      (p.kind = 1 → exec (.launchPacket k) s = .next (s.beginPacket p)) ∧
      (p.kind = 2 → exec (.graphPacket k) s = .next (s.beginPacket p)) ∧
      (p.kind = 3 → exec (.waitPacket k) s = .next (s.beginPacket p))) ∧
    (∀ p, s.serving = true → s.unfinished k 4 = some p → (s.runSignal p.id).packets ≠ s.packets →
      exec (.signalPacket k) s = .next (s.runSignal p.id)) ∧
    (∀ p, s.serving = true → s.unfinished k 5 = some p → s.castDue p = true →
      exec (.castPacket k) s = .next (s.runCast p.id)) ∧
    (∀ id p c, s.packet? id = some p → p.cast = some c →
      (c.placed = false → c.restore = false → s.runCast id = s.castPlace p c) ∧
      (c.placed = false → c.restore = true →
        s.runCast id = if (s.castCheck p c).1 then (s.castCheck p c).2 else (s.castCheck p c).2.completeId id) ∧
      (c.placed = true → c.copied = false → s.runCast id = s.castCopy p c) ∧
      (c.placed = true → c.copied = true → c.restore = true → s.runCast id = (s.castFinish p c).completeId id) ∧
      (c.placed = true → c.copied = true → c.restore = false → s.parityDone p = true →
        s.runCast id = (s.castManifest p c).completeId id)) ∧
    (∀ id p, s.packet? id = some p → p.kind = 3 → p.started = true → s.serving = true →
      (if p.orWait then ∃ b ∈ (s.readWaits p).1, b = true else ∀ b ∈ (s.readWaits p).1, b = true) →
      exec (.waitPacketSatisfied id) s = .next ((s.readWaits p).2.completeId id)) ∧
    (∀ (ctx firing node : Nat) (f : Firing) (x : Node), (s.ctx ctx).firing? firing = some f →
      f.nodes[node]? = some x → s.serving = true → x.lane = true → x.pending ≠ [] → x.last + 100 * x.timeout ≤ s.clock →
      exec (.gatherTimeout ctx firing node) s = .next (s.formLaunch ctx f node x 32) ∧
      ∃ l, (s.formLaunch ctx f node x 32).launches = s.launches ++ [l] ∧ l.records = x.pending.take 32 ∧
        l.ctx = ctx ∧ l.kernel = x.kernel ∧ l.firing = some firing)

/-- R207, R303: the links. A peer's access whose page does not translate is answered with code 0x18, or 0x19
where the walk met poison; else its tags are checked, it is performed at this device's L2 and answered. A flit
that fails its check is counted, recorded and replayed, an intact one does what its message does; a retrain is
counted and recorded. The record of a peer's fault and the numbers of link errors are the model's reading
(assumptions 77, 78). -/
def Obligations.LinkEvents : Prop :=
  ∀ (s : State),
    (∀ r : RemoteAccess,
      (∀ c s1, s.remoteWalk r = (some c, s1) →
        (c = 0x18 ∨ c = 0x19) ∧ exec (.remoteAccessServe r) s = .next (s1.replyRemote r [] c)) ∧
      (∀ s1, s.remoteWalk r = (none, s1) → exec (.remoteAccessServe r) s = .next
        (((s1.remoteTags r).2.performPeer r (s1.remoteTags r).1).watchL2 (peerParty r) (peerWatch r.kind) r.ia
          (peerSize r) none).2)) ∧
    (∀ port m, exec (.ralbexFlit port true m) s = s.deliver m ∧
      let l := countPort s.mgmt.replays port
      exec (.ralbexFlit port false m) s = .next (((({ s with mgmt := { s.mgmt with replays := l } } : State).riskEvent
        .replay).linkError 0x027 port (portCount l port)).output (.replayRequest port))) ∧
    (∀ port : Option Nat,
      let p := port.getD 18
      let l := countPort s.mgmt.retrains p
      exec (.linkRetrain port) s = .next (((({ s with mgmt := { s.mgmt with retrains := l } } : State).riskEvent
        .retrain).linkError 0x028 p (portCount l p))))

/-- R306: the messages of relay operations, for a collective that is live and whose relay teams are not
halted, when the message was not held: the watchdog restarts, and a request to send meets its posted receive
or waits for it, a credit lets the payload move, a payload is performed, acknowledged and where asked
forwarded, an acknowledgement ends the wait of its send. The length in a credit, and that a halted
collective's messages are held, are the model's reading (assumptions 34, 72). -/
def Obligations.RelayMessages : Prop :=
  ∀ (s : State) (m : RelayMsg) (c : Collective), s.coll? m.tag = some c → s.collHalted m.tag = false →
    let from_ := s.heard m.tag m.src m.step
    let back := s.heard m.tag m.dst m.step
    (.sendRequest m ∉ c.held →
      let meets (o : RelayOp) : Bool :=
        (o.kind == .recv || o.kind == .reduce) && o.posted && !o.matched && o.failed.isNone && sameKey m (o.recvMsg c)
      (∀ o, from_.relayOps.find? meets = some o → exec (.relaySendRequest m) s = .next (from_.matchRecv c o m)) ∧
      (from_.relayOps.find? meets = none → exec (.relaySendRequest m) s =
        .next (from_.modColl m.tag fun c => { c with requests := c.requests ++ [m] }))) ∧
    (.credit m ∉ c.held → ∀ o, back.senderOf c m = some o →
      (o.sent = true → exec (.rendezvousCredit m) s = .next back) ∧
      (o.sent = false →
        (m.len ≠ o.len → exec (.rendezvousCredit m) s = .next (back.failRelay o.id 0x1D 0x03)) ∧
        (m.len = o.len →
          let s2 := back.modRelayOp o.id fun o => { o with sent := true }
          (o.len = 0 → exec (.rendezvousCredit m) s = .next (s2.tell c o.sendTo (.payload (o.sendMsg c) []))) ∧
          (o.len ≠ 0 →
            let r := s2.readSlice o (if o.kind == .reduce then o.dst else o.src)
            (∀ bs, r.1 = .ok bs → exec (.rendezvousCredit m) s =
              .next (r.2.tell c o.sendTo (.payload (o.sendMsg c) bs))) ∧
            (∀ x, r.1 = .error x → exec (.rendezvousCredit m) s = .next (r.2.failRelay o.id x.1 x.2.1 x.2.2)))))) ∧
    (∀ data, .payload m data ∉ c.held → ∀ o, from_.relayOps.find? (fun o =>
        o.matched && !o.received && o.failed.isNone && sameKey m (o.recvMsg c)) = some o →
      let r := from_.receive o data
      (∀ x, r.1 = .error x → exec (.relayPayload m data) s = .next (r.2.failRelay o.id x.1 x.2.1 x.2.2)) ∧
      (r.1 = .ok () →
        let s3 := (r.2.tell c o.peer (.ack (o.recvMsg c))).modRelayOp o.id fun o => { o with received := true }
        (o.fwd = none → exec (.relayPayload m data) s = .next s3) ∧
        (∀ p, o.fwd = some p → exec (.relayPayload m data) s = .next (s3.askSend c { o with received := true })))) ∧
    (.ack m ∉ c.held →
      (∀ o, back.senderOf c m = some o →
        exec (.relayAck m) s = .next (back.modRelayOp o.id fun o => { o with acked := true })) ∧
      (back.senderOf c m = none → exec (.relayAck m) s = .next back))

/-- R295, R296, R299, R305, R311, R313: collectives. One whose relay cores are free goes live with a relay
team per channel; an operation that has all it awaits completes, a copy performing its bytes first, one held
back is posted when it may be, and one that met a fault raises it; an arrival of another rank is counted,
and kept while the collective is not live; when the watchdog's period passes the item
that has waited longest is named; a cancelled collective's relay teams stop; a write of the partition takes
effect at once, or when no collective is live. The watchdog with nothing pending is the model's reading
(assumption 73). -/
def Obligations.CollectiveEvents : Prop :=
  ∀ (s : State),
    (∀ id p c, s.packet? id = some p → s.collectives.find? (fun c => c.packet == id && !c.live) = some c → s.serving = true →
      p.begun = true → p.cast = none → s.coll? c.tag = none → (s.ctx c.ctx).lost = false → (s.ctx c.ctx).resetting = false →
      (s.ctx c.ctx).leasesAwaited c.progKernel = [] → ((s.ctx c.ctx).codeRegister c.progKernel).isSome = true →
      s.onRelayCores = [] →
      ∀ s1, (List.range c.chans).foldl (fun acc ch => acc.bind fun s => s.placeRelay p c ch) (some s) = some s1 →
        exec (.collectiveStart id) s = .next (s1.goLive id c.tag)) ∧
    (∀ id o, s.relayOps.find? (·.id == id) = some o →
      (∀ x, o.failed = some x → s.fqRoom o.key.ctx = true →
        exec (.relayOpComplete id) s = .next (s.faultRelay o x.1 x.2.1 x.2.2)) ∧
      (∀ c, o.failed = none → o.posted = false → s.coll? o.tag = some c → s.mayPost o = true →
        exec (.relayOpComplete id) s = .next (s.postRelay c o)) ∧
      (o.failed = none → o.posted = true → o.done = true → o.kind ≠ .copy ∨ o.len = 0 → exec (.relayOpComplete id) s = .next (s.endRelay o)) ∧
      (o.failed = none → o.posted = true → o.done = true → o.kind = .copy → o.len ≠ 0 → ∀ bs s1, s.readSlice o o.src = (.ok bs, s1) →
        (∀ s2, s1.writeSlice o o.dst bs = (.ok (), s2) → exec (.relayOpComplete id) s = .next (s2.endRelay o)) ∧
        ∀ x s2, s1.writeSlice o o.dst bs = (.error x, s2) → exec (.relayOpComplete id) s =
          .next ((s2.failRelay o.id x.1 x.2.1 x.2.2).modRelayOp o.id fun o => { o with failedDst := true }))) ∧
    (∀ tag c, s.coll? tag = some c →
      (∀ rank chan, rank.rank ≠ c.rank →
        let s1 := (s.heard tag rank.rank rank.step).modColl tag fun c => c.arrive rank.rank chan
        exec (.cbarArrival tag rank chan) s = .next ((s1.relayWarps tag).foldl State.wakeCbar s1)) ∧
      (c.progress + c.wdt * 100000 ≤ s.clock → s.fqRoom c.ctx = true →
        (∀ x, oldest (s.items c) = some x → exec (.collWatchdog tag) s =
          .next ((s.watchdogRecord c x).modColl tag fun c => { c with progress := s.clock, repeats := c.repeats + 1 })) ∧
        (oldest (s.items c) = none →
          exec (.collWatchdog tag) s = .next (s.modColl tag fun c => { c with progress := s.clock }))) ∧
      (let h := ((s.packet? c.packet).map (·.scope)).getD 0
       let s1 := s.modScope c.ctx h fun e => { e with status := if e.status = 1 then 1 else 2 }
       let s2 := (s1.relayTeams tag).foldl
         (fun s t => (s.modTeam t.key fun t => { t with faulted := true }).discardTeam t.key)
         (s1.modColl tag fun c => { c with cancelled := true, requests := [] })
       exec (.collectiveCancel tag) s = .next ((s2.settleCollective tag).settlePackets c.ctx))) ∧
    (∀ tag, s.coll? tag = none → exec (.collectiveCancel tag) s = .next s ∧ ∀ rank chan,
      exec (.cbarArrival tag rank chan) s = .next { s with relayWaiting := s.relayWaiting ++ [.cbar tag rank chan] }) ∧
    (∀ v, (s.anyLive = false → exec (.relayPartitionWrite v) s =
        .next { s with mgmt := { s.mgmt with relayPart := v &&& 0xFFFFFFFF#64, relayHeld := none } }) ∧
      (s.anyLive = true → exec (.relayPartitionWrite v) s =
        .next { s with mgmt := { s.mgmt with relayHeld := some (v &&& 0xFFFFFFFF#64) } }) ∧
      (s.anyLive = false → s.mgmt.relayHeld = some v → exec .relayPartitionApply s =
        .next { s with mgmt := { s.mgmt with relayPart := v, relayHeld := none } }))

/-! ## Driver and host -/

/-- R250, R268, R318, R334, R367, R369: what the driver writes about contexts. Context control and core set
are ignored while the context has a resident team; a reset discards the context's work and completes once none
of its requests is open; FQCTL with LOGSZ above 12 is ignored, and setting EN clears RFAIL and NORING; a write
of word 1 commits a range register; a binding changes for contexts idle after a reset; a translation command
with OP 2 or 3 or a reserved bit set is rejected, another is taken, and completes: its status shows 1 unless a later command is held. The moment a translation
command takes effect, and what idle after a reset means, are the model's reading (assumptions 79, 80). -/
def Obligations.DriverWrites : Prop :=
  ∀ (s : State) (ctx : Nat) (v : Word),
    (ctx < 64 → s.hasResident ctx = true →
      exec (.contextControlWrite ctx v) s = .next s ∧ ∀ j, exec (.coreSetWrite ctx j v) s = .next s) ∧
    (ctx < 64 → s.hasResident ctx = false →
      exec (.contextControlWrite ctx v) s =
        .next (s.modCtx ctx fun c => { c with control := v &&& 0x000000FFFF00009F#64 }) ∧
      ∀ j < 9, exec (.coreSetWrite ctx j v) s =
        .next (s.modCtx ctx fun c => { c with coreSet := putCoreSet c.coreSet j v })) ∧
    (ctx < 64 → s.mgmt.fwPhase = .idle → s.mgmt.heldCommands = [] → exec (.ctxReset ctx) s = .next (s.beginReset ctx)) ∧
    ((s.ctx ctx).resetting = true → (∀ o ∈ s.ops, o.key.ctx ≠ ctx) → (∀ c ∈ s.cores, ∀ b ∈ c.wbs, b.owner.ctx ≠ ctx) →
      exec (.contextResetComplete ctx) s = .next (s.modCtx ctx Context.cleared)) ∧
    (12 < (v.extractLsb' 12 4).toNat → exec (.fqctlWrite ctx v) s = .next s) ∧
    ((v.extractLsb' 12 4).toNat ≤ 12 →
      (v.getLsbD 8 = true → exec (.fqctlWrite ctx v) s =
        .next (s.modCtx ctx fun c => { c with fqCtl := v, rfail := false, noring := 0 })) ∧
      (v.getLsbD 8 = false → exec (.fqctlWrite ctx v) s = .next (s.modCtx ctx fun c => { c with fqCtl := v }))) ∧
    (∀ r, exec (.fqreadWrite ctx r) s = .next (s.modCtx ctx fun c => { c with fqRead := r })) ∧
    (∀ k < 16, ctx < 64 →
      exec (.rangeRegisterCommit ctx k v) s = .next (s.modCtx ctx fun c =>
        let st := c.staged.getD k [0, 0, 0]
        { c with ranges := c.ranges.set k (rangeWords (st.getD 0 0) v (st.getD 1 0) (st.getD 2 0)) })) ∧
    (∀ j < 8, ∃ t, exec (.functionBindingWrite j v) s = .next t ∧
      t = { s with mgmt := { s.mgmt with binding := t.mgmt.binding } } ∧ t.mgmt.binding.length = s.mgmt.binding.length ∧
      ∀ n < s.mgmt.binding.length, t.mgmt.binding[n]? =
        if n / 8 = j ∧ s.idleAfterReset n = true then some (v.extractLsb' (8 * (n % 8)) 8 &&& 0xBF#8)
        else s.mgmt.binding[n]?) ∧
    (s.mgmt.fwPhase = .idle → s.mgmt.heldCommands = [] →
      let op := (v.extractLsb' 62 2).toNat
      let s1 := s.endTranslation
      (2 ≤ op → exec (.translationOpReserved v) s =
        .next { s1 with mgmt := { s1.mgmt with transStatus := true, transRej := true } }) ∧
      (translationBad v = false →
        let t := { s1 with mgmt := { s1.mgmt with transBusy := some v, transStatus := false, transRej := false } }
        (op = 0 → exec (.translationDrop v) s = .next t) ∧
        (op = 1 → exec (.translationWritebackInvalidate v) s = .next t)) ∧
      (translationBad v = true →
        let t := { s1 with mgmt := { s1.mgmt with transStatus := true, transRej := true } }
        (op = 0 → exec (.translationDrop v) s = .next t) ∧
        (op = 1 → exec (.translationWritebackInvalidate v) s = .next t))) ∧
    (s.mgmt.transBusy = some v →
      let t := s.runTranslation v
      exec .translationCommandComplete s = .next { t with mgmt := { t.mgmt with transBusy := none, transStatus := !s.mgmt.heldCommands.any HostCommand.isTranslation } })

/-- R322, R318, R372: the debug window. ATTACH is written at once. While an update of the foundry firmware
holds commands back, or earlier ones are held, a command is held and reads BUSY. Else each command runs: without a team, or for a
retired one, it ends with status NOTEAM; HALT without ATTACH ends with DONE; HALT records DEBUG_HALT and halts
a running team, or waits, BUSY, until its record has room; RESUME makes a halted team's warps eligible; STEP lets
one live warp of a halted team issue, and reads BUSY until it has; SNAP writes the frame, LOAD reads it back,
DISCARD discards, each with DONE and the team's frame; in the wrong state the status is STATE and nothing
else changes; an undefined OP ends with STATE. That RESUME, SNAP, LOAD and DISCARD read DONE in their own step
while a held command, a STEP and a HALT without room read BUSY, and the statuses that the table does not list,
are the model's reading (assumptions 64, 66). -/
def Obligations.DebugCommands : Prop :=
  ∀ (s : State) (k : TKey),
    let done (u : State) : State :=
      u.dbgDone k.ctx (if (u.team? k).any (·.stepping.isSome) then 1 else 0)
        (match u.team? k with | some t => if t.phase == .retired then 0 else t.frame | none => 0)
    (∀ attach, exec (.dbgctlWrite k.ctx attach) s = .next (s.modCtx k.ctx fun c => { c with attach := attach })) ∧
    (s.mgmt.fwPhase ≠ .idle ∨ s.mgmt.heldCommands ≠ [] →
      exec (.dbgHalt k) s = .next (s.holdCommand (.halt k)) ∧ exec (.dbgResume k) s = .next (s.holdCommand (.resume k)) ∧
      (∀ w, exec (.dbgStep k w) s = .next (s.holdCommand (.step k w))) ∧
      exec (.dbgSnap k) s = .next (s.holdCommand (.snap k)) ∧ exec (.dbgLoad k) s = .next (s.holdCommand (.load k)) ∧
      exec (.dbgDiscard k) s = .next (s.holdCommand (.discard k)) ∧
      ∀ v, exec (.dbgcmdUndefinedOp k.ctx v) s = .next (s.holdCommand (.badDebug k.ctx v))) ∧
    (s.mgmt.fwPhase = .idle → s.mgmt.heldCommands = [] →
      (∀ v, exec (.dbgcmdUndefinedOp k.ctx v) s =
        .next (s.dbgDone k.ctx 3 (((s.team? ⟨k.ctx, (v.extractLsb' 0 32).toNat⟩).map (·.frame)).getD 0))) ∧
      ((s.team? k = none ∨ ∃ t, s.team? k = some t ∧ t.phase = .retired) →
        (let r := s.dbgDone k.ctx 2 0
         exec (.dbgHalt k) s = .next r ∧ exec (.dbgResume k) s = .next r ∧ (∀ w, exec (.dbgStep k w) s = .next r) ∧
         exec (.dbgSnap k) s = .next r ∧ exec (.dbgLoad k) s = .next r ∧ exec (.dbgDiscard k) s = .next r)) ∧
      (∀ t, s.team? k = some t → t.phase ≠ .retired →
        let wrong := s.dbgDone k.ctx 3 t.frame
        ((s.ctx k.ctx).attach = false → exec (.dbgHalt k) s = .next (done s)) ∧
        ((s.ctx k.ctx).attach = true →
          (t.phase = .running ∨ t.phase = .draining →
            (s.fqRoom k.ctx = true →
              let f : FaultInfo := { code := 0x25, pc := 0, cause := t.cause }
              exec (.dbgHalt k) s = .next (done ((((s.recordFault t f { halted := true }).modTeam k
                Team.beginHalt).haltRelays t).teamFaulted k 0))) ∧
            (s.fqRoom k.ctx = false →
              let u := s.modCtx k.ctx fun x => { x with dbgStat := 1 }
              exec (.dbgHalt k) s = .next
                { u with mgmt := { u.mgmt with haltsWaiting := u.mgmt.haltsWaiting ++ [.halt k] } })) ∧
          (t.phase ≠ .running → t.phase ≠ .draining → exec (.dbgHalt k) s = .next wrong)) ∧
        (t.phase = .halted →
          exec (.dbgResume k) s = .next (done (s.resumeTeam k)) ∧ exec (.dbgDiscard k) s = .next (done (s.discardTeam k)) ∧
          (t.stepping = none →
            (∀ w, ((∃ x ∈ t.warps, x.num = w ∧ x.live = true) → exec (.dbgStep k w) s =
                .next (done ((s.modTeam k fun t =>
                  { t.modWarp w (fun x => { x with halted := false }) with stepping := some w }).resumeWait
                    ⟨k.ctx, k.tid, w⟩))) ∧
              ((∀ x ∈ t.warps, x.num = w → x.live = false) → exec (.dbgStep k w) s = .next wrong)) ∧
            exec (.dbgSnap k) s = .next (done (s.writeFrame t true true)) ∧
            let (u, bad, s1) := s.readFrame t
            (bad = false → exec (.dbgLoad k) s = .next (done (s1.modTeam k fun _ => u))) ∧
            (bad = true → exec (.dbgLoad k) s = .next wrong))) ∧
        (t.phase ≠ .halted → exec (.dbgResume k) s = .next wrong ∧ exec (.dbgDiscard k) s = .next wrong) ∧
        (t.phase ≠ .halted ∨ t.stepping.isSome = true →
          (∀ w, exec (.dbgStep k w) s = .next wrong) ∧ exec (.dbgSnap k) s = .next wrong ∧
          exec (.dbgLoad k) s = .next wrong)))

/-- R367 to R369: the host windows. An access through window B outside WBLIMIT, or outside the address space,
is an Unsupported Request that changes nothing else; any other is performed at L2, by IA, or by PA for the PF
with PHYS; by IA it does not reach memory where the walk fails, and what reaches memory is watched. A write through window A that is not of 8 bytes at a multiple of 8 is an
Unsupported Request that changes nothing; one to an offset where nothing lies, or a VF's to the
device area, changes nothing; to a register that has an event of its own it does that event. Window C is the PF's alone, 128 GiB, the stele's
segments in the first 64 GiB. A host access is
named engine 12, by the model's choice (assumption 81). -/
def Obligations.HostWindows : Prop :=
  ∀ (s : State),
    (∀ a : HostAccess,
      let base := s.mgmt.wbBaseOf a.fn
      let phys := a.fn == 0 && base.getLsbD 63
      let n := match a.write with | some bs => bs.length | none => a.len
      let addr := (base.extractLsb' 0 52).toNat / 65536 * 65536 + a.off
      let outside := (s.mgmt.wbLimitOf a.fn).toNat < a.off + n ∨ (if phys then Config.memTop else Config.iaTop) < addr + n
      let done := match a.write with | some bs => s.hostWrite a.fn phys addr bs | none => s.hostRead a.fn phys addr n
      (outside → exec (.hostWindowBAccess a) s = .next (s.output (.windowB false []))) ∧
      (¬ outside → phys = true ∨ done.1 = false → exec (.hostWindowBAccess a) s = .next done.2) ∧
      (¬ outside → phys = false → done.1 = true → exec (.hostWindowBAccess a) s =
        .next (done.2.watchL2 hostParty (if a.write.isSome then 1 else 0) addr n none).2)) ∧
    (∀ fn off data, (off % 8 ≠ 0 ∨ data.length ≠ 8) →
      exec (.registerWrite fn off data) s = .next (s.output (.windowB false []))) ∧
    (∀ fn off data, off % 8 = 0 → data.length = 8 →
      let v := wordOf data
      (off < 0x01000000 → fn ≠ 0 → exec (.registerWrite fn off data) s = .next s) ∧
      (0x01000000 ≤ off → (s.boundTo fn)[(off - 0x01000000) / 0x40000]? = none → exec (.registerWrite fn off data) s = .next s) ∧
      (∀ c, (s.boundTo fn)[(off - 0x01000000) / 0x40000]? = some c → 0x01000000 ≤ off →
        let reg := (off - 0x01000000) % 0x40000
        (reg = 0x000 → exec (.registerWrite fn off data) s = exec (.contextControlWrite c v) s) ∧
        (reg = 0x008 → v.getLsbD 0 = true → exec (.registerWrite fn off data) s = exec (.ctxReset c) s) ∧
        (reg = 0x100 → exec (.registerWrite fn off data) s = .next (s.modCtx c fun x => { x with saveBase := v })) ∧
        (reg = 0x108 → exec (.registerWrite fn off data) s = .next (s.modCtx c fun x => { x with saveSize := v })) ∧
        (reg = 0x208 → exec (.registerWrite fn off data) s = exec (.fqctlWrite c v) s) ∧
        (∀ q < 64, reg = 0x2018 + 64 * q →
          exec (.registerWrite fn off data) s = exec (.qnotify ⟨c, q⟩ (v.setWidth 32)) s))) ∧
    (∀ data, data.length = 8 →
      exec (.registerWrite 0 0x100 data) s = exec (.relayPartitionWrite (wordOf data &&& 0xFFFFFFFF#64)) s ∧
      exec (.registerWrite 0 0x308 data) s = .next { s with mgmt := { s.mgmt with riskCtl := wordOf data &&& 0x1FFFFF#64 } }) ∧
    (∀ fn off n, off % 8 ≠ 0 ∨ n ≠ 8 → s.readWindowA fn off n = none) ∧
    (∀ fn off n, fn ≠ 0 ∨ 2 ^ 37 < off + n → s.readWindowC fn off n = none) ∧
    (∀ off n, off + n ≤ 2 ^ 36 → s.readWindowC 0 off n = some ((List.range n).map fun k =>
      let a := off + k
      byteOf (s.steleRecord (a / 2 ^ 34) (a % 2 ^ 34 / 64)) (a % 64)))

/-! ## Management -/

/-- R372: the update of the foundry firmware. A command while RESULT is 1 changes nothing; OP 1 starts
verification, OP 2 selects the other slot of one of the two kinds, with or without the staged image put into it
(which of these, the model leaves free, assumptions 7, 132), another OP is ignored. The verdict on the image at
FWIMG, of at most 8 MiB, ends the update with RESULT 4, 5 or 6, or writes the
handover into the inactive slot's image and starts it; a first heartbeat within 20 ms makes that slot
active with RESULT 2; else the slot is marked invalid and the old image goes on with RESULT 3. -/
def Obligations.FirmwareUpdate : Prop :=
  ∀ (s : State),
    let m := s.mgmt
    (m.fwResult = 1 → exec .firmwareLiveUpdate s = .next s ∧ exec .firmwareSlotSelect s = .next s ∧
      ∀ op, exec (.firmwareCmdIgnored op) s = .next s) ∧
    (m.fwResult ≠ 1 →
      exec .firmwareLiveUpdate s = .next { s with mgmt := { m with fwPhase := .verify, fwResult := 1 } } ∧
      (let r := s.draw.2.stagedImage
       let x := r.2.freeSlot (r.1.getD [])
       let n := x.2.mgmt
       let other (a : Bool) : Nat := if a then 0 else 1
       ∃ l, (∃ put : Bool, (put = true → r.1.isSome = true) ∧
           ((l = (if put then n.fwSlots.set (other n.fwActive) x.1 else n.fwSlots) ∧ exec .firmwareSlotSelect s =
              .next { x.2 with mgmt := { n with fwSelect := some !n.fwActive, fwSlots := l } }) ∨
            (l = (if put then n.mgSlots.set (other n.mgActive) x.1 else n.mgSlots) ∧ exec .firmwareSlotSelect s =
              .next { x.2 with mgmt := { n with mgSelect := some !n.mgActive, mgSlots := l } })))) ∧
      ∀ op, op ≠ 1 → op ≠ 2 → exec (.firmwareCmdIgnored op) s = .next s) ∧
    (m.fwPhase = .verify → ∀ v : FwVerdict,
      let t := s.stagedImage.2
      let m := t.mgmt
      (s.stagedImage.1 = none → exec (.firmwareVerifyComplete v) s = .next (t.resumeService 4)) ∧
      ∀ image, s.stagedImage.1 = some image →
      let genuine := v.signatureGood = true ∧ v.foundryKind = true ∧ m.fwLen.toNat ≤ 2 ^ 23
      (¬ genuine → exec (.firmwareVerifyComplete v) s = .next (t.resumeService 4)) ∧
      (genuine → v.svn < m.running.svn → exec (.firmwareVerifyComplete v) s = .next (t.resumeService 5)) ∧
      (genuine → m.running.svn ≤ v.svn → m.handover < v.handLo ∨ v.handHi < m.handover →
        exec (.firmwareVerifyComplete v) s = .next (t.resumeService 6)) ∧
      (genuine → m.running.svn ≤ v.svn → v.handLo ≤ m.handover → m.handover ≤ v.handHi →
        exec (.firmwareVerifyComplete v) s = .next { t with mgmt :=
          { m with fwSlots := m.fwSlots.set (if m.fwActive then 0 else 1) ⟨v.major, v.minor, v.svn, m.handover, true, some (sha256 image)⟩
                   fwCandidate := some v, fwPhase := .heartbeat, fwStarted := t.clock, measured := m.measuredNow ++ [sha256 image] } })) ∧
    (m.fwPhase = .heartbeat →
      (s.clock ≤ m.fwStarted + 20000000 → exec .firstHeartbeat s =
        .next (State.resumeService { s with mgmt := { m with fwActive := !m.fwActive } } 2)) ∧
      (m.fwStarted + 20000000 < s.clock → exec .firstHeartbeat s = .next s) ∧
      (m.fwStarted + 20000000 ≤ s.clock → exec .heartbeatTimeout s = .next (State.resumeService { s with mgmt :=
        { m with fwSlots := m.fwSlots.set (if m.fwActive then 0 else 1) { slotOf m.fwSlots (!m.fwActive) with valid := false }
                 measured := m.measuredNow ++ [m.fwDigest m.fwActive] } } 3)))

/-- R342, R343, R348, R349, R356, R362, R373: the management controller's own work. A risk sample is the
capped sum of its five terms, one of them the margin below 105 degrees; a throttle step moves a die's clock by 25
MHz between 800 and 1,900 and records the cause: down above the die's cap or above 105 degrees, up below 95 % of
the cap, and every die down when the module is above its own; the rail voltage starts a change of the L2 code, or asks during one for the reverse change; a scrub
corrects a granule, or marks poison; the servo disciplines a stamping point, one that loses lock says so; an
emitter's oldest record is written to its segment. Details of RISK, throttling, L2 changes, scrub and time are
the model's reading (assumptions 82 to 86). -/
def Obligations.ManagementEvents : Prop :=
  ∀ (s : State),
    (∀ temp : Nat,
      let margin := 105 - temp
      let terms := [min 64 (s.riskCount .ce 60 / 16), min 96 (8 * s.riskCount .vc 60), min 128 (64 * s.riskCount .mc 600),
        min 80 (8 * (10 - margin)), min 64 (16 * s.riskCount .retrain 60 + s.riskCount .replay 60 / 256)]
      let risk := min 255 terms.sum
      let m := s.mgmt
      let s1 := State.riskPost (State.riskDecoded { s with mgmt :=
        { m with risk := BitVec.ofNat 8 risk, samples := (risk :: m.samples).take 1000
                 riskEvents := m.riskEvents.filter fun x => decide (s.clock ≤ x.1 + 600000000000) } })
      let crossed := m.riskTh ≠ 0 ∧ m.riskTh ≤ risk ∧ m.samples.length = 1000 ∧ ∀ x ∈ m.samples, x < m.riskTh
      (crossed → exec (.riskSample temp) s = .next (s1.crossing terms risk)) ∧
      (¬ crossed → exec (.riskSample temp) s = .next s1)) ∧
    (∀ r : PowerReading,
      let cap := max 100 (min 1100 (s.mgmt.dieCap.getD r.die 1100))
      let tooMuch := max 3000 (min 6000 s.mgmt.modCap) < r.modulePower
      let own : Option (Bool × Nat) :=
        if cap < r.diePower then some (false, 0) else if 105 < r.temp then some (false, 2)
        else if 100 * r.peakPower < 95 * cap then some (true, 3) else none
      (tooMuch → exec (.throttle r) s = .next ((List.range 8).foldl (fun s d =>
        s.stepDie d false (match own with | some (false, c) => if d = r.die then c else 1 | _ => 1)) s)) ∧
      (¬ tooMuch → own = none → exec (.throttle r) s = .next s) ∧
      (¬ tooMuch → ∀ x, own = some x → exec (.throttle r) s = .next (s.stepDie r.die x.1 x.2))) ∧
    (∀ die up cause, die < 8 →
      let clk := s.mgmt.dieClk.getD die 1900
      let new := if up then min 1900 (clk + 25) else max 800 (clk - 25)
      (new = clk → s.stepDie die up cause = s) ∧
      (new ≠ clk → s.stepDie die up cause = State.emit
          { s with mgmt := { s.mgmt with dieClk := s.mgmt.dieClk.set die new, throttleSteps := s.mgmt.throttleSteps + 1 } }
          mgmtSrc 0x020 0 0 0 [atBit new 0 ||| atBit die 16 ||| atBit cause 24])) ∧
    (∀ hub mv, hub < 4 →
      let s1 := s.modHub hub fun u => { u with rail := mv }
      let u := s1.hub hub
      (wantedCode mv = none → exec (.l2Mode hub mv) s = .next s1) ∧
      (∀ w, wantedCode mv = some w →
        (∀ d, u.changing = some d → exec (.l2Mode hub mv) s = .next (s1.modHub hub fun u => { u with reverse := w != d })) ∧
        (u.changing = none → w = u.decTed → exec (.l2Mode hub mv) s = .next s1) ∧
        (u.changing = none → w ≠ u.decTed → exec (.l2Mode hub mv) s = .next (s1.beginChange hub w)))) ∧
    (∀ hub d, (s.hub hub).changing = some d →
      let s1 := s.modHub hub fun u => { u with decTed := d, changing := none, reverse := false }
      exec (.l2ModeChangeComplete hub) s = .next (if (s.hub hub).reverse then s1.beginChange hub (!d) else s1)) ∧
    (∀ pa, exec (.scrub pa .clean) s = .next s ∧
      exec (.scrub pa .corrected) s = .next (s.eccCorrected mgmtSrc 7 pa) ∧
      exec (.scrub pa .uncorrectable) s =
        .next ((s.poisonGranule pa).riskEvent .mc)) ∧
    (∀ point (offset : Int) unc, exec (.timeSync point offset unc) s =
      .next ((s.modEmitter point fun m => m.disciplined s.clock offset unc).emitSync point true (BitVec.ofInt 64 offset))) ∧
    (∀ point, (s.emitter point).locked = true → ∃ x, exec (.stampingPointLockLoss point) s =
      .next ((s.draw.2.modEmitter point fun m => m.adrift s.clock).emitSync point false x)) ∧
    (∀ e, (s.emitter e).buffer ≠ [] → exec (.steleRecordWrite e) s = .next (s.writeOldest e))

/-- R364, R374, R375: erasure of the stele, device reset and power. An erasure is obeyed only while the device
is held in reset, and leaves every segment empty with STHEAD 0; a device reset restarts the device; at 115
degrees it is held in reset; power loss leaves what is non-volatile, with every segment of the stele empty and
STHEAD 0, and power-on chooses the slots; after either start the device reads READY 1 only once its six steps are
done. What
survives a reset, and that memory reads 0 after it, are the model's choice (assumptions 10, 87, 88). -/
def Obligations.ResetAndPower : Prop :=
  ∀ (s : State),
    (s.mgmt.inReset = true →
      exec .steleErase s = .next { s with mgmt := { s.mgmt with steleErasing := true, steleRej := false } }) ∧
    (s.mgmt.inReset = false → exec .steleErase s = .next { s with mgmt := { s.mgmt with steleRej := true } }) ∧
    (s.mgmt.steleErasing = true → ∃ t, exec .steleEraseComplete s = .next t ∧ t.mgmt.steleErasing = false ∧
      ∀ u ∈ t.hubs, u.stele.records = [] ∧ u.stele.head = 0) ∧
    (s.mgmt.powered = true →
      (∀ cause, ∃ t, exec (.deviceReset cause) s = .next t ∧ t = s.restart (cause % 256) false ∧ t.mgmt.started = 2 ∧
        t.teams = [] ∧ t.packets = [] ∧ t.ops = [] ∧ t.mem = [] ∧ t.l2 = [] ∧ t.tlb = [] ∧ t.collectives = []) ∧
      (∀ temp, temp < 115 → exec (.thermalReset temp) s = .next s) ∧
      (∀ temp, 115 ≤ temp → exec (.thermalReset temp) s = .next (s.restart 1 true))) ∧
    (∃ t, exec .powerLoss s = .next t ∧ t.mgmt.powered = false ∧ t.mgmt.started = 0 ∧ t.teams = [] ∧ t.ctxs = [] ∧
      t.mem = [] ∧ t.tags = [] ∧ t.mgmt.fwSlots = s.mgmt.fwSlots ∧ t.mgmt.mgSlots = s.mgmt.mgSlots ∧
      t.mgmt.sigTop = s.mgmt.sigTop ∧ t.mgmt.sigLow = s.mgmt.sigLow ∧
      t.mgmt.signing = [] ∧ ∀ u ∈ t.hubs, u.stele.records = [] ∧ u.stele.head = 0) ∧
    (s.mgmt.powered = false →
      let f := bootSlot s.mgmt.fwSlots s.mgmt.fwActive s.mgmt.fwSelect
      let g := bootSlot s.mgmt.mgSlots s.mgmt.mgActive s.mgmt.mgSelect
      exec .powerOn s = .next { s with mgmt := { s.mgmt with
        powered := true, started := 2, fwActive := f.1, fwSelect := none, mgActive := g.1, mgSelect := none
        fwBootFallback := f.2 || g.2, measured := [s.mgmt.fwDigest f.1] } }) ∧
    (∃ t, s.startStep = .next t ∧ t.mgmt = { s.mgmt with started := s.mgmt.started + 1 } ∧
      t.mgmt.ready = decide (s.mgmt.started + 1 = 6) ∧ (s.mgmt.started + 1 = 4 → t.tags = []) ∧
      (s.mgmt.started + 1 = 6 → t.ctxs = s.ctxs.map Context.afterReset))

/-- R366, R370, R371: the SPDM requests. Version, capabilities, digests and certificate are answered always, the
algorithms when HSS is offered; a signed answer commits the next signature index, which rises by 1 over both
stores, and leaves the device afterwards with the HSS signature of that index; with none of the 2^30 left it is
ERROR Unspecified; a session is opened by KEY_EXCHANGE, established by FINISH and ended by END_SESSION. A message
of IDE_KM changes its stream's key only in an established session. The codes of errors (assumption 29), that
measurement index 0 or above 5 and a session that is not open are errors (134), whether FINISH verifies (a free
value, 5) and what a key message asks (131) are the model's. -/
def Obligations.AttestationRequests : Prop :=
  ∀ (s : State),
    let sign (req : Nat) (body nonce : List Byte) (t : State) : Prop :=
      (2 ^ 15 ≤ s.mgmt.sigTop → t = s.spdmError req spdmUnspecified) ∧
      (s.mgmt.sigTop < 2 ^ 15 →
        t = { s with mgmt := { s.mgmt with
          sigTop := t.mgmt.sigTop, sigLow := t.mgmt.sigLow
          signing := s.mgmt.signing ++ [⟨req, body, nonce ++ body, s.mgmt.sigTop, s.mgmt.sigLow⟩] } } ∧
        (s.mgmt.sigLow < 2 ^ 15 → t.mgmt.sigLow < 2 ^ 15 ∧
          t.mgmt.sigTop * 2 ^ 15 + t.mgmt.sigLow = s.mgmt.sigTop * 2 ^ 15 + s.mgmt.sigLow + 1))
    (∀ a l, s.mgmt.signing = a :: l → s.releaseSigned = .next (State.answer { s with mgmt := { s.mgmt with signing := l } }
      a.req (a.body ++ hssSign a.top a.low a.message))) ∧
    exec .getVersion s = .next (s.answer spdmGetVersion [0x13#8]) ∧
    exec .getCapabilities s = .next (s.answer spdmGetCapabilities []) ∧
    (∀ offer, (.hssLms ∈ offer → exec (.negotiateAlgorithms offer) s =
        .next (State.answer { s with mgmt := { s.mgmt with negotiated := true } } spdmNegotiate [])) ∧
      (.hssLms ∉ offer → exec (.negotiateAlgorithms offer) s = .next (s.spdmError spdmNegotiate spdmUnsupported))) ∧
    exec .getDigests s = .next (s.answer spdmGetDigests (sha256 Config.certificate)) ∧
    (∀ off len, exec (.getCertificate off len) s =
      .next (s.answer spdmGetCertificate ((Config.certificate.drop off).take len))) ∧
    (∀ nonce, ∃ t, exec (.challenge nonce) s = .next t ∧ sign spdmChallenge (sha256 Config.certificate) nonce t) ∧
    (∀ i nonce,
      (i = 0 ∨ 5 < i → ∀ b, exec (.getMeasurements i b nonce) s = .next (s.spdmError spdmGetMeasurements spdmInvalidRequest)) ∧
      (∀ d, s.mgmt.measurementOf i = some d →
        exec (.getMeasurements i false nonce) s = .next (s.answer spdmGetMeasurements d) ∧
        ∃ t, exec (.getMeasurements i true nonce) s = .next t ∧ sign spdmGetMeasurements d nonce t)) ∧
    (∀ id ex, ∃ t u, exec (.keyExchange id ex) s = .next t ∧ sign spdmKeyExchange [] ex u ∧
      t = (if 2 ^ 15 ≤ s.mgmt.sigTop then u else
        { u with mgmt := { u.mgmt with sessions := (id, false) :: s.mgmt.sessions.filter (·.1 != id) } })) ∧
    (∀ id, (∀ x ∈ s.mgmt.sessions, x.1 ≠ id) →
      (∀ d, exec (.spdmFinish id d) s = .next (s.spdmError spdmFinishCode spdmInvalidSession)) ∧
      exec (.endSession id) s = .next (s.spdmError spdmEndSession spdmInvalidSession)) ∧
    (∀ id, (∃ x ∈ s.mgmt.sessions, x.1 = id) →
      (∀ d, ∃ t, exec (.spdmFinish id d) s = .next t ∧
        (t = s.draw.2.spdmError spdmFinishCode spdmUnspecified ∨
         t = State.answer { s.draw.2 with mgmt := { s.mgmt with
           sessions := s.mgmt.sessions.map fun x => if x.1 == id then (x.1, true) else x } } spdmFinishCode [])) ∧
      exec (.endSession id) s = .next (State.answer { s with mgmt := { s.mgmt with
        sessions := s.mgmt.sessions.filter (·.1 != id) } } spdmEndSession [])) ∧
    (∀ x l, s.mgmt.keyMessages = x :: l →
      ((x.session, true) ∉ s.mgmt.sessions → s.takeKeyMessage = .next { s with mgmt := { s.mgmt with keyMessages := l } }) ∧
      ((x.session, true) ∈ s.mgmt.sessions → s.takeKeyMessage = .next { s with mgmt := { s.mgmt with
        keyMessages := l
        ide := s.mgmt.ide.modify x.stream fun y => match x.op with
          | .program key => { y with key := key }
          | .go => { y with going := !y.key.isEmpty }
          | .stop => { y with going := false } } }))
end

