-- ==== Sys2Proof/Laws/Dispatch.lean ====
section
/-!
SUPPORT. What `exec` does with each constructor: one direct call.
-/

namespace Sys2Proof.Machine

variable (s : State)

@[simp] theorem exec_nop o : exec (.nop o) s = execNop o s := rfl
@[simp] theorem exec_bra o : exec (.bra o) s = execBra o s := rfl
@[simp] theorem exec_brx o : exec (.brx o) s = execBrx o s := rfl
@[simp] theorem exec_call o : exec (.call o) s = execCall o s := rfl
@[simp] theorem exec_callx o : exec (.callx o) s = execCallx o s := rfl
@[simp] theorem exec_ret o : exec (.ret o) s = execRet o s := rfl
@[simp] theorem exec_bc o : exec (.bc o) s = execBc o s := rfl
@[simp] theorem exec_bany o : exec (.bany o) s = execBany o s := rfl
@[simp] theorem exec_ball o : exec (.ball o) s = execBall o s := rfl
@[simp] theorem exec_vif o : exec (.vif o) s = execVif o s := rfl
@[simp] theorem exec_velse o : exec (.velse o) s = execVelse o s := rfl
@[simp] theorem exec_vend o : exec (.vend o) s = execVend o s := rfl
@[simp] theorem exec_vbrk o : exec (.vbrk o) s = execVbrk o s := rfl
@[simp] theorem exec_vcont o : exec (.vcont o) s = execVcont o s := rfl
@[simp] theorem exec_lbrk o : exec (.lbrk o) s = execLbrk o s := rfl
@[simp] theorem exec_loop o : exec (.loop o) s = execLoop o s := rfl
@[simp] theorem exec_loopx o : exec (.loopx o) s = execLoopx o s := rfl
@[simp] theorem exec_yield o : exec (.yield o) s = execYield o s := rfl
@[simp] theorem exec_sleep o : exec (.sleep o) s = execSleep o s := rfl
@[simp] theorem exec_exit o : exec (.exit o) s = execExit o s := rfl
@[simp] theorem exec_bar o : exec (.bar o) s = execBar o s := rfl
@[simp] theorem exec_bara o : exec (.bara o) s = execBara o s := rfl
@[simp] theorem exec_barw o : exec (.barw o) s = execBarw o s := rfl
@[simp] theorem exec_waitc o : exec (.waitc o) s = execWaitc o s := rfl
@[simp] theorem exec_waitp o : exec (.waitp o) s = execWaitp o s := rfl
@[simp] theorem exec_trap o : exec (.trap o) s = execTrap o s := rfl
@[simp] theorem exec_bkpt o : exec (.bkpt o) s = execBkpt o s := rfl
@[simp] theorem exec_li o : exec (.li o) s = execLi o s := rfl
@[simp] theorem exec_lih o : exec (.lih o) s = execLih o s := rfl
@[simp] theorem exec_sadd o : exec (.sadd o) s = execSadd o s := rfl
@[simp] theorem exec_ssub o : exec (.ssub o) s = execSsub o s := rfl
@[simp] theorem exec_smul o : exec (.smul o) s = execSmul o s := rfl
@[simp] theorem exec_smulh o : exec (.smulh o) s = execSmulh o s := rfl
@[simp] theorem exec_sand o : exec (.sand o) s = execSand o s := rfl
@[simp] theorem exec_sor o : exec (.sor o) s = execSor o s := rfl
@[simp] theorem exec_sxor o : exec (.sxor o) s = execSxor o s := rfl
@[simp] theorem exec_snot o : exec (.snot o) s = execSnot o s := rfl
@[simp] theorem exec_sshl o : exec (.sshl o) s = execSshl o s := rfl
@[simp] theorem exec_sshr o : exec (.sshr o) s = execSshr o s := rfl
@[simp] theorem exec_ssra o : exec (.ssra o) s = execSsra o s := rfl
@[simp] theorem exec_smin o : exec (.smin o) s = execSmin o s := rfl
@[simp] theorem exec_smax o : exec (.smax o) s = execSmax o s := rfl
@[simp] theorem exec_sclz o : exec (.sclz o) s = execSclz o s := rfl
@[simp] theorem exec_spopc o : exec (.spopc o) s = execSpopc o s := rfl
@[simp] theorem exec_scmp o : exec (.scmp o) s = execScmp o s := rfl
@[simp] theorem exec_ssel o : exec (.ssel o) s = execSsel o s := rfl
@[simp] theorem exec_smov o : exec (.smov o) s = execSmov o s := rfl
@[simp] theorem exec_sext o : exec (.sext o) s = execSext o s := rfl
@[simp] theorem exec_sbfe o : exec (.sbfe o) s = execSbfe o s := rfl
@[simp] theorem exec_iadd o : exec (.iadd o) s = execIadd o s := rfl
@[simp] theorem exec_isub o : exec (.isub o) s = execIsub o s := rfl
@[simp] theorem exec_imul24 o : exec (.imul24 o) s = execImul24 o s := rfl
@[simp] theorem exec_imul o : exec (.imul o) s = execImul o s := rfl
@[simp] theorem exec_imulh o : exec (.imulh o) s = execImulh o s := rfl
@[simp] theorem exec_imad24 o : exec (.imad24 o) s = execImad24 o s := rfl
@[simp] theorem exec_iabs o : exec (.iabs o) s = execIabs o s := rfl
@[simp] theorem exec_ineg o : exec (.ineg o) s = execIneg o s := rfl
@[simp] theorem exec_imin o : exec (.imin o) s = execImin o s := rfl
@[simp] theorem exec_imax o : exec (.imax o) s = execImax o s := rfl
@[simp] theorem exec_iand o : exec (.iand o) s = execIand o s := rfl
@[simp] theorem exec_ior o : exec (.ior o) s = execIor o s := rfl
@[simp] theorem exec_ixor o : exec (.ixor o) s = execIxor o s := rfl
@[simp] theorem exec_inot o : exec (.inot o) s = execInot o s := rfl
@[simp] theorem exec_ishl o : exec (.ishl o) s = execIshl o s := rfl
@[simp] theorem exec_ishr o : exec (.ishr o) s = execIshr o s := rfl
@[simp] theorem exec_isra o : exec (.isra o) s = execIsra o s := rfl
@[simp] theorem exec_irot o : exec (.irot o) s = execIrot o s := rfl
@[simp] theorem exec_iclz o : exec (.iclz o) s = execIclz o s := rfl
@[simp] theorem exec_ipopc o : exec (.ipopc o) s = execIpopc o s := rfl
@[simp] theorem exec_ibrev o : exec (.ibrev o) s = execIbrev o s := rfl
@[simp] theorem exec_ibfe o : exec (.ibfe o) s = execIbfe o s := rfl
@[simp] theorem exec_ibfi o : exec (.ibfi o) s = execIbfi o s := rfl
@[simp] theorem exec_isel o : exec (.isel o) s = execIsel o s := rfl
@[simp] theorem exec_icmp o : exec (.icmp o) s = execIcmp o s := rfl
@[simp] theorem exec_iaddc o : exec (.iaddc o) s = execIaddc o s := rfl
@[simp] theorem exec_isad o : exec (.isad o) s = execIsad o s := rfl
@[simp] theorem exec_iavg o : exec (.iavg o) s = execIavg o s := rfl
@[simp] theorem exec_idp4 o : exec (.idp4 o) s = execIdp4 o s := rfl
@[simp] theorem exec_iext o : exec (.iext o) s = execIext o s := rfl
@[simp] theorem exec_ilop3 o : exec (.ilop3 o) s = execIlop3 o s := rfl
@[simp] theorem exec_ishfd o : exec (.ishfd o) s = execIshfd o s := rfl
@[simp] theorem exec_fadd o : exec (.fadd o) s = execFadd o s := rfl
@[simp] theorem exec_fsub o : exec (.fsub o) s = execFsub o s := rfl
@[simp] theorem exec_fmul o : exec (.fmul o) s = execFmul o s := rfl
@[simp] theorem exec_fma o : exec (.fma o) s = execFma o s := rfl
@[simp] theorem exec_fnma o : exec (.fnma o) s = execFnma o s := rfl
@[simp] theorem exec_fms o : exec (.fms o) s = execFms o s := rfl
@[simp] theorem exec_fnms o : exec (.fnms o) s = execFnms o s := rfl
@[simp] theorem exec_fmin o : exec (.fmin o) s = execFmin o s := rfl
@[simp] theorem exec_fmax o : exec (.fmax o) s = execFmax o s := rfl
@[simp] theorem exec_fabs o : exec (.fabs o) s = execFabs o s := rfl
@[simp] theorem exec_fneg o : exec (.fneg o) s = execFneg o s := rfl
@[simp] theorem exec_fcpsgn o : exec (.fcpsgn o) s = execFcpsgn o s := rfl
@[simp] theorem exec_fcmp o : exec (.fcmp o) s = execFcmp o s := rfl
@[simp] theorem exec_fclass o : exec (.fclass o) s = execFclass o s := rfl
@[simp] theorem exec_frcp o : exec (.frcp o) s = execFrcp o s := rfl
@[simp] theorem exec_frnd o : exec (.frnd o) s = execFrnd o s := rfl
@[simp] theorem exec_fscale o : exec (.fscale o) s = execFscale o s := rfl
@[simp] theorem exec_fexpt o : exec (.fexpt o) s = execFexpt o s := rfl
@[simp] theorem exec_fmant o : exec (.fmant o) s = execFmant o s := rfl
@[simp] theorem exec_fdot2 o : exec (.fdot2 o) s = execFdot2 o s := rfl
@[simp] theorem exec_fsat o : exec (.fsat o) s = execFsat o s := rfl
@[simp] theorem exec_cvt o : exec (.cvt o) s = execCvt o s := rfl
@[simp] theorem exec_cvtmx o : exec (.cvtmx o) s = execCvtmx o s := rfl
@[simp] theorem exec_cvtsc o : exec (.cvtsc o) s = execCvtsc o s := rfl
@[simp] theorem exec_flgr o : exec (.flgr o) s = execFlgr o s := rfl
@[simp] theorem exec_flgc o : exec (.flgc o) s = execFlgc o s := rfl
@[simp] theorem exec_csin o : exec (.csin o) s = execCsin o s := rfl
@[simp] theorem exec_ccos o : exec (.ccos o) s = execCcos o s := rfl
@[simp] theorem exec_catan o : exec (.catan o) s = execCatan o s := rfl
@[simp] theorem exec_cexp2 o : exec (.cexp2 o) s = execCexp2 o s := rfl
@[simp] theorem exec_clog2 o : exec (.clog2 o) s = execClog2 o s := rfl
@[simp] theorem exec_ctanh o : exec (.ctanh o) s = execCtanh o s := rfl
@[simp] theorem exec_crsq o : exec (.crsq o) s = execCrsq o s := rfl
@[simp] theorem exec_csqrt o : exec (.csqrt o) s = execCsqrt o s := rfl
@[simp] theorem exec_shfl o : exec (.shfl o) s = execShfl o s := rfl
@[simp] theorem exec_bcast o : exec (.bcast o) s = execBcast o s := rfl
@[simp] theorem exec_vote o : exec (.vote o) s = execVote o s := rfl
@[simp] theorem exec_matchX o : exec (.matchX o) s = execMatchX o s := rfl
@[simp] theorem exec_redx o : exec (.redx o) s = execRedx o s := rfl
@[simp] theorem exec_scanx o : exec (.scanx o) s = execScanx o s := rfl
@[simp] theorem exec_perm o : exec (.perm o) s = execPerm o s := rfl
@[simp] theorem exec_mov o : exec (.mov o) s = execMov o s := rfl
@[simp] theorem exec_movi o : exec (.movi o) s = execMovi o s := rfl
@[simp] theorem exec_shape o : exec (.shape o) s = execShape o s := rfl
@[simp] theorem exec_mkaff o : exec (.mkaff o) s = execMkaff o s := rfl
@[simp] theorem exec_expand o : exec (.expand o) s = execExpand o s := rfl
@[simp] theorem exec_xset o : exec (.xset o) s = execXset o s := rfl
@[simp] theorem exec_xmov o : exec (.xmov o) s = execXmov o s := rfl
@[simp] theorem exec_fld o : exec (.fld o) s = execFld o s := rfl
@[simp] theorem exec_mma o : exec (.mma o) s = execMma o s := rfl
@[simp] theorem exec_accz o : exec (.accz o) s = execAccz o s := rfl
@[simp] theorem exec_accld o : exec (.accld o) s = execAccld o s := rfl
@[simp] theorem exec_accst o : exec (.accst o) s = execAccst o s := rfl
@[simp] theorem exec_accrd o : exec (.accrd o) s = execAccrd o s := rfl
@[simp] theorem exec_accwr o : exec (.accwr o) s = execAccwr o s := rfl
@[simp] theorem exec_bton o : exec (.bton o) s = execBton o s := rfl
@[simp] theorem exec_btpass o : exec (.btpass o) s = execBtpass o s := rfl
@[simp] theorem exec_btq o : exec (.btq o) s = execBtq o s := rfl
@[simp] theorem exec_fldsc o : exec (.fldsc o) s = execFldsc o s := rfl
@[simp] theorem exec_acccp o : exec (.acccp o) s = execAcccp o s := rfl
@[simp] theorem exec_lds o : exec (.lds o) s = execLds o s := rfl
@[simp] theorem exec_sts o : exec (.sts o) s = execSts o s := rfl
@[simp] theorem exec_atoms o : exec (.atoms o) s = execAtoms o s := rfl
@[simp] theorem exec_spinv o : exec (.spinv o) s = execSpinv o s := rfl
@[simp] theorem exec_spstat o : exec (.spstat o) s = execSpstat o s := rfl
@[simp] theorem exec_ldsx o : exec (.ldsx o) s = execLdsx o s := rfl
@[simp] theorem exec_stsx o : exec (.stsx o) s = execStsx o s := rfl
@[simp] theorem exec_reds o : exec (.reds o) s = execReds o s := rfl
@[simp] theorem exec_spfill o : exec (.spfill o) s = execSpfill o s := rfl
@[simp] theorem exec_ld o : exec (.ld o) s = execLd o s := rfl
@[simp] theorem exec_st o : exec (.st o) s = execSt o s := rfl
@[simp] theorem exec_atom o : exec (.atom o) s = execAtom o s := rfl
@[simp] theorem exec_red o : exec (.red o) s = execRed o s := rfl
@[simp] theorem exec_ldr o : exec (.ldr o) s = execLdr o s := rfl
@[simp] theorem exec_str o : exec (.str o) s = execStr o s := rfl
@[simp] theorem exec_redr o : exec (.redr o) s = execRedr o s := rfl
@[simp] theorem exec_pref o : exec (.pref o) s = execPref o s := rfl
@[simp] theorem exec_fence o : exec (.fence o) s = execFence o s := rfl
@[simp] theorem exec_fencex o : exec (.fencex o) s = execFencex o s := rfl
@[simp] theorem exec_l1inv o : exec (.l1inv o) s = execL1inv o s := rfl
@[simp] theorem exec_l1wb o : exec (.l1wb o) s = execL1wb o s := rfl
@[simp] theorem exec_sld o : exec (.sld o) s = execSld o s := rfl
@[simp] theorem exec_sst o : exec (.sst o) s = execSst o s := rfl
@[simp] theorem exec_satom o : exec (.satom o) s = execSatom o s := rfl
@[simp] theorem exec_cpy o : exec (.cpy o) s = execCpy o s := rfl
@[simp] theorem exec_cpys o : exec (.cpys o) s = execCpys o s := rfl
@[simp] theorem exec_cpyg o : exec (.cpyg o) s = execCpyg o s := rfl
@[simp] theorem exec_cpygat o : exec (.cpygat o) s = execCpygat o s := rfl
@[simp] theorem exec_cpyq o : exec (.cpyq o) s = execCpyq o s := rfl
@[simp] theorem exec_tagst o : exec (.tagst o) s = execTagst o s := rfl
@[simp] theorem exec_tagld o : exec (.tagld o) s = execTagld o s := rfl
@[simp] theorem exec_tagset o : exec (.tagset o) s = execTagset o s := rfl
@[simp] theorem exec_watch o : exec (.watch o) s = execWatch o s := rfl
@[simp] theorem exec_unwatch o : exec (.unwatch o) s = execUnwatch o s := rfl
@[simp] theorem exec_watchq o : exec (.watchq o) s = execWatchq o s := rfl
@[simp] theorem exec_emit o : exec (.emit o) s = execEmit o s := rfl
@[simp] theorem exec_emitn o : exec (.emitn o) s = execEmitn o s := rfl
@[simp] theorem exec_emitq o : exec (.emitq o) s = execEmitq o s := rfl
@[simp] theorem exec_fsopen o : exec (.fsopen o) s = execFsopen o s := rfl
@[simp] theorem exec_fsclose o : exec (.fsclose o) s = execFsclose o s := rfl
@[simp] theorem exec_fswait o : exec (.fswait o) s = execFswait o s := rfl
@[simp] theorem exec_fsjoin o : exec (.fsjoin o) s = execFsjoin o s := rfl
@[simp] theorem exec_fsstat o : exec (.fsstat o) s = execFsstat o s := rfl
@[simp] theorem exec_sigdec o : exec (.sigdec o) s = execSigdec o s := rfl
@[simp] theorem exec_sigadd o : exec (.sigadd o) s = execSigadd o s := rfl
@[simp] theorem exec_sigwait o : exec (.sigwait o) s = execSigwait o s := rfl
@[simp] theorem exec_csend o : exec (.csend o) s = execCsend o s := rfl
@[simp] theorem exec_crecv o : exec (.crecv o) s = execCrecv o s := rfl
@[simp] theorem exec_crrs o : exec (.crrs o) s = execCrrs o s := rfl
@[simp] theorem exec_ccopy o : exec (.ccopy o) s = execCcopy o s := rfl
@[simp] theorem exec_cwait o : exec (.cwait o) s = execCwait o s := rfl
@[simp] theorem exec_cpeer o : exec (.cpeer o) s = execCpeer o s := rfl
@[simp] theorem exec_cbar o : exec (.cbar o) s = execCbar o s := rfl
@[simp] theorem exec_cdone o : exec (.cdone o) s = execCdone o s := rfl
@[simp] theorem exec_crank o : exec (.crank o) s = execCrank o s := rfl
@[simp] theorem exec_evt o : exec (.evt o) s = execEvt o s := rfl
@[simp] theorem exec_clkr o : exec (.clkr o) s = execClkr o s := rfl
@[simp] theorem exec_causer o : exec (.causer o) s = execCauser o s := rfl
@[simp] theorem exec_rng o : exec (.rng o) s = execRng o s := rfl
@[simp] theorem exec_evtp o : exec (.evtp o) s = execEvtp o s := rfl
@[simp] theorem exec_sysr o : exec (.sysr o) s = execSysr o s := rfl
@[simp] theorem exec_sysw o : exec (.sysw o) s = execSysw o s := rfl
@[simp] theorem exec_icinv o : exec (.icinv o) s = execIcinv o s := rfl
@[simp] theorem exec_dbgh o : exec (.dbgh o) s = execDbgh o s := rfl
@[simp] theorem exec_pwrq o : exec (.pwrq o) s = execPwrq o s := rfl
@[simp] theorem exec_illegalOpcode w : exec (.illegalOpcode w) s = execIllegalOpcode w s := rfl
@[simp] theorem exec_regReload k v : exec (.regReload k v) s = execRegReload k v s := rfl
@[simp] theorem exec_siblingHalt k : exec (.siblingHalt k) s = execSiblingHalt k s := rfl
@[simp] theorem exec_faultRecordDrain ctx : exec (.faultRecordDrain ctx) s = execFaultRecordDrain ctx s := rfl
@[simp] theorem exec_teamHaltComplete k : exec (.teamHaltComplete k) s = execTeamHaltComplete k s := rfl
@[simp] theorem exec_lateFault id : exec (.lateFault id) s = execLateFault id s := rfl
@[simp] theorem exec_teamAdmit id : exec (.teamAdmit id) s = execTeamAdmit id s := rfl
@[simp] theorem exec_drainExpiry k : exec (.drainExpiry k) s = execDrainExpiry k s := rfl
@[simp] theorem exec_teamSave k : exec (.teamSave k) s = execTeamSave k s := rfl
@[simp] theorem exec_quarantineWrite k : exec (.quarantineWrite k) s = execQuarantineWrite k s := rfl
@[simp] theorem exec_teamRestore k : exec (.teamRestore k) s = execTeamRestore k s := rfl
@[simp] theorem exec_teamStart k : exec (.teamStart k) s = execTeamStart k s := rfl
@[simp] theorem exec_requestComplete id : exec (.requestComplete id) s = execRequestComplete id s := rfl
@[simp] theorem exec_tagProbeVerdict id : exec (.tagProbeVerdict id) s = execTagProbeVerdict id s := rfl
@[simp] theorem exec_pageWalk id : exec (.pageWalk id) s = execPageWalk id s := rfl
@[simp] theorem exec_hubStageReport core p : exec (.hubStageReport core p) s = execHubStageReport core p s := rfl
@[simp] theorem exec_faultWindowClose p : exec (.faultWindowClose p) s = execFaultWindowClose p s := rfl
@[simp] theorem exec_replayPage p : exec (.replayPage p) s = execReplayPage p s := rfl
@[simp] theorem exec_replayAll ctx : exec (.replayAll ctx) s = execReplayAll ctx s := rfl
@[simp] theorem exec_replayWalkResult p : exec (.replayWalkResult p) s = execReplayWalkResult p s := rfl
@[simp] theorem exec_rd q : exec (.rd q) s = execRd q s := rfl
@[simp] theorem exec_wr q : exec (.wr q) s = execWr q s := rfl
@[simp] theorem exec_mwr q : exec (.mwr q) s = execMwr q s := rfl
@[simp] theorem exec_rdata q tag : exec (.rdata q tag) s = execRdata q tag s := rfl
@[simp] theorem exec_wack q tag : exec (.wack q tag) s = execWack q tag s := rfl
@[simp] theorem exec_parityUpdate core group : exec (.parityUpdate core group) s = execParityUpdate core group s := rfl
@[simp] theorem exec_bankRetire core bank : exec (.bankRetire core bank) s = execBankRetire core bank s := rfl
@[simp] theorem exec_poolCompactorMove k : exec (.poolCompactorMove k) s = execPoolCompactorMove k s := rfl
@[simp] theorem exec_mmaStart core arr : exec (.mmaStart core arr) s = execMmaStart core arr s := rfl
@[simp] theorem exec_mmaComplete core arr : exec (.mmaComplete core arr) s = execMmaComplete core arr s := rfl
@[simp] theorem exec_mxOpComplete core id : exec (.mxOpComplete core id) s = execMxOpComplete core id s := rfl
@[simp] theorem exec_batonHandoff k : exec (.batonHandoff k) s = execBatonHandoff k s := rfl
@[simp] theorem exec_barrierWake k : exec (.barrierWake k) s = execBarrierWake k s := rfl
@[simp] theorem exec_sleepExpiry k : exec (.sleepExpiry k) s = execSleepExpiry k s := rfl
@[simp] theorem exec_sigwaitReread k : exec (.sigwaitReread k) s = execSigwaitReread k s := rfl
@[simp] theorem exec_scopeReply k : exec (.scopeReply k) s = execScopeReply k s := rfl
@[simp] theorem exec_emitRecordArrival k : exec (.emitRecordArrival k) s = execEmitRecordArrival k s := rfl
@[simp] theorem exec_gatherTimeout ctx firing node : exec (.gatherTimeout ctx firing node) s = execGatherTimeout ctx firing node s := rfl
@[simp] theorem exec_copyCommandStart core ch : exec (.copyCommandStart core ch) s = execCopyCommandStart core ch s := rfl
@[simp] theorem exec_copyDataReturn core ch : exec (.copyDataReturn core ch) s = execCopyDataReturn core ch s := rfl
@[simp] theorem exec_copyCommandComplete core ch : exec (.copyCommandComplete core ch) s = execCopyCommandComplete core ch s := rfl
@[simp] theorem exec_remoteAccessServe r : exec (.remoteAccessServe r) s = execRemoteAccessServe r s := rfl
@[simp] theorem exec_qnotify q v : exec (.qnotify q v) s = execQnotify q v s := rfl
@[simp] theorem exec_notifyWordRead q : exec (.notifyWordRead q) s = execNotifyWordRead q s := rfl
@[simp] theorem exec_qctlWrite q v : exec (.qctlWrite q v) s = execQctlWrite q v s := rfl
@[simp] theorem exec_qstatErrClear q : exec (.qstatErrClear q) s = execQstatErrClear q s := rfl
@[simp] theorem exec_launchPacket q : exec (.launchPacket q) s = execLaunchPacket q s := rfl
@[simp] theorem exec_graphPacket q : exec (.graphPacket q) s = execGraphPacket q s := rfl
@[simp] theorem exec_waitPacket q : exec (.waitPacket q) s = execWaitPacket q s := rfl
@[simp] theorem exec_signalPacket q : exec (.signalPacket q) s = execSignalPacket q s := rfl
@[simp] theorem exec_castPacket q : exec (.castPacket q) s = execCastPacket q s := rfl
@[simp] theorem exec_badKind q : exec (.badKind q) s = execBadKind q s := rfl
@[simp] theorem exec_waitPacketSatisfied id : exec (.waitPacketSatisfied id) s = execWaitPacketSatisfied id s := rfl
@[simp] theorem exec_collectiveStart id : exec (.collectiveStart id) s = execCollectiveStart id s := rfl
@[simp] theorem exec_relaySendRequest m : exec (.relaySendRequest m) s = execRelaySendRequest m s := rfl
@[simp] theorem exec_relayPayload m data : exec (.relayPayload m data) s = execRelayPayload m data s := rfl
@[simp] theorem exec_relayAck m : exec (.relayAck m) s = execRelayAck m s := rfl
@[simp] theorem exec_relayOpComplete id : exec (.relayOpComplete id) s = execRelayOpComplete id s := rfl
@[simp] theorem exec_cbarArrival tag rank chan : exec (.cbarArrival tag rank chan) s = execCbarArrival tag rank chan s := rfl
@[simp] theorem exec_collWatchdog tag : exec (.collWatchdog tag) s = execCollWatchdog tag s := rfl
@[simp] theorem exec_ralbexFlit port intact m : exec (.ralbexFlit port intact m) s = execRalbexFlit port intact m s := rfl
@[simp] theorem exec_linkRetrain port : exec (.linkRetrain port) s = execLinkRetrain port s := rfl
@[simp] theorem exec_contextControlWrite ctx v : exec (.contextControlWrite ctx v) s = execContextControlWrite ctx v s := rfl
@[simp] theorem exec_coreSetWrite ctx j v : exec (.coreSetWrite ctx j v) s = execCoreSetWrite ctx j v s := rfl
@[simp] theorem exec_ctxReset ctx : exec (.ctxReset ctx) s = execCtxReset ctx s := rfl
@[simp] theorem exec_contextResetComplete ctx : exec (.contextResetComplete ctx) s = execContextResetComplete ctx s := rfl
@[simp] theorem exec_fqctlWrite ctx v : exec (.fqctlWrite ctx v) s = execFqctlWrite ctx v s := rfl
@[simp] theorem exec_fqreadWrite ctx v : exec (.fqreadWrite ctx v) s = execFqreadWrite ctx v s := rfl
@[simp] theorem exec_dbgHalt k : exec (.dbgHalt k) s = execDbgHalt k s := rfl
@[simp] theorem exec_dbgResume k : exec (.dbgResume k) s = execDbgResume k s := rfl
@[simp] theorem exec_dbgStep k w : exec (.dbgStep k w) s = execDbgStep k w s := rfl
@[simp] theorem exec_dbgSnap k : exec (.dbgSnap k) s = execDbgSnap k s := rfl
@[simp] theorem exec_dbgLoad k : exec (.dbgLoad k) s = execDbgLoad k s := rfl
@[simp] theorem exec_dbgDiscard k : exec (.dbgDiscard k) s = execDbgDiscard k s := rfl
@[simp] theorem exec_dbgcmdUndefinedOp ctx v : exec (.dbgcmdUndefinedOp ctx v) s = execDbgcmdUndefinedOp ctx v s := rfl
@[simp] theorem exec_dbgctlWrite ctx attach : exec (.dbgctlWrite ctx attach) s = execDbgctlWrite ctx attach s := rfl
@[simp] theorem exec_translationDrop v : exec (.translationDrop v) s = execTranslationDrop v s := rfl
@[simp] theorem exec_translationWritebackInvalidate v : exec (.translationWritebackInvalidate v) s = execTranslationWritebackInvalidate v s := rfl
@[simp] theorem exec_translationOpReserved v : exec (.translationOpReserved v) s = execTranslationOpReserved v s := rfl
@[simp] theorem exec_translationCommandComplete : exec .translationCommandComplete s = execTranslationCommandComplete s := rfl
@[simp] theorem exec_rangeRegisterCommit ctx k v : exec (.rangeRegisterCommit ctx k v) s = execRangeRegisterCommit ctx k v s := rfl
@[simp] theorem exec_functionBindingWrite j v : exec (.functionBindingWrite j v) s = execFunctionBindingWrite j v s := rfl
@[simp] theorem exec_relayPartitionWrite v : exec (.relayPartitionWrite v) s = execRelayPartitionWrite v s := rfl
@[simp] theorem exec_relayPartitionApply : exec .relayPartitionApply s = execRelayPartitionApply s := rfl
@[simp] theorem exec_collectiveCancel tag : exec (.collectiveCancel tag) s = execCollectiveCancel tag s := rfl
@[simp] theorem exec_riskSample margin : exec (.riskSample margin) s = execRiskSample margin s := rfl
@[simp] theorem exec_firmwareLiveUpdate : exec .firmwareLiveUpdate s = execFirmwareLiveUpdate s := rfl
@[simp] theorem exec_firmwareSlotSelect : exec .firmwareSlotSelect s = execFirmwareSlotSelect s := rfl
@[simp] theorem exec_firmwareCmdIgnored op : exec (.firmwareCmdIgnored op) s = execFirmwareCmdIgnored op s := rfl
@[simp] theorem exec_firmwareVerifyComplete v : exec (.firmwareVerifyComplete v) s = execFirmwareVerifyComplete v s := rfl
@[simp] theorem exec_firstHeartbeat : exec .firstHeartbeat s = execFirstHeartbeat s := rfl
@[simp] theorem exec_heartbeatTimeout : exec .heartbeatTimeout s = execHeartbeatTimeout s := rfl
@[simp] theorem exec_throttle r : exec (.throttle r) s = execThrottle r s := rfl
@[simp] theorem exec_thermalReset temp : exec (.thermalReset temp) s = execThermalReset temp s := rfl
@[simp] theorem exec_l2Mode hub millivolts : exec (.l2Mode hub millivolts) s = execL2Mode hub millivolts s := rfl
@[simp] theorem exec_l2ModeChangeComplete hub : exec (.l2ModeChangeComplete hub) s = execL2ModeChangeComplete hub s := rfl
@[simp] theorem exec_scrub pa e : exec (.scrub pa e) s = execScrub pa e s := rfl
@[simp] theorem exec_timeSync point offset unc : exec (.timeSync point offset unc) s = execTimeSync point offset unc s := rfl
@[simp] theorem exec_steleRecordWrite emitter : exec (.steleRecordWrite emitter) s = execSteleRecordWrite emitter s := rfl
@[simp] theorem exec_steleErase : exec .steleErase s = execSteleErase s := rfl
@[simp] theorem exec_steleEraseComplete : exec .steleEraseComplete s = execSteleEraseComplete s := rfl
@[simp] theorem exec_deviceReset cause : exec (.deviceReset cause) s = execDeviceReset cause s := rfl
@[simp] theorem exec_powerOn : exec .powerOn s = execPowerOn s := rfl
@[simp] theorem exec_powerLoss : exec .powerLoss s = execPowerLoss s := rfl
@[simp] theorem exec_hostWindowBAccess a : exec (.hostWindowBAccess a) s = execHostWindowBAccess a s := rfl
@[simp] theorem exec_registerWrite fn off v : exec (.registerWrite fn off v) s = execRegisterWrite fn off v s := rfl
@[simp] theorem exec_getVersion : exec .getVersion s = execGetVersion s := rfl
@[simp] theorem exec_getCapabilities : exec .getCapabilities s = execGetCapabilities s := rfl
@[simp] theorem exec_negotiateAlgorithms offer : exec (.negotiateAlgorithms offer) s = execNegotiateAlgorithms offer s := rfl
@[simp] theorem exec_getDigests : exec .getDigests s = execGetDigests s := rfl
@[simp] theorem exec_getCertificate offset len : exec (.getCertificate offset len) s = execGetCertificate offset len s := rfl
@[simp] theorem exec_challenge nonce : exec (.challenge nonce) s = execChallenge nonce s := rfl
@[simp] theorem exec_getMeasurements index sign nonce : exec (.getMeasurements index sign nonce) s = execGetMeasurements index sign nonce s := rfl
@[simp] theorem exec_keyExchange session exchange : exec (.keyExchange session exchange) s = execKeyExchange session exchange s := rfl
@[simp] theorem exec_spdmFinish session verify : exec (.spdmFinish session verify) s = execSpdmFinish session verify s := rfl
@[simp] theorem exec_endSession session : exec (.endSession session) s = execEndSession session s := rfl
@[simp] theorem exec_writeBackAcknowledge core id : exec (.writeBackAcknowledge core id) s = execWriteBackAcknowledge core id s := rfl
@[simp] theorem exec_scratchpadAccessComplete core : exec (.scratchpadAccessComplete core) s = execScratchpadAccessComplete core s := rfl
@[simp] theorem exec_icinvAcknowledge k : exec (.icinvAcknowledge k) s = execIcinvAcknowledge k s := rfl
@[simp] theorem exec_rendezvousCredit m : exec (.rendezvousCredit m) s = execRendezvousCredit m s := rfl
@[simp] theorem exec_stampingPointLockLoss point : exec (.stampingPointLockLoss point) s = execStampingPointLockLoss point s := rfl
@[simp] theorem exec_sequentialFetchPastCode : exec .sequentialFetchPastCode s = execSequentialFetchPastCode s := rfl

end Sys2Proof.Machine
end

