-- ==== Sys2Proof/Laws/Gate.lean ====
section
/-!
SUPPORT. What the shared frame of every Xothes instruction does: the checks let a ready instruction
execute, and running one is its effect followed by the common move.
-/

namespace Sys2Proof.Machine

/-- The checks before a ready instruction pass. -/
theorem gate_ready {i : Instr} {g : Sig} {e : Env} (h : Ready i g e) : gate i g e.s e.k e.t e.w = .run e.s e.m := by
  obtain ⟨_, _, _, _, hrelay, h4, hfits, h5, hw, hm, hfull, hidx, hpend, hsp, hres, hserved, hpo, hspo, _⟩ := h
  have hcheck : g.check e.t = none := by
    have hr : (g.relay && e.t.relay.isNone) = false := by
      cases hr : g.relay
      · rfl
      · have := hrelay hr
        cases ht : e.t.relay <;> simp_all
    have hw' : (g.w32 && e.t.kernel.width != 32) = false := by
      cases hw' : g.w32
      · rfl
      · simp [hw hw']
    simp [Sig.check, h4, h5, hfits, hr, hw']
  have hfull' : (g.full && e.w.mask &&& fullMask e.t.kernel.width != fullMask e.t.kernel.width) = false := by
    cases hf : g.full
    · simp
    · have := hfull hf
      simp only [Env.width] at this
      simp [this]
  have hidx' : (if g.indexed && !i.neverFaults then
      e.w.indexFault e.t.kernel.n (i.fields ++ g.reads.map (·.1)) (maskLanes e.t.kernel.width e.m) else none) = none := by
    cases hg : g.indexed && !i.neverFaults
    · simp
    · simpa [Env.lanes, Env.width] using hidx hg
  have hall : (if i.crossLane then List.range e.t.kernel.width else maskLanes e.t.kernel.width e.m) = e.seen i := rfl
  have hany : ((e.w.named (g.reads ++ g.dest) (e.seen i)).any fun n => (e.w.vreg n).pend) = false := by
    rw [List.any_eq_false]; intro n hn; simp [hpend n hn]
  have hspill : (e.w.direct (g.reads ++ keptRegs g i e.t.kernel.width e.w e.m)).filter (fun n => (e.w.vreg n).spilled) ++
      (e.w.indexed g.reads (e.seen i)).filter
        (fun n => (e.w.vreg n).spilled && !e.w.served.contains n) = [] := by
    rw [List.append_eq_nil_iff, List.filter_eq_nil_iff, List.filter_eq_nil_iff]
    refine ⟨fun n hn => by simp [hres n hn], fun n hn => ?_⟩
    rcases hserved n hn with h | h <;> simp [h]
  unfold gate
  simp only [hcheck, hm]
  rw [if_neg (by simp [hfull'])]
  simp only [hidx', hall, hany, hsp, Bool.or_self, hspill]
  have hpo' : (if i.neverFaults then none else e.w.consumed i g (if i.activeOnly then
      (maskLanes e.t.kernel.width e.m).filter e.w.mask.has else maskLanes e.t.kernel.width e.m)) = none := by
    cases hn : i.neverFaults
    · simpa [Env.lanes, Env.width] using hpo hn
    · rfl
  have hspo' : (e.w.consumedScalar i && !i.neverFaults) = false := by
    cases hn : i.neverFaults
    · simp [hspo hn]
    · simp
  simp [hpo', hspo']

/-- Verified issue leaves an act as it is where no error shows. -/
theorem verified_of_agreement {e : Env} {i : Instr} (h : ∀ f, e.s.verify e i f = .none) (g : Sig)
    (move : State → WKey → State) (a : Act) :
    e.verified i g move a = (match a with
      | .next t => ((move t e.k).endWait e.k).issued e.k
      | .enter t => t.issued e.k
      | .trap x ia => e.s.trapped e.k x ia
      | .trapAfter t x ia => if e.s.fqRoom e.k.ctx then t.trapped e.k x ia else e.s
      | .wait t => t) := by
  cases a with
  | trap x ia =>
    unfold Env.verified Act.close State.trapped
    by_cases hr : e.s.fqRoom e.k.ctx = true <;> simp [hr, h]
  | trapAfter t x ia =>
    unfold Env.verified Act.close
    by_cases hr : e.s.fqRoom e.k.ctx = true <;> simp [hr, h]
  | _ => simp [Env.verified, Act.close, h]

/-- Running a ready instruction: its effect, then the move. -/
theorem runWith_ready {move : State → WKey → State} {i : Instr} {g : Sig} {e : Env} (h : Ready i g e) (f : Env → Act) :
    runWith move i e.s f =
      (match f e with
      | .next t => .next (((move t e.k).endWait e.k).issued e.k)
      | .enter t => .next (t.issued e.k)
      | .trap x ia => .next (e.s.trapped e.k x ia)
      | .trapAfter t x ia => .next (if e.s.fqRoom e.k.ctx then t.trapped e.k x ia else e.s)
      | .wait t => .next t) := by
  unfold runWith
  simp only [h.cur, h.sig, h.team, h.warp, gate_ready h, verified_of_agreement h.strike]
  cases f e <;> rfl

theorem runSeq_next {i : Instr} {g : Sig} {e : Env} (h : Ready i g e) {f : Env → Act} {t : State}
    (hf : f e = .next t) : runSeq i e.s f = .next (e.after t) := by
  rw [runSeq, runWith_ready h, hf]; rfl

theorem runRaw_next {i : Instr} {g : Sig} {e : Env} (h : Ready i g e) {f : Env → Act} {t : State}
    (hf : f e = .next t) : runRaw i e.s f = .next (e.afterRaw t) := by
  rw [runRaw, runWith_ready h, hf]; rfl

theorem runSeq_enter {i : Instr} {g : Sig} {e : Env} (h : Ready i g e) {f : Env → Act} {t : State}
    (hf : f e = .enter t) : runSeq i e.s f = .next (t.issued e.k) := by
  rw [runSeq, runWith_ready h, hf]

theorem runRaw_enter {i : Instr} {g : Sig} {e : Env} (h : Ready i g e) {f : Env → Act} {t : State}
    (hf : f e = .enter t) : runRaw i e.s f = .next (t.issued e.k) := by
  rw [runRaw, runWith_ready h, hf]

theorem runSeq_wait {i : Instr} {g : Sig} {e : Env} (h : Ready i g e) {f : Env → Act} {t : State}
    (hf : f e = .wait t) : runSeq i e.s f = .next t := by
  rw [runSeq, runWith_ready h, hf]

theorem runRaw_wait {i : Instr} {g : Sig} {e : Env} (h : Ready i g e) {f : Env → Act} {t : State}
    (hf : f e = .wait t) : runRaw i e.s f = .next t := by
  rw [runRaw, runWith_ready h, hf]

theorem runSeq_trap {i : Instr} {g : Sig} {e : Env} (h : Ready i g e) {f : Env → Act} {x : FaultInfo} {ia : Option Nat}
    (hf : f e = .trap x ia) : runSeq i e.s f = .next (e.s.trapped e.k x ia) := by
  rw [runSeq, runWith_ready h, hf]

theorem runRaw_trap {i : Instr} {g : Sig} {e : Env} (h : Ready i g e) {f : Env → Act} {x : FaultInfo} {ia : Option Nat}
    (hf : f e = .trap x ia) : runRaw i e.s f = .next (e.s.trapped e.k x ia) := by
  rw [runRaw, runWith_ready h, hf]

end Sys2Proof.Machine
end

