-- ==== Sys2Proof/Laws/State.lean ====
section
/-!
SUPPORT. What each update of the state changes: one lemma per field and update, the value read back where
it was written, and every other entry as it was.
-/

namespace Sys2Proof.Machine

variable (s : State)


/-! ## `modTeam` -/

@[simp] theorem State.modTeam_tick k f : (s.modTeam k f).tick = s.tick := rfl
@[simp] theorem State.modTeam_clock k f : (s.modTeam k f).clock = s.clock := rfl
@[simp] theorem State.modTeam_draws k f : (s.modTeam k f).draws = s.draws := rfl
@[simp] theorem State.modTeam_nextId k f : (s.modTeam k f).nextId = s.nextId := rfl
@[simp] theorem State.modTeam_cur k f : (s.modTeam k f).cur = s.cur := rfl
@[simp] theorem State.modTeam_inputs k f : (s.modTeam k f).inputs = s.inputs := rfl
@[simp] theorem State.modTeam_upsets k f : (s.modTeam k f).upsets = s.upsets := rfl
@[simp] theorem State.modTeam_outputs k f : (s.modTeam k f).outputs = s.outputs := rfl
@[simp] theorem State.modTeam_mem k f : (s.modTeam k f).mem = s.mem := rfl
@[simp] theorem State.modTeam_tags k f : (s.modTeam k f).tags = s.tags := rfl
@[simp] theorem State.modTeam_poisoned k f : (s.modTeam k f).poisoned = s.poisoned := rfl
@[simp] theorem State.modTeam_l2 k f : (s.modTeam k f).l2 = s.l2 := rfl
@[simp] theorem State.modTeam_codeOld k f : (s.modTeam k f).codeOld = s.codeOld := rfl
@[simp] theorem State.modTeam_tlb k f : (s.modTeam k f).tlb = s.tlb := rfl
@[simp] theorem State.modTeam_streams k f : (s.modTeam k f).streams = s.streams := rfl
@[simp] theorem State.modTeam_cores k f : (s.modTeam k f).cores = s.cores := rfl
@[simp] theorem State.modTeam_hubs k f : (s.modTeam k f).hubs = s.hubs := rfl
@[simp] theorem State.modTeam_emitters k f : (s.modTeam k f).emitters = s.emitters := rfl
@[simp] theorem State.modTeam_ctxs k f : (s.modTeam k f).ctxs = s.ctxs := rfl
@[simp] theorem State.modTeam_launches k f : (s.modTeam k f).launches = s.launches := rfl
@[simp] theorem State.modTeam_packets k f : (s.modTeam k f).packets = s.packets := rfl
@[simp] theorem State.modTeam_ops k f : (s.modTeam k f).ops = s.ops := rfl
@[simp] theorem State.modTeam_pageFaults k f : (s.modTeam k f).pageFaults = s.pageFaults := rfl
@[simp] theorem State.modTeam_lateFaults k f : (s.modTeam k f).lateFaults = s.lateFaults := rfl
@[simp] theorem State.modTeam_quarantine k f : (s.modTeam k f).quarantine = s.quarantine := rfl
@[simp] theorem State.modTeam_collectives k f : (s.modTeam k f).collectives = s.collectives := rfl
@[simp] theorem State.modTeam_relayOps k f : (s.modTeam k f).relayOps = s.relayOps := rfl
@[simp] theorem State.modTeam_relayWaiting k f : (s.modTeam k f).relayWaiting = s.relayWaiting := rfl
@[simp] theorem State.modTeam_savedOps k f : (s.modTeam k f).savedOps = s.savedOps := rfl
@[simp] theorem State.modTeam_savedCopies k f : (s.modTeam k f).savedCopies = s.savedCopies := rfl
@[simp] theorem State.modTeam_causes k f : (s.modTeam k f).causes = s.causes := rfl
@[simp] theorem State.modTeam_lastServed k f : (s.modTeam k f).lastServed = s.lastServed := rfl
@[simp] theorem State.modTeam_mgmt k f : (s.modTeam k f).mgmt = s.mgmt := rfl

/-! ## `modWarp` -/

@[simp] theorem State.modWarp_tick k f : (s.modWarp k f).tick = s.tick := rfl
@[simp] theorem State.modWarp_clock k f : (s.modWarp k f).clock = s.clock := rfl
@[simp] theorem State.modWarp_draws k f : (s.modWarp k f).draws = s.draws := rfl
@[simp] theorem State.modWarp_nextId k f : (s.modWarp k f).nextId = s.nextId := rfl
@[simp] theorem State.modWarp_cur k f : (s.modWarp k f).cur = s.cur := rfl
@[simp] theorem State.modWarp_inputs k f : (s.modWarp k f).inputs = s.inputs := rfl
@[simp] theorem State.modWarp_upsets k f : (s.modWarp k f).upsets = s.upsets := rfl
@[simp] theorem State.modWarp_outputs k f : (s.modWarp k f).outputs = s.outputs := rfl
@[simp] theorem State.modWarp_mem k f : (s.modWarp k f).mem = s.mem := rfl
@[simp] theorem State.modWarp_tags k f : (s.modWarp k f).tags = s.tags := rfl
@[simp] theorem State.modWarp_poisoned k f : (s.modWarp k f).poisoned = s.poisoned := rfl
@[simp] theorem State.modWarp_l2 k f : (s.modWarp k f).l2 = s.l2 := rfl
@[simp] theorem State.modWarp_codeOld k f : (s.modWarp k f).codeOld = s.codeOld := rfl
@[simp] theorem State.modWarp_tlb k f : (s.modWarp k f).tlb = s.tlb := rfl
@[simp] theorem State.modWarp_streams k f : (s.modWarp k f).streams = s.streams := rfl
@[simp] theorem State.modWarp_cores k f : (s.modWarp k f).cores = s.cores := rfl
@[simp] theorem State.modWarp_hubs k f : (s.modWarp k f).hubs = s.hubs := rfl
@[simp] theorem State.modWarp_emitters k f : (s.modWarp k f).emitters = s.emitters := rfl
@[simp] theorem State.modWarp_ctxs k f : (s.modWarp k f).ctxs = s.ctxs := rfl
@[simp] theorem State.modWarp_launches k f : (s.modWarp k f).launches = s.launches := rfl
@[simp] theorem State.modWarp_packets k f : (s.modWarp k f).packets = s.packets := rfl
@[simp] theorem State.modWarp_ops k f : (s.modWarp k f).ops = s.ops := rfl
@[simp] theorem State.modWarp_pageFaults k f : (s.modWarp k f).pageFaults = s.pageFaults := rfl
@[simp] theorem State.modWarp_lateFaults k f : (s.modWarp k f).lateFaults = s.lateFaults := rfl
@[simp] theorem State.modWarp_quarantine k f : (s.modWarp k f).quarantine = s.quarantine := rfl
@[simp] theorem State.modWarp_collectives k f : (s.modWarp k f).collectives = s.collectives := rfl
@[simp] theorem State.modWarp_relayOps k f : (s.modWarp k f).relayOps = s.relayOps := rfl
@[simp] theorem State.modWarp_relayWaiting k f : (s.modWarp k f).relayWaiting = s.relayWaiting := rfl
@[simp] theorem State.modWarp_savedOps k f : (s.modWarp k f).savedOps = s.savedOps := rfl
@[simp] theorem State.modWarp_savedCopies k f : (s.modWarp k f).savedCopies = s.savedCopies := rfl
@[simp] theorem State.modWarp_causes k f : (s.modWarp k f).causes = s.causes := rfl
@[simp] theorem State.modWarp_lastServed k f : (s.modWarp k f).lastServed = s.lastServed := rfl
@[simp] theorem State.modWarp_mgmt k f : (s.modWarp k f).mgmt = s.mgmt := rfl

/-! ## `modCore` -/

@[simp] theorem State.modCore_tick c f : (s.modCore c f).tick = s.tick := rfl
@[simp] theorem State.modCore_clock c f : (s.modCore c f).clock = s.clock := rfl
@[simp] theorem State.modCore_draws c f : (s.modCore c f).draws = s.draws := rfl
@[simp] theorem State.modCore_nextId c f : (s.modCore c f).nextId = s.nextId := rfl
@[simp] theorem State.modCore_cur c f : (s.modCore c f).cur = s.cur := rfl
@[simp] theorem State.modCore_inputs c f : (s.modCore c f).inputs = s.inputs := rfl
@[simp] theorem State.modCore_upsets c f : (s.modCore c f).upsets = s.upsets := rfl
@[simp] theorem State.modCore_outputs c f : (s.modCore c f).outputs = s.outputs := rfl
@[simp] theorem State.modCore_mem c f : (s.modCore c f).mem = s.mem := rfl
@[simp] theorem State.modCore_tags c f : (s.modCore c f).tags = s.tags := rfl
@[simp] theorem State.modCore_poisoned c f : (s.modCore c f).poisoned = s.poisoned := rfl
@[simp] theorem State.modCore_l2 c f : (s.modCore c f).l2 = s.l2 := rfl
@[simp] theorem State.modCore_codeOld c f : (s.modCore c f).codeOld = s.codeOld := rfl
@[simp] theorem State.modCore_tlb c f : (s.modCore c f).tlb = s.tlb := rfl
@[simp] theorem State.modCore_streams c f : (s.modCore c f).streams = s.streams := rfl
@[simp] theorem State.modCore_hubs c f : (s.modCore c f).hubs = s.hubs := rfl
@[simp] theorem State.modCore_emitters c f : (s.modCore c f).emitters = s.emitters := rfl
@[simp] theorem State.modCore_ctxs c f : (s.modCore c f).ctxs = s.ctxs := rfl
@[simp] theorem State.modCore_teams c f : (s.modCore c f).teams = s.teams := rfl
@[simp] theorem State.modCore_launches c f : (s.modCore c f).launches = s.launches := rfl
@[simp] theorem State.modCore_packets c f : (s.modCore c f).packets = s.packets := rfl
@[simp] theorem State.modCore_ops c f : (s.modCore c f).ops = s.ops := rfl
@[simp] theorem State.modCore_pageFaults c f : (s.modCore c f).pageFaults = s.pageFaults := rfl
@[simp] theorem State.modCore_lateFaults c f : (s.modCore c f).lateFaults = s.lateFaults := rfl
@[simp] theorem State.modCore_quarantine c f : (s.modCore c f).quarantine = s.quarantine := rfl
@[simp] theorem State.modCore_collectives c f : (s.modCore c f).collectives = s.collectives := rfl
@[simp] theorem State.modCore_relayOps c f : (s.modCore c f).relayOps = s.relayOps := rfl
@[simp] theorem State.modCore_relayWaiting c f : (s.modCore c f).relayWaiting = s.relayWaiting := rfl
@[simp] theorem State.modCore_savedOps c f : (s.modCore c f).savedOps = s.savedOps := rfl
@[simp] theorem State.modCore_savedCopies c f : (s.modCore c f).savedCopies = s.savedCopies := rfl
@[simp] theorem State.modCore_causes c f : (s.modCore c f).causes = s.causes := rfl
@[simp] theorem State.modCore_lastServed c f : (s.modCore c f).lastServed = s.lastServed := rfl
@[simp] theorem State.modCore_mgmt c f : (s.modCore c f).mgmt = s.mgmt := rfl

/-! ## `modHub` -/

@[simp] theorem State.modHub_tick h f : (s.modHub h f).tick = s.tick := rfl
@[simp] theorem State.modHub_clock h f : (s.modHub h f).clock = s.clock := rfl
@[simp] theorem State.modHub_draws h f : (s.modHub h f).draws = s.draws := rfl
@[simp] theorem State.modHub_nextId h f : (s.modHub h f).nextId = s.nextId := rfl
@[simp] theorem State.modHub_cur h f : (s.modHub h f).cur = s.cur := rfl
@[simp] theorem State.modHub_inputs h f : (s.modHub h f).inputs = s.inputs := rfl
@[simp] theorem State.modHub_upsets h f : (s.modHub h f).upsets = s.upsets := rfl
@[simp] theorem State.modHub_outputs h f : (s.modHub h f).outputs = s.outputs := rfl
@[simp] theorem State.modHub_mem h f : (s.modHub h f).mem = s.mem := rfl
@[simp] theorem State.modHub_tags h f : (s.modHub h f).tags = s.tags := rfl
@[simp] theorem State.modHub_poisoned h f : (s.modHub h f).poisoned = s.poisoned := rfl
@[simp] theorem State.modHub_l2 h f : (s.modHub h f).l2 = s.l2 := rfl
@[simp] theorem State.modHub_codeOld h f : (s.modHub h f).codeOld = s.codeOld := rfl
@[simp] theorem State.modHub_tlb h f : (s.modHub h f).tlb = s.tlb := rfl
@[simp] theorem State.modHub_streams h f : (s.modHub h f).streams = s.streams := rfl
@[simp] theorem State.modHub_cores h f : (s.modHub h f).cores = s.cores := rfl
@[simp] theorem State.modHub_emitters h f : (s.modHub h f).emitters = s.emitters := rfl
@[simp] theorem State.modHub_ctxs h f : (s.modHub h f).ctxs = s.ctxs := rfl
@[simp] theorem State.modHub_teams h f : (s.modHub h f).teams = s.teams := rfl
@[simp] theorem State.modHub_launches h f : (s.modHub h f).launches = s.launches := rfl
@[simp] theorem State.modHub_packets h f : (s.modHub h f).packets = s.packets := rfl
@[simp] theorem State.modHub_ops h f : (s.modHub h f).ops = s.ops := rfl
@[simp] theorem State.modHub_pageFaults h f : (s.modHub h f).pageFaults = s.pageFaults := rfl
@[simp] theorem State.modHub_lateFaults h f : (s.modHub h f).lateFaults = s.lateFaults := rfl
@[simp] theorem State.modHub_quarantine h f : (s.modHub h f).quarantine = s.quarantine := rfl
@[simp] theorem State.modHub_collectives h f : (s.modHub h f).collectives = s.collectives := rfl
@[simp] theorem State.modHub_relayOps h f : (s.modHub h f).relayOps = s.relayOps := rfl
@[simp] theorem State.modHub_relayWaiting h f : (s.modHub h f).relayWaiting = s.relayWaiting := rfl
@[simp] theorem State.modHub_savedOps h f : (s.modHub h f).savedOps = s.savedOps := rfl
@[simp] theorem State.modHub_savedCopies h f : (s.modHub h f).savedCopies = s.savedCopies := rfl
@[simp] theorem State.modHub_causes h f : (s.modHub h f).causes = s.causes := rfl
@[simp] theorem State.modHub_lastServed h f : (s.modHub h f).lastServed = s.lastServed := rfl
@[simp] theorem State.modHub_mgmt h f : (s.modHub h f).mgmt = s.mgmt := rfl

/-! ## `modCtx` -/

@[simp] theorem State.modCtx_tick n f : (s.modCtx n f).tick = s.tick := rfl
@[simp] theorem State.modCtx_clock n f : (s.modCtx n f).clock = s.clock := rfl
@[simp] theorem State.modCtx_draws n f : (s.modCtx n f).draws = s.draws := rfl
@[simp] theorem State.modCtx_nextId n f : (s.modCtx n f).nextId = s.nextId := rfl
@[simp] theorem State.modCtx_cur n f : (s.modCtx n f).cur = s.cur := rfl
@[simp] theorem State.modCtx_inputs n f : (s.modCtx n f).inputs = s.inputs := rfl
@[simp] theorem State.modCtx_upsets n f : (s.modCtx n f).upsets = s.upsets := rfl
@[simp] theorem State.modCtx_outputs n f : (s.modCtx n f).outputs = s.outputs := rfl
@[simp] theorem State.modCtx_mem n f : (s.modCtx n f).mem = s.mem := rfl
@[simp] theorem State.modCtx_tags n f : (s.modCtx n f).tags = s.tags := rfl
@[simp] theorem State.modCtx_poisoned n f : (s.modCtx n f).poisoned = s.poisoned := rfl
@[simp] theorem State.modCtx_l2 n f : (s.modCtx n f).l2 = s.l2 := rfl
@[simp] theorem State.modCtx_codeOld n f : (s.modCtx n f).codeOld = s.codeOld := rfl
@[simp] theorem State.modCtx_tlb n f : (s.modCtx n f).tlb = s.tlb := rfl
@[simp] theorem State.modCtx_streams n f : (s.modCtx n f).streams = s.streams := rfl
@[simp] theorem State.modCtx_cores n f : (s.modCtx n f).cores = s.cores := rfl
@[simp] theorem State.modCtx_hubs n f : (s.modCtx n f).hubs = s.hubs := rfl
@[simp] theorem State.modCtx_emitters n f : (s.modCtx n f).emitters = s.emitters := rfl
@[simp] theorem State.modCtx_teams n f : (s.modCtx n f).teams = s.teams := rfl
@[simp] theorem State.modCtx_launches n f : (s.modCtx n f).launches = s.launches := rfl
@[simp] theorem State.modCtx_packets n f : (s.modCtx n f).packets = s.packets := rfl
@[simp] theorem State.modCtx_ops n f : (s.modCtx n f).ops = s.ops := rfl
@[simp] theorem State.modCtx_pageFaults n f : (s.modCtx n f).pageFaults = s.pageFaults := rfl
@[simp] theorem State.modCtx_lateFaults n f : (s.modCtx n f).lateFaults = s.lateFaults := rfl
@[simp] theorem State.modCtx_quarantine n f : (s.modCtx n f).quarantine = s.quarantine := rfl
@[simp] theorem State.modCtx_collectives n f : (s.modCtx n f).collectives = s.collectives := rfl
@[simp] theorem State.modCtx_relayOps n f : (s.modCtx n f).relayOps = s.relayOps := rfl
@[simp] theorem State.modCtx_relayWaiting n f : (s.modCtx n f).relayWaiting = s.relayWaiting := rfl
@[simp] theorem State.modCtx_savedOps n f : (s.modCtx n f).savedOps = s.savedOps := rfl
@[simp] theorem State.modCtx_savedCopies n f : (s.modCtx n f).savedCopies = s.savedCopies := rfl
@[simp] theorem State.modCtx_causes n f : (s.modCtx n f).causes = s.causes := rfl
@[simp] theorem State.modCtx_lastServed n f : (s.modCtx n f).lastServed = s.lastServed := rfl
@[simp] theorem State.modCtx_mgmt n f : (s.modCtx n f).mgmt = s.mgmt := rfl

/-! ## `modEmitter` -/

@[simp] theorem State.modEmitter_tick n f : (s.modEmitter n f).tick = s.tick := rfl
@[simp] theorem State.modEmitter_clock n f : (s.modEmitter n f).clock = s.clock := rfl
@[simp] theorem State.modEmitter_draws n f : (s.modEmitter n f).draws = s.draws := rfl
@[simp] theorem State.modEmitter_nextId n f : (s.modEmitter n f).nextId = s.nextId := rfl
@[simp] theorem State.modEmitter_cur n f : (s.modEmitter n f).cur = s.cur := rfl
@[simp] theorem State.modEmitter_inputs n f : (s.modEmitter n f).inputs = s.inputs := rfl
@[simp] theorem State.modEmitter_upsets n f : (s.modEmitter n f).upsets = s.upsets := rfl
@[simp] theorem State.modEmitter_outputs n f : (s.modEmitter n f).outputs = s.outputs := rfl
@[simp] theorem State.modEmitter_mem n f : (s.modEmitter n f).mem = s.mem := rfl
@[simp] theorem State.modEmitter_tags n f : (s.modEmitter n f).tags = s.tags := rfl
@[simp] theorem State.modEmitter_poisoned n f : (s.modEmitter n f).poisoned = s.poisoned := rfl
@[simp] theorem State.modEmitter_l2 n f : (s.modEmitter n f).l2 = s.l2 := rfl
@[simp] theorem State.modEmitter_codeOld n f : (s.modEmitter n f).codeOld = s.codeOld := rfl
@[simp] theorem State.modEmitter_tlb n f : (s.modEmitter n f).tlb = s.tlb := rfl
@[simp] theorem State.modEmitter_streams n f : (s.modEmitter n f).streams = s.streams := rfl
@[simp] theorem State.modEmitter_cores n f : (s.modEmitter n f).cores = s.cores := rfl
@[simp] theorem State.modEmitter_hubs n f : (s.modEmitter n f).hubs = s.hubs := rfl
@[simp] theorem State.modEmitter_ctxs n f : (s.modEmitter n f).ctxs = s.ctxs := rfl
@[simp] theorem State.modEmitter_teams n f : (s.modEmitter n f).teams = s.teams := rfl
@[simp] theorem State.modEmitter_launches n f : (s.modEmitter n f).launches = s.launches := rfl
@[simp] theorem State.modEmitter_packets n f : (s.modEmitter n f).packets = s.packets := rfl
@[simp] theorem State.modEmitter_ops n f : (s.modEmitter n f).ops = s.ops := rfl
@[simp] theorem State.modEmitter_pageFaults n f : (s.modEmitter n f).pageFaults = s.pageFaults := rfl
@[simp] theorem State.modEmitter_lateFaults n f : (s.modEmitter n f).lateFaults = s.lateFaults := rfl
@[simp] theorem State.modEmitter_quarantine n f : (s.modEmitter n f).quarantine = s.quarantine := rfl
@[simp] theorem State.modEmitter_collectives n f : (s.modEmitter n f).collectives = s.collectives := rfl
@[simp] theorem State.modEmitter_relayOps n f : (s.modEmitter n f).relayOps = s.relayOps := rfl
@[simp] theorem State.modEmitter_relayWaiting n f : (s.modEmitter n f).relayWaiting = s.relayWaiting := rfl
@[simp] theorem State.modEmitter_savedOps n f : (s.modEmitter n f).savedOps = s.savedOps := rfl
@[simp] theorem State.modEmitter_savedCopies n f : (s.modEmitter n f).savedCopies = s.savedCopies := rfl
@[simp] theorem State.modEmitter_causes n f : (s.modEmitter n f).causes = s.causes := rfl
@[simp] theorem State.modEmitter_lastServed n f : (s.modEmitter n f).lastServed = s.lastServed := rfl
@[simp] theorem State.modEmitter_mgmt n f : (s.modEmitter n f).mgmt = s.mgmt := rfl

/-! ## `modQueue` -/

@[simp] theorem State.modQueue_tick k f : (s.modQueue k f).tick = s.tick := rfl
@[simp] theorem State.modQueue_clock k f : (s.modQueue k f).clock = s.clock := rfl
@[simp] theorem State.modQueue_draws k f : (s.modQueue k f).draws = s.draws := rfl
@[simp] theorem State.modQueue_nextId k f : (s.modQueue k f).nextId = s.nextId := rfl
@[simp] theorem State.modQueue_cur k f : (s.modQueue k f).cur = s.cur := rfl
@[simp] theorem State.modQueue_inputs k f : (s.modQueue k f).inputs = s.inputs := rfl
@[simp] theorem State.modQueue_upsets k f : (s.modQueue k f).upsets = s.upsets := rfl
@[simp] theorem State.modQueue_outputs k f : (s.modQueue k f).outputs = s.outputs := rfl
@[simp] theorem State.modQueue_mem k f : (s.modQueue k f).mem = s.mem := rfl
@[simp] theorem State.modQueue_tags k f : (s.modQueue k f).tags = s.tags := rfl
@[simp] theorem State.modQueue_poisoned k f : (s.modQueue k f).poisoned = s.poisoned := rfl
@[simp] theorem State.modQueue_l2 k f : (s.modQueue k f).l2 = s.l2 := rfl
@[simp] theorem State.modQueue_codeOld k f : (s.modQueue k f).codeOld = s.codeOld := rfl
@[simp] theorem State.modQueue_tlb k f : (s.modQueue k f).tlb = s.tlb := rfl
@[simp] theorem State.modQueue_streams k f : (s.modQueue k f).streams = s.streams := rfl
@[simp] theorem State.modQueue_cores k f : (s.modQueue k f).cores = s.cores := rfl
@[simp] theorem State.modQueue_hubs k f : (s.modQueue k f).hubs = s.hubs := rfl
@[simp] theorem State.modQueue_emitters k f : (s.modQueue k f).emitters = s.emitters := rfl
@[simp] theorem State.modQueue_teams k f : (s.modQueue k f).teams = s.teams := rfl
@[simp] theorem State.modQueue_launches k f : (s.modQueue k f).launches = s.launches := rfl
@[simp] theorem State.modQueue_packets k f : (s.modQueue k f).packets = s.packets := rfl
@[simp] theorem State.modQueue_ops k f : (s.modQueue k f).ops = s.ops := rfl
@[simp] theorem State.modQueue_pageFaults k f : (s.modQueue k f).pageFaults = s.pageFaults := rfl
@[simp] theorem State.modQueue_lateFaults k f : (s.modQueue k f).lateFaults = s.lateFaults := rfl
@[simp] theorem State.modQueue_quarantine k f : (s.modQueue k f).quarantine = s.quarantine := rfl
@[simp] theorem State.modQueue_collectives k f : (s.modQueue k f).collectives = s.collectives := rfl
@[simp] theorem State.modQueue_relayOps k f : (s.modQueue k f).relayOps = s.relayOps := rfl
@[simp] theorem State.modQueue_relayWaiting k f : (s.modQueue k f).relayWaiting = s.relayWaiting := rfl
@[simp] theorem State.modQueue_savedOps k f : (s.modQueue k f).savedOps = s.savedOps := rfl
@[simp] theorem State.modQueue_savedCopies k f : (s.modQueue k f).savedCopies = s.savedCopies := rfl
@[simp] theorem State.modQueue_causes k f : (s.modQueue k f).causes = s.causes := rfl
@[simp] theorem State.modQueue_lastServed k f : (s.modQueue k f).lastServed = s.lastServed := rfl
@[simp] theorem State.modQueue_mgmt k f : (s.modQueue k f).mgmt = s.mgmt := rfl

/-! ## `modOp` -/

@[simp] theorem State.modOp_tick id f : (s.modOp id f).tick = s.tick := rfl
@[simp] theorem State.modOp_clock id f : (s.modOp id f).clock = s.clock := rfl
@[simp] theorem State.modOp_draws id f : (s.modOp id f).draws = s.draws := rfl
@[simp] theorem State.modOp_nextId id f : (s.modOp id f).nextId = s.nextId := rfl
@[simp] theorem State.modOp_cur id f : (s.modOp id f).cur = s.cur := rfl
@[simp] theorem State.modOp_inputs id f : (s.modOp id f).inputs = s.inputs := rfl
@[simp] theorem State.modOp_upsets id f : (s.modOp id f).upsets = s.upsets := rfl
@[simp] theorem State.modOp_outputs id f : (s.modOp id f).outputs = s.outputs := rfl
@[simp] theorem State.modOp_mem id f : (s.modOp id f).mem = s.mem := rfl
@[simp] theorem State.modOp_tags id f : (s.modOp id f).tags = s.tags := rfl
@[simp] theorem State.modOp_poisoned id f : (s.modOp id f).poisoned = s.poisoned := rfl
@[simp] theorem State.modOp_l2 id f : (s.modOp id f).l2 = s.l2 := rfl
@[simp] theorem State.modOp_codeOld id f : (s.modOp id f).codeOld = s.codeOld := rfl
@[simp] theorem State.modOp_tlb id f : (s.modOp id f).tlb = s.tlb := rfl
@[simp] theorem State.modOp_streams id f : (s.modOp id f).streams = s.streams := rfl
@[simp] theorem State.modOp_cores id f : (s.modOp id f).cores = s.cores := rfl
@[simp] theorem State.modOp_hubs id f : (s.modOp id f).hubs = s.hubs := rfl
@[simp] theorem State.modOp_emitters id f : (s.modOp id f).emitters = s.emitters := rfl
@[simp] theorem State.modOp_ctxs id f : (s.modOp id f).ctxs = s.ctxs := rfl
@[simp] theorem State.modOp_teams id f : (s.modOp id f).teams = s.teams := rfl
@[simp] theorem State.modOp_launches id f : (s.modOp id f).launches = s.launches := rfl
@[simp] theorem State.modOp_packets id f : (s.modOp id f).packets = s.packets := rfl
@[simp] theorem State.modOp_pageFaults id f : (s.modOp id f).pageFaults = s.pageFaults := rfl
@[simp] theorem State.modOp_lateFaults id f : (s.modOp id f).lateFaults = s.lateFaults := rfl
@[simp] theorem State.modOp_quarantine id f : (s.modOp id f).quarantine = s.quarantine := rfl
@[simp] theorem State.modOp_collectives id f : (s.modOp id f).collectives = s.collectives := rfl
@[simp] theorem State.modOp_relayOps id f : (s.modOp id f).relayOps = s.relayOps := rfl
@[simp] theorem State.modOp_relayWaiting id f : (s.modOp id f).relayWaiting = s.relayWaiting := rfl
@[simp] theorem State.modOp_savedOps id f : (s.modOp id f).savedOps = s.savedOps := rfl
@[simp] theorem State.modOp_savedCopies id f : (s.modOp id f).savedCopies = s.savedCopies := rfl
@[simp] theorem State.modOp_causes id f : (s.modOp id f).causes = s.causes := rfl
@[simp] theorem State.modOp_lastServed id f : (s.modOp id f).lastServed = s.lastServed := rfl
@[simp] theorem State.modOp_mgmt id f : (s.modOp id f).mgmt = s.mgmt := rfl

/-! ## `modPacket` -/

@[simp] theorem State.modPacket_tick id f : (s.modPacket id f).tick = s.tick := rfl
@[simp] theorem State.modPacket_clock id f : (s.modPacket id f).clock = s.clock := rfl
@[simp] theorem State.modPacket_draws id f : (s.modPacket id f).draws = s.draws := rfl
@[simp] theorem State.modPacket_nextId id f : (s.modPacket id f).nextId = s.nextId := rfl
@[simp] theorem State.modPacket_cur id f : (s.modPacket id f).cur = s.cur := rfl
@[simp] theorem State.modPacket_inputs id f : (s.modPacket id f).inputs = s.inputs := rfl
@[simp] theorem State.modPacket_upsets id f : (s.modPacket id f).upsets = s.upsets := rfl
@[simp] theorem State.modPacket_outputs id f : (s.modPacket id f).outputs = s.outputs := rfl
@[simp] theorem State.modPacket_mem id f : (s.modPacket id f).mem = s.mem := rfl
@[simp] theorem State.modPacket_tags id f : (s.modPacket id f).tags = s.tags := rfl
@[simp] theorem State.modPacket_poisoned id f : (s.modPacket id f).poisoned = s.poisoned := rfl
@[simp] theorem State.modPacket_l2 id f : (s.modPacket id f).l2 = s.l2 := rfl
@[simp] theorem State.modPacket_codeOld id f : (s.modPacket id f).codeOld = s.codeOld := rfl
@[simp] theorem State.modPacket_tlb id f : (s.modPacket id f).tlb = s.tlb := rfl
@[simp] theorem State.modPacket_streams id f : (s.modPacket id f).streams = s.streams := rfl
@[simp] theorem State.modPacket_cores id f : (s.modPacket id f).cores = s.cores := rfl
@[simp] theorem State.modPacket_hubs id f : (s.modPacket id f).hubs = s.hubs := rfl
@[simp] theorem State.modPacket_emitters id f : (s.modPacket id f).emitters = s.emitters := rfl
@[simp] theorem State.modPacket_ctxs id f : (s.modPacket id f).ctxs = s.ctxs := rfl
@[simp] theorem State.modPacket_teams id f : (s.modPacket id f).teams = s.teams := rfl
@[simp] theorem State.modPacket_launches id f : (s.modPacket id f).launches = s.launches := rfl
@[simp] theorem State.modPacket_ops id f : (s.modPacket id f).ops = s.ops := rfl
@[simp] theorem State.modPacket_pageFaults id f : (s.modPacket id f).pageFaults = s.pageFaults := rfl
@[simp] theorem State.modPacket_lateFaults id f : (s.modPacket id f).lateFaults = s.lateFaults := rfl
@[simp] theorem State.modPacket_quarantine id f : (s.modPacket id f).quarantine = s.quarantine := rfl
@[simp] theorem State.modPacket_collectives id f : (s.modPacket id f).collectives = s.collectives := rfl
@[simp] theorem State.modPacket_relayOps id f : (s.modPacket id f).relayOps = s.relayOps := rfl
@[simp] theorem State.modPacket_relayWaiting id f : (s.modPacket id f).relayWaiting = s.relayWaiting := rfl
@[simp] theorem State.modPacket_savedOps id f : (s.modPacket id f).savedOps = s.savedOps := rfl
@[simp] theorem State.modPacket_savedCopies id f : (s.modPacket id f).savedCopies = s.savedCopies := rfl
@[simp] theorem State.modPacket_causes id f : (s.modPacket id f).causes = s.causes := rfl
@[simp] theorem State.modPacket_lastServed id f : (s.modPacket id f).lastServed = s.lastServed := rfl
@[simp] theorem State.modPacket_mgmt id f : (s.modPacket id f).mgmt = s.mgmt := rfl

/-! ## `modColl` -/

@[simp] theorem State.modColl_tick tag f : (s.modColl tag f).tick = s.tick := rfl
@[simp] theorem State.modColl_clock tag f : (s.modColl tag f).clock = s.clock := rfl
@[simp] theorem State.modColl_draws tag f : (s.modColl tag f).draws = s.draws := rfl
@[simp] theorem State.modColl_nextId tag f : (s.modColl tag f).nextId = s.nextId := rfl
@[simp] theorem State.modColl_cur tag f : (s.modColl tag f).cur = s.cur := rfl
@[simp] theorem State.modColl_inputs tag f : (s.modColl tag f).inputs = s.inputs := rfl
@[simp] theorem State.modColl_upsets tag f : (s.modColl tag f).upsets = s.upsets := rfl
@[simp] theorem State.modColl_outputs tag f : (s.modColl tag f).outputs = s.outputs := rfl
@[simp] theorem State.modColl_mem tag f : (s.modColl tag f).mem = s.mem := rfl
@[simp] theorem State.modColl_tags tag f : (s.modColl tag f).tags = s.tags := rfl
@[simp] theorem State.modColl_poisoned tag f : (s.modColl tag f).poisoned = s.poisoned := rfl
@[simp] theorem State.modColl_l2 tag f : (s.modColl tag f).l2 = s.l2 := rfl
@[simp] theorem State.modColl_codeOld tag f : (s.modColl tag f).codeOld = s.codeOld := rfl
@[simp] theorem State.modColl_tlb tag f : (s.modColl tag f).tlb = s.tlb := rfl
@[simp] theorem State.modColl_streams tag f : (s.modColl tag f).streams = s.streams := rfl
@[simp] theorem State.modColl_cores tag f : (s.modColl tag f).cores = s.cores := rfl
@[simp] theorem State.modColl_hubs tag f : (s.modColl tag f).hubs = s.hubs := rfl
@[simp] theorem State.modColl_emitters tag f : (s.modColl tag f).emitters = s.emitters := rfl
@[simp] theorem State.modColl_ctxs tag f : (s.modColl tag f).ctxs = s.ctxs := rfl
@[simp] theorem State.modColl_teams tag f : (s.modColl tag f).teams = s.teams := rfl
@[simp] theorem State.modColl_launches tag f : (s.modColl tag f).launches = s.launches := rfl
@[simp] theorem State.modColl_packets tag f : (s.modColl tag f).packets = s.packets := rfl
@[simp] theorem State.modColl_ops tag f : (s.modColl tag f).ops = s.ops := rfl
@[simp] theorem State.modColl_pageFaults tag f : (s.modColl tag f).pageFaults = s.pageFaults := rfl
@[simp] theorem State.modColl_lateFaults tag f : (s.modColl tag f).lateFaults = s.lateFaults := rfl
@[simp] theorem State.modColl_quarantine tag f : (s.modColl tag f).quarantine = s.quarantine := rfl
@[simp] theorem State.modColl_relayOps tag f : (s.modColl tag f).relayOps = s.relayOps := rfl
@[simp] theorem State.modColl_relayWaiting tag f : (s.modColl tag f).relayWaiting = s.relayWaiting := rfl
@[simp] theorem State.modColl_savedOps tag f : (s.modColl tag f).savedOps = s.savedOps := rfl
@[simp] theorem State.modColl_savedCopies tag f : (s.modColl tag f).savedCopies = s.savedCopies := rfl
@[simp] theorem State.modColl_causes tag f : (s.modColl tag f).causes = s.causes := rfl
@[simp] theorem State.modColl_lastServed tag f : (s.modColl tag f).lastServed = s.lastServed := rfl
@[simp] theorem State.modColl_mgmt tag f : (s.modColl tag f).mgmt = s.mgmt := rfl

/-! ## `modRelayOp` -/

@[simp] theorem State.modRelayOp_tick id f : (s.modRelayOp id f).tick = s.tick := rfl
@[simp] theorem State.modRelayOp_clock id f : (s.modRelayOp id f).clock = s.clock := rfl
@[simp] theorem State.modRelayOp_draws id f : (s.modRelayOp id f).draws = s.draws := rfl
@[simp] theorem State.modRelayOp_nextId id f : (s.modRelayOp id f).nextId = s.nextId := rfl
@[simp] theorem State.modRelayOp_cur id f : (s.modRelayOp id f).cur = s.cur := rfl
@[simp] theorem State.modRelayOp_inputs id f : (s.modRelayOp id f).inputs = s.inputs := rfl
@[simp] theorem State.modRelayOp_upsets id f : (s.modRelayOp id f).upsets = s.upsets := rfl
@[simp] theorem State.modRelayOp_outputs id f : (s.modRelayOp id f).outputs = s.outputs := rfl
@[simp] theorem State.modRelayOp_mem id f : (s.modRelayOp id f).mem = s.mem := rfl
@[simp] theorem State.modRelayOp_tags id f : (s.modRelayOp id f).tags = s.tags := rfl
@[simp] theorem State.modRelayOp_poisoned id f : (s.modRelayOp id f).poisoned = s.poisoned := rfl
@[simp] theorem State.modRelayOp_l2 id f : (s.modRelayOp id f).l2 = s.l2 := rfl
@[simp] theorem State.modRelayOp_codeOld id f : (s.modRelayOp id f).codeOld = s.codeOld := rfl
@[simp] theorem State.modRelayOp_tlb id f : (s.modRelayOp id f).tlb = s.tlb := rfl
@[simp] theorem State.modRelayOp_streams id f : (s.modRelayOp id f).streams = s.streams := rfl
@[simp] theorem State.modRelayOp_cores id f : (s.modRelayOp id f).cores = s.cores := rfl
@[simp] theorem State.modRelayOp_hubs id f : (s.modRelayOp id f).hubs = s.hubs := rfl
@[simp] theorem State.modRelayOp_emitters id f : (s.modRelayOp id f).emitters = s.emitters := rfl
@[simp] theorem State.modRelayOp_ctxs id f : (s.modRelayOp id f).ctxs = s.ctxs := rfl
@[simp] theorem State.modRelayOp_teams id f : (s.modRelayOp id f).teams = s.teams := rfl
@[simp] theorem State.modRelayOp_launches id f : (s.modRelayOp id f).launches = s.launches := rfl
@[simp] theorem State.modRelayOp_packets id f : (s.modRelayOp id f).packets = s.packets := rfl
@[simp] theorem State.modRelayOp_ops id f : (s.modRelayOp id f).ops = s.ops := rfl
@[simp] theorem State.modRelayOp_pageFaults id f : (s.modRelayOp id f).pageFaults = s.pageFaults := rfl
@[simp] theorem State.modRelayOp_lateFaults id f : (s.modRelayOp id f).lateFaults = s.lateFaults := rfl
@[simp] theorem State.modRelayOp_quarantine id f : (s.modRelayOp id f).quarantine = s.quarantine := rfl
@[simp] theorem State.modRelayOp_collectives id f : (s.modRelayOp id f).collectives = s.collectives := rfl
@[simp] theorem State.modRelayOp_relayWaiting id f : (s.modRelayOp id f).relayWaiting = s.relayWaiting := rfl
@[simp] theorem State.modRelayOp_savedOps id f : (s.modRelayOp id f).savedOps = s.savedOps := rfl
@[simp] theorem State.modRelayOp_savedCopies id f : (s.modRelayOp id f).savedCopies = s.savedCopies := rfl
@[simp] theorem State.modRelayOp_causes id f : (s.modRelayOp id f).causes = s.causes := rfl
@[simp] theorem State.modRelayOp_lastServed id f : (s.modRelayOp id f).lastServed = s.lastServed := rfl
@[simp] theorem State.modRelayOp_mgmt id f : (s.modRelayOp id f).mgmt = s.mgmt := rfl

/-! ## `output` -/

@[simp] theorem State.output_tick o : (s.output o).tick = s.tick := rfl
@[simp] theorem State.output_clock o : (s.output o).clock = s.clock := rfl
@[simp] theorem State.output_draws o : (s.output o).draws = s.draws := rfl
@[simp] theorem State.output_nextId o : (s.output o).nextId = s.nextId := rfl
@[simp] theorem State.output_cur o : (s.output o).cur = s.cur := rfl
@[simp] theorem State.output_inputs o : (s.output o).inputs = s.inputs := rfl
@[simp] theorem State.output_upsets o : (s.output o).upsets = s.upsets := rfl
@[simp] theorem State.output_mem o : (s.output o).mem = s.mem := rfl
@[simp] theorem State.output_tags o : (s.output o).tags = s.tags := rfl
@[simp] theorem State.output_poisoned o : (s.output o).poisoned = s.poisoned := rfl
@[simp] theorem State.output_l2 o : (s.output o).l2 = s.l2 := rfl
@[simp] theorem State.output_codeOld o : (s.output o).codeOld = s.codeOld := rfl
@[simp] theorem State.output_tlb o : (s.output o).tlb = s.tlb := rfl
@[simp] theorem State.output_streams o : (s.output o).streams = s.streams := rfl
@[simp] theorem State.output_cores o : (s.output o).cores = s.cores := rfl
@[simp] theorem State.output_hubs o : (s.output o).hubs = s.hubs := rfl
@[simp] theorem State.output_emitters o : (s.output o).emitters = s.emitters := rfl
@[simp] theorem State.output_ctxs o : (s.output o).ctxs = s.ctxs := rfl
@[simp] theorem State.output_teams o : (s.output o).teams = s.teams := rfl
@[simp] theorem State.output_launches o : (s.output o).launches = s.launches := rfl
@[simp] theorem State.output_packets o : (s.output o).packets = s.packets := rfl
@[simp] theorem State.output_ops o : (s.output o).ops = s.ops := rfl
@[simp] theorem State.output_pageFaults o : (s.output o).pageFaults = s.pageFaults := rfl
@[simp] theorem State.output_lateFaults o : (s.output o).lateFaults = s.lateFaults := rfl
@[simp] theorem State.output_quarantine o : (s.output o).quarantine = s.quarantine := rfl
@[simp] theorem State.output_collectives o : (s.output o).collectives = s.collectives := rfl
@[simp] theorem State.output_relayOps o : (s.output o).relayOps = s.relayOps := rfl
@[simp] theorem State.output_relayWaiting o : (s.output o).relayWaiting = s.relayWaiting := rfl
@[simp] theorem State.output_savedOps o : (s.output o).savedOps = s.savedOps := rfl
@[simp] theorem State.output_savedCopies o : (s.output o).savedCopies = s.savedCopies := rfl
@[simp] theorem State.output_causes o : (s.output o).causes = s.causes := rfl
@[simp] theorem State.output_lastServed o : (s.output o).lastServed = s.lastServed := rfl
@[simp] theorem State.output_mgmt o : (s.output o).mgmt = s.mgmt := rfl

/-! ## `setTag` -/

@[simp] theorem State.setTag_tick g v : (s.setTag g v).tick = s.tick := rfl
@[simp] theorem State.setTag_clock g v : (s.setTag g v).clock = s.clock := rfl
@[simp] theorem State.setTag_draws g v : (s.setTag g v).draws = s.draws := rfl
@[simp] theorem State.setTag_nextId g v : (s.setTag g v).nextId = s.nextId := rfl
@[simp] theorem State.setTag_cur g v : (s.setTag g v).cur = s.cur := rfl
@[simp] theorem State.setTag_inputs g v : (s.setTag g v).inputs = s.inputs := rfl
@[simp] theorem State.setTag_upsets g v : (s.setTag g v).upsets = s.upsets := rfl
@[simp] theorem State.setTag_outputs g v : (s.setTag g v).outputs = s.outputs := rfl
@[simp] theorem State.setTag_mem g v : (s.setTag g v).mem = s.mem := rfl
@[simp] theorem State.setTag_poisoned g v : (s.setTag g v).poisoned = s.poisoned := rfl
@[simp] theorem State.setTag_l2 g v : (s.setTag g v).l2 = s.l2 := rfl
@[simp] theorem State.setTag_codeOld g v : (s.setTag g v).codeOld = s.codeOld := rfl
@[simp] theorem State.setTag_tlb g v : (s.setTag g v).tlb = s.tlb := rfl
@[simp] theorem State.setTag_streams g v : (s.setTag g v).streams = s.streams := rfl
@[simp] theorem State.setTag_cores g v : (s.setTag g v).cores = s.cores := rfl
@[simp] theorem State.setTag_hubs g v : (s.setTag g v).hubs = s.hubs := rfl
@[simp] theorem State.setTag_emitters g v : (s.setTag g v).emitters = s.emitters := rfl
@[simp] theorem State.setTag_ctxs g v : (s.setTag g v).ctxs = s.ctxs := rfl
@[simp] theorem State.setTag_teams g v : (s.setTag g v).teams = s.teams := rfl
@[simp] theorem State.setTag_launches g v : (s.setTag g v).launches = s.launches := rfl
@[simp] theorem State.setTag_packets g v : (s.setTag g v).packets = s.packets := rfl
@[simp] theorem State.setTag_ops g v : (s.setTag g v).ops = s.ops := rfl
@[simp] theorem State.setTag_pageFaults g v : (s.setTag g v).pageFaults = s.pageFaults := rfl
@[simp] theorem State.setTag_lateFaults g v : (s.setTag g v).lateFaults = s.lateFaults := rfl
@[simp] theorem State.setTag_quarantine g v : (s.setTag g v).quarantine = s.quarantine := rfl
@[simp] theorem State.setTag_collectives g v : (s.setTag g v).collectives = s.collectives := rfl
@[simp] theorem State.setTag_relayOps g v : (s.setTag g v).relayOps = s.relayOps := rfl
@[simp] theorem State.setTag_relayWaiting g v : (s.setTag g v).relayWaiting = s.relayWaiting := rfl
@[simp] theorem State.setTag_savedOps g v : (s.setTag g v).savedOps = s.savedOps := rfl
@[simp] theorem State.setTag_savedCopies g v : (s.setTag g v).savedCopies = s.savedCopies := rfl
@[simp] theorem State.setTag_causes g v : (s.setTag g v).causes = s.causes := rfl
@[simp] theorem State.setTag_lastServed g v : (s.setTag g v).lastServed = s.lastServed := rfl
@[simp] theorem State.setTag_mgmt g v : (s.setTag g v).mgmt = s.mgmt := rfl

/-! ## `physWrite` -/

@[simp] theorem State.physWrite_tick p : (s.physWrite p).tick = s.tick := by simp only [State.physWrite]
@[simp] theorem State.physWrite_clock p : (s.physWrite p).clock = s.clock := by simp only [State.physWrite]
@[simp] theorem State.physWrite_draws p : (s.physWrite p).draws = s.draws := by simp only [State.physWrite]
@[simp] theorem State.physWrite_nextId p : (s.physWrite p).nextId = s.nextId := by simp only [State.physWrite]
@[simp] theorem State.physWrite_cur p : (s.physWrite p).cur = s.cur := by simp only [State.physWrite]
@[simp] theorem State.physWrite_inputs p : (s.physWrite p).inputs = s.inputs := by simp only [State.physWrite]
@[simp] theorem State.physWrite_upsets p : (s.physWrite p).upsets = s.upsets := by simp only [State.physWrite]
@[simp] theorem State.physWrite_outputs p : (s.physWrite p).outputs = s.outputs := by simp only [State.physWrite]
@[simp] theorem State.physWrite_l2 p : (s.physWrite p).l2 = s.l2 := by simp only [State.physWrite]
@[simp] theorem State.physWrite_codeOld p : (s.physWrite p).codeOld = s.codeOld := by simp only [State.physWrite]
@[simp] theorem State.physWrite_tlb p : (s.physWrite p).tlb = s.tlb := by simp only [State.physWrite]
@[simp] theorem State.physWrite_streams p : (s.physWrite p).streams = s.streams := by simp only [State.physWrite]
@[simp] theorem State.physWrite_cores p : (s.physWrite p).cores = s.cores := by simp only [State.physWrite]
@[simp] theorem State.physWrite_hubs p : (s.physWrite p).hubs = s.hubs := by simp only [State.physWrite]
@[simp] theorem State.physWrite_emitters p : (s.physWrite p).emitters = s.emitters := by simp only [State.physWrite]
@[simp] theorem State.physWrite_ctxs p : (s.physWrite p).ctxs = s.ctxs := by simp only [State.physWrite]
@[simp] theorem State.physWrite_teams p : (s.physWrite p).teams = s.teams := by simp only [State.physWrite]
@[simp] theorem State.physWrite_launches p : (s.physWrite p).launches = s.launches := by simp only [State.physWrite]
@[simp] theorem State.physWrite_packets p : (s.physWrite p).packets = s.packets := by simp only [State.physWrite]
@[simp] theorem State.physWrite_ops p : (s.physWrite p).ops = s.ops := by simp only [State.physWrite]
@[simp] theorem State.physWrite_pageFaults p : (s.physWrite p).pageFaults = s.pageFaults := by simp only [State.physWrite]
@[simp] theorem State.physWrite_lateFaults p : (s.physWrite p).lateFaults = s.lateFaults := by simp only [State.physWrite]
@[simp] theorem State.physWrite_quarantine p : (s.physWrite p).quarantine = s.quarantine := by simp only [State.physWrite]
@[simp] theorem State.physWrite_collectives p : (s.physWrite p).collectives = s.collectives := by simp only [State.physWrite]
@[simp] theorem State.physWrite_relayOps p : (s.physWrite p).relayOps = s.relayOps := by simp only [State.physWrite]
@[simp] theorem State.physWrite_relayWaiting p : (s.physWrite p).relayWaiting = s.relayWaiting := by simp only [State.physWrite]
@[simp] theorem State.physWrite_savedOps p : (s.physWrite p).savedOps = s.savedOps := by simp only [State.physWrite]
@[simp] theorem State.physWrite_savedCopies p : (s.physWrite p).savedCopies = s.savedCopies := by simp only [State.physWrite]
@[simp] theorem State.physWrite_causes p : (s.physWrite p).causes = s.causes := by simp only [State.physWrite]
@[simp] theorem State.physWrite_lastServed p : (s.physWrite p).lastServed = s.lastServed := by simp only [State.physWrite]
@[simp] theorem State.physWrite_mgmt p : (s.physWrite p).mgmt = s.mgmt := by simp only [State.physWrite]

/-! ## `setStream` -/

@[simp] theorem State.setStream_tick x : (s.setStream x).tick = s.tick := rfl
@[simp] theorem State.setStream_clock x : (s.setStream x).clock = s.clock := rfl
@[simp] theorem State.setStream_draws x : (s.setStream x).draws = s.draws := rfl
@[simp] theorem State.setStream_nextId x : (s.setStream x).nextId = s.nextId := rfl
@[simp] theorem State.setStream_cur x : (s.setStream x).cur = s.cur := rfl
@[simp] theorem State.setStream_inputs x : (s.setStream x).inputs = s.inputs := rfl
@[simp] theorem State.setStream_upsets x : (s.setStream x).upsets = s.upsets := rfl
@[simp] theorem State.setStream_outputs x : (s.setStream x).outputs = s.outputs := rfl
@[simp] theorem State.setStream_mem x : (s.setStream x).mem = s.mem := rfl
@[simp] theorem State.setStream_tags x : (s.setStream x).tags = s.tags := rfl
@[simp] theorem State.setStream_poisoned x : (s.setStream x).poisoned = s.poisoned := rfl
@[simp] theorem State.setStream_l2 x : (s.setStream x).l2 = s.l2 := rfl
@[simp] theorem State.setStream_codeOld x : (s.setStream x).codeOld = s.codeOld := rfl
@[simp] theorem State.setStream_tlb x : (s.setStream x).tlb = s.tlb := rfl
@[simp] theorem State.setStream_cores x : (s.setStream x).cores = s.cores := rfl
@[simp] theorem State.setStream_hubs x : (s.setStream x).hubs = s.hubs := rfl
@[simp] theorem State.setStream_emitters x : (s.setStream x).emitters = s.emitters := rfl
@[simp] theorem State.setStream_ctxs x : (s.setStream x).ctxs = s.ctxs := rfl
@[simp] theorem State.setStream_teams x : (s.setStream x).teams = s.teams := rfl
@[simp] theorem State.setStream_launches x : (s.setStream x).launches = s.launches := rfl
@[simp] theorem State.setStream_packets x : (s.setStream x).packets = s.packets := rfl
@[simp] theorem State.setStream_ops x : (s.setStream x).ops = s.ops := rfl
@[simp] theorem State.setStream_pageFaults x : (s.setStream x).pageFaults = s.pageFaults := rfl
@[simp] theorem State.setStream_lateFaults x : (s.setStream x).lateFaults = s.lateFaults := rfl
@[simp] theorem State.setStream_quarantine x : (s.setStream x).quarantine = s.quarantine := rfl
@[simp] theorem State.setStream_collectives x : (s.setStream x).collectives = s.collectives := rfl
@[simp] theorem State.setStream_relayOps x : (s.setStream x).relayOps = s.relayOps := rfl
@[simp] theorem State.setStream_relayWaiting x : (s.setStream x).relayWaiting = s.relayWaiting := rfl
@[simp] theorem State.setStream_savedOps x : (s.setStream x).savedOps = s.savedOps := rfl
@[simp] theorem State.setStream_savedCopies x : (s.setStream x).savedCopies = s.savedCopies := rfl
@[simp] theorem State.setStream_causes x : (s.setStream x).causes = s.causes := rfl
@[simp] theorem State.setStream_lastServed x : (s.setStream x).lastServed = s.lastServed := rfl
@[simp] theorem State.setStream_mgmt x : (s.setStream x).mgmt = s.mgmt := rfl

/-! ## `l2Touch` -/

@[simp] theorem State.l2Touch_tick x : (s.l2Touch x).tick = s.tick := rfl
@[simp] theorem State.l2Touch_clock x : (s.l2Touch x).clock = s.clock := rfl
@[simp] theorem State.l2Touch_draws x : (s.l2Touch x).draws = s.draws := rfl
@[simp] theorem State.l2Touch_nextId x : (s.l2Touch x).nextId = s.nextId := rfl
@[simp] theorem State.l2Touch_cur x : (s.l2Touch x).cur = s.cur := rfl
@[simp] theorem State.l2Touch_inputs x : (s.l2Touch x).inputs = s.inputs := rfl
@[simp] theorem State.l2Touch_upsets x : (s.l2Touch x).upsets = s.upsets := rfl
@[simp] theorem State.l2Touch_outputs x : (s.l2Touch x).outputs = s.outputs := rfl
@[simp] theorem State.l2Touch_mem x : (s.l2Touch x).mem = s.mem := rfl
@[simp] theorem State.l2Touch_tags x : (s.l2Touch x).tags = s.tags := rfl
@[simp] theorem State.l2Touch_poisoned x : (s.l2Touch x).poisoned = s.poisoned := rfl
@[simp] theorem State.l2Touch_codeOld x : (s.l2Touch x).codeOld = s.codeOld := rfl
@[simp] theorem State.l2Touch_tlb x : (s.l2Touch x).tlb = s.tlb := rfl
@[simp] theorem State.l2Touch_streams x : (s.l2Touch x).streams = s.streams := rfl
@[simp] theorem State.l2Touch_cores x : (s.l2Touch x).cores = s.cores := rfl
@[simp] theorem State.l2Touch_hubs x : (s.l2Touch x).hubs = s.hubs := rfl
@[simp] theorem State.l2Touch_emitters x : (s.l2Touch x).emitters = s.emitters := rfl
@[simp] theorem State.l2Touch_ctxs x : (s.l2Touch x).ctxs = s.ctxs := rfl
@[simp] theorem State.l2Touch_teams x : (s.l2Touch x).teams = s.teams := rfl
@[simp] theorem State.l2Touch_launches x : (s.l2Touch x).launches = s.launches := rfl
@[simp] theorem State.l2Touch_packets x : (s.l2Touch x).packets = s.packets := rfl
@[simp] theorem State.l2Touch_ops x : (s.l2Touch x).ops = s.ops := rfl
@[simp] theorem State.l2Touch_pageFaults x : (s.l2Touch x).pageFaults = s.pageFaults := rfl
@[simp] theorem State.l2Touch_lateFaults x : (s.l2Touch x).lateFaults = s.lateFaults := rfl
@[simp] theorem State.l2Touch_quarantine x : (s.l2Touch x).quarantine = s.quarantine := rfl
@[simp] theorem State.l2Touch_collectives x : (s.l2Touch x).collectives = s.collectives := rfl
@[simp] theorem State.l2Touch_relayOps x : (s.l2Touch x).relayOps = s.relayOps := rfl
@[simp] theorem State.l2Touch_relayWaiting x : (s.l2Touch x).relayWaiting = s.relayWaiting := rfl
@[simp] theorem State.l2Touch_savedOps x : (s.l2Touch x).savedOps = s.savedOps := rfl
@[simp] theorem State.l2Touch_savedCopies x : (s.l2Touch x).savedCopies = s.savedCopies := rfl
@[simp] theorem State.l2Touch_causes x : (s.l2Touch x).causes = s.causes := rfl
@[simp] theorem State.l2Touch_lastServed x : (s.l2Touch x).lastServed = s.lastServed := rfl
@[simp] theorem State.l2Touch_mgmt x : (s.l2Touch x).mgmt = s.mgmt := rfl

/-! ## `l2Drop` -/

@[simp] theorem State.l2Drop_tick ph sec : (s.l2Drop ph sec).tick = s.tick := rfl
@[simp] theorem State.l2Drop_clock ph sec : (s.l2Drop ph sec).clock = s.clock := rfl
@[simp] theorem State.l2Drop_draws ph sec : (s.l2Drop ph sec).draws = s.draws := rfl
@[simp] theorem State.l2Drop_nextId ph sec : (s.l2Drop ph sec).nextId = s.nextId := rfl
@[simp] theorem State.l2Drop_cur ph sec : (s.l2Drop ph sec).cur = s.cur := rfl
@[simp] theorem State.l2Drop_inputs ph sec : (s.l2Drop ph sec).inputs = s.inputs := rfl
@[simp] theorem State.l2Drop_upsets ph sec : (s.l2Drop ph sec).upsets = s.upsets := rfl
@[simp] theorem State.l2Drop_outputs ph sec : (s.l2Drop ph sec).outputs = s.outputs := rfl
@[simp] theorem State.l2Drop_mem ph sec : (s.l2Drop ph sec).mem = s.mem := rfl
@[simp] theorem State.l2Drop_tags ph sec : (s.l2Drop ph sec).tags = s.tags := rfl
@[simp] theorem State.l2Drop_poisoned ph sec : (s.l2Drop ph sec).poisoned = s.poisoned := rfl
@[simp] theorem State.l2Drop_codeOld ph sec : (s.l2Drop ph sec).codeOld = s.codeOld := rfl
@[simp] theorem State.l2Drop_tlb ph sec : (s.l2Drop ph sec).tlb = s.tlb := rfl
@[simp] theorem State.l2Drop_streams ph sec : (s.l2Drop ph sec).streams = s.streams := rfl
@[simp] theorem State.l2Drop_cores ph sec : (s.l2Drop ph sec).cores = s.cores := rfl
@[simp] theorem State.l2Drop_hubs ph sec : (s.l2Drop ph sec).hubs = s.hubs := rfl
@[simp] theorem State.l2Drop_emitters ph sec : (s.l2Drop ph sec).emitters = s.emitters := rfl
@[simp] theorem State.l2Drop_ctxs ph sec : (s.l2Drop ph sec).ctxs = s.ctxs := rfl
@[simp] theorem State.l2Drop_teams ph sec : (s.l2Drop ph sec).teams = s.teams := rfl
@[simp] theorem State.l2Drop_launches ph sec : (s.l2Drop ph sec).launches = s.launches := rfl
@[simp] theorem State.l2Drop_packets ph sec : (s.l2Drop ph sec).packets = s.packets := rfl
@[simp] theorem State.l2Drop_ops ph sec : (s.l2Drop ph sec).ops = s.ops := rfl
@[simp] theorem State.l2Drop_pageFaults ph sec : (s.l2Drop ph sec).pageFaults = s.pageFaults := rfl
@[simp] theorem State.l2Drop_lateFaults ph sec : (s.l2Drop ph sec).lateFaults = s.lateFaults := rfl
@[simp] theorem State.l2Drop_quarantine ph sec : (s.l2Drop ph sec).quarantine = s.quarantine := rfl
@[simp] theorem State.l2Drop_collectives ph sec : (s.l2Drop ph sec).collectives = s.collectives := rfl
@[simp] theorem State.l2Drop_relayOps ph sec : (s.l2Drop ph sec).relayOps = s.relayOps := rfl
@[simp] theorem State.l2Drop_relayWaiting ph sec : (s.l2Drop ph sec).relayWaiting = s.relayWaiting := rfl
@[simp] theorem State.l2Drop_savedOps ph sec : (s.l2Drop ph sec).savedOps = s.savedOps := rfl
@[simp] theorem State.l2Drop_savedCopies ph sec : (s.l2Drop ph sec).savedCopies = s.savedCopies := rfl
@[simp] theorem State.l2Drop_causes ph sec : (s.l2Drop ph sec).causes = s.causes := rfl
@[simp] theorem State.l2Drop_lastServed ph sec : (s.l2Drop ph sec).lastServed = s.lastServed := rfl
@[simp] theorem State.l2Drop_mgmt ph sec : (s.l2Drop ph sec).mgmt = s.mgmt := rfl

/-! ## Entries kept by number -/

theorem getBy_putBy {α : Type} (key : α → Nat) (d x : α) (l : List α) :
    getBy key d (putBy key x l) (key x) = x := by
  induction l with
  | nil => simp [putBy, getBy]
  | cons y l ih =>
    unfold putBy
    split
    · simp [getBy]
    · split
      · simp [getBy]
      · rename_i h1 h2
        have : (key y == key x) = false := by simp; omega
        simpa [getBy, this] using ih

theorem getBy_putBy_other {α : Type} (key : α → Nat) (d x : α) (l : List α) (n : Nat) (h : key x ≠ n) :
    getBy key d (putBy key x l) n = getBy key d l n := by
  have hx : (key x == n) = false := by simpa using h
  induction l with
  | nil => simp [putBy, getBy, hx]
  | cons y l ih =>
    unfold putBy
    split
    · simp [getBy, hx]
    · split
      · rename_i h1 h2
        have hy : (key y == n) = false := by simp; omega
        simp [getBy, hx, hy]
      · simp only [getBy, List.find?_cons] at ih ⊢
        split
        · rfl
        · exact ih

@[simp] theorem State.modCore_core_same c f : (s.modCore c f).core c = { f (s.core c) with num := c } :=
  getBy_putBy (α := Core) _ _ _ _

theorem State.modCore_core_other c f m (hm : c ≠ m) : (s.modCore c f).core m = s.core m :=
  getBy_putBy_other _ _ _ _ _ hm

@[simp] theorem State.modHub_hub_same h f : (s.modHub h f).hub h = { f (s.hub h) with num := h } :=
  getBy_putBy (α := Hub) _ _ _ _

theorem State.modHub_hub_other h f m (hm : h ≠ m) : (s.modHub h f).hub m = s.hub m :=
  getBy_putBy_other _ _ _ _ _ hm

@[simp] theorem State.modCtx_ctx_same n f : (s.modCtx n f).ctx n = { f (s.ctx n) with num := n } :=
  getBy_putBy (α := Context) _ _ _ _

theorem State.modCtx_ctx_other n f m (hm : n ≠ m) : (s.modCtx n f).ctx m = s.ctx m :=
  getBy_putBy_other _ _ _ _ _ hm

@[simp] theorem State.modEmitter_emitter_same n f : (s.modEmitter n f).emitter n = { f (s.emitter n) with num := n } :=
  getBy_putBy (α := Emitter) _ _ _ _

theorem State.modEmitter_emitter_other n f m (hm : n ≠ m) : (s.modEmitter n f).emitter m = s.emitter m :=
  getBy_putBy_other _ _ _ _ _ hm

/-! ## Teams and warps -/

theorem find_updIf {α : Type} (p : α → Bool) (f : α → α) (l : List α) (h : ∀ x, p x = true → p (f x) = true) :
    (updIf p f l).find? p = (l.find? p).map f := by
  induction l with
  | nil => rfl
  | cons x l ih =>
    simp only [updIf, List.map_cons, List.find?_cons] at ih ⊢
    by_cases hx : p x = true
    · simp [hx, h x hx]
    · simp [hx, ih]

theorem find_updIf_other {α : Type} (p q : α → Bool) (f : α → α) (l : List α)
    (h : ∀ x, p x = true → q x = false ∧ q (f x) = false) : (updIf p f l).find? q = l.find? q := by
  induction l with
  | nil => rfl
  | cons x l ih =>
    simp only [updIf, List.map_cons, List.find?_cons] at ih ⊢
    by_cases hx : p x = true
    · simp [hx, h x hx, ih]
    · simp [hx, ih]

/-- A changed team reads back changed. -/
theorem State.modTeam_team? k (f : Team → Team) (h : ∀ t : Team, t.is k = true → (f t).is k = true) :
    (s.modTeam k f).team? k = (s.team? k).map f := find_updIf _ f _ h

/-- Every other team is as it was. -/
theorem State.modTeam_team?_other k j (f : Team → Team) (hk : j ≠ k)
    (h : ∀ t : Team, t.is k = true → (f t).is k = true) : (s.modTeam k f).team? j = s.team? j := by
  refine find_updIf_other _ _ f _ fun t ht => ?_
  have hn : ∀ u : Team, u.is k = true → u.is j = false := by
    intro u hu
    rw [Bool.eq_false_iff]; intro hj; apply hk
    simp [Team.is] at hu hj
    cases j; cases k; simp_all
  exact ⟨hn t ht, hn _ (h t ht)⟩

/-- A change of a warp keeps its team's own fields. -/
@[simp] theorem Team.modWarp_is (t : Team) n f k : (t.modWarp n f).is k = t.is k := rfl

/-- A changed warp reads back changed. -/
theorem State.modWarp_warp? k (f : Warp → Warp) (h : ∀ w : Warp, w.num = k.w → (f w).num = k.w) :
    (s.modWarp k f).warp? k = (s.warp? k).map f := by
  unfold State.warp? State.modWarp
  rw [State.modTeam_team? _ _ _ (by simp)]
  cases s.team? k.team with
  | none => rfl
  | some t => exact find_updIf (fun w : Warp => w.num == k.w) f t.warps (by simpa using h)

/-- Its team reads back with that warp changed. -/
theorem State.modWarp_team? k (f : Warp → Warp) :
    (s.modWarp k f).team? k.team = (s.team? k.team).map (·.modWarp k.w f) :=
  State.modTeam_team? _ _ _ (by simp)

/-- Every other warp is as it was. -/
theorem State.modWarp_warp?_other k j (f : Warp → Warp) (hk : j ≠ k) (h : ∀ w : Warp, w.num = k.w → (f w).num = k.w) :
    (s.modWarp k f).warp? j = s.warp? j := by
  unfold State.warp? State.modWarp
  by_cases ht : j.team = k.team
  · rw [ht, State.modTeam_team? _ _ _ (by simp)]
    cases s.team? k.team with
    | none => rfl
    | some t =>
      have hw : j.w ≠ k.w := by intro hw; apply hk; cases j; cases k; simp_all [WKey.team]
      refine find_updIf_other (fun w : Warp => w.num == k.w) (fun w => w.num == j.w) f t.warps fun w hn => ?_
      have hn' : w.num = k.w := by simpa using hn
      simp [hn', h w hn', Ne.symm hw]
  · rw [State.modTeam_team?_other _ _ _ _ ht (by simp)]

end Sys2Proof.Machine
end

