-- ==== Sys2Proof/Laws/Memory.lean ====
section
/-!
SUPPORT. Sparse maps and physical memory: a value written is read back, every other key keeps its value,
and every operation keeps the canonical form.
-/

namespace Sys2Proof.Machine

/-! ## Sparse maps -/

variable {α : Type} [DecidableEq α] (d : α)

/-- A bound below the one that holds, holds. -/
theorem swf_mono {l : List (Nat × α)} {a b : Nat} (h : swf d b l = true) (hab : a ≤ b) : swf d a l = true := by
  cases l with
  | nil => rfl
  | cons p l =>
    obtain ⟨k, v⟩ := p
    simp only [swf, Bool.and_eq_true, decide_eq_true_eq] at h ⊢
    exact ⟨⟨by omega, h.1.2⟩, h.2⟩

/-- Keys below the bound are not listed. -/
theorem sget_below {l : List (Nat × α)} {lo a : Nat} (h : swf d lo l = true) (ha : a < lo) : sget d l a = d := by
  cases l with
  | nil => rfl
  | cons p l =>
    obtain ⟨k, v⟩ := p
    simp only [swf, Bool.and_eq_true, decide_eq_true_eq] at h
    simp only [sget]
    rw [if_neg (by omega), if_pos (by omega)]

/-- A write keeps the canonical form. -/
theorem swf_sset {l : List (Nat × α)} {lo a : Nat} (x : α) (h : swf d lo l = true) (ha : lo ≤ a) :
    swf d lo (sset d l a x) = true := by
  induction l generalizing lo with
  | nil =>
    unfold sset; split
    · rfl
    · simp [swf, *]
  | cons p l ih =>
    obtain ⟨k, v⟩ := p
    have h' := h
    simp only [swf, Bool.and_eq_true, decide_eq_true_eq] at h
    obtain ⟨⟨h1, h2⟩, h3⟩ := h
    unfold sset
    split
    · split
      · exact h'
      · rename_i hx
        simp only [swf, Bool.and_eq_true, decide_eq_true_eq]
        exact ⟨⟨ha, hx⟩, ⟨by omega, h2⟩, h3⟩
    · split
      · split
        · exact swf_mono d h3 (by omega)
        · rename_i hk hx
          simp only [swf, Bool.and_eq_true, decide_eq_true_eq]
          exact ⟨⟨ha, hx⟩, by rw [← hk]; exact h3⟩
      · simp only [swf, Bool.and_eq_true, decide_eq_true_eq]
        exact ⟨⟨h1, h2⟩, ih h3 (by omega)⟩

/-- A write is read back, and every other key keeps its value. -/
theorem sget_sset {l : List (Nat × α)} {lo : Nat} (a b : Nat) (x : α) (h : swf d lo l = true) :
    sget d (sset d l a x) b = if b = a then x else sget d l b := by
  induction l generalizing lo with
  | nil =>
    unfold sset; split
    · simp [sget, *]
    · simp only [sget]
      by_cases hb : b = a
      · simp [hb]
      · rw [if_neg (Ne.symm hb)]; simp [hb]
  | cons p l ih =>
    obtain ⟨k, v⟩ := p
    simp only [swf, Bool.and_eq_true, decide_eq_true_eq] at h
    obtain ⟨⟨h1, h2⟩, h3⟩ := h
    unfold sset
    split
    · split
      · simp only [sget]
        by_cases hb : b = a
        · subst hb; rw [if_neg (by omega), if_pos (by omega)]; simp [*]
        · simp [hb]
      · simp only [sget]
        by_cases hb : b = a
        · simp [hb]
        · rw [if_neg (Ne.symm hb)]
          by_cases hlt : b < a
          · rw [if_pos hlt, if_neg hb, if_neg (by omega), if_pos (by omega)]
          · rw [if_neg hlt, if_neg hb]
    · split
      · rename_i hk
        split
        · rename_i hx
          simp only [sget]
          by_cases hb : b = a
          · rw [if_pos hb, hb, hx]; exact sget_below d h3 (by omega)
          · rw [if_neg hb, if_neg (by omega)]
            split
            · exact sget_below d h3 (by omega)
            · rfl
        · simp only [sget]
          by_cases hb : b = a
          · simp [hb]
          · subst hk; rw [if_neg (Ne.symm hb), if_neg hb, if_neg (Ne.symm hb)]
      · simp only [sget]
        rw [ih h3]
        by_cases hb : b = a
        · subst hb; rw [if_neg (by omega), if_neg (by omega), if_pos rfl, if_pos rfl]
        · rw [if_neg hb, if_neg hb]

/-! ## Sets of numbers -/

theorem mem_setInsert (l : List Nat) (a b : Nat) : b ∈ setInsert l a ↔ b = a ∨ b ∈ l := by
  induction l with
  | nil => simp [setInsert]
  | cons k l ih =>
    unfold setInsert
    split
    · simp
    · split
      · rename_i hk; simp [← hk]
      · simp only [List.mem_cons, ih]; exact or_left_comm

/-- An insertion keeps a set rising. -/
theorem pairwise_setInsert {l : List Nat} (a : Nat) (h : l.Pairwise (· < ·)) : (setInsert l a).Pairwise (· < ·) := by
  induction l with
  | nil => simp [setInsert]
  | cons k l ih =>
    have h' := h
    rw [List.pairwise_cons] at h
    unfold setInsert
    split
    · refine List.pairwise_cons.2 ⟨fun x hx => ?_, h'⟩
      rcases List.mem_cons.1 hx with rfl | hx
      · assumption
      · exact Nat.lt_trans ‹_› (h.1 x hx)
    · split
      · exact h'
      · refine List.pairwise_cons.2 ⟨fun x hx => ?_, ih h.2⟩
        rcases (mem_setInsert l a x).1 hx with rfl | hx
        · omega
        · exact h.1 x hx

/-- A removal keeps a set rising. -/
theorem pairwise_setErase {l : List Nat} (a : Nat) (h : l.Pairwise (· < ·)) : (setErase l a).Pairwise (· < ·) :=
  h.filter _

/-! ## Memory -/

/-- Writing bytes keeps memory canonical. -/
theorem wf_memPut (m : List Host.Cell) (a : Nat) (bs : List Byte) (h : Memory.wf m = true) :
    Memory.wf (memPut m a bs) = true := by
  induction bs generalizing m a with
  | nil => exact h
  | cons b bs ih => exact ih _ _ (swf_sset _ _ h (Nat.zero_le _))

/-- Bytes written are read back, and every other byte is as it was. -/
theorem sget_memPut (m : List Host.Cell) (a x : Nat) (bs : List Byte) (h : Memory.wf m = true) :
    sget unlisted (memPut m a bs) x =
      if a ≤ x ∧ x < a + bs.length then bs.getD (x - a) 0 else sget unlisted m x := by
  induction bs generalizing m a with
  | nil => rw [if_neg (by simp)]; rfl
  | cons b bs ih =>
    rw [memPut, ih _ _ (swf_sset _ _ h (Nat.zero_le _)), sget_sset _ _ _ _ h]
    by_cases h1 : a + 1 ≤ x ∧ x < a + 1 + bs.length
    · rw [if_pos h1, if_pos (by simp only [List.length_cons]; omega)]
      obtain ⟨n, hn⟩ : ∃ n, x - a = n + 1 := ⟨x - a - 1, by omega⟩
      rw [show x - (a + 1) = n by omega, hn]; rfl
    · rw [if_neg h1]
      by_cases h2 : x = a
      · subst h2; rw [if_pos rfl, if_pos (by simp)]; simp
      · rw [if_neg h2, if_neg (by simp only [List.length_cons]; omega)]

/-- Writing bytes of the carve-out keeps the tags canonical (R258). -/
theorem swf_tagPut (m : List (Nat × BitVec 4)) (c : Nat) (bs : List Byte) (h : swf (0 : BitVec 4) 0 m = true) :
    swf (0 : BitVec 4) 0 (tagPut m c bs) = true := by
  induction bs generalizing m c with
  | nil => exact h
  | cons b bs ih => exact ih _ _ (swf_sset _ _ (swf_sset _ _ h (Nat.zero_le _)) (Nat.zero_le _))

/-- What a write packet leaves in memory: its bytes, below the carve-out of the tags. -/
theorem State.physWrite_mem (s : State) (p : Packet) : (s.physWrite p).mem =
    if 128 * p.pa < Config.memTop then memPut s.mem (128 * p.pa) (applyWrite (s.physData p.pa) p).1 else s.mem := by
  simp only [State.physWrite, decide_eq_true_eq]

/-- What a write packet leaves of the tags: those its bytes hold, in the carve-out. -/
theorem State.physWrite_tags (s : State) (p : Packet) : (s.physWrite p).tags =
    if 128 * p.pa < Config.memTop then s.tags
    else tagPut s.tags (128 * p.pa - Config.memTop) (applyWrite (s.physData p.pa) p).1 := by
  simp only [State.physWrite, decide_eq_true_eq]

/-- What a write packet leaves of the poison marks. -/
theorem State.physWrite_poisoned (s : State) (p : Packet) : (s.physWrite p).poisoned =
    if (applyWrite (s.physData p.pa) p).2 = true then setInsert s.poisoned p.pa else setErase s.poisoned p.pa := by
  simp only [State.physWrite]

/-- A write packet keeps memory canonical (R218). -/
theorem State.physWrite_canonical (s : State) (p : Packet) (h : s.MemoryCanonical) :
    (s.physWrite p).MemoryCanonical := by
  refine ⟨?_, ?_, ?_⟩
  · rw [State.physWrite_mem]
    split
    · exact wf_memPut _ _ _ h.1
    · exact h.1
  · rw [State.physWrite_tags]
    split
    · exact h.2.1
    · exact swf_tagPut _ _ _ h.2.1
  · rw [State.physWrite_poisoned]
    split
    · exact pairwise_setInsert _ h.2.2
    · exact pairwise_setErase _ h.2.2

/-- A tag write keeps tags canonical (R258). -/
theorem State.setTag_canonical (s : State) (g : Nat) (v : BitVec 4) (h : s.MemoryCanonical) :
    (s.setTag g v).MemoryCanonical := ⟨h.1, swf_sset _ _ h.2.1 (Nat.zero_le _), h.2.2⟩

/-- Memory is canonical wherever memory, tags and poison marks are those of a canonical state. -/
theorem State.MemoryCanonical.of_eq {s t : State} (h : s.MemoryCanonical) (hm : t.mem = s.mem) (ht : t.tags = s.tags)
    (hp : t.poisoned = s.poisoned) : t.MemoryCanonical := by
  unfold State.MemoryCanonical at *; rw [hm, ht, hp]; exact h

/-- Memory lists nothing after reset, and is canonical. -/
theorem wf_reset : Memory.wf State.reset.mem = true := rfl

end Sys2Proof.Machine
end

