-- ==== Sys2Proof/Laws/Recorder.lean ====
section
/-!
SUPPORT. What emitting a record and moving on to the next instruction may change: one lemma for each operation.
-/

namespace Sys2Proof.Machine

/-- Two states are the same but for the recorder: its emitters, and what the hubs' segments hold. -/
def sameButRecorder (s t : State) : Prop :=
  (∃ em hb, t = { s with emitters := em, hubs := hb }) ∧ sameUnits s t

theorem sameButRecorder.refl (s : State) : sameButRecorder s s :=
  ⟨⟨s.emitters, s.hubs, rfl⟩, fun _ => rfl, fun _ => rfl⟩

theorem sameButRecorder.trans {s t u : State} (h1 : sameButRecorder s t) (h2 : sameButRecorder t u) :
    sameButRecorder s u := by
  obtain ⟨⟨em, hb, rfl⟩, ha, hb'⟩ := h1
  obtain ⟨⟨em2, hb2, rfl⟩, hc, hd⟩ := h2
  exact ⟨⟨em2, hb2, rfl⟩, fun h => (hc h).trans (ha h), fun n => (hd n).trans (hb' n)⟩

/-- An entry kept by number has that number. -/
theorem key_getBy {α : Type} (key : α → Nat) (d : α) (l : List α) (n : Nat) (h : key d = n) :
    key (getBy key d l n) = n := by
  unfold getBy
  cases hx : l.find? fun x => key x == n with
  | none => simpa using h
  | some x => simpa using List.find?_some hx

theorem modHub_recorder (s : State) (h : Nat) (f : Hub → Hub)
    (hf : ∀ u : Hub, { f u with stele := {} } = { u with stele := {} }) : sameButRecorder s (s.modHub h f) := by
  refine ⟨⟨s.emitters, _, rfl⟩, fun n => ?_, fun _ => rfl⟩
  by_cases hn : h = n
  · subst hn
    rw [State.modHub_hub_same]
    have h2 : (s.hub h).num = h := key_getBy _ _ _ _ rfl
    have h3 := hf (s.hub h)
    rw [Hub.mk.injEq] at h3 ⊢
    simp [h3, h2]
  · rw [State.modHub_hub_other _ _ _ _ hn]

theorem modEmitter_recorder (s : State) (e : Nat) (f : Emitter → Emitter)
    (hf : ∀ m : Emitter, { f m with buffer := [], dropped := 0, firstKind := 0, lastKind := 0, firstTime := 0 } =
      { m with buffer := [], dropped := 0, firstKind := 0, lastKind := 0, firstTime := 0 }) :
    sameButRecorder s (s.modEmitter e f) := by
  refine ⟨⟨_, s.hubs, rfl⟩, fun _ => rfl, fun n => ?_⟩
  by_cases hn : e = n
  · subst hn
    rw [State.modEmitter_emitter_same]
    have h2 : (s.emitter e).num = e := key_getBy _ _ _ _ rfl
    have h3 := hf (s.emitter e)
    rw [Emitter.mk.injEq] at h3 ⊢
    simp [h3, h2]
  · rw [State.modEmitter_emitter_other _ _ _ _ hn]

theorem writeOldest_recorder (s : State) (e : Nat) : sameButRecorder s (s.writeOldest e) := by
  have hs : ∀ (s : State) h r, sameButRecorder s (s.toStele h r) := fun s h r => modHub_recorder _ _ _ fun _ => rfl
  unfold State.writeOldest
  dsimp only
  split
  · exact .refl s
  · refine .trans ?_ (modEmitter_recorder _ _ _ fun _ => rfl)
    exact hs _ _ _

theorem makeRoom_recorder (e : Nat) : ∀ (n : Nat) (s : State), sameButRecorder s (s.makeRoom e n)
  | 0, s => .refl s
  | n + 1, s => by
    unfold State.makeRoom
    split
    · exact .refl s
    · exact (writeOldest_recorder s e).trans (makeRoom_recorder e n _)

theorem pushKeep_recorder (s : State) (e : Nat) (r : EventRecord) : sameButRecorder s (s.pushKeep e r) :=
  (makeRoom_recorder _ _ _).trans (modEmitter_recorder _ _ _ fun _ => rfl)

theorem pushDrop_recorder (s : State) (e : Nat) : sameButRecorder s (s.pushDrop e) := by
  unfold State.pushDrop
  dsimp only
  split
  · exact .refl s
  · exact (pushKeep_recorder _ _ _).trans (modEmitter_recorder _ _ _ fun _ => rfl)

theorem push_recorder (s : State) (e : Nat) (r : EventRecord) : sameButRecorder s (s.push e r) := by
  unfold State.push
  split
  · exact pushKeep_recorder _ _ _
  · split
    · exact (pushDrop_recorder _ _).trans (modEmitter_recorder _ _ _ fun _ => rfl)
    · unfold State.countDrop
      refine .trans ?_ (modHub_recorder _ _ _ fun _ => rfl)
      exact modEmitter_recorder _ _ _ fun _ => rfl

/-- Emitting a record changes the recorder and nothing else. -/
theorem emit_recorder (s : State) (src : Src) (kind aux : Nat) (cid parent : Word) (payload : List Word) :
    sameButRecorder s (s.emit src kind aux cid parent payload) := push_recorder _ _ _

end Sys2Proof.Machine
end

