-- ==== Sys2Proof/Laws/Runs.lean ====
section
/-!
SUPPORT. Every instruction of the instruction set runs under the one shared gate.
-/

namespace Sys2Proof.Machine

/-- Executing this instruction is the gate, then an effect, then a move. -/
def Runs (i : Instr) : Prop :=
  ∃ (move : State → WKey → State) (f : Env → Act), ∀ s, exec i s = runWith move i s f

theorem runSeq_eq (i : Instr) (s : State) (f : Env → Act) : runSeq i s f = runWith State.advance i s f := rfl
theorem runRaw_eq (i : Instr) (s : State) (f : Env → Act) : runRaw i s f = runWith (fun s _ => s) i s f := rfl

theorem vec2_eq (i : Instr) (o : Ops MA) (s : State) (f : Nat → Nat → Nat) :
    vec2 i o s f = runWith State.advance i s fun e =>
      e.put i o.d (e.elemwise o.mod.ty o.mod.pk [e.w.srcShape o.a, e.w.srcShapeB o] none fun l k =>
        f (e.elem o.mod.ty o.a l k) (e.elemB o l k)) := rfl

theorem scalarInt_eq (i : Instr) (o : Ops MA) (s : State) (f : Int → Int → Int) :
    scalarInt i o s f = scalarOp i o s fun _ a b =>
      narrowInt o.mod.ty o.mod.sat (f (readInt o.mod.ty a) (readInt o.mod.ty b)) := rfl

theorem runs_nop o : Runs (.nop o) :=
  ⟨_, _, fun s => by
    rw [exec_nop]; unfold execNop
    exact runSeq_eq ..⟩
theorem runs_bra o : Runs (.bra o) :=
  ⟨_, _, fun s => by
    rw [exec_bra]; unfold execBra
    exact runRaw_eq ..⟩
theorem runs_brx o : Runs (.brx o) :=
  ⟨_, _, fun s => by
    rw [exec_brx]; unfold execBrx
    exact runRaw_eq ..⟩
theorem runs_call o : Runs (.call o) :=
  ⟨_, _, fun s => by
    rw [exec_call]; unfold execCall
    exact runRaw_eq ..⟩
theorem runs_callx o : Runs (.callx o) :=
  ⟨_, _, fun s => by
    rw [exec_callx]; unfold execCallx
    exact runRaw_eq ..⟩
theorem runs_ret o : Runs (.ret o) :=
  ⟨_, _, fun s => by
    rw [exec_ret]; unfold execRet
    exact runRaw_eq ..⟩
theorem runs_bc o : Runs (.bc o) :=
  ⟨_, _, fun s => by
    rw [exec_bc]; unfold execBc
    exact runRaw_eq ..⟩
theorem runs_bany o : Runs (.bany o) :=
  ⟨_, _, fun s => by
    rw [exec_bany]; unfold execBany
    exact runRaw_eq ..⟩
theorem runs_ball o : Runs (.ball o) :=
  ⟨_, _, fun s => by
    rw [exec_ball]; unfold execBall
    exact runRaw_eq ..⟩
theorem runs_vif o : Runs (.vif o) :=
  ⟨_, _, fun s => by
    rw [exec_vif]; unfold execVif
    exact runSeq_eq ..⟩
theorem runs_velse o : Runs (.velse o) :=
  ⟨_, _, fun s => by
    rw [exec_velse]; unfold execVelse
    exact runSeq_eq ..⟩
theorem runs_vend o : Runs (.vend o) :=
  ⟨_, _, fun s => by
    rw [exec_vend]; unfold execVend
    exact runSeq_eq ..⟩
theorem runs_vbrk o : Runs (.vbrk o) :=
  ⟨_, _, fun s => by
    rw [exec_vbrk]; unfold execVbrk
    exact runSeq_eq ..⟩
theorem runs_vcont o : Runs (.vcont o) :=
  ⟨_, _, fun s => by
    rw [exec_vcont]; unfold execVcont
    exact runSeq_eq ..⟩
theorem runs_lbrk o : Runs (.lbrk o) :=
  ⟨_, _, fun s => by
    rw [exec_lbrk]; unfold execLbrk
    exact runRaw_eq ..⟩
theorem runs_loop o : Runs (.loop o) :=
  ⟨_, _, fun s => by
    rw [exec_loop]; unfold execLoop
    exact runRaw_eq ..⟩
theorem runs_loopx o : Runs (.loopx o) :=
  ⟨_, _, fun s => by
    rw [exec_loopx]; unfold execLoopx
    exact runRaw_eq ..⟩
theorem runs_yield o : Runs (.yield o) :=
  ⟨_, _, fun s => by
    rw [exec_yield]; unfold execYield
    exact runSeq_eq ..⟩
theorem runs_sleep o : Runs (.sleep o) :=
  ⟨_, _, fun s => by
    rw [exec_sleep]; unfold execSleep
    exact runRaw_eq ..⟩
theorem runs_exit o : Runs (.exit o) :=
  ⟨_, _, fun s => by
    rw [exec_exit]; unfold execExit
    exact runRaw_eq ..⟩
theorem runs_bar o : Runs (.bar o) :=
  ⟨_, _, fun s => by
    rw [exec_bar]; unfold execBar
    exact runSeq_eq ..⟩
theorem runs_bara o : Runs (.bara o) :=
  ⟨_, _, fun s => by
    rw [exec_bara]; unfold execBara
    exact runSeq_eq ..⟩
theorem runs_barw o : Runs (.barw o) :=
  ⟨_, _, fun s => by
    rw [exec_barw]; unfold execBarw
    exact runSeq_eq ..⟩
theorem runs_waitc o : Runs (.waitc o) :=
  ⟨_, _, fun s => by
    rw [exec_waitc]; unfold execWaitc
    exact runSeq_eq ..⟩
theorem runs_waitp o : Runs (.waitp o) :=
  ⟨_, _, fun s => by
    rw [exec_waitp]; unfold execWaitp
    exact runSeq_eq ..⟩
theorem runs_trap o : Runs (.trap o) :=
  ⟨_, _, fun s => by
    rw [exec_trap]; unfold execTrap
    exact runRaw_eq ..⟩
theorem runs_bkpt o : Runs (.bkpt o) :=
  ⟨_, _, fun s => by
    rw [exec_bkpt]; unfold execBkpt
    exact runRaw_eq ..⟩
theorem runs_li o : Runs (.li o) :=
  ⟨_, _, fun s => by
    rw [exec_li]; unfold execLi
    exact runSeq_eq ..⟩
theorem runs_lih o : Runs (.lih o) :=
  ⟨_, _, fun s => by
    rw [exec_lih]; unfold execLih
    exact runSeq_eq ..⟩
theorem runs_sadd o : Runs (.sadd o) :=
  ⟨_, _, fun s => by
    rw [exec_sadd]; unfold execSadd
    rw [scalarInt_eq]; exact runSeq_eq ..⟩
theorem runs_ssub o : Runs (.ssub o) :=
  ⟨_, _, fun s => by
    rw [exec_ssub]; unfold execSsub
    rw [scalarInt_eq]; exact runSeq_eq ..⟩
theorem runs_smul o : Runs (.smul o) :=
  ⟨_, _, fun s => by
    rw [exec_smul]; unfold execSmul
    rw [scalarInt_eq]; exact runSeq_eq ..⟩
theorem runs_smulh o : Runs (.smulh o) :=
  ⟨_, _, fun s => by
    rw [exec_smulh]; unfold execSmulh
    rw [scalarInt_eq]; exact runSeq_eq ..⟩
theorem runs_sand o : Runs (.sand o) :=
  ⟨_, _, fun s => by
    rw [exec_sand]; unfold execSand
    exact runSeq_eq ..⟩
theorem runs_sor o : Runs (.sor o) :=
  ⟨_, _, fun s => by
    rw [exec_sor]; unfold execSor
    exact runSeq_eq ..⟩
theorem runs_sxor o : Runs (.sxor o) :=
  ⟨_, _, fun s => by
    rw [exec_sxor]; unfold execSxor
    exact runSeq_eq ..⟩
theorem runs_snot o : Runs (.snot o) :=
  ⟨_, _, fun s => by
    rw [exec_snot]; unfold execSnot
    exact runSeq_eq ..⟩
theorem runs_sshl o : Runs (.sshl o) :=
  ⟨_, _, fun s => by
    rw [exec_sshl]; unfold execSshl
    exact runSeq_eq ..⟩
theorem runs_sshr o : Runs (.sshr o) :=
  ⟨_, _, fun s => by
    rw [exec_sshr]; unfold execSshr
    exact runSeq_eq ..⟩
theorem runs_ssra o : Runs (.ssra o) :=
  ⟨_, _, fun s => by
    rw [exec_ssra]; unfold execSsra
    exact runSeq_eq ..⟩
theorem runs_smin o : Runs (.smin o) :=
  ⟨_, _, fun s => by
    rw [exec_smin]; unfold execSmin
    rw [scalarInt_eq]; exact runSeq_eq ..⟩
theorem runs_smax o : Runs (.smax o) :=
  ⟨_, _, fun s => by
    rw [exec_smax]; unfold execSmax
    rw [scalarInt_eq]; exact runSeq_eq ..⟩
theorem runs_sclz o : Runs (.sclz o) :=
  ⟨_, _, fun s => by
    rw [exec_sclz]; unfold execSclz
    exact runSeq_eq ..⟩
theorem runs_spopc o : Runs (.spopc o) :=
  ⟨_, _, fun s => by
    rw [exec_spopc]; unfold execSpopc
    exact runSeq_eq ..⟩
theorem runs_scmp o : Runs (.scmp o) :=
  ⟨_, _, fun s => by
    rw [exec_scmp]; unfold execScmp
    exact runSeq_eq ..⟩
theorem runs_ssel o : Runs (.ssel o) :=
  ⟨_, _, fun s => by
    rw [exec_ssel]; unfold execSsel
    exact runSeq_eq ..⟩
theorem runs_smov o : Runs (.smov o) :=
  ⟨_, _, fun s => by
    rw [exec_smov]; unfold execSmov
    exact runSeq_eq ..⟩
theorem runs_sext o : Runs (.sext o) :=
  ⟨_, _, fun s => by
    rw [exec_sext]; unfold execSext
    exact runSeq_eq ..⟩
theorem runs_sbfe o : Runs (.sbfe o) :=
  ⟨_, _, fun s => by
    rw [exec_sbfe]; unfold execSbfe
    exact runSeq_eq ..⟩
theorem runs_iadd o : Runs (.iadd o) :=
  ⟨_, _, fun s => by
    rw [exec_iadd]; unfold execIadd
    exact runSeq_eq ..⟩
theorem runs_isub o : Runs (.isub o) :=
  ⟨_, _, fun s => by
    rw [exec_isub]; unfold execIsub
    exact runSeq_eq ..⟩
theorem runs_imul24 o : Runs (.imul24 o) :=
  ⟨_, _, fun s => by
    rw [exec_imul24]; unfold execImul24
    exact vec2_eq ..⟩
theorem runs_imul o : Runs (.imul o) :=
  ⟨_, _, fun s => by
    rw [exec_imul]; unfold execImul
    exact runSeq_eq ..⟩
theorem runs_imulh o : Runs (.imulh o) :=
  ⟨_, _, fun s => by
    rw [exec_imulh]; unfold execImulh
    exact vec2_eq ..⟩
theorem runs_imad24 o : Runs (.imad24 o) :=
  ⟨_, _, fun s => by
    rw [exec_imad24]; unfold execImad24
    exact runSeq_eq ..⟩
theorem runs_iabs o : Runs (.iabs o) :=
  ⟨_, _, fun s => by
    rw [exec_iabs]; unfold execIabs
    exact runSeq_eq ..⟩
theorem runs_ineg o : Runs (.ineg o) :=
  ⟨_, _, fun s => by
    rw [exec_ineg]; unfold execIneg
    exact runSeq_eq ..⟩
theorem runs_imin o : Runs (.imin o) :=
  ⟨_, _, fun s => by
    rw [exec_imin]; unfold execImin
    exact vec2_eq ..⟩
theorem runs_imax o : Runs (.imax o) :=
  ⟨_, _, fun s => by
    rw [exec_imax]; unfold execImax
    exact vec2_eq ..⟩
theorem runs_iand o : Runs (.iand o) :=
  ⟨_, _, fun s => by
    rw [exec_iand]; unfold execIand
    exact vec2_eq ..⟩
theorem runs_ior o : Runs (.ior o) :=
  ⟨_, _, fun s => by
    rw [exec_ior]; unfold execIor
    exact vec2_eq ..⟩
theorem runs_ixor o : Runs (.ixor o) :=
  ⟨_, _, fun s => by
    rw [exec_ixor]; unfold execIxor
    exact vec2_eq ..⟩
theorem runs_inot o : Runs (.inot o) :=
  ⟨_, _, fun s => by
    rw [exec_inot]; unfold execInot
    exact runSeq_eq ..⟩
theorem runs_ishl o : Runs (.ishl o) :=
  ⟨_, _, fun s => by
    rw [exec_ishl]; unfold execIshl
    exact vec2_eq ..⟩
theorem runs_ishr o : Runs (.ishr o) :=
  ⟨_, _, fun s => by
    rw [exec_ishr]; unfold execIshr
    exact vec2_eq ..⟩
theorem runs_isra o : Runs (.isra o) :=
  ⟨_, _, fun s => by
    rw [exec_isra]; unfold execIsra
    exact vec2_eq ..⟩
theorem runs_irot o : Runs (.irot o) :=
  ⟨_, _, fun s => by
    rw [exec_irot]; unfold execIrot
    exact vec2_eq ..⟩
theorem runs_iclz o : Runs (.iclz o) :=
  ⟨_, _, fun s => by
    rw [exec_iclz]; unfold execIclz
    exact runSeq_eq ..⟩
theorem runs_ipopc o : Runs (.ipopc o) :=
  ⟨_, _, fun s => by
    rw [exec_ipopc]; unfold execIpopc
    exact runSeq_eq ..⟩
theorem runs_ibrev o : Runs (.ibrev o) :=
  ⟨_, _, fun s => by
    rw [exec_ibrev]; unfold execIbrev
    exact runSeq_eq ..⟩
theorem runs_ibfe o : Runs (.ibfe o) :=
  ⟨_, _, fun s => by
    rw [exec_ibfe]; unfold execIbfe
    exact vec2_eq ..⟩
theorem runs_ibfi o : Runs (.ibfi o) :=
  ⟨_, _, fun s => by
    rw [exec_ibfi]; unfold execIbfi
    exact runSeq_eq ..⟩
theorem runs_isel o : Runs (.isel o) :=
  ⟨_, _, fun s => by
    rw [exec_isel]; unfold execIsel
    exact runSeq_eq ..⟩
theorem runs_icmp o : Runs (.icmp o) :=
  ⟨_, _, fun s => by
    rw [exec_icmp]; unfold execIcmp
    exact runSeq_eq ..⟩
theorem runs_iaddc o : Runs (.iaddc o) :=
  ⟨_, _, fun s => by
    rw [exec_iaddc]; unfold execIaddc
    exact runSeq_eq ..⟩
theorem runs_isad o : Runs (.isad o) := by
  by_cases h : o.mod.sub = 1
  · exact ⟨_, _, fun s => by rw [exec_isad]; unfold execIsad; rw [if_pos h]; exact runSeq_eq ..⟩
  · exact ⟨_, _, fun s => by rw [exec_isad]; unfold execIsad; rw [if_neg h]; exact vec2_eq ..⟩
theorem runs_iavg o : Runs (.iavg o) :=
  ⟨_, _, fun s => by
    rw [exec_iavg]; unfold execIavg
    exact vec2_eq ..⟩
theorem runs_idp4 o : Runs (.idp4 o) :=
  ⟨_, _, fun s => by
    rw [exec_idp4]; unfold execIdp4
    exact runSeq_eq ..⟩
theorem runs_iext o : Runs (.iext o) :=
  ⟨_, _, fun s => by
    rw [exec_iext]; unfold execIext
    exact vec2_eq ..⟩
theorem runs_ilop3 o : Runs (.ilop3 o) :=
  ⟨_, _, fun s => by
    rw [exec_ilop3]; unfold execIlop3
    exact runSeq_eq ..⟩
theorem runs_ishfd o : Runs (.ishfd o) :=
  ⟨_, _, fun s => by
    rw [exec_ishfd]; unfold execIshfd
    exact runSeq_eq ..⟩
theorem runs_fadd o : Runs (.fadd o) :=
  ⟨_, _, fun s => by
    rw [exec_fadd]; unfold execFadd
    exact runSeq_eq ..⟩
theorem runs_fsub o : Runs (.fsub o) :=
  ⟨_, _, fun s => by
    rw [exec_fsub]; unfold execFsub
    exact runSeq_eq ..⟩
theorem runs_fmul o : Runs (.fmul o) :=
  ⟨_, _, fun s => by
    rw [exec_fmul]; unfold execFmul
    exact runSeq_eq ..⟩
theorem runs_fma o : Runs (.fma o) :=
  ⟨_, _, fun s => by
    rw [exec_fma]; unfold execFma
    exact runSeq_eq ..⟩
theorem runs_fnma o : Runs (.fnma o) :=
  ⟨_, _, fun s => by
    rw [exec_fnma]; unfold execFnma
    exact runSeq_eq ..⟩
theorem runs_fms o : Runs (.fms o) :=
  ⟨_, _, fun s => by
    rw [exec_fms]; unfold execFms
    exact runSeq_eq ..⟩
theorem runs_fnms o : Runs (.fnms o) :=
  ⟨_, _, fun s => by
    rw [exec_fnms]; unfold execFnms
    exact runSeq_eq ..⟩
theorem runs_fmin o : Runs (.fmin o) :=
  ⟨_, _, fun s => by
    rw [exec_fmin]; unfold execFmin
    exact runSeq_eq ..⟩
theorem runs_fmax o : Runs (.fmax o) :=
  ⟨_, _, fun s => by
    rw [exec_fmax]; unfold execFmax
    exact runSeq_eq ..⟩
theorem runs_fabs o : Runs (.fabs o) :=
  ⟨_, _, fun s => by
    rw [exec_fabs]; unfold execFabs
    exact runSeq_eq ..⟩
theorem runs_fneg o : Runs (.fneg o) :=
  ⟨_, _, fun s => by
    rw [exec_fneg]; unfold execFneg
    exact runSeq_eq ..⟩
theorem runs_fcpsgn o : Runs (.fcpsgn o) :=
  ⟨_, _, fun s => by
    rw [exec_fcpsgn]; unfold execFcpsgn
    exact vec2_eq ..⟩
theorem runs_fcmp o : Runs (.fcmp o) :=
  ⟨_, _, fun s => by
    rw [exec_fcmp]; unfold execFcmp
    exact runSeq_eq ..⟩
theorem runs_fclass o : Runs (.fclass o) :=
  ⟨_, _, fun s => by
    rw [exec_fclass]; unfold execFclass
    exact runSeq_eq ..⟩
theorem runs_frcp o : Runs (.frcp o) :=
  ⟨_, _, fun s => by
    rw [exec_frcp]; unfold execFrcp
    exact runSeq_eq ..⟩
theorem runs_frnd o : Runs (.frnd o) :=
  ⟨_, _, fun s => by
    rw [exec_frnd]; unfold execFrnd
    exact runSeq_eq ..⟩
theorem runs_fscale o : Runs (.fscale o) :=
  ⟨_, _, fun s => by
    rw [exec_fscale]; unfold execFscale
    exact runSeq_eq ..⟩
theorem runs_fexpt o : Runs (.fexpt o) :=
  ⟨_, _, fun s => by
    rw [exec_fexpt]; unfold execFexpt
    exact runSeq_eq ..⟩
theorem runs_fmant o : Runs (.fmant o) :=
  ⟨_, _, fun s => by
    rw [exec_fmant]; unfold execFmant
    exact runSeq_eq ..⟩
theorem runs_fdot2 o : Runs (.fdot2 o) :=
  ⟨_, _, fun s => by
    rw [exec_fdot2]; unfold execFdot2
    exact runSeq_eq ..⟩
theorem runs_fsat o : Runs (.fsat o) :=
  ⟨_, _, fun s => by
    rw [exec_fsat]; unfold execFsat
    exact runSeq_eq ..⟩
theorem runs_cvt o : Runs (.cvt o) :=
  ⟨_, _, fun s => by
    rw [exec_cvt]; unfold execCvt
    exact runSeq_eq ..⟩
theorem runs_cvtmx o : Runs (.cvtmx o) :=
  ⟨_, _, fun s => by
    rw [exec_cvtmx]; unfold execCvtmx
    exact runSeq_eq ..⟩
theorem runs_cvtsc o : Runs (.cvtsc o) :=
  ⟨_, _, fun s => by
    rw [exec_cvtsc]; unfold execCvtsc
    exact runSeq_eq ..⟩
theorem runs_flgr o : Runs (.flgr o) :=
  ⟨_, _, fun s => by
    rw [exec_flgr]; unfold execFlgr
    exact runSeq_eq ..⟩
theorem runs_flgc o : Runs (.flgc o) :=
  ⟨_, _, fun s => by
    rw [exec_flgc]; unfold execFlgc
    exact runSeq_eq ..⟩
theorem runs_csin o : Runs (.csin o) :=
  ⟨_, _, fun s => by
    rw [exec_csin]; unfold execCsin
    exact runSeq_eq ..⟩
theorem runs_ccos o : Runs (.ccos o) :=
  ⟨_, _, fun s => by
    rw [exec_ccos]; unfold execCcos
    exact runSeq_eq ..⟩
theorem runs_catan o : Runs (.catan o) :=
  ⟨_, _, fun s => by
    rw [exec_catan]; unfold execCatan
    exact runSeq_eq ..⟩
theorem runs_cexp2 o : Runs (.cexp2 o) :=
  ⟨_, _, fun s => by
    rw [exec_cexp2]; unfold execCexp2
    exact runSeq_eq ..⟩
theorem runs_clog2 o : Runs (.clog2 o) :=
  ⟨_, _, fun s => by
    rw [exec_clog2]; unfold execClog2
    exact runSeq_eq ..⟩
theorem runs_ctanh o : Runs (.ctanh o) :=
  ⟨_, _, fun s => by
    rw [exec_ctanh]; unfold execCtanh
    exact runSeq_eq ..⟩
theorem runs_crsq o : Runs (.crsq o) :=
  ⟨_, _, fun s => by
    rw [exec_crsq]; unfold execCrsq
    exact runSeq_eq ..⟩
theorem runs_csqrt o : Runs (.csqrt o) :=
  ⟨_, _, fun s => by
    rw [exec_csqrt]; unfold execCsqrt
    exact runSeq_eq ..⟩
theorem runs_shfl o : Runs (.shfl o) :=
  ⟨_, _, fun s => by
    rw [exec_shfl]; unfold execShfl
    exact runSeq_eq ..⟩
theorem runs_bcast o : Runs (.bcast o) :=
  ⟨_, _, fun s => by
    rw [exec_bcast]; unfold execBcast
    exact runSeq_eq ..⟩
theorem runs_vote o : Runs (.vote o) :=
  ⟨_, _, fun s => by
    rw [exec_vote]; unfold execVote
    exact runSeq_eq ..⟩
theorem runs_matchX o : Runs (.matchX o) :=
  ⟨_, _, fun s => by
    rw [exec_matchX]; unfold execMatchX
    exact runSeq_eq ..⟩
theorem runs_redx o : Runs (.redx o) :=
  ⟨_, _, fun s => by
    rw [exec_redx]; unfold execRedx
    exact runSeq_eq ..⟩
theorem runs_scanx o : Runs (.scanx o) :=
  ⟨_, _, fun s => by
    rw [exec_scanx]; unfold execScanx
    exact runSeq_eq ..⟩
theorem runs_perm o : Runs (.perm o) :=
  ⟨_, _, fun s => by
    rw [exec_perm]; unfold execPerm
    exact runSeq_eq ..⟩
theorem runs_mov o : Runs (.mov o) :=
  ⟨_, _, fun s => by
    rw [exec_mov]; unfold execMov
    exact runSeq_eq ..⟩
theorem runs_movi o : Runs (.movi o) :=
  ⟨_, _, fun s => by
    rw [exec_movi]; unfold execMovi
    exact runSeq_eq ..⟩
theorem runs_shape o : Runs (.shape o) :=
  ⟨_, _, fun s => by
    rw [exec_shape]; unfold execShape
    exact runSeq_eq ..⟩
theorem runs_mkaff o : Runs (.mkaff o) :=
  ⟨_, _, fun s => by
    rw [exec_mkaff]; unfold execMkaff
    exact runSeq_eq ..⟩
theorem runs_expand o : Runs (.expand o) :=
  ⟨_, _, fun s => by
    rw [exec_expand]; unfold execExpand
    exact runSeq_eq ..⟩
theorem runs_xset o : Runs (.xset o) :=
  ⟨_, _, fun s => by
    rw [exec_xset]; unfold execXset
    exact runSeq_eq ..⟩
theorem runs_xmov o : Runs (.xmov o) :=
  ⟨_, _, fun s => by
    rw [exec_xmov]; unfold execXmov
    exact runSeq_eq ..⟩
theorem runs_fld o : Runs (.fld o) :=
  ⟨_, _, fun s => by
    rw [exec_fld]; unfold execFld
    exact runSeq_eq ..⟩
theorem runs_mma o : Runs (.mma o) :=
  ⟨_, _, fun s => by
    rw [exec_mma]; unfold execMma
    exact runSeq_eq ..⟩
theorem runs_accz o : Runs (.accz o) :=
  ⟨_, _, fun s => by
    rw [exec_accz]; unfold execAccz
    exact runSeq_eq ..⟩
theorem runs_accld o : Runs (.accld o) :=
  ⟨_, _, fun s => by
    rw [exec_accld]; unfold execAccld
    exact runSeq_eq ..⟩
theorem runs_accst o : Runs (.accst o) :=
  ⟨_, _, fun s => by
    rw [exec_accst]; unfold execAccst
    exact runSeq_eq ..⟩
theorem runs_accrd o : Runs (.accrd o) :=
  ⟨_, _, fun s => by
    rw [exec_accrd]; unfold execAccrd
    exact runSeq_eq ..⟩
theorem runs_accwr o : Runs (.accwr o) :=
  ⟨_, _, fun s => by
    rw [exec_accwr]; unfold execAccwr
    exact runSeq_eq ..⟩
theorem runs_bton o : Runs (.bton o) :=
  ⟨_, _, fun s => by
    rw [exec_bton]; unfold execBton
    exact runSeq_eq ..⟩
theorem runs_btpass o : Runs (.btpass o) :=
  ⟨_, _, fun s => by
    rw [exec_btpass]; unfold execBtpass
    exact runSeq_eq ..⟩
theorem runs_btq o : Runs (.btq o) :=
  ⟨_, _, fun s => by
    rw [exec_btq]; unfold execBtq
    exact runSeq_eq ..⟩
theorem runs_fldsc o : Runs (.fldsc o) :=
  ⟨_, _, fun s => by
    rw [exec_fldsc]; unfold execFldsc
    exact runSeq_eq ..⟩
theorem runs_acccp o : Runs (.acccp o) :=
  ⟨_, _, fun s => by
    rw [exec_acccp]; unfold execAcccp
    exact runSeq_eq ..⟩
theorem runs_lds o : Runs (.lds o) :=
  ⟨_, _, fun s => by
    rw [exec_lds]; unfold execLds
    exact runSeq_eq ..⟩
theorem runs_sts o : Runs (.sts o) :=
  ⟨_, _, fun s => by
    rw [exec_sts]; unfold execSts
    exact runSeq_eq ..⟩
theorem runs_atoms o : Runs (.atoms o) :=
  ⟨_, _, fun s => by
    rw [exec_atoms]; unfold execAtoms
    exact runSeq_eq ..⟩
theorem runs_spinv o : Runs (.spinv o) :=
  ⟨_, _, fun s => by
    rw [exec_spinv]; unfold execSpinv
    exact runSeq_eq ..⟩
theorem runs_spstat o : Runs (.spstat o) :=
  ⟨_, _, fun s => by
    rw [exec_spstat]; unfold execSpstat
    exact runSeq_eq ..⟩
theorem runs_ldsx o : Runs (.ldsx o) :=
  ⟨_, _, fun s => by
    rw [exec_ldsx]; unfold execLdsx
    exact runSeq_eq ..⟩
theorem runs_stsx o : Runs (.stsx o) :=
  ⟨_, _, fun s => by
    rw [exec_stsx]; unfold execStsx
    exact runSeq_eq ..⟩
theorem runs_reds o : Runs (.reds o) :=
  ⟨_, _, fun s => by
    rw [exec_reds]; unfold execReds
    exact runSeq_eq ..⟩
theorem runs_spfill o : Runs (.spfill o) :=
  ⟨_, _, fun s => by
    rw [exec_spfill]; unfold execSpfill
    exact runSeq_eq ..⟩
theorem runs_ld o : Runs (.ld o) :=
  ⟨_, _, fun s => by
    rw [exec_ld]; unfold execLd
    exact runSeq_eq ..⟩
theorem runs_st o : Runs (.st o) :=
  ⟨_, _, fun s => by
    rw [exec_st]; unfold execSt
    exact runSeq_eq ..⟩
theorem runs_atom o : Runs (.atom o) :=
  ⟨_, _, fun s => by
    rw [exec_atom]; unfold execAtom
    exact runSeq_eq ..⟩
theorem runs_red o : Runs (.red o) :=
  ⟨_, _, fun s => by
    rw [exec_red]; unfold execRed
    exact runSeq_eq ..⟩
theorem runs_ldr o : Runs (.ldr o) :=
  ⟨_, _, fun s => by
    rw [exec_ldr]; unfold execLdr
    exact runSeq_eq ..⟩
theorem runs_str o : Runs (.str o) :=
  ⟨_, _, fun s => by
    rw [exec_str]; unfold execStr
    exact runSeq_eq ..⟩
theorem runs_redr o : Runs (.redr o) :=
  ⟨_, _, fun s => by
    rw [exec_redr]; unfold execRedr
    exact runSeq_eq ..⟩
theorem runs_pref o : Runs (.pref o) :=
  ⟨_, _, fun s => by
    rw [exec_pref]; unfold execPref
    exact runSeq_eq ..⟩
theorem runs_fence o : Runs (.fence o) :=
  ⟨_, _, fun s => by
    rw [exec_fence]; unfold execFence
    exact runSeq_eq ..⟩
theorem runs_fencex o : Runs (.fencex o) :=
  ⟨_, _, fun s => by
    rw [exec_fencex]; unfold execFencex
    exact runSeq_eq ..⟩
theorem runs_l1inv o : Runs (.l1inv o) :=
  ⟨_, _, fun s => by
    rw [exec_l1inv]; unfold execL1inv
    exact runSeq_eq ..⟩
theorem runs_l1wb o : Runs (.l1wb o) :=
  ⟨_, _, fun s => by
    rw [exec_l1wb]; unfold execL1wb
    exact runSeq_eq ..⟩
theorem runs_sld o : Runs (.sld o) :=
  ⟨_, _, fun s => by
    rw [exec_sld]; unfold execSld
    exact runSeq_eq ..⟩
theorem runs_sst o : Runs (.sst o) :=
  ⟨_, _, fun s => by
    rw [exec_sst]; unfold execSst
    exact runSeq_eq ..⟩
theorem runs_satom o : Runs (.satom o) :=
  ⟨_, _, fun s => by
    rw [exec_satom]; unfold execSatom
    exact runSeq_eq ..⟩
theorem runs_cpy o : Runs (.cpy o) :=
  ⟨_, _, fun s => by
    rw [exec_cpy]; unfold execCpy
    exact runSeq_eq ..⟩
theorem runs_cpys o : Runs (.cpys o) :=
  ⟨_, _, fun s => by
    rw [exec_cpys]; unfold execCpys
    exact runSeq_eq ..⟩
theorem runs_cpyg o : Runs (.cpyg o) :=
  ⟨_, _, fun s => by
    rw [exec_cpyg]; unfold execCpyg
    exact runSeq_eq ..⟩
theorem runs_cpygat o : Runs (.cpygat o) :=
  ⟨_, _, fun s => by
    rw [exec_cpygat]; unfold execCpygat
    exact runSeq_eq ..⟩
theorem runs_cpyq o : Runs (.cpyq o) :=
  ⟨_, _, fun s => by
    rw [exec_cpyq]; unfold execCpyq
    exact runSeq_eq ..⟩
theorem runs_tagst o : Runs (.tagst o) :=
  ⟨_, _, fun s => by
    rw [exec_tagst]; unfold execTagst
    exact runSeq_eq ..⟩
theorem runs_tagld o : Runs (.tagld o) :=
  ⟨_, _, fun s => by
    rw [exec_tagld]; unfold execTagld
    exact runSeq_eq ..⟩
theorem runs_tagset o : Runs (.tagset o) :=
  ⟨_, _, fun s => by
    rw [exec_tagset]; unfold execTagset
    exact runSeq_eq ..⟩
theorem runs_watch o : Runs (.watch o) :=
  ⟨_, _, fun s => by
    rw [exec_watch]; unfold execWatch
    exact runSeq_eq ..⟩
theorem runs_unwatch o : Runs (.unwatch o) :=
  ⟨_, _, fun s => by
    rw [exec_unwatch]; unfold execUnwatch
    exact runSeq_eq ..⟩
theorem runs_watchq o : Runs (.watchq o) :=
  ⟨_, _, fun s => by
    rw [exec_watchq]; unfold execWatchq
    exact runSeq_eq ..⟩
theorem runs_emit o : Runs (.emit o) :=
  ⟨_, _, fun s => by
    rw [exec_emit]; unfold execEmit
    exact runRaw_eq ..⟩
theorem runs_emitn o : Runs (.emitn o) :=
  ⟨_, _, fun s => by
    rw [exec_emitn]; unfold execEmitn
    exact runRaw_eq ..⟩
theorem runs_emitq o : Runs (.emitq o) :=
  ⟨_, _, fun s => by
    rw [exec_emitq]; unfold execEmitq
    exact runSeq_eq ..⟩
theorem runs_fsopen o : Runs (.fsopen o) :=
  ⟨_, _, fun s => by
    rw [exec_fsopen]; unfold execFsopen
    exact runRaw_eq ..⟩
theorem runs_fsclose o : Runs (.fsclose o) :=
  ⟨_, _, fun s => by
    rw [exec_fsclose]; unfold execFsclose
    exact runRaw_eq ..⟩
theorem runs_fswait o : Runs (.fswait o) :=
  ⟨_, _, fun s => by
    rw [exec_fswait]; unfold execFswait
    exact runRaw_eq ..⟩
theorem runs_fsjoin o : Runs (.fsjoin o) :=
  ⟨_, _, fun s => by
    rw [exec_fsjoin]; unfold execFsjoin
    exact runRaw_eq ..⟩
theorem runs_fsstat o : Runs (.fsstat o) :=
  ⟨_, _, fun s => by
    rw [exec_fsstat]; unfold execFsstat
    exact runRaw_eq ..⟩
theorem runs_sigdec o : Runs (.sigdec o) :=
  ⟨_, _, fun s => by
    rw [exec_sigdec]; unfold execSigdec
    exact runRaw_eq ..⟩
theorem runs_sigadd o : Runs (.sigadd o) :=
  ⟨_, _, fun s => by
    rw [exec_sigadd]; unfold execSigadd
    exact runRaw_eq ..⟩
theorem runs_sigwait o : Runs (.sigwait o) :=
  ⟨_, _, fun s => by
    rw [exec_sigwait]; unfold execSigwait
    exact runRaw_eq ..⟩
theorem runs_csend o : Runs (.csend o) :=
  ⟨_, _, fun s => by
    rw [exec_csend]; unfold execCsend
    exact runSeq_eq ..⟩
theorem runs_crecv o : Runs (.crecv o) :=
  ⟨_, _, fun s => by
    rw [exec_crecv]; unfold execCrecv
    exact runSeq_eq ..⟩
theorem runs_crrs o : Runs (.crrs o) :=
  ⟨_, _, fun s => by
    rw [exec_crrs]; unfold execCrrs
    exact runSeq_eq ..⟩
theorem runs_ccopy o : Runs (.ccopy o) :=
  ⟨_, _, fun s => by
    rw [exec_ccopy]; unfold execCcopy
    exact runSeq_eq ..⟩
theorem runs_cwait o : Runs (.cwait o) :=
  ⟨_, _, fun s => by
    rw [exec_cwait]; unfold execCwait
    exact runSeq_eq ..⟩
theorem runs_cpeer o : Runs (.cpeer o) :=
  ⟨_, _, fun s => by
    rw [exec_cpeer]; unfold execCpeer
    exact runSeq_eq ..⟩
theorem runs_cbar o : Runs (.cbar o) :=
  ⟨_, _, fun s => by
    rw [exec_cbar]; unfold execCbar
    exact runRaw_eq ..⟩
theorem runs_cdone o : Runs (.cdone o) :=
  ⟨_, _, fun s => by
    rw [exec_cdone]; unfold execCdone
    exact runRaw_eq ..⟩
theorem runs_crank o : Runs (.crank o) :=
  ⟨_, _, fun s => by
    rw [exec_crank]; unfold execCrank
    exact runSeq_eq ..⟩
theorem runs_evt o : Runs (.evt o) :=
  ⟨_, _, fun s => by
    rw [exec_evt]; unfold execEvt
    exact runSeq_eq ..⟩
theorem runs_clkr o : Runs (.clkr o) :=
  ⟨_, _, fun s => by
    rw [exec_clkr]; unfold execClkr
    exact runSeq_eq ..⟩
theorem runs_causer o : Runs (.causer o) :=
  ⟨_, _, fun s => by
    rw [exec_causer]; unfold execCauser
    exact runSeq_eq ..⟩
theorem runs_rng o : Runs (.rng o) :=
  ⟨_, _, fun s => by
    rw [exec_rng]; unfold execRng
    exact runSeq_eq ..⟩
theorem runs_evtp o : Runs (.evtp o) :=
  ⟨_, _, fun s => by
    rw [exec_evtp]; unfold execEvtp
    exact runSeq_eq ..⟩
theorem runs_sysr o : Runs (.sysr o) :=
  ⟨_, _, fun s => by
    rw [exec_sysr]; unfold execSysr
    exact runSeq_eq ..⟩
theorem runs_sysw o : Runs (.sysw o) :=
  ⟨_, _, fun s => by
    rw [exec_sysw]; unfold execSysw
    exact runSeq_eq ..⟩
theorem runs_icinv o : Runs (.icinv o) :=
  ⟨_, _, fun s => by
    rw [exec_icinv]; unfold execIcinv
    exact runRaw_eq ..⟩
theorem runs_dbgh o : Runs (.dbgh o) :=
  ⟨_, _, fun s => by
    rw [exec_dbgh]; unfold execDbgh
    exact runRaw_eq ..⟩
theorem runs_pwrq o : Runs (.pwrq o) :=
  ⟨_, _, fun s => by
    rw [exec_pwrq]; unfold execPwrq
    exact runSeq_eq ..⟩

/-- An instruction runs under the gate, or is one of the machine's own events. -/
theorem runs_or (i : Instr) : i.sig = none ∨ Runs i :=
  match i with
  | .nop _ => .inr (runs_nop _)
  | .bra _ => .inr (runs_bra _)
  | .brx _ => .inr (runs_brx _)
  | .call _ => .inr (runs_call _)
  | .callx _ => .inr (runs_callx _)
  | .ret _ => .inr (runs_ret _)
  | .bc _ => .inr (runs_bc _)
  | .bany _ => .inr (runs_bany _)
  | .ball _ => .inr (runs_ball _)
  | .vif _ => .inr (runs_vif _)
  | .velse _ => .inr (runs_velse _)
  | .vend _ => .inr (runs_vend _)
  | .vbrk _ => .inr (runs_vbrk _)
  | .vcont _ => .inr (runs_vcont _)
  | .lbrk _ => .inr (runs_lbrk _)
  | .loop _ => .inr (runs_loop _)
  | .loopx _ => .inr (runs_loopx _)
  | .yield _ => .inr (runs_yield _)
  | .sleep _ => .inr (runs_sleep _)
  | .exit _ => .inr (runs_exit _)
  | .bar _ => .inr (runs_bar _)
  | .bara _ => .inr (runs_bara _)
  | .barw _ => .inr (runs_barw _)
  | .waitc _ => .inr (runs_waitc _)
  | .waitp _ => .inr (runs_waitp _)
  | .trap _ => .inr (runs_trap _)
  | .bkpt _ => .inr (runs_bkpt _)
  | .li _ => .inr (runs_li _)
  | .lih _ => .inr (runs_lih _)
  | .sadd _ => .inr (runs_sadd _)
  | .ssub _ => .inr (runs_ssub _)
  | .smul _ => .inr (runs_smul _)
  | .smulh _ => .inr (runs_smulh _)
  | .sand _ => .inr (runs_sand _)
  | .sor _ => .inr (runs_sor _)
  | .sxor _ => .inr (runs_sxor _)
  | .snot _ => .inr (runs_snot _)
  | .sshl _ => .inr (runs_sshl _)
  | .sshr _ => .inr (runs_sshr _)
  | .ssra _ => .inr (runs_ssra _)
  | .smin _ => .inr (runs_smin _)
  | .smax _ => .inr (runs_smax _)
  | .sclz _ => .inr (runs_sclz _)
  | .spopc _ => .inr (runs_spopc _)
  | .scmp _ => .inr (runs_scmp _)
  | .ssel _ => .inr (runs_ssel _)
  | .smov _ => .inr (runs_smov _)
  | .sext _ => .inr (runs_sext _)
  | .sbfe _ => .inr (runs_sbfe _)
  | .iadd _ => .inr (runs_iadd _)
  | .isub _ => .inr (runs_isub _)
  | .imul24 _ => .inr (runs_imul24 _)
  | .imul _ => .inr (runs_imul _)
  | .imulh _ => .inr (runs_imulh _)
  | .imad24 _ => .inr (runs_imad24 _)
  | .iabs _ => .inr (runs_iabs _)
  | .ineg _ => .inr (runs_ineg _)
  | .imin _ => .inr (runs_imin _)
  | .imax _ => .inr (runs_imax _)
  | .iand _ => .inr (runs_iand _)
  | .ior _ => .inr (runs_ior _)
  | .ixor _ => .inr (runs_ixor _)
  | .inot _ => .inr (runs_inot _)
  | .ishl _ => .inr (runs_ishl _)
  | .ishr _ => .inr (runs_ishr _)
  | .isra _ => .inr (runs_isra _)
  | .irot _ => .inr (runs_irot _)
  | .iclz _ => .inr (runs_iclz _)
  | .ipopc _ => .inr (runs_ipopc _)
  | .ibrev _ => .inr (runs_ibrev _)
  | .ibfe _ => .inr (runs_ibfe _)
  | .ibfi _ => .inr (runs_ibfi _)
  | .isel _ => .inr (runs_isel _)
  | .icmp _ => .inr (runs_icmp _)
  | .iaddc _ => .inr (runs_iaddc _)
  | .isad _ => .inr (runs_isad _)
  | .iavg _ => .inr (runs_iavg _)
  | .idp4 _ => .inr (runs_idp4 _)
  | .iext _ => .inr (runs_iext _)
  | .ilop3 _ => .inr (runs_ilop3 _)
  | .ishfd _ => .inr (runs_ishfd _)
  | .fadd _ => .inr (runs_fadd _)
  | .fsub _ => .inr (runs_fsub _)
  | .fmul _ => .inr (runs_fmul _)
  | .fma _ => .inr (runs_fma _)
  | .fnma _ => .inr (runs_fnma _)
  | .fms _ => .inr (runs_fms _)
  | .fnms _ => .inr (runs_fnms _)
  | .fmin _ => .inr (runs_fmin _)
  | .fmax _ => .inr (runs_fmax _)
  | .fabs _ => .inr (runs_fabs _)
  | .fneg _ => .inr (runs_fneg _)
  | .fcpsgn _ => .inr (runs_fcpsgn _)
  | .fcmp _ => .inr (runs_fcmp _)
  | .fclass _ => .inr (runs_fclass _)
  | .frcp _ => .inr (runs_frcp _)
  | .frnd _ => .inr (runs_frnd _)
  | .fscale _ => .inr (runs_fscale _)
  | .fexpt _ => .inr (runs_fexpt _)
  | .fmant _ => .inr (runs_fmant _)
  | .fdot2 _ => .inr (runs_fdot2 _)
  | .fsat _ => .inr (runs_fsat _)
  | .cvt _ => .inr (runs_cvt _)
  | .cvtmx _ => .inr (runs_cvtmx _)
  | .cvtsc _ => .inr (runs_cvtsc _)
  | .flgr _ => .inr (runs_flgr _)
  | .flgc _ => .inr (runs_flgc _)
  | .csin _ => .inr (runs_csin _)
  | .ccos _ => .inr (runs_ccos _)
  | .catan _ => .inr (runs_catan _)
  | .cexp2 _ => .inr (runs_cexp2 _)
  | .clog2 _ => .inr (runs_clog2 _)
  | .ctanh _ => .inr (runs_ctanh _)
  | .crsq _ => .inr (runs_crsq _)
  | .csqrt _ => .inr (runs_csqrt _)
  | .shfl _ => .inr (runs_shfl _)
  | .bcast _ => .inr (runs_bcast _)
  | .vote _ => .inr (runs_vote _)
  | .matchX _ => .inr (runs_matchX _)
  | .redx _ => .inr (runs_redx _)
  | .scanx _ => .inr (runs_scanx _)
  | .perm _ => .inr (runs_perm _)
  | .mov _ => .inr (runs_mov _)
  | .movi _ => .inr (runs_movi _)
  | .shape _ => .inr (runs_shape _)
  | .mkaff _ => .inr (runs_mkaff _)
  | .expand _ => .inr (runs_expand _)
  | .xset _ => .inr (runs_xset _)
  | .xmov _ => .inr (runs_xmov _)
  | .fld _ => .inr (runs_fld _)
  | .mma _ => .inr (runs_mma _)
  | .accz _ => .inr (runs_accz _)
  | .accld _ => .inr (runs_accld _)
  | .accst _ => .inr (runs_accst _)
  | .accrd _ => .inr (runs_accrd _)
  | .accwr _ => .inr (runs_accwr _)
  | .bton _ => .inr (runs_bton _)
  | .btpass _ => .inr (runs_btpass _)
  | .btq _ => .inr (runs_btq _)
  | .fldsc _ => .inr (runs_fldsc _)
  | .acccp _ => .inr (runs_acccp _)
  | .lds _ => .inr (runs_lds _)
  | .sts _ => .inr (runs_sts _)
  | .atoms _ => .inr (runs_atoms _)
  | .spinv _ => .inr (runs_spinv _)
  | .spstat _ => .inr (runs_spstat _)
  | .ldsx _ => .inr (runs_ldsx _)
  | .stsx _ => .inr (runs_stsx _)
  | .reds _ => .inr (runs_reds _)
  | .spfill _ => .inr (runs_spfill _)
  | .ld _ => .inr (runs_ld _)
  | .st _ => .inr (runs_st _)
  | .atom _ => .inr (runs_atom _)
  | .red _ => .inr (runs_red _)
  | .ldr _ => .inr (runs_ldr _)
  | .str _ => .inr (runs_str _)
  | .redr _ => .inr (runs_redr _)
  | .pref _ => .inr (runs_pref _)
  | .fence _ => .inr (runs_fence _)
  | .fencex _ => .inr (runs_fencex _)
  | .l1inv _ => .inr (runs_l1inv _)
  | .l1wb _ => .inr (runs_l1wb _)
  | .sld _ => .inr (runs_sld _)
  | .sst _ => .inr (runs_sst _)
  | .satom _ => .inr (runs_satom _)
  | .cpy _ => .inr (runs_cpy _)
  | .cpys _ => .inr (runs_cpys _)
  | .cpyg _ => .inr (runs_cpyg _)
  | .cpygat _ => .inr (runs_cpygat _)
  | .cpyq _ => .inr (runs_cpyq _)
  | .tagst _ => .inr (runs_tagst _)
  | .tagld _ => .inr (runs_tagld _)
  | .tagset _ => .inr (runs_tagset _)
  | .watch _ => .inr (runs_watch _)
  | .unwatch _ => .inr (runs_unwatch _)
  | .watchq _ => .inr (runs_watchq _)
  | .emit _ => .inr (runs_emit _)
  | .emitn _ => .inr (runs_emitn _)
  | .emitq _ => .inr (runs_emitq _)
  | .fsopen _ => .inr (runs_fsopen _)
  | .fsclose _ => .inr (runs_fsclose _)
  | .fswait _ => .inr (runs_fswait _)
  | .fsjoin _ => .inr (runs_fsjoin _)
  | .fsstat _ => .inr (runs_fsstat _)
  | .sigdec _ => .inr (runs_sigdec _)
  | .sigadd _ => .inr (runs_sigadd _)
  | .sigwait _ => .inr (runs_sigwait _)
  | .csend _ => .inr (runs_csend _)
  | .crecv _ => .inr (runs_crecv _)
  | .crrs _ => .inr (runs_crrs _)
  | .ccopy _ => .inr (runs_ccopy _)
  | .cwait _ => .inr (runs_cwait _)
  | .cpeer _ => .inr (runs_cpeer _)
  | .cbar _ => .inr (runs_cbar _)
  | .cdone _ => .inr (runs_cdone _)
  | .crank _ => .inr (runs_crank _)
  | .evt _ => .inr (runs_evt _)
  | .clkr _ => .inr (runs_clkr _)
  | .causer _ => .inr (runs_causer _)
  | .rng _ => .inr (runs_rng _)
  | .evtp _ => .inr (runs_evtp _)
  | .sysr _ => .inr (runs_sysr _)
  | .sysw _ => .inr (runs_sysw _)
  | .icinv _ => .inr (runs_icinv _)
  | .dbgh _ => .inr (runs_dbgh _)
  | .pwrq _ => .inr (runs_pwrq _)
  | .illegalOpcode _ => .inl rfl
  | .regReload _ _ => .inl rfl
  | .siblingHalt _ => .inl rfl
  | .faultRecordDrain _ => .inl rfl
  | .teamHaltComplete _ => .inl rfl
  | .lateFault _ => .inl rfl
  | .teamAdmit _ => .inl rfl
  | .drainExpiry _ => .inl rfl
  | .teamSave _ => .inl rfl
  | .quarantineWrite _ => .inl rfl
  | .teamRestore _ => .inl rfl
  | .teamStart _ => .inl rfl
  | .requestComplete _ => .inl rfl
  | .tagProbeVerdict _ => .inl rfl
  | .pageWalk _ => .inl rfl
  | .hubStageReport _ _ => .inl rfl
  | .faultWindowClose _ => .inl rfl
  | .replayPage _ => .inl rfl
  | .replayAll _ => .inl rfl
  | .replayWalkResult _ => .inl rfl
  | .rd _ => .inl rfl
  | .wr _ => .inl rfl
  | .mwr _ => .inl rfl
  | .rdata _ _ => .inl rfl
  | .wack _ _ => .inl rfl
  | .parityUpdate _ _ => .inl rfl
  | .bankRetire _ _ => .inl rfl
  | .poolCompactorMove _ => .inl rfl
  | .mmaStart _ _ => .inl rfl
  | .mmaComplete _ _ => .inl rfl
  | .mxOpComplete _ _ => .inl rfl
  | .batonHandoff _ => .inl rfl
  | .barrierWake _ => .inl rfl
  | .sleepExpiry _ => .inl rfl
  | .sigwaitReread _ => .inl rfl
  | .scopeReply _ => .inl rfl
  | .emitRecordArrival _ => .inl rfl
  | .gatherTimeout _ _ _ => .inl rfl
  | .copyCommandStart _ _ => .inl rfl
  | .copyDataReturn _ _ => .inl rfl
  | .copyCommandComplete _ _ => .inl rfl
  | .remoteAccessServe _ => .inl rfl
  | .qnotify _ _ => .inl rfl
  | .notifyWordRead _ => .inl rfl
  | .qctlWrite _ _ => .inl rfl
  | .qstatErrClear _ => .inl rfl
  | .launchPacket _ => .inl rfl
  | .graphPacket _ => .inl rfl
  | .waitPacket _ => .inl rfl
  | .signalPacket _ => .inl rfl
  | .castPacket _ => .inl rfl
  | .badKind _ => .inl rfl
  | .waitPacketSatisfied _ => .inl rfl
  | .collectiveStart _ => .inl rfl
  | .relaySendRequest _ => .inl rfl
  | .relayPayload _ _ => .inl rfl
  | .relayAck _ => .inl rfl
  | .relayOpComplete _ => .inl rfl
  | .cbarArrival _ _ _ => .inl rfl
  | .collWatchdog _ => .inl rfl
  | .ralbexFlit _ _ _ => .inl rfl
  | .linkRetrain _ => .inl rfl
  | .contextControlWrite _ _ => .inl rfl
  | .coreSetWrite _ _ _ => .inl rfl
  | .ctxReset _ => .inl rfl
  | .contextResetComplete _ => .inl rfl
  | .fqctlWrite _ _ => .inl rfl
  | .fqreadWrite _ _ => .inl rfl
  | .dbgHalt _ => .inl rfl
  | .dbgResume _ => .inl rfl
  | .dbgStep _ _ => .inl rfl
  | .dbgSnap _ => .inl rfl
  | .dbgLoad _ => .inl rfl
  | .dbgDiscard _ => .inl rfl
  | .dbgcmdUndefinedOp _ _ => .inl rfl
  | .dbgctlWrite _ _ => .inl rfl
  | .translationDrop _ => .inl rfl
  | .translationWritebackInvalidate _ => .inl rfl
  | .translationOpReserved _ => .inl rfl
  | .translationCommandComplete => .inl rfl
  | .rangeRegisterCommit _ _ _ => .inl rfl
  | .functionBindingWrite _ _ => .inl rfl
  | .relayPartitionWrite _ => .inl rfl
  | .relayPartitionApply => .inl rfl
  | .collectiveCancel _ => .inl rfl
  | .riskSample _ => .inl rfl
  | .firmwareLiveUpdate => .inl rfl
  | .firmwareSlotSelect => .inl rfl
  | .firmwareCmdIgnored _ => .inl rfl
  | .firmwareVerifyComplete _ => .inl rfl
  | .firstHeartbeat => .inl rfl
  | .heartbeatTimeout => .inl rfl
  | .throttle _ => .inl rfl
  | .thermalReset _ => .inl rfl
  | .l2Mode _ _ => .inl rfl
  | .l2ModeChangeComplete _ => .inl rfl
  | .scrub _ _ => .inl rfl
  | .timeSync _ _ _ => .inl rfl
  | .steleRecordWrite _ => .inl rfl
  | .steleErase => .inl rfl
  | .steleEraseComplete => .inl rfl
  | .deviceReset _ => .inl rfl
  | .powerOn => .inl rfl
  | .powerLoss => .inl rfl
  | .hostWindowBAccess _ => .inl rfl
  | .registerWrite _ _ _ => .inl rfl
  | .getVersion => .inl rfl
  | .getCapabilities => .inl rfl
  | .negotiateAlgorithms _ => .inl rfl
  | .getDigests => .inl rfl
  | .getCertificate _ _ => .inl rfl
  | .challenge _ => .inl rfl
  | .getMeasurements _ _ _ => .inl rfl
  | .keyExchange _ _ => .inl rfl
  | .spdmFinish _ _ => .inl rfl
  | .endSession _ => .inl rfl
  | .writeBackAcknowledge _ _ => .inl rfl
  | .scratchpadAccessComplete _ => .inl rfl
  | .icinvAcknowledge _ => .inl rfl
  | .rendezvousCredit _ => .inl rfl
  | .stampingPointLockLoss _ => .inl rfl
  | .sequentialFetchPastCode => .inl rfl

end Sys2Proof.Machine
end

