-- ==== Sys2Proof/Laws/Results.lean ====
section
/-!
SUPPORT. What the shared operations answer: the outcomes of the gate, the writing of a result, the
scalar operations, tiles, faults and the move.
-/

namespace Sys2Proof.Machine

/-- What the gate answers decides what an instruction does. -/
theorem exec_of_gate {i : Instr} {g : Sig} {s : State} {k : WKey} {t : Team} {w : Warp} (hr : Runs i) (hg : i.sig = some g)
    (hc : s.cur = some k) (ht : s.team? k.team = some t) (hw : s.warp? k = some w) :
    (∃ u, exec i s = .next u) ∧
    (∀ s1 x, gate i g s k t w = .trap s1 x → exec i s = .next (s1.trapped k x none)) ∧
    (∀ s1, gate i g s k t w = .wait s1 → exec i s = .next s1) ∧
    (gate i g s k t w = .skip → exec i s = .next ((s.advance k).issued k)) := by
  obtain ⟨move, f, hr⟩ := hr
  simp only [hr, runWith, hc, hg, ht, hw]
  refine ⟨?_, fun s1 x h => by rw [h], fun s1 h => by rw [h], fun h => by rw [h]⟩
  split <;> exact ⟨_, rfl⟩

/-- Where rows can be had, a vector write answers a state. -/
theorem write_some {e : Env} {g : Sig} {d : Operand} (h : e.HasRoom g d) (x : VRes) :
    ∃ t, e.write (e.named g) d x = some t := Option.isSome_iff_exists.1 (h x)

/-- Rows can be had where the destination is one register and settling it succeeds for every shape. -/
theorem hasRoom_of_one {e : Env} {g : Sig} {d : Operand} {n : Nat} {each : Bool}
    (hd : e.w.destRegs d e.lanes = ([n], each))
    (h : ∀ sh, (e.s.prepReg e.k e.t (n :: e.named g) (e.m == fullMask e.width && !each) sh n).isSome = true) :
    e.HasRoom g d := by
  intro x
  unfold Env.write
  simp [hd, h]

/-- Putting a result is its vector write. -/
theorem put_ready {i : Instr} {g : Sig} {e : Env} (h : Ready i g e) {d : Operand} {x : VRes} {t : State}
    (ht : e.write (e.named g) d x = some t) : e.put i d x = .next t := by
  unfold Env.put; rw [h.sig]; simp [ht, Env.orWait]

/-- A scalar operation sets its destination. -/
theorem scalarOp_ready {i : Instr} {g : Sig} {e : Env} (h : Ready i g e) (o : Ops MA) (f : Env → Nat → Nat → Nat) :
    scalarOp i o e.s f = .next (e.after (e.setS o.d (extendTo64 o.mod.ty (f e (e.scalarA o) (e.scalarB o))))) :=
  runSeq_next h rfl

/-- A tile number below T, and one that is not (R164). -/
theorem tileNum_some {e : Env} {n : BitVec 5} {imm : BitVec 28} (h : n.toNat + e.toff imm < e.t.kernel.tiles) :
    e.tileNum n imm = some (n.toNat + e.toff imm) := by simp [Env.tileNum, h]
theorem tileNum_none {e : Env} {n : BitVec 5} {imm : BitVec 28} (h : ¬ n.toNat + e.toff imm < e.t.kernel.tiles) :
    e.tileNum n imm = none := by simp [Env.tileNum, h]

/-- A tile set is read back, and every other tile is as it was. -/
theorem setTile_tile (t : Team) (x : Tile) (h n : Nat) :
    (t.setTile x).tile h n = if h = x.half ∧ n = x.num then x else t.tile h n := by
  unfold Team.tile Team.setTile
  by_cases hh : h = x.half ∧ n = x.num
  · simp [hh]
  · rw [if_neg hh]
    simp only [List.find?_cons]
    have hx : (x.half == h && x.num == n) = false := by
      rw [Bool.eq_false_iff]; intro hc; simp at hc; exact hh ⟨hc.1.symm, hc.2.symm⟩
    rw [hx]; simp only
    congr 1
    induction t.tiles with
    | nil => rfl
    | cons a l ih =>
      simp only [List.filter_cons]
      split
      · simp only [List.find?_cons, ih]
      · rename_i hf
        rw [List.find?_cons, ih]
        have ha : (a.half == h && a.num == n) = false := by
          simp at hf; simp; intro h1 h2; exact hh ⟨by omega, by omega⟩
        rw [ha]

/-- With no room for the record, a fault waits (R318). -/
theorem State.takeFault_no_room (s : State) (k : WKey) (f : FaultInfo) (ia : Option Nat) (h : s.fqRoom k.ctx = false) :
    s.takeFault k f ia = s := by
  unfold State.takeFault; split <;> simp [h]

/-- The end of a wait and the accounting of an issue leave nothing else of the warp behind: moving on
at a warp that is not at a loop's end adds 12 to the PC (R71). -/
theorem State.advance_next (s : State) (k : WKey) (w : Warp) (hw : s.warp? k = some w) (h : w.atEnd = false) :
    s.advance k = s.modWarp k fun w => { w with pc := w.pc + 12 } := by
  unfold State.advance; simp [hw, h]

end Sys2Proof.Machine
end

