-- ==== Sys2Proof/Tests/Slice0.lean ====
section
/-!
SUPPORT. Tests: ill-formed terms that the checks refuse, words of the spec's encoding tables, one step on a
small state where the spec gives the result, and for each statement with hypotheses a state and operands
that meet them.
-/

namespace Sys2Proof.Machine.Tests

open Sys2Proof Sys2Proof.Machine

/-! ## Helpers -/

/-- A word from its fields (Table 2-1): no guard, no hints. -/
def mkWord (opc d a b mod imm : Nat) : BitVec 96 :=
  BitVec.ofNat 96 (opc + d * 2 ^ 15 + a * 2 ^ 24 + b * 2 ^ 33 + mod * 2 ^ 42 + imm * 2 ^ 68)

/-- The one warp of the small state. -/
def key : WKey := ⟨0, 0, 0⟩

/-- The environment in which the warp of a state executes an instruction. -/
def envOf (s : State) (g : Sig) : Env :=
  let t := (s.team? key.team).getD (probeTeam false)
  let w := (s.warp? key).getD probeWarp
  { s := s, k := key, t := t, w := w, m := (g.mask t w).getD 0 }

/-- Every field of `Ready`, as a check. -/
def readyB (i : Instr) (g : Sig) (e : Env) : Bool :=
  decide (e.s.cur = some e.k) && decide (e.s.team? e.k.team = some e.t) && decide (e.s.warp? e.k = some e.w) &&
    (!g.relay || e.t.relay.isSome) && g.ok4 && g.fits e.t.kernel.n e.t.kernel.g && g.ok5 &&
    (!g.w32 || e.t.kernel.width == 32) && decide (g.mask e.t e.w = some e.m) &&
    (!g.full || e.w.mask &&& fullMask e.width == fullMask e.width) &&
    (!(g.indexed && !i.neverFaults) || (e.w.indexFault e.t.kernel.n (i.fields ++ g.reads.map (·.1)) e.lanes).isNone) &&
    ((e.w.named (g.reads ++ g.dest) (e.seen i)).all fun n => !(e.w.vreg n).pend) && !e.s.scalarPending e.k i &&
    ((e.w.direct (g.reads ++ keptRegs g i e.width e.w e.m)).all fun n => !(e.w.vreg n).spilled) &&
    ((e.w.indexed g.reads (e.seen i)).all fun n => !(e.w.vreg n).spilled) &&
    (e.w.consumed i g (if i.activeOnly then e.lanes.filter e.w.mask.has else e.lanes)).isNone &&
    !e.w.consumedScalar i && e.s.upsets.isEmpty

theorem ready_of_readyB {i : Instr} {g : Sig} {e : Env} (hg : i.sig = some g) (h : readyB i g e = true) : Ready i g e := by
  simp only [readyB, Bool.and_eq_true, decide_eq_true_eq, List.all_eq_true] at h
  obtain ⟨⟨⟨⟨⟨⟨⟨⟨⟨⟨⟨⟨⟨⟨⟨⟨⟨h1, h2⟩, h3⟩, h4⟩, h5⟩, h6⟩, h7⟩, h8⟩, h9⟩, h10⟩, h11⟩, h12⟩, h13⟩, h14⟩, h18⟩, h15⟩, h16⟩, h17⟩ := h
  refine ⟨h1, h2, h3, hg, ?_, h5, h6, h7, ?_, h9, ?_, ?_, ?_, ?_, ?_, ?_, ?_, ?_, ?_⟩
  · intro hr; simpa [hr] using h4
  · intro hw; simpa [hw] using h8
  · intro hf; simpa [hf] using h10
  · intro hx; rw [hx] at h11; simpa using h11
  · intro n hn; simpa using h12 n hn
  · simpa using h13
  · intro n hn; simpa using h14 n hn
  · intro n hn; exact .inl (by simpa using h18 n hn)
  · intro; simpa using h15
  · intro; simpa using h16
  · intro f; simp [State.verify, h17]

/-- Every destination is one register, for which a row can be had. -/
def roomB (g : Sig) (e : Env) : Bool :=
  g.dest.all fun x =>
    match e.w.destRegs x.1 e.lanes with
    | ([n], each) => [Shape.u, .a, .g].all fun sh =>
        (e.s.prepReg e.k e.t (n :: e.named g) (e.m == fullMask e.width && !each) sh n).isSome
    | _ => false

theorem hasRoom_of_roomB {g : Sig} {e : Env} (h : roomB g e = true) : ∀ x ∈ g.dest, e.HasRoom g x.1 := by
  intro x hx
  have h := List.all_eq_true.1 h x hx
  split at h
  · rename_i n each hd
    simp only [List.all_cons, List.all_nil, Bool.and_true, Bool.and_eq_true] at h
    refine hasRoom_of_one hd fun sh => ?_
    cases sh
    · exact h.1
    · exact h.2.1
    · exact h.2.2
  · cases h

/-- The word is an instruction that is ready in the small state after `setup`, rows can be had for its
destinations, and the environment passes `extra`. -/
def holdsFor (w : BitVec 96) (setup : State → State) (extra : Instr → Env → Bool) : Bool :=
  match decode w with
  | some i =>
    match i.sig with
    | some g =>
      let e := envOf (setup (State.reset.withFetchWord 96 w.toNat)) g
      readyB i g e && roomB g e && extra i e
    | none => false
  | none => false

/-- What `holdsFor` shows: a state and operands in which the instruction is ready. -/
theorem holdsFor_ready {w : BitVec 96} {setup : State → State} {extra : Instr → Env → Bool}
    (h : holdsFor w setup extra = true) : 
    ∃ i g e, decode w = some i ∧ Ready i g e ∧ (∀ x ∈ g.dest, e.HasRoom g x.1) ∧ extra i e = true := by
  unfold holdsFor at h
  split at h
  · rename_i i hi
    split at h
    · rename_i g hg
      simp only [Bool.and_eq_true] at h
      exact ⟨i, g, _, hi, ready_of_readyB hg h.1.1, hasRoom_of_roomB h.1.2, h.2⟩
    · cases h
  · cases h

/-- Ready as it stands. -/
def plain (n : Nat) : Bool := holdsFor (BitVec.ofNat 96 n) id fun _ _ => true

/-- Changing the warp, the team, the kernel, the context of the small state. -/
def warpIs (f : Warp → Warp) (s : State) : State := s.modWarp key f
def teamIs (f : Team → Team) (s : State) : State := s.modTeam key.team f
def kernelIs (f : Kernel → Kernel) (s : State) : State := s.modTeam key.team fun t => { t with kernel := f t.kernel }

/-! ## Words of the encoding tables -/

/-- Fields of an instruction without guard, hints and NF. -/
def ops {L : Type} (d a b : Operand) (mod : L) (imm : BitVec 28 := 0) : Ops L := ⟨⟨0, false⟩, false, 0, false, d, a, b, mod, imm⟩

/-- M-A without SAT and rounding; the other layouts at their usual values. -/
def ma (ty : Typ) (pk : BitVec 2 := 0) (sub : BitVec 5 := 0) (ib : Bool := false) : MA := ⟨ib, sub, false, .rn, pk, ty⟩
def mm (ty : Typ) (pk : BitVec 2 := 0) (ord : Ord := .rlx) (scope : Scope := .dv) (atop : Atop := .add) : MM :=
  ⟨atop, .l1, scope, ord, pk, ty⟩

/-- Tables 2-8 and 4-3: `vif p1`, `bc.ne s4, %zero, back3`, `li s5, 0x1234`, `scmp.lt.s64 p2, s4, s5`,
`?p3 iadd.s32x2 v10, v11, v12`. -/
theorem test_decode_scalar :
    decode 0x14100000a = some (.vif (ops (.v 0) (.p 1) (.v 0) 0)) ∧
    decode 0xffffffd0000006bf04000007 = some (.bc (ops (.v 0) (.s 4) (.special .zero) 1 0xffffffd)) ∧
    decode 0x123400200000000828040 = some (.li (ops (.s 5) (.v 0) (.v 0) (ma .s8 0 0 true) 0x1234)) ∧
    decode 0x200e0b04a10051 = some (.scmp (ops (.p 2) (.s 4) (.s 5) (ma .s64 0 2))) ∧
    decode 0x48180b050c80 = some (.iadd { ops (.v 10) (.v 11) (.v 12) (ma .s32 1) with guard := ⟨3, false⟩ }) := by decide

/-- Tables 2-8, 5-5 and 7-8: `fma.f32x2.rz v1, v2, v3, v4 | stall 2`, `cvt.bf16x2.f32x2 v7, v8`,
`csin.f32.n24 v5, v6`, `mov.z64 v9, v16[x1]`, `vote.ballot s7, p3`. -/
theorem test_decode_vector :
    decode 0x402001680602008103 =
      some (.fma { ops (.v 1) (.v 2) (.v 3) (⟨false, 0, false, .rz, 1, .f32⟩ : MA) 4 with stall := 2 }) ∧
    decode 0x1a0640008038110 = some (.cvt (ops (.v 7) (.v 8) (.v 0) ⟨1, .f32, false, .rn, 1, .bf16⟩)) ∧
    decode 0xc0280006028180 = some (.csin (ops (.v 5) (.v 6) (.v 0) ⟨24, .rn, 0, .f32⟩)) ∧
    decode 0x1c01a20481c7 = some (.mov (ops (.v 9) (.vx 1 2) (.v 0) (ma .z64))) ∧
    decode 0x1438381c2 = some (.vote (ops (.s 7) (.p 3) (.v 0) (ma .s8))) := by decide

/-- Tables 2-8, 8-5, 9-3: `mma.bf16.a0 acc3, v24, v48`, `fldsc v48, s4, %zero`, `lds.z32x2 v7, [s2 + 64]`,
`ldsx.bf16x4 v9, [s4 + v6]`; chapter 20: `?!p1 accst acc0, s8, %zero`. -/
theorem test_decode_matrix :
    decode 0x1806018000201 = some (.mma (ops (.v 0) (.v 24) (.v 48) ⟨0, 3, false, .bf16⟩)) ∧
    decode 0x12bf0418020a = some (.fldsc (ops (.v 48) (.s 4) (.special .zero) ⟨0, 0, false, .mxf4⟩)) ∧
    decode 0x40000045abf02038240 = some (.lds (ops (.v 7) (.s 2) (.special .zero) (mm .z32 1 .rlx .tm) 64)) ∧
    decode 0x4a40d04048245 = some (.ldsx (ops (.v 9) (.s 4) (.v 6) (mm .bf16 2 .rlx .tm))) ∧
    decode 0x2bf08004604 =
      some (.accst { ops (.v 0) (.s 8) (.special .zero) (⟨0, 0, false, .bf16⟩ : MX) with guard := ⟨1, true⟩ }) := by decide

/-- Tables 2-8, 10-11, 12-10: `ld.acq.dv.z64 v20, [s4 + v7 + 16]`, `st.rel.dv.z32 [s4 + v7], v9`,
`atom.cas.z64 v5, [s2 + v6], v7`, `fencex.st>cp.dv`, `cpy.sw128.ch1 [s6], [s8], s9`,
`watch.slot1.wr+at.dv s10, s4, s5, p2`. -/
theorem test_decode_memory :
    decode 0x10000091c0f040a0280 = some (.ld (ops (.v 20) (.s 4) (.v 7) (mm .z64 0 .acq) 16)) ∧
    decode 0xa180f04048281 = some (.st (ops (.v 9) (.s 4) (.v 7) (mm .z32 0 .rel))) ∧
    decode 0x7003881c0d02028282 = some (.atom (ops (.v 5) (.s 2) (.v 6) (mm .z64 0 .rlx .dv .cas) 7)) ∧
    decode 0x13080000000289 = some (.fencex (ops (.v 0) (.v 0) (.v 0) ⟨.dv, .cp, 2⟩)) ∧
    decode 0x4e1308830300 = some (.cpy (ops (.s 6) (.s 8) (.s 9) ⟨.dv, false, false, 1, false, 3⟩)) ∧
    decode 0x14200001660b04850307 = some (.watch (ops (.s 10) (.s 4) (.s 5) 0x59 0x142)) := by decide

/-- Tables 2-8, 13-11, 14-6, 15-9, 17-7: `emit.e1 v4`, `sigwait.le.acq.dv s9, s8, %zero`,
`crrs.add.f32.b0.m0.snd s7, s14, s2, s6`, `crecv.b1.m5 s5, s13, s2`, `clkr s12`, `sysr s4, issued`, `dbgh`. -/
theorem test_decode_system :
    decode 0x40004000340 = some (.emit (ops (.v 0) (.v 4) (.v 0) 1)) ∧
    decode 0x22abf08848347 = some (.sigwait (ops (.s 9) (.s 8) (.special .zero) 0x8a)) ∧
    decode 0x102002a0021d07830382 = some (.crrs (ops (.s 6) (.s 7) (.s 14) 0xa800 0x102)) ∧
    decode 0x10200000561b05000381 = some (.crecv (ops (.v 0) (.s 5) (.s 13) 0x15 0x102)) ∧
    decode 0x8603c1 = some (.clkr (ops (.s 12) (.v 0) (.v 0) 0)) ∧
    decode 0xc00008203e0 = some (.sysr (ops (.s 4) (.v 0) (.v 0) 3)) ∧
    decode 0x3e3 = some (.dbgh (ops (.v 0) (.v 0) (.v 0) 0)) := by decide

/-- A word decodes to a well-formed instruction whose word it is. -/
def roundTrips (n : Nat) : Bool :=
  match decode (BitVec.ofNat 96 n) with
  | some i => decide (WellFormed i) && encode i == some (BitVec.ofNat 96 n)
  | none => false

/-- Every word of the encoding tables and of the programs of chapter 20. -/
theorem test_table_words_1 :
    [
      0x123400200000000828040, 0x800000210000000828041, 0x10002000c0104820042, 0x48180b050c80, 0x402001680602008103,
      0xc0280006028180, 0x1c01a20481c7, 0x1806018000201, 0x40000045abf02038240, 0x10000091c0f040a0280,
      0x13080000000289, 0x4e1308830300, 0x10b850344, 0x387, 0x8603c1, 0x3e3, 0x14100000a, 0xffffffd0000006bf04000007,
      0xffffc000000000000000016, 0x200e0b04a10051, 0x64002001c00000181c8, 0x20b040181ca, 0x48301c9, 0x800008481c9,
      0x201cb, 0x18000000400020001cc, 0x800000281cd, 0x10000000028113, 0x3f00200000000000114, 0xc00000114,
      0x58180b050083, 0x6400220080004a10098, 0xe8002001c000602009e, 0x1a0640008038110, 0xa0280006028181,
      0x1002305800040181c0, 0x1438381c2, 0x2800020481c4, 0x1c06020303c3, 0x20b04000200, 0x2c03000000201,
      0x200000000000003000000201, 0x643000011103000000201, 0x3800000000202, 0x1182bf06000204, 0x51800000040205,
      0x400000000207, 0x10000109000208, 0x400000850209].all roundTrips = true := by decide

/-- The same. -/
theorem test_table_words_2 :
    [
      0x12bf0418020a, 0x4180000000020b, 0x800004180702020241, 0x4080d02028242, 0x700384180d02028242,
      0x104080d02028247, 0x4a40d04048245, 0x20702000243, 0x20702840248, 0x80102848244, 0xa180f04048281,
      0x7003881c0d02028282, 0x8280f04048283, 0xd1ebf0c050284, 0x20000f04000287, 0x13000000000288, 0x10200000000289,
      0x28b, 0x8000081ebf0482828c, 0x10a00003a21308830302, 0xa1308830303, 0x40000083830a, 0x8000f04048304,
      0x4000008000d02028305, 0x20a04018306, 0x14200001660b04850307, 0x100000000308, 0x40000858309, 0x40004000340,
      0x20b04000341, 0x14300000000102830342, 0x40106000343, 0x480108000346, 0x22abf08848347, 0x8000083834a,
      0x10200000021506000380, 0x10200000561b05000381, 0x102002a0021d07830382, 0x102000a0021d07000382, 0xa1107830383,
      0x40103000384, 0x105830385, 0x386, 0x40000848388, 0x2a00000000000000018, 0x700000000000000019, 0xc00008203e0,
      0x8001050003e1, 0x20f060003e2].all roundTrips = true := by decide

/-- The same. -/
theorem test_table_words_3 :
    [
      0x400008403e4, 0x70000002bf040003c0, 0x200000020a090003c4, 0x400008303c1, 0x8383c2, 0x400008383c2,
      0x10000081ebf0083028c, 0x2175f0181ca, 0x8180704008281, 0xfff03f00000000000000016, 0x2101c0106a08051,
      0x13080000000689, 0x21504848300, 0xfc0fff00000000000000016, 0xa200000000289, 0x418075f020240, 0x10180204a10098,
      0x300001428601c2, 0x80000081ebf0586028d, 0x1c0b1402808e, 0x1800030201c3, 0x1c0006030093, 0x21d0d878248,
      0x2001c0006a08098, 0x418130d038641, 0x13, 0x2215f0401ca, 0x80000014000000000e, 0x4000000418110a060240,
      0x8018000a0681c5, 0x1a220b07008a, 0x80000024000000000e, 0x1ebf03a08051, 0xa1f0a820300, 0x4a1f0b828300, 0x607,
      0xfc2fff00000000000000016, 0xc200000000289, 0x2bf050c0200, 0x3000000201, 0x2bf08004604, 0xb400000004689,
      0x21f08864701, 0x1c020301808c, 0x21304840300, 0x81c0305010280, 0xfc0fc000000000000000016,
      0x2f000000041c035f020240].all roundTrips = true := by decide

/-- R33, R18: the opcodes 0x000 and 0x3FF and an unlisted one are refused, so are the reserved operand codes. -/
theorem test_reserved_words :
    decodeWord 0 = .illegalOpcode ∧ decodeWord 0x3ff = .illegalOpcode ∧ decodeWord 0x3f0 = .illegalOpcode ∧
    operandOfCode 0x160 = none ∧ operandOfCode 0x17f = none ∧ (operandOfCode 0x180).isSome = true := by decide

/-! ## Ill-formed terms -/

/-- R13: NF where no flag is updated; an unused operand field; unused IMM bits. -/
theorem smoke_unused_fields :
    ¬ WellFormed (.iadd { ops (.v 1) (.v 2) (.v 3) (ma .s32) with nf := true }) ∧
    ¬ WellFormed (.nop (ops (.v 1) (.v 0) (.v 0) 0)) ∧
    ¬ WellFormed (.iadd (ops (.v 1) (.v 2) (.v 3) (ma .s32) 5)) := by decide

/-- R14: IB with an operand in B; a C operand above IMM[8:0], or of a reserved code. -/
theorem smoke_immediates :
    ¬ WellFormed (.iadd (ops (.v 1) (.v 2) (.v 3) (ma .s32 0 0 true) 5)) ∧
    ¬ WellFormed (.fma (ops (.v 1) (.v 2) (.v 3) (ma .f32) 0x200)) ∧
    ¬ WellFormed (.fma (ops (.v 1) (.v 2) (.v 3) (ma .f32) 0x160)) := by decide

/-- R20: operand classes: an s register where a vector is written, %lane and %flags where one value for the
warp is read, p0 written, a vector where a predicate is read. -/
theorem smoke_operand_classes :
    ¬ WellFormed (.iadd (ops (.s 1) (.v 2) (.v 3) (ma .s32))) ∧
    ¬ WellFormed (.mkaff (ops (.v 3) (.special .lane) (.s 5) 0)) ∧
    ¬ WellFormed (.mkaff (ops (.v 3) (.s 4) (.special .flags) 0)) ∧
    ¬ WellFormed (.icmp (ops (.p 0) (.v 2) (.v 3) (ma .s32))) ∧
    ¬ WellFormed (.vif (ops (.v 0) (.v 1) (.v 0) 0)) ∧
    ¬ WellFormed (.mkaff (ops (.vx 1 2) (.s 4) (.s 5) 0)) := by decide

/-- R24, Table 7-1: a floating-point type of an integer instruction, an integer type of a floating-point
one, an element type that fits no lane, more than 64 bits of elements. -/
theorem smoke_types :
    ¬ WellFormed (.iadd (ops (.v 1) (.v 2) (.v 3) (ma .f32))) ∧
    ¬ WellFormed (.fadd (ops (.v 1) (.v 2) (.v 3) (ma .s32))) ∧
    ¬ WellFormed (.fadd (ops (.v 1) (.v 2) (.v 3) (ma .e4m3))) ∧
    ¬ WellFormed (.iadd (ops (.v 1) (.v 2) (.v 3) (ma .s32 2))) := by decide

/-- R25: RND where nothing rounds, SAT where there is no saturating form. -/
theorem smoke_rounding_and_saturation :
    ¬ WellFormed (.iadd (ops (.v 1) (.v 2) (.v 3) ⟨false, 0, false, .rz, 0, .s32⟩)) ∧
    ¬ WellFormed (.iand (ops (.v 1) (.v 2) (.v 3) ⟨false, 0, true, .rn, 0, .s32⟩)) ∧
    WellFormed (.iadd (ops (.v 1) (.v 2) (.v 3) ⟨false, 0, true, .rn, 0, .s32⟩)) := by decide

/-- R27: ITER below 4 and above 40; R28, R222: a load that releases, a store that acquires; R29: `fencex`
with no source path, with a path that is no destination. -/
theorem smoke_modifiers :
    ¬ WellFormed (.csin (ops (.v 5) (.v 6) (.v 0) ⟨3, .rn, 0, .f32⟩)) ∧
    ¬ WellFormed (.csin (ops (.v 5) (.v 6) (.v 0) ⟨41, .rn, 0, .f32⟩)) ∧
    ¬ WellFormed (.ld (ops (.v 20) (.s 4) (.v 7) (mm .z64 0 .rel))) ∧
    ¬ WellFormed (.st (ops (.v 9) (.s 4) (.v 7) (mm .z32 0 .acq))) ∧
    ¬ WellFormed (.fencex (ops (.v 0) (.v 0) (.v 0) ⟨.dv, .cp, 0⟩)) := by decide

/-- R32: values that an M-S layout does not define: `shape` form 3, `waitc` with reserved IMM bits, a
collective reduction of an undefined operation. -/
theorem smoke_own_modifiers :
    ¬ WellFormed (.shape (ops (.s 6) (.v 4) (.v 0) 3)) ∧
    ¬ WellFormed (.waitc (ops (.v 0) (.v 0) (.v 0) 0 0x1000000)) ∧
    ¬ WellFormed (.crrs (ops (.v 0) (.s 7) (.s 14) 0xffff 0x102)) := by decide

/-- Register groups that overlap or do not fit: `cvtmx` whose scale lies in its pair; a group past N (R21). -/
theorem smoke_groups :
    ¬ WellFormed (.cvtmx (ops (.v 16) (.v 32) (.v 17) ⟨1, .f32, false, .rn, 0, .mxf4⟩)) ∧
    (((Instr.mma (ops (.v 0) (.v 250) (.v 48) ⟨0, 3, false, .bf16⟩)).sig.map fun g => g.fits 64 32) = some false) := by decide

/-- R13, R24, R25, R28 in words: bit 59 and bits 67:65 set, TYPE 0xF, RND 7, SCOPE 7. -/
theorem smoke_words :
    decode (0x48180b050c80 ||| 1#96 <<< 59) = none ∧ decode (0x48180b050c80 ||| 1#96 <<< 65) = none ∧
    decode (mkWord 0x80 1 2 3 0xf 0) = none ∧ decode (mkWord 0x103 1 2 3 0x1ca 4) = none ∧
    decode (mkWord 0x280 1 0x104 0x15f 0xe07 0) = none := by decide

/-- `EncodeAndDecodeAgree`: a well-formed instruction that has a word. -/
theorem witness_EncodeAndDecodeAgree :
    WellFormed (.iadd (ops (.v 1) (.v 2) (.v 3) (ma .s32))) ∧ (encode (.iadd (ops (.v 1) (.v 2) (.v 3) (ma .s32)))).isSome = true ∧
    (match decodeWord 0x48180b050c80 with | .instr _ => true | _ => false) = true := by decide

/-! ## Every instruction of the instruction set is ready somewhere

For each opcode one word: it decodes to a well-formed instruction, every check before its effect passes in
the small state, and rows can be had for its destinations. With `holdsFor_ready` these meet the hypotheses
of the statements about results (`CrossLaneResults` and those before and after it). -/

theorem witness_ready_control :
    [
      1, 2, 4311744515, 8421380, 4320165893, 4311744518, 2211924934663, 5385486344, 5385486345, 5385486346, 11, 12,
      5385486349, 30786325577742, 30790637322255, 16, 4311744529, 18, 19, 20, 21, 22, 4311744535, 24, 25, 5385486362,
      27].all plain = true := by decide

theorem witness_ready_scalar :
    [
      144115188084277312, 148618787711647809, 2211933356098, 2211933356099, 2211933356100, 2211933356101,
      2211933356102, 2211933356103, 2211933356104, 4320165961, 2211933356106, 2211933356107, 2211933356108,
      2211933356109, 2211933356110, 4320165967, 4320165968, 2211933356113, 2211933356114, 4320165971, 32998258933844,
      32998258933845].all plain = true := by decide

theorem witness_ready_integer :
    [
      128, 129, 30786325577858, 131, 132, 30786325577861, 134, 135, 136, 137, 138, 139, 140, 141, 142, 143, 144, 145,
      146, 147, 148, 30786325577877, 30786325577878, 94742477562572257099927, 152, 4534385952948377, 154, 155,
      26388279066780, 157, 144145974401433758, 159].all plain = true := by decide

theorem witness_ready_float :
    [
      43980465111296, 43980465111297, 43980465111298, 43980465111299, 43980465111300, 43980465111301, 43980465111302,
      43980465111303, 43980465111304, 43980465111305, 43980465111306, 43980465111307, 43980465111308, 43980465111309,
      43980465111310, 43980465111311, 272, 117155575817044241, 54087175993557266, 275, 276, 175921860444437,
      43980465111318, 43980465111319, 43980465111320, 43980465111321].all plain = true := by decide

theorem witness_ready_cordic_and_cross_lane :
    [
      9051179719852416, 9051179719852417, 9051179719852418, 9051179719852419, 9051179719852420, 9051179719852421,
      9051179719852422, 9051179719852423, 448, 2207613190593, 5393908162, 451, 452, 453, 30786325578182, 455,
      144145974401434056, 8421833, 2211924935114, 459, 460, 461].all plain = true := by decide

theorem witness_ready_matrix_and_scratch :
    [
      2211924935168, 513, 514, 2211924935171, 2211924935172, 517, 518, 519, 520, 8421897, 19804110979594, 523,
      4311745088, 4311745089, 30790637322818, 2211924935235, 8421956, 4311745093, 4311745094, 30790637322823,
      2211933356616].all plain = true := by decide

theorem witness_ready_memory :
    [
      4311745152, 4311745153, 30790637322882, 30790637322883, 4311745156, 4311745157, 30790637322886, 4311745159,
      281474976711304, 30786325578377, 650, 651, 2211933356684, 2211933356685, 32998258934414].all plain = true := by decide

theorem witness_ready_copy_and_watch :
    [
      2211933356800, 2211933356801, 2211933356802, 2211933356803, 4311745284, 4311745285, 774,
      94742477595570516034311, 776, 8422153, 8422154].all plain = true := by decide

theorem witness_ready_graph_and_relay :
    [
      832, 2211924935489, 94742477562576577266498, 4311745347, 4320166724, 4311745349, 4311745350, 2211933356871,
      2211924935496, 4320166729, 8422218, 75853011633305601180544, 75853011633305601180545, 75853020640504855921538,
      2211933356931, 900, 4320166789, 902, 903, 8422280].all plain = true := by decide

theorem witness_ready_recorder_and_system :
    [
      2211924935616, 8422337, 8422338, 30786325578691, 2207613191108, 8422368, 140741800100833, 2211924935650, 995,
      8422372].all plain = true := by decide

/-! ## Witnesses: operands and states that meet the further hypotheses of the statements -/

/-- A general register whose lanes all hold one word, in row 0. -/
def general (x : Word) : VReg := { shape := .g, lanes := List.replicate 32 x }

/-- Vector register n is this. -/
def vIs (n : Nat) (r : VReg) : State → State := warpIs fun w => w.setV n r

/-- Scalar register n is this. -/
def sIs (n : Nat) (x : Word) : State → State := warpIs fun w => { w with s := w.s.set n x }

/-- Code that is long enough for branches and loops. -/
def longCode (s : State) : State := kernelIs (fun k => { k with codeSize := 12000 }) s

/-- `ScalarResults`: `scmp` to an s register and to a predicate. -/
theorem witness_ScalarResults :
    holdsFor (mkWord 0x51 0x101 0x104 0x105 0x803 0) id (fun i _ => match i with | .scmp o => !o.d.isP | _ => false) = true ∧
    holdsFor 0x200e0b04a10051 id (fun i _ => match i with | .scmp o => o.d == .p 2 | _ => false) = true := by decide

/-- `VectorIntegerResults`: a C operand, both forms of `isad`, the register pair of `ilop3`. -/
theorem witness_VectorIntegerResults :
    holdsFor (BitVec.ofNat 96 94742477562572257099927) id
      (fun i _ => match i with | .isel o => cOperand o.imm == some (.p 1) | _ => false) = true ∧
    holdsFor (mkWord 0x96 1 2 3 7 5) id
      (fun i _ => match i with | .ibfi o => cOperand o.imm == some (.v 5) | _ => false) = true ∧
    holdsFor 0xe8002001c000602009e id (fun i _ => match i with | .ilop3 o => o.a == .v 6 | _ => false) = true ∧
    (List.range 2).all (fun k => holdsFor (mkWord 0x9a 1 2 3 (0x400 * k + 6) 0) id
      (fun i _ => match i with | .isad o => o.mod.sub == BitVec.ofNat 5 k | _ => false)) = true := by decide

/-- `ComparisonResults`: comparisons to a register and to a predicate, integer and floating-point. -/
theorem witness_ComparisonResults :
    [(0x98, 6), (0x108, 10)].all (fun x => [1, 0x142].all fun d => holdsFor (mkWord x.1 d 4 5 x.2 0) id
      (fun i _ => match i with | .icmp o | .fcmp o => o.d.isP == (d == 0x142) | _ => false)) = true := by decide

/-- `VectorFloatResults`: the C operand of the fused instructions. -/
theorem witness_VectorFloatResults :
    [0x103, 0x116, 0x117, 0x118].all (fun opc => holdsFor (mkWord opc 1 2 3 10 4) id
      (fun i _ => match i with | .fma o | .fnma o | .fms o | .fnms o => cOperand o.imm == some (.v 4) | _ => false)) = true := by
  decide

/-- `ConversionResults`: `flgr` without and with the clear, `flgc` of an immediate and of lanes, and the
three writes of `cvtmx`. -/
theorem witness_ConversionResults :
    [0, 1].all (fun k => holdsFor (mkWord 0x113 5 0 0 (0x400 * k) 0) id
      (fun i _ => match i with | .flgr o => o.mod.sub == BitVec.ofNat 5 k | _ => false)) = true ∧
    holdsFor 0x3f00200000000000114 id (fun i _ => match i with | .flgc o => o.mod.ib | _ => false) = true ∧
    holdsFor 0xc00000114 id (fun i _ => match i with | .flgc o => !o.mod.ib | _ => false) = true ∧
    holdsFor (BitVec.ofNat 96 117155575817044241) id (fun i e => match i, i.sig with
      | .cvtmx o, some g =>
        let z := e.result [.g] none fun _ => 0
        (((e.write (e.named g) o.d z).bind fun t1 => ({ e with s := t1 } : Env).write (e.named g)
          (.v (BitVec.ofNat 8 (o.d.vNum + 1))) z).bind fun t2 => ({ e with s := t2 } : Env).write (e.named g) o.b z).isSome
      | _, _ => false) = true := by decide

/-- The f32 values that the clauses of `CordicResults` tell apart: NaN, zero, infinities, powers of two of
even and of odd exponent, one that is none, of both signs. -/
def cordicArgs : List (Word × FpVal) :=
  [(0x7fc00000, .nan false), (0, .num false 0 (-149)), (0x80000000, .num true 0 (-149)), (0x7f800000, .inf false),
   (0xff800000, .inf true), (0x3f800000, .num false (2 ^ 23) (-23)), (0x40000000, .num false (2 ^ 23) (-22)),
   (0x40400000, .num false (3 * 2 ^ 22) (-22)), (0xc0400000, .num true (3 * 2 ^ 22) (-22)),
   (0x3fc00000, .num false (3 * 2 ^ 22) (-23))]

/-- `CordicResults`: each kind of argument, for each instruction. -/
theorem witness_CordicResults :
    (List.range 8).all (fun k => cordicArgs.all fun x => holdsFor (mkWord (0x180 + k) 5 6 0 0x300a 0)
      (vIs 6 { shape := .u, base := x.1 })
      (fun _ e => decide ((fpOf .f32).val (e.elem .f32 (.v 6) 0 0) = x.2))) = true := by decide

/-- `RegisterMoveResults`: the forms of `shape` and `xmov`, `expand` of a register with and without a row. -/
theorem witness_RegisterMoveResults :
    [0, 1].all (fun k => holdsFor (mkWord 0x1c9 0x106 4 0 k 0) id
      (fun i _ => match i with | .shape o => o.a == .v 4 && o.mod == BitVec.ofNat 16 k | _ => false)) = true ∧
    holdsFor 0x800008481c9 id (fun i _ => match i with | .shape o => o.mod == 2 | _ => false) = true ∧
    holdsFor 0x201cb (vIs 4 (general 7))
      (fun i e => match i with | .expand o => o.d == .v 4 && (e.w.vreg 4).shape == .g | _ => false) = true ∧
    holdsFor 0x201cb id (fun i e => match i with
      | .expand o => o.d == .v 4 && (e.w.vreg 4).shape != .g && (e.s.makeG e.k e.t [4] 4).isSome
      | _ => false) = true ∧
    [(0, 5), (0x10, 0x105), (0x20, 0)].all (fun x => holdsFor (mkWord 0x1cd x.2 0 0 x.1 0) id
      (fun i _ => match i with | .xmov o => (o.mod.extractLsb' 4 2).toNat * 0x10 == x.1 | _ => false)) = true := by decide

/-- `MkaffFormsAnAffineValue`: a full and a partial mask, a stride of 0 and one that is not. -/
theorem witness_MkaffFormsAnAffineValue :
    [0, 1].all (fun x => [0xffffffff, 1].all fun m => holdsFor 0x20b040181ca
      (fun s => warpIs (fun w => { w with mask := m }) (sIs 5 x s))
      (fun i e => match i with
        | .mkaff o => o.d == .v 3 && decide (3 < e.w.v.length) && decide (0 < e.width ∧ e.width ≤ 64) && !e.w.atEnd &&
            (e.scalar o.b).extractLsb' 0 32 == x.setWidth 32 && (e.m == fullMask e.width) == (m == 0xffffffff)
        | _ => false)) = true := by decide

/-- Where each branch of the instruction set goes, and the condition that takes it. -/
def branchOf (i : Instr) (e : Env) : Word × Bool :=
  let direct (o : Ops (BitVec 16)) : Word := e.w.pc + 12 * o.imm.signExtend 64
  match i with
  | .bra o | .call o => (direct o, true)
  | .brx o | .callx o | .ret o => (e.scalar o.a, true)
  | .bc o => (direct o, branchCond o.mod.toNat (e.scalar o.a) (e.scalar o.b))
  | .bany o => (direct o, e.w.mask &&& e.pred o.a (o.mod.getLsbD 0) != 0)
  | .ball o => (direct o, e.w.mask != 0 && e.w.mask &&& ~~~(e.pred o.a (o.mod.getLsbD 0)) == 0)
  | _ => (0, false)

/-- The eight branches: opcode, D, A. -/
def branches : List (Nat × Nat × Nat) :=
  [(2, 0, 0), (3, 0, 0x103), (4, 0x101, 0), (5, 0x101, 0x103), (6, 0, 0x103), (7, 0, 0x104), (8, 0, 0x141), (9, 0, 0x141)]

/-- A loop level around the warp's instruction, with an open mask entry in it. -/
def inLoop (fin : Word) (w : Warp) : Warp :=
  { w with loops := [⟨w.pc, fin, 0, 0, 0⟩], lc := [2, 0, 0], stack := [⟨w.mask, 0, false, 0⟩] }

/-- `BranchResults`: a target outside the code, the last one in it, and one that leaves a level with an
open entry; taken and not taken. -/
theorem witness_BranchResults :
    branches.all (fun x =>
      let at_ (imm : Nat) (p : Word) (f : Warp → Warp) (ok : Word × Bool → Env → Bool) : Bool :=
        holdsFor (mkWord x.1 x.2.1 x.2.2 (if x.1 = 7 then 0x15f else 0) 0 (if x.2.2 = 0x103 then 0 else imm))
          (fun s => warpIs f (warpIs (fun w => { w with p := w.p.set 1 p })
            (sIs 3 (BitVec.ofNat 64 (probeBase + 12 * imm)) (longCode s))))
          fun i e => ok (branchOf i e) e
      at_ 1000 0xffffffff id (fun y e => y.2 && !e.t.kernel.inCode y.1) &&
      at_ 999 0xffffffff id (fun y e => y.2 && e.t.kernel.inCode y.1 && (e.w.cancelTo y.1).isSome) &&
      at_ 9 0xffffffff (inLoop (BitVec.ofNat 64 (probeBase + 12)))
        (fun y e => y.2 && e.t.kernel.inCode y.1 && (e.w.cancelTo y.1).isNone)) = true ∧
    [8, 9].all (fun opc => holdsFor (mkWord opc 0 0x141 0 0 1) longCode fun i e => !(branchOf i e).2) = true ∧
    holdsFor (mkWord 7 0 0x104 0x105 1 1) longCode (fun i e => !(branchOf i e).2) = true := by decide

/-- Range register 1: addresses 2^20 to 2^21 of a kind, with permissions (bit 0 read, 1 write, 2 atomic,
3 execute) and tag checks or not. -/
def rangeIs (kind perms : Nat) (tc : Bool := false) (s : State) : State :=
  let r := BitVec.ofNat 256 (2 ^ 71 + perms * 2 ^ 72 + (if tc then 2 ^ 76 else 0) + kind * 2 ^ 77 + 2 ^ 79 + 16 * 2 ^ 16 + 32 * 2 ^ 80)
  s.modCtx 0 fun c => { c with ranges := c.ranges.set 1 r }

/-- A page table that maps the low addresses to themselves: the root's entry 0 names the table at 0x100,
whose entry 0 is a leaf. -/
def mapped (s : State) : State := { s with mem := [(0, 1), (1, 1), (256, 3)] }

/-- A mask entry. -/
def openEntry (e : Bool) : MaskEntry := ⟨0xffffffff, 0, e, 0⟩

/-- `MaskStackAndLoopResults`: an empty, a shallow and a full stack; an entry whose else side has and has
not run; levels that open, are too many, too long or leave the code; a body that is left with and without
open entries. -/
theorem witness_MaskStackAndLoopResults :
    [0, 1, 31, 32].all (fun n => holdsFor 0x14100000a (warpIs fun w => { w with stack := List.replicate n (openEntry false) })
      fun _ e => e.w.stack.length == n) = true ∧
    [0xb, 0xc].all (fun opc => [false, true].all fun b =>
      holdsFor (mkWord opc 0 0 0 0 0) (warpIs fun w => { w with stack := [openEntry b] })
        (fun _ e => decide (e.w.sdIn < e.w.stack.length)) &&
      holdsFor (mkWord opc 0 0 0 0 0) id (fun _ e => decide (e.w.stack.length ≤ e.w.sdIn))) = true ∧
    [0xe, 0xf].all (fun opc =>
      let level (len : Nat) (count : Nat) (f : Warp → Warp) (p : Bool → Bool → Bool) : Bool :=
        holdsFor (mkWord opc 0 (if opc = 0xf then 0x103 else 0) 0 len (if opc = 0xf then 0 else count))
          (fun s => warpIs f (sIs 3 (BitVec.ofNat 64 count) (longCode s))) fun _ e =>
          p (decide (e.w.pc.toNat + 12 * len < e.t.kernel.codeBase + e.t.kernel.codeSize))
            (decide (e.w.loops.length < 3) &&
              e.w.loops.head?.all fun lv => !lv.fin.ult (e.w.pc + BitVec.ofNat 64 (12 * len)))
      level 257 1 id (fun _ _ => true) && level 256 1 id (fun i n => i && n) && level 256 0 id (fun i n => i && n) &&
      level 256 1 (fun w => { w with loops := [⟨0, 0, 0, 0, 0⟩] }) (fun i n => i && !n)) = true ∧
    holdsFor (mkWord 0xe 0 0 0 1 1) id
      (fun _ e => !decide (e.w.pc.toNat + 12 < e.t.kernel.codeBase + e.t.kernel.codeSize)) = true ∧
    [0xd, 0x1a, 0x1b].all (fun opc =>
      let w := mkWord opc 0 (if opc = 0x1b then 0 else 0x141) 0 0 0
      holdsFor w id (fun _ e => e.w.loops.isEmpty) &&
      holdsFor w (warpIs (inLoop 0x10010)) (fun _ e => !e.w.loops.isEmpty && e.w.stack.length != 0) &&
      holdsFor w (warpIs fun w => { inLoop 0x10010 w with stack := [] })
        (fun _ e => !e.w.loops.isEmpty && e.w.stack.length == 0)) = true := by decide

/-- A warp at the end of its innermost level, with this count, mask and stack. -/
def atLoopEnd (n : Word) (mask : Mask) (stack : List MaskEntry) : Warp :=
  { probeWarp with loops := [⟨0x10000, 0x10000, 0, 0, 0⟩], lc := [n, 0, 0], mask := mask, stack := stack }

/-- `BackEdge`: inside the body; at its end with passes left, with none left, with no lane left, and with
an open mask entry. -/
theorem witness_BackEdge :
    ((warpIs (fun _ => probeWarp) (State.reset.withFetchWord 96 1)).warp? key).map (·.atEnd) = some false ∧
    [(2, 1, []), (1, 1, []), (2, 0, []), (2, 1, [openEntry false])].all (fun (x : Word × Mask × List MaskEntry) =>
      match (warpIs (fun _ => atLoopEnd x.1 x.2.1 x.2.2) (State.reset.withFetchWord 96 1)).warp? key with
      | some w => w.atEnd && w.loops.head?.any fun lv => lv.fin == w.pc && (w.stack.length == lv.sdepth) == x.2.2.isEmpty &&
          ((w.lc.getD 0 0 - 1 != 0 && w.mask ||| lv.cont != 0) == (x.1 == 2 && x.2.1 == 1))
      | none => false) = true := by decide

/-- `MovingOnFrame`: a warp that is not at the end of a level. -/
theorem witness_MovingOnFrame :
    ((State.reset.withFetchWord 96 1).warp? key).map (·.atEnd) = some false := by decide

/-- 63 operations of a path that are not complete. -/
def open63 : List (Nat × Bool) := List.replicate 63 (0, false)

/-- `WarpControlResults`: a count of 0 and one that is not, counters at their thresholds, a pending and no
pending arrival, a phase that has and has not moved, with and without ATTACH. -/
theorem witness_WarpControlResults :
    [0, 1].all (fun n => holdsFor (mkWord 0x11 0 0x101 0 0 n) id fun i e => match i with
      | .sleep o => min ((e.scalar o.a).toNat + o.imm.toNat) (2 ^ 32 - 1) == n
      | _ => false) = true ∧
    holdsFor 0xffffc000000000000000016 (warpIs fun w => { w with stq := open63, cpq := open63, mxq := open63 }) (fun _ e =>
      decide (e.w.counter .ld ≤ 0 ∧ e.w.counter .st ≤ 63 ∧ e.w.counter .cp ≤ 63 ∧ e.w.counter .mx ≤ 63)) = true ∧
    holdsFor (mkWord 0x17 0 0x103 0 2 0) (fun s => warpIs (fun w => { w with spq := open63.take 5 }) (sIs 3 5 s)) (fun i e => match i with
      | .waitp o => decide (e.w.counter (pathOfNat o.mod.toNat) = (e.scalar o.a).toNat)
      | _ => false) = true ∧
    [0x13, 0x14, 0x15].all (fun opc => [(false, 0), (true, 0), (true, 5)].all fun x =>
      holdsFor (mkWord opc 0 0 0 7 0) (warpIs fun w => { w with arrivals := w.arrivals.set 7 x })
        (fun _ e => (e.w.arrival 7).1 == x.1 && ((e.t.barrier 7).phase == (e.w.arrival 7).2) == (x.2 == 0))) = true ∧
    [(1, false), (2, true)].all (fun x => holdsFor (mkWord 0x13 0 0 0 0 0)
      (teamIs fun t => { t with warps := (List.range x.1).map fun n => { probeWarp with num := n } })
      (fun i e => match i with
        | .bar o => (match e.waitBarrier (e.startArrival o.mod.toNat) o.mod.toNat with
          | .next _ => !x.2
          | .enter _ => x.2
          | _ => false)
        | _ => false)) = true ∧
    [0x18, 0x19, 0x3e3].all (fun opc => [false, true].all fun b =>
      holdsFor (mkWord opc 0 0 0 0 0) (fun s => s.modCtx 0 fun c => { c with attach := b })
        (fun _ e => e.s.fqRoom e.k.ctx && e.ctx.attach == b)) = true := by decide

/-- `TrapInstructions` and `BanyAndBall`: a guard that is off. -/
theorem witness_guard_off :
    [0x18, 0x19, 0x3e3, 8, 9].all (fun opc =>
      match decode (mkWord (opc + 0x400) 0 (if opc < 0x10 then 0x141 else 0) 0 0 0) with
      | some i => match i.sig with
        | some g =>
          let e := envOf (State.reset.withFetchWord 96 0) g
          (g.check e.t).isNone && (g.mask e.t e.w).isNone
        | none => false
      | none => false) = true := by decide

/-- `BanyAndBall`: predicate 1 all ones, all zeros; a negated one. -/
theorem witness_BanyAndBall :
    [8, 9].all (fun opc => [0, 1].all fun pn => [0, 0xffffffff].all fun p =>
      holdsFor (mkWord opc 0 0x141 0 pn 0) (warpIs fun w => { w with p := w.p.set 1 p })
        (fun i e => match i with
          | .bany o | .ball o => o.a == .p 1 && e.t.kernel.inCode (e.w.pc + 12 * o.imm.signExtend 64) &&
              (e.w.cancelTo e.w.pc).isSome &&
              ((List.range 64).any fun l => e.w.mask.has l && ((e.w.preg 1).has l != o.mod.getLsbD 0)) ==
                ((p == 0) == (pn == 1))
          | _ => false)) = true := by decide
/-- A finish scope at index 0, generation 1, whose handle is 0x100. -/
def scopeEntry (closed detach : Bool) (parent : Word := 0) : ScopeEntry :=
  { idx := 0, gen := 1, parent := parent, count := 1, closed := closed, status := 0, detach := detach, faults := 0
    fserial := 0, packet := none, allocated := true }

/-- The context holds that scope, and the team is counted in it or not. -/
def inScope (closed detach counted : Bool) (s : State) : State :=
  teamIs (fun t => { t with scopes := if counted then [0x100] else [] })
    (s.modCtx 0 fun c => { c with scopes := [scopeEntry closed detach] })

/-- The team runs node 0 of a firing whose edge 0 has this bound and has accepted some records, with a
reservation of 32 on it, in an open scope. -/
def inFiring (bound accepted : Nat) (s : State) : State :=
  teamIs (fun t => { t with packet := some 9, nodeRef := 3 * 256, reserved := [32], args := [0, 0, 1, 0] })
    ((inScope false false true s).modCtx 0 fun c => { c with firings :=
      [⟨3, 9, 0, [⟨probeKernel, 0, 0, [some 0], 0, 1, false, [], 0⟩], [⟨0x20000, 64, bound, 0, 32, accepted⟩]⟩] })

/-- A result that is a state. -/
def isOk {α β : Type} : Except α β → Bool
  | .ok _ => true
  | .error _ => false

/-- `EmitResults`: no records, a reservation too small, an edge that is full by one, one without bound and one
whose bound is just met; lanes without a scope, and a joined scope that is closed to the warp or dead. -/
theorem witness_EmitResults :
    holdsFor (mkWord 0x341 0 0x104 0x105 0 0) (inFiring 0 0) (fun _ e => (e.scalar (.s 5)).toNat == 0) = true ∧
    [(0, 0, 33), (4, 0, 5), (4, 3, 2), (4, 3, 1), (0, 9, 32)].all (fun x =>
      holdsFor (mkWord 0x341 0 0x104 0x105 0 0) (fun s => sIs 5 (BitVec.ofNat 64 x.2.2) (inFiring x.1 x.2.1 s)) fun i e =>
        let n := (e.scalar (.s 5)).toNat
        match i, e.emitEdge 0 with
        | .emitn _, some (_, _, y) =>
          n != 0 && (e.reservation 0 < n) == (x.2.2 == 33) &&
            (decide (y.bound ≠ 0 ∧ y.bound < y.accepted + n) == [(4, 0, 5), (4, 3, 2)].contains x) &&
            (e.currentScope 0).any (fun h => e.ctx.accepts h e.t.counted) && isOk (e.release .dv)
        | _, _ => false) = true ∧
    holdsFor 0x40004000340 (inFiring 0 0) (fun _ e => (e.emitEdge 0).isSome && (e.emitEdge 1).isNone) = true ∧
    holdsFor (mkWord 0x340 0 4 0 0 0) (inFiring 32 0) (fun _ e => decide (e.lanes.length ≤ e.reservation 0) &&
      e.lanes.all fun l => (e.currentScope l).any fun h => e.ctx.accepts h e.t.counted) = true ∧
    holdsFor (mkWord 0x340 0 4 0 0 0) (fun s => teamIs (fun t => { t with scopes := [] }) (inFiring 32 0 s))
      (fun _ e => !e.lanes.isEmpty && decide (e.lanes.length ≤ e.reservation 0) && (e.emitEdge 0).isSome &&
        e.lanes.all fun l => (e.currentScope l).isNone) = true ∧
    [(0x100, true), (0x300, false)].all (fun (x : Word × Bool) =>
      holdsFor (mkWord 0x341 0 0x104 0x105 0 0) (fun s => sIs 5 1 (warpIs (fun w => { w with joined := some x.1 })
        (teamIs (fun t => { t with scopes := [] }) ((inFiring 0 0 s).modCtx 0 fun c => { c with scopes := [scopeEntry true false] }))))
        (fun _ e => (e.emitEdge 0).isSome && e.currentScope 0 == some x.1 && (e.ctx.scope? x.1).isSome == x.2 &&
          !e.ctx.accepts x.1 e.t.counted)) = true := by decide

set_option maxRecDepth 4000 in
/-- `ScopeInstructionResults`: a handle of no scope, 0, an open and a closed scope, counted in it or not,
detached or not; a free entry and none. -/
theorem witness_ScopeInstructionResults :
    [(0x342, 0x101), (0x343, 0), (0x344, 0x101), (0x345, 0), (0x349, 0x101)].all (fun x =>
      let with_ (h : Word) (f : State → State) (p : Env → Bool) : Bool :=
        holdsFor (mkWord x.1 x.2 0x103 0 0 (if x.1 = 0x342 then 0x143 else 0)) (fun s => sIs 3 h (f s))
          fun _ e => e.scalar (.s 3) == h && p e
      let own (e : Env) : Bool := e.t.counted.any fun c => e.ctx.under 257 c 0x100
      with_ 0 id (fun e => (e.ctx.scope? 0).isNone) &&
      with_ 0x200 (inScope false false true) (fun e => (e.ctx.scope? 0x200).isNone && !e.ctx.accepts 0x200 e.t.counted) &&
      with_ 0x100 (inScope false false true) (fun e => e.ctx.accepts 0x100 e.t.counted &&
        (e.s.allocScope e.k.ctx 0x100 none).isSome && ((e.ctx.scope? 0x100).map (·.closed)) == some false) &&
      with_ 0x100 (inScope true false true) (fun e => own e && ((e.ctx.scope? 0x100).map (·.closed)) == some true) &&
      with_ 0x100 (inScope true true false) (fun e => !own e && ((e.ctx.scope? 0x100).map (·.detach)) == some true) &&
      with_ 0x100 (inScope true false false) (fun e => !own e && !e.ctx.accepts 0x100 e.t.counted &&
        ((e.ctx.scope? 0x100).map (·.detach)) == some false)) = true ∧
    holdsFor (mkWord 0x342 0x101 0x103 0 0 0x143) (fun s => (inScope false false true s).modCtx 0 fun c =>
      { c with scopes := (List.range 256).map fun i => { scopeEntry false false with idx := i } })
      (fun _ e => (((e.s.unflush e.k).allocScope e.k.ctx 0 none)).isNone) = true := by decide

/-- L2 holds a sector of zeros. -/
def inL2 (sec : Nat) (s : State) : State :=
  { s with l2 := ⟨false, sec, sec, List.replicate 128 0, 0, false, none, 0⟩ :: s.l2 }

/-- A page check that passes. -/
def SigPage.isReady : SigPage → Bool
  | .ready _ => true
  | _ => false

/-- `SignalInstructionResults`: an address off by one byte, one in no range, a lease not held, a peer range,
a range without the permission; a device word and a host word that may be accessed, with and without
`.rel`; a condition that holds and one that does not. -/
theorem witness_SignalInstructionResults :
    [(0x346, 0, 0), (0x348, 0, 0x103), (0x347, 0x101, 0x103)].all (fun x =>
      let at_ (va : Word) (mod : Nat) (f : State → State) (p : Instr → Env → OpKind → Bool) : Bool :=
        holdsFor (mkWord x.1 x.2.1 0x102 x.2.2 mod 0) (fun s => sIs 2 va (f (mapped s)))
          fun i e => e.scalar (.s 2) == va && p i e (if x.1 = 0x347 then .load else .atomic)
      let free (r : Range) (e : Env) (kind : OpKind) : Bool :=
        let a : LaneAccess := { lane := 255, va := e.scalar (.s 2), ia := r.target (e.scalar (.s 2)), rkind := r.kind }
        r.kind != 2 && r.permits kind && (r.kind != 0 || e.t.leases.getLsbD r.idx) &&
          (e.watchHit kind.watchKind 8 [a]).isNone && !e.heldByAcquire && !e.olderAccess 8 [a]
      at_ 0x40001 0 id (fun _ e _ => (e.scalar (.s 2)).toNat % 8 != 0) &&
      at_ 0x300000 0 id (fun _ e _ => (e.ctx.findRange 0x300000 8).isNone) &&
      at_ 0x100000 0 (rangeIs 0 7) (fun _ e _ => (e.ctx.findRange 0x100000 8).any fun r =>
        r.kind == 0 && !e.t.leases.getLsbD r.idx) &&
      at_ 0x100000 0 (rangeIs 2 7) (fun _ e _ => (e.ctx.findRange 0x100000 8).any fun r => r.kind == 2) &&
      at_ 0x100000 0 (rangeIs 1 2) (fun _ e k => (e.ctx.findRange 0x100000 8).any fun r => !r.permits k) &&
      at_ 0x1ffff8 0 (rangeIs 3 7) (fun _ e k => (e.ctx.findRange 0x1ffff8 8).any fun r => r.kind == 3 && free r e k) &&
      (if x.1 = 0x347 then [0, 1] else [0, 2]).all fun ord => at_ 0x40000 (8 * ord) (inL2 0x800) (fun i e k => (e.ctx.findRange 0x40000 8).any fun r =>
        r.kind == 0 && free r e k && isOk (e.release .dv) && ((e.s.core e.w.core).l1.all fun y => !e.stray 0x40000 y) &&
          !e.s.wbPending e.w.core (0x40000 / 128) &&
          SigPage.isReady (e.s.signalPage e.k e.w i (e.scalar (.s 2)) r k))) = true ∧
    [0, 1].all (fun cond => holdsFor (mkWord 0x347 0x101 0x102 0x103 (32 * cond) 0) (fun s => sIs 2 0x40000 (inL2 0x800 (mapped s)))
      (fun i e => match i, e.ctx.findRange 0x40000 8 with
        | .sigwait o, some r => match e.s.signalPage e.k e.w i 0x40000 r .load with
          | .ready t => branchCond (o.mod.toNat / 32 % 8) (t.signalValue r 0x40000 (t.warpParty e.k e.w)).1 (e.scalar o.b) == (cond == 0)
          | _ => false
        | _, _ => false)) = true := by decide

/-- `SystemAndRecorderResults`: EXPECT and the other written register, an empty range of `icinv`, one in no
range, a lease not held, one without PEX and one that may be dropped; both forms of `pwrq`, `clkr`, `causer`. -/
theorem witness_SystemAndRecorderResults :
    [0x20, 0x21].all (fun k => holdsFor (mkWord 0x3e1 0 0x103 0 k 0) id
      (fun i _ => match i with | .sysw o => o.mod.toNat == k | _ => false)) = true ∧
    (let at_ (va n : Word) (f : State → State) (p : Env → Bool) : Bool :=
       holdsFor (mkWord 0x3e2 0 0x102 0x103 0 0) (fun s => sIs 2 va (sIs 3 n (f s))) fun _ e =>
         e.scalar (.s 2) == va && e.scalar (.s 3) == n && p e
     at_ 0x10000 0 id (fun _ => true) = true ∧
     at_ 0x10000 0x100000 id (fun e => (e.ctx.findRange 0x10000 0x100000).isNone) = true ∧
     at_ 0x100000 12 (rangeIs 0 7) (fun e => isOk (e.release .dv) && (e.ctx.findRange 0x100000 12).any fun r => !e.t.leases.getLsbD r.idx) = true ∧
     at_ 0x100000 12 (rangeIs 1 7) (fun e => (e.ctx.findRange 0x100000 12).any fun r => r.kind != 0 && !r.pex) = true ∧
     at_ 0x10000 12 id (fun e => (e.ctx.findRange 0x10000 12).any fun r => e.t.leases.getLsbD r.idx && r.pex && isOk (e.release .dv)) =
       true) ∧
    [0x3e4, 0x3c1, 0x3c2].all (fun opc => [0, 1].all fun k => holdsFor (mkWord opc 0x108 0 0 k 0) id
      (fun i _ => match i with | .pwrq o | .clkr o | .causer o => o.mod.toNat == k | _ => false)) = true := by decide
/-- A memory instruction of the tests: opcode, D, MOD without an order, kind, scalar or not, alignment. -/
structure MemCase where
  opc : Nat
  d : Nat
  mod : Nat
  kind : OpKind
  scalar : Bool := false
  size : Nat := 8
  align : Nat := 8

/-- The twelve memory instructions, 64 bits wide but for the tags. -/
def memCases : List MemCase :=
  [⟨0x280, 1, 0x207, .load, false, 8, 8⟩, ⟨0x281, 1, 0x207, .store, false, 8, 8⟩, ⟨0x282, 1, 0x207, .atomic, false, 8, 8⟩,
   ⟨0x283, 1, 0x207, .reduce, false, 8, 8⟩, ⟨0x284, 1, 0x307, .remoteLoad, false, 8, 8⟩,
   ⟨0x285, 1, 0x307, .remoteStore, false, 8, 8⟩, ⟨0x286, 1, 0x307, .remoteReduce, false, 8, 8⟩,
   ⟨0x28c, 0x101, 0x207, .load, true, 8, 8⟩, ⟨0x28d, 0x101, 0x207, .store, true, 8, 8⟩,
   ⟨0x28e, 0x101, 0x207, .atomic, true, 8, 8⟩, ⟨0x304, 1, 0x200, .tagStore, false, 1, 32⟩,
   ⟨0x305, 1, 0x200, .tagLoad, false, 1, 1⟩]

/-- The address of the instruction is va, in the local range 0 or the range 1 of a kind. -/
def memAt (c : MemCase) (va : Word) (extra : Nat) (f : State → State) (p : MemForm → Env → Bool) : Bool :=
  holdsFor (mkWord c.opc c.d 0x104 0x15f (c.mod + extra) 0) (fun s => sIs 4 va (f s)) fun i e =>
    match i with
    | .ld o | .st o | .atom o | .red o | .ldr o | .str o | .redr o | .sld o | .sst o | .satom o | .tagst o | .tagld o =>
      p { kind := c.kind, o := o, scalar := c.scalar, size := c.size, align := c.align } e &&
        laneBits o.mod.ty o.mod.pk / 8 == c.size
    | _ => false

/-- The error code of the checks; 0 when they pass. -/
def checkCode (f : MemForm) (e : Env) : Nat :=
  match e.checkAll f (e.accesses f) with
  | .ok _ => 0
  | .error (c, _) => c

/-- The accesses of an instruction whose checks pass. -/
def checked (f : MemForm) (e : Env) : List LaneAccess :=
  match e.checkAll f (e.accesses f) with
  | .ok l => l
  | .error _ => []

/-- Its counter has room, no acquire holds it, its addresses are aligned, its checks pass, a slot is free. -/
def mayIssue (f : MemForm) (e : Env) : Bool :=
  e.pathRoom f.kind && (e.accesses f).all (fun a => a.va.toNat % f.align == 0) && checkCode f e == 0 && !(checked f e).isEmpty &&
    !(if f.kind.remote then e.remoteHeld else e.heldByAcquire) && e.slotsFree (requestsOf (checked f e)).length

/-- A watch slot of the warp itself over the low addresses. -/
def watching : State → State :=
  warpIs fun w => { w with watch := [some ⟨0x40000, 0x40001, 7, 0, 0xffffffff, 0, 0, 0⟩, none, none, none] }

/-- `MemoryInstructionsIssue`: an address that is not aligned, the failures of the range checks, the last
address of a range. -/
theorem witness_MemoryInstructionsIssue_checks :
    memCases.all (fun c =>
      let kind := if c.kind.remote then 2 else 1
      let last : Word := BitVec.ofNat 64 (0x200000 - c.align)
      (c.align == 1 || memAt c 0x100001 0 (rangeIs kind 7) (fun f e => (e.accesses f).all fun a => a.va.toNat % f.align != 0)) &&
      memAt c 0x300000 0 id (fun f e => checkCode f e == 0x10) && memAt c 0x200000 0 (rangeIs kind 7) (fun f e => checkCode f e == 0x10) &&
      memAt c 0x100000 0 (rangeIs 0 7) (fun f e => checkCode f e == 0x11) &&
      memAt c 0x100000 0 (rangeIs kind 0) (fun f e => checkCode f e == 0x12) &&
      memAt c 0x100000 0 (rangeIs (3 - kind) 7) (fun f e => checkCode f e == (if kind = 1 then 0x12 else 0x12)) &&
      memAt c last 0 (rangeIs kind 7) mayIssue) = true := by decide

/-- The same: a poisoned store to the host, a watched access. -/
theorem witness_MemoryInstructionsIssue_stops :
    memAt ⟨0x281, 1, 0x207, .store, false, 8, 8⟩ 0x100000 0
      (fun s => vIs 1 { general 7 with poison := 1 } (rangeIs 3 7 false s)) (fun f e =>
        (checked f e).any fun a => a.poison && a.rkind == 3) = true ∧
    memCases.all (fun c => c.kind.remote || [OpKind.tagStore, .tagLoad].contains c.kind ||
      memAt c 0x40000 0 watching (fun f e => (e.watchHit f.kind.watchKind f.size (checked f e)).isSome)) = true := by decide

/-- The same: it issues, relaxed and with its orders, in write-back and in write-through form. -/
theorem witness_MemoryInstructionsIssue_issues :
    memCases.all (fun c =>
      let va : Word := if c.kind.remote then 0x100000 else 0x40000
      let orders := match c.kind with
        | .load | .remoteLoad => [0, 0x40]
        | .store | .remoteStore => [0, 0x80, 0x800]
        | .atomic => [0, 0x40, 0x80, 0xc0]
        | .reduce | .remoteReduce => [0, 0x80]
        | _ => [0]
      (c.kind.remote && c.kind != .remoteLoad || true) && orders.all fun x =>
        (c.kind.remote && x == 0x800) || memAt c va x (rangeIs 2 7) (fun f e =>
          mayIssue f e && isOk (e.release f.o.mod.scope) && (e.watchHit f.kind.watchKind f.size (checked f e)).isNone &&
            f.o.mod.ord.releases == [0x80, 0xc0].contains x && f.o.mod.ord.acquires == [0x40, 0xc0].contains x &&
            !e.olderAccess f.size (checked f e) && !e.s.regionOpen e.k e.w.core e.w.regions && !e.remoteOpen &&
            (!(f.kind.hasResult && !f.scalar) || match decode (mkWord c.opc c.d 0x104 0x15f (c.mod + x) 0) with
              | some i => (e.prepLoad i e.s f.o.d (e.uniformLoad f.o.d (checked f e))).isSome
              | none => false))) = true := by decide

set_option maxRecDepth 4000 in
/-- `WriteBackStoreWritesItsBytes`: a sector that the L1 holds, with bytes in and outside the mask, and another. -/
theorem witness_WriteBackStoreWritesItsBytes :
    (let x : L1Sector := { sector := 5, data := List.replicate 128 1, dirty := 0, valid := byteMask 0 128, owner := none, poison := false, tags := none }
     let s := State.reset.modCore 3 fun c => { c with l1 := [x, { x with sector := 6 }] }
     let y := ((s.l1Store 3 ⟨0, 0⟩ 5 (List.replicate 128 9) (byteMask 127 1) false false).core 3).l1? 5
     ((s.core 3).l1? 5).isSome && ((s.core 3).l1? 6).isSome && y.any fun z => z.data[127]? == some 9 && z.data[126]? == some 1) = true := by
  decide
/-- An L1 sector with one dirty byte. -/
def dirtySector (sec : Nat) : L1Sector :=
  { sector := sec, data := List.replicate 128 1, dirty := 1, valid := byteMask 0 128, owner := some key.team, poison := false
    tags := none }

/-- The core holds it. -/
def dirtyL1 (s : State) : State := s.modCore 0 fun c => { c with l1 := [dirtySector 5] }

/-- `FenceAndWatchResults`: a prefetch of an address in no range and of one in a range, the three orders of
`fence`; `fencex` with paths drained that pushes and that does not, that invalidates and that does not, that reads the
host link and whose read is complete;
`l1wb` of a clean and of a dirty L1. -/
theorem witness_FenceAndWatchResults_fences :
    [(0x300000, true), (0x40000, false)].all (fun (x : Word × Bool) =>
      holdsFor (mkWord 0x287 0 0x104 0x15f 0 0) (sIs 4 x.1) fun i e => match i with
        | .pref o =>
          let f : MemForm := { kind := .prefetch, o := o, size := 1, align := 1 }
          let lanes := (e.accesses f).filterMap fun a => match e.checkAccess f a with | .ok b => some b | .error _ => none
          laneBits o.mod.ty o.mod.pk / 8 == 1 && lanes.isEmpty == x.2 && (e.w.indexFault e.t.kernel.n [o.b] (List.range 32)).isNone &&
            (e.accesses f).all (fun a => !e.w.poisonAt o.b a.lane && !e.w.poisonAt o.a a.lane) && e.slotsFree (requestsOf lanes).length
        | _ => false) = true ∧
    [(0x40, Ord.acq), (0x80, .rel), (0xc0, .ar), (0x4c0, .ar)].all (fun (x : Nat × Ord) =>
      holdsFor (mkWord 0x288 0 0 0 x.1 0) (if x.1 == 0x4c0 then warpIs fun w => { w with release := .done } else id) fun i e => match i with
        | .fence o => o.mod.ord == x.2 && isOk (e.release o.mod.scope) && e.w.ldq.isEmpty && e.w.spq.isEmpty
        | _ => false) = true ∧
    [(0x4c2, true, false), (0x408, false, true), (0x288, false, false), (0x40a, false, true), (0x8c2, true, false)].all (fun (x : Nat × Bool × Bool) =>
      holdsFor (mkWord 0x289 0 0 0 x.1 0) id fun i e => match i with
        | .fencex o =>
          let m := o.mod
          let wide := m.scope == .dv || m.scope == .cl || m.scope == .sy
          [Path.ld, .st, .sp].all (fun p => e.w.counter p == 0) && e.w.release != .reading &&
            (m.scope == .sy && MF.has m .st) == (x.1 == 0x8c2) && (MF.has m .st && (m.dst == .cp || m.dst == .rm || wide || e.t.kernel.paired)) == (x.2.1 || x.1 == 0x40a) &&
            (m.dst == .ld && (MF.has m .cp || MF.has m .rm || wide)) == x.2.2 &&
            match e.pushDirty (fun s => .next s) with | .next _ => true | _ => false
        | _ => false) = true ∧
    holdsFor (mkWord 0x289 0 0 0 0x8c2 0) (warpIs fun w => { w with release := .reading }) (fun _ e => e.w.release == .reading) = true ∧
    [false, true].all (fun b => holdsFor 0x28b (if b then dirtyL1 else id) fun _ e => e.w.roomOn .st &&
      (e.s.cleanAll e.w.core (ownedBy e.k.team)).1.isEmpty != b) = true := by decide

/-- `n` warps whose four watch slots have scope dv. -/
def allWatch (n : Nat) (s : State) : State :=
  let x : WatchSlot := ⟨0, 1, 7, 2, 1, 0, 0, 0⟩
  { s with teams := s.teams ++ [{ probeTeam false with
      tid := 5, warps := (List.range n).map fun i => { probeWarp with num := i, watch := List.replicate 4 (some x) } }] }

set_option maxRecDepth 8000 in
/-- The same: `watch` of no bytes, of a range that is not there, of one whose permission lacks, of one armed
with room and without. -/
theorem witness_FenceAndWatchResults_watch :
    (let at_ (n : Word) (va : Word) (mod : Nat) (f : State → State) (p : Env → Bool) : Bool :=
       holdsFor (mkWord 0x307 0x10a 0x104 0x105 mod 0x142) (fun s => sIs 4 va (sIs 5 n (f s))) fun i e => match i with
         | .watch o => e.scalar o.a == va && e.scalar o.b == n && p e && o.mod.toNat == mod
         | _ => false
     at_ 0 0x40000 9 id (fun _ => true) &&
     at_ 8 0x300000 9 id (fun e => !isOk (e.watchRange 0x300000 8)) &&
     at_ 8 0x100000 9 (rangeIs 2 7) (fun e => !isOk (e.watchRange 0x100000 8)) &&
     at_ 8 0x40000 9 id (fun e => isOk (e.watchRange 0x40000 8)) &&
     at_ 1 0xfffff 0x49 (allWatch 63) (fun e => isOk (e.watchRange 0xfffff 1) &&
       decide ((e.s.modWarp e.k fun w => { w with watch := w.watch.set 1 none }).dvSlots < 256)) &&
     at_ 8 0x40000 0x49 (allWatch 64) (fun e => isOk (e.watchRange 0x40000 8) &&
       decide (256 ≤ (e.s.modWarp e.k fun w => { w with watch := w.watch.set 1 none }).dvSlots))) = true := by decide

/-- `QueueingRaisesOneCounter`: the warp exists. -/
theorem witness_QueueingRaisesOneCounter : ((State.reset.withFetchWord 96 0x288).warp? key).isSome = true := by decide

/-- `ScratchpadInstructionsIssue`: an offset that is misaligned, one just outside the scratchpad, the last
one, for each instruction; layout words that are malformed, of another element size, and plain. -/
theorem witness_ScratchpadInstructionsIssue_lanes :
    [(0x240, 1, false), (0x241, 1, false), (0x242, 1, true), (0x247, 1, true)].all (fun (x : Nat × Nat × Bool) =>
      let at_ (off : Word) (mod : Nat) (p : Nat → Env → Bool) : Bool :=
        holdsFor (mkWord x.1 x.2.1 0x104 0x15f (0x207 + mod) 0) (fun s => sIs 4 off s) fun i e => match i with
          | .lds o | .sts o | .atoms o | .reds o =>
            let lanes := e.lanes.map (e.access o x.2.2 fun l => (e.laneAddr o x.2.2 l).toNat)
            laneBits o.mod.ty o.mod.pk / 8 == 8 && !e.heldByAcquire && e.w.roomOn .sp && !lanes.isEmpty &&
              isOk (e.release (spScope o.mod.scope)) && lanes.all fun a => p a.ia e
          | _ => false
      let size := probeKernel.scratch
      at_ 4 0 (fun a _ => a % 8 != 0) && at_ (BitVec.ofNat 64 (size - 8)) 0 (fun a e => a % 8 == 0 && decide (a + 8 ≤ e.t.kernel.scratch)) &&
      at_ (BitVec.ofNat 64 size) 0 (fun a e => a % 8 == 0 && decide (e.t.kernel.scratch < a + 8)) &&
      ((x.1 == 0x241 || x.1 == 0x247 || at_ 0 0x40 (fun _ _ => true)) && (x.1 == 0x240 || at_ 0 0x80 (fun _ _ => true)))) = true ∧
    [(0x245, 0), (0x246, 0)].all (fun (x : Nat × Nat) =>
      let at_ (layout : Word) (p : Option Layout → Bool) : Bool :=
        holdsFor (mkWord x.1 1 0x104 2 7 0) (sIs 4 layout) fun i e => match i with
          | .ldsx o | .stsx o => p (layoutOf (e.scalar o.a)) && !e.heldByAcquire && e.w.roomOn .sp
          | _ => false
      at_ 0x8000000000000000 (·.isNone) && at_ 0x400000000 (·.any fun l => l.esz != 0) && at_ 0x200000000 (·.any fun l => l.kMajor) &&
        at_ 0 (·.any fun l => l.esz == 0 && !l.kMajor)) = true := by decide
/-- The same: `spinv` and `spfill` misaligned, outside and inside, `spstat` in its three forms. -/
theorem witness_ScratchpadInstructionsIssue_words :
    [(0x243, 0), (0x248, 0x108)].all (fun (x : Nat × Nat) =>
      let at_ (a b : Word) (p : Env → Bool) : Bool :=
        holdsFor (mkWord x.1 x.2 0x102 0x103 0 0) (fun s => sIs 2 a (sIs 3 b s)) fun i e => match i with
          | .spinv o | .spfill o => e.scalar o.a == a && e.scalar o.b == b && !e.heldByAcquire && e.w.roomOn .sp && p e
          | _ => false
      let size := BitVec.ofNat 64 probeKernel.scratch
      at_ 2 4 (fun _ => true) && at_ 4 2 (fun _ => true) && at_ 4 size (fun e => decide (e.t.kernel.scratch < 4 + size.toNat)) &&
        at_ 0 size (fun e => decide (size.toNat ≤ e.t.kernel.scratch))) = true ∧
    [0, 1, 2].all (fun k => holdsFor (mkWord 0x244 0x109 (if k = 2 then 0x102 else 0) 0 k 0)
      (sIs 2 (BitVec.ofNat 64 (probeKernel.scratch - 4))) fun i e => match i with
        | .spstat o => o.mod.toNat == k && e.w.counter .sp == 0 &&
            (k != 2 || (e.scalar o.a).toNat % 4 == 0 && decide ((e.scalar o.a).toNat + 4 ≤ e.t.kernel.scratch))
        | _ => false) = true := by decide

/-- A malformed layout word, one of another element size, one whose offset is no multiple of 16, one with an
element outside, one whose elements are inside. -/
def layoutCases (opc d mod : Nat) (esz rows cols : Nat) : Bool :=
  let at_ (a b : Word) (p : Env → Operand → Operand → Bool) : Bool :=
    holdsFor (mkWord opc d 0x104 0x105 mod 0) (fun s => sIs 4 a (sIs 5 b s)) fun i e => match i with
      | .fld o | .fldsc o | .accld o | .accst o => e.scalar o.a == a && e.scalar o.b == b && p e o.a o.b
      | _ => false
  let bad (c : Nat) (e : Env) (a b : Operand) : Bool := match e.layoutArgs a b esz with | .error x => x == c | .ok _ => false
  let inside (want : Bool) (e : Env) (a b : Operand) : Bool := match e.layoutArgs a b esz with
    | .ok (l, x) => elementsInside e.t.kernel.scratch l x rows cols == want
    | .error _ => false
  let z : Word := BitVec.ofNat 64 (esz * 2 ^ 34)
  at_ 0x8000000000000000 0 (bad 2) && at_ (z ^^^ 0x400000000) 0 (bad 2) && at_ z 8 (bad 6) &&
    at_ z (BitVec.ofNat 64 probeKernel.scratch) (inside false) && at_ z 0 (inside true)

set_option maxRecDepth 20000 in
/-- `MatrixOperationsAreAccepted`: the layout cases of `fld`, `fldsc`, `accld` and `accst`. -/
theorem witness_MatrixOperationsAreAccepted_layouts :
    layoutCases 0x200 0 0 0 96 32 = true ∧ layoutCases 0x20a 0x30 4 1 96 4 = true := by decide

set_option maxRecDepth 100000 in
theorem witness_MatrixOperationsAreAccepted_tiles_in_memory :
    layoutCases 0x203 0 0 3 96 96 = true ∧ layoutCases 0x204 0 0x400 0 96 96 = true := by decide
/-- The warp holds its baton 0. -/
def holdsBaton (s : State) : State := teamIs (fun t => { t with batons := .held 0 :: t.batons.tail }) s

/-- An `mma` that has not begun. -/
def waitingMma (arr : Bool) : MxOp :=
  { id := 9, key := key, half := 0, pc := 0, cause := 0, serial := 0, arr := arr
    instr := .mma ⟨⟨0, false⟩, false, 0, false, .v 0, .v 0, .v 24, ⟨0, 0, arr, .bf16⟩, 0⟩ }

/-- `MatrixOperationsAreAccepted`: tile numbers in and out of bounds; an `mma` without its baton, with it, and
with two operations waiting and with one; a group that may be made pending. -/
theorem witness_MatrixOperationsAreAccepted :
    [(0x202, 0, 0, 0), (0x20b, 0, 0, 0), (0x205, 8, 0, 0), (0x206, 0, 8, 0)].all (fun (x : Nat × Nat × Nat × Nat) =>
      [0, 1].all fun acc => [0, 1].all fun sub => (x.1 == 0x202 && sub == 1) || holdsFor (mkWord x.1 x.2.1 x.2.2.1 0 (32 * acc + 1024 * sub) 0) id fun i e =>
        match i with
        | .accz o | .acccp o | .accrd o | .accwr o =>
          decide (o.mod.acc.toNat + e.toff o.imm < e.t.kernel.tiles) == (acc == 0) &&
            decide (o.mod.sub.toNat % 32 + e.toff o.imm < e.t.kernel.tiles) == (sub == 0) &&
            e.w.roomOn .mx && (e.prepGroup (groupRegs o.d.vNum 12)).isSome
        | _ => false) = true ∧
    [(0, false), (1, false), (0, true)].all (fun (x : Nat × Bool) => [1, 2].all fun n =>
      holdsFor (mkWord 0x201 0 0 0x18 (32 * x.1) 0) (fun s =>
        (kernelIs (fun k => { k with g := 48 }) (if x.2 then holdsBaton s else s)).modCore 0 fun c => { c with mxOps := List.replicate n (waitingMma false) })
        (fun i e => match i with
        | .mma o => decide (o.mod.acc.toNat + e.toff o.imm < e.t.kernel.tiles) == (x.1 == 0) &&
            (e.t.baton e.w o.mod.arr == .held e.w.num) == x.2 &&
            e.w.roomOn .mx && decide (2 ≤ (((e.s.core e.w.core).mmaQueue o.mod.arr).filter fun x => !x.started).length) == (n == 2)
        | _ => false)) = true ∧
    holdsFor (mkWord 0x200 0 0x104 0x105 0 0) id (fun i e => match i with
      | .fld o => e.w.roomOn .mx && (e.prepGroup (groupRegs o.d.vNum 24)).isSome
      | _ => false) = true ∧
    holdsFor (mkWord 0x20a 0x30 0x104 0x105 4 0) id (fun i e => match i with
      | .fldsc o => e.w.roomOn .mx && (e.prepGroup (groupRegs o.d.vNum 2)).isSome
      | _ => false) = true := by decide

/-- Baton 0 as given, and a second warp 1 in the core. -/
def batonIs (b : Baton) (second : Warp) (s : State) : State :=
  teamIs (fun t => { t with batons := b :: t.batons.tail, warps := t.warps ++ [{ second with num := 1 }] }) s

/-- `BatonResults`: a baton that is free, held, passed here, held elsewhere; free with a lower waiter; a pass
with REL, along the ring, to a warp that is live and to one that is not. -/
theorem witness_BatonResults :
    [Baton.free, .held 0, .passed 0, .held 1].all (fun b =>
      holdsFor (mkWord 0x207 0 0 0 0 0) (batonIs b probeWarp) fun i e => match i with
        | .bton o => e.t.baton e.w o.mod.arr == b && e.t.warps.all fun x => !(x.core == e.w.core && x.act == .bton false)
        | _ => false) = true ∧
    [(0x800, 0, 0), (0, 0, 0), (0x400, 0x109, 1), (0x400, 0x109, 7)].all (fun (x : Nat × Nat × Nat) => [Baton.held 0, .free].all fun b =>
      holdsFor (mkWord 0x208 0 x.2.1 0 x.1 0) (fun s => batonIs b probeWarp (sIs 9 (BitVec.ofNat 64 x.2.2) s)) fun i e => match i with
        | .btpass o => e.t.baton e.w o.mod.arr == b && o.mod.sub.getLsbD 1 == (x.1 == 0x800) && o.mod.sub.getLsbD 0 == (x.1 == 0x400) &&
            (x.1 != 0x400 || (e.t.warps.any fun w => w.live && w.core == e.w.core && w.num == (e.scalar o.a).toNat) == (x.2.2 == 1))
        | _ => false) = true := by decide

/-- Warp 1 executes `bton` while warp 0 waits for the same baton. -/
def lowerWaits : State :=
  { (batonIs .free probeWarp (State.reset.withFetchWord 96 0x207)).modWarp key fun w => { w with act := .bton false } with
    cur := some ⟨0, 0, 1⟩ }

theorem witness_BatonResults_lower :
    (lowerWaits.warp? ⟨0, 0, 1⟩).any (fun w => (lowerWaits.team? key.team).any fun t => (decode 0x207).any fun i => i.sig.any fun g =>
      readyB i g { s := lowerWaits, k := ⟨0, 0, 1⟩, t := t, w := w, m := (g.mask t w).getD 0 } && t.baton w false == .free &&
        t.warps.any fun x => x.core == w.core && x.act == .bton false && decide (x.num < w.num)) = true := by decide

/-- `TileClearAndCopy`: operations of the sequencer that are ready, over the first tile. -/
theorem witness_TileClearAndCopy :
    [Instr.accz ⟨⟨0, false⟩, false, 0, false, .v 0, .v 0, .v 0, ⟨0, 0, false, .bf16⟩, 0⟩,
     .acccp ⟨⟨0, false⟩, false, 0, false, .v 0, .v 0, .v 0, ⟨0, 0, false, .bf16⟩, 0⟩].all (fun i =>
      let s := (State.reset.withFetchWord 96 0x202).modCore 0 fun c => { c with mxOps := [{ waitingMma false with instr := i }] }
      ((s.core 0).mxOps.find? (·.id == 9)).any fun x => (s.core 0).mxReady x && (s.team? x.key.team).isSome && s.fqRoom x.key.ctx) = true := by
  decide
/-- A copy command of another warp. -/
def otherCopy : CopyCmd :=
  { id := 9, key := ⟨0, 0, 3⟩, instr := .cpy ⟨⟨0, false⟩, false, 0, false, .s 6, .s 8, .s 9, ⟨.dv, false, false, 0, false, 0⟩, 0⟩
    pc := 0, cause := 0, serial := 0, d := 0, a := 0, b := 0, record := 0, len := 64 }

/-- `CopyInstructionsIssue`: lengths that are no multiple of 16 and too long, a source that is misaligned, an
address in no range, sides that overlap, a digest that is misaligned; a copy that passes, of the longest
length, with a full channel and one with a place. -/
theorem witness_CopyInstructionsIssue :
    [0x300, 0x301, 0x302].all (fun opc =>
      let at_ (d a n : Word) (mod : Nat) (p : Instr → Ops MY → Env → Bool) : Bool :=
        holdsFor (mkWord opc 0x106 0x108 0x109 mod (if mod = 0x8 then 0x10a else 0))
          (fun s => warpIs (fun w => (w.setS (.s 6) d).setS (.s 10) 4) (sIs 8 a (sIs 9 n (rangeIs 1 7 false s)))) fun i e => match i with
          | .cpy o | .cpys o | .cpyg o => e.scalar o.b == n && p i o e
          | _ => false
      let code (c : Nat) (i : Instr) (o : Ops MY) (e : Env) : Bool := match e.checkCopy i o with | .error x => x == c | .ok _ => false
      let good (i : Instr) (o : Ops MY) (e : Env) : Bool := isOk (e.checkCopy i o)
      let src : Word := if opc = 0x301 then 0 else 0x100000
      let dst : Word := if opc = 0x300 then 0 else 0x40000
      at_ dst src 8 0 (code 2) && at_ dst src 0x1000010 0 (code 2) && at_ (dst + 8) (src + 8) 16 0 (code 6) &&
        at_ (if opc = 0x300 then 0 else 0x300000) (if opc = 0x301 then 0 else 0x300000) 16 0 (code 0x10) &&
        (opc != 0x302 || at_ 0x100010 0x100000 32 0 (code 2)) && at_ dst src 0 0 good && at_ dst src 0x1000 0 good &&
        at_ dst src 16 8 (fun i o e => good i o e && e.checkRecord o.mod (e.copyRecord o) == some 6) &&
        at_ dst src 16 0 (fun i o e => good i o e && (e.checkRecord o.mod (e.copyRecord o)).isNone &&
          e.w.roomOn .cp && decide (((e.s.core e.w.core).channel 0).length < 16))) = true := by decide

/-- The same: a full channel; `cpyq` of an empty channel and of one that has a command waiting or running. -/
theorem witness_CopyInstructionsIssue_channel :
    holdsFor (mkWord 0x300 0x106 0x108 0x109 0 0) (fun s =>
      (sIs 8 0x40000 (sIs 9 16 s)).modCore 0 fun c => { c with channels := [List.replicate 16 otherCopy, [], [], []] })
      (fun i e => match i with
        | .cpy o => isOk (e.checkCopy i o) && (e.checkRecord o.mod (e.copyRecord o)).isNone &&
            decide (16 ≤ ((e.s.core e.w.core).channel 0).length)
        | _ => false) = true ∧
    [[], [otherCopy], [{ otherCopy with running := true }, { otherCopy with key := key }]].all (fun q =>
      holdsFor (mkWord 0x30a 0x107 0 0 0 0) (fun s => s.modCore 0 fun c => { c with channels := [q, [], [], []] })
        (fun _ e => (e.s.core e.w.core).channel 0 == q)) = true ∧
    holdsFor (mkWord 0x303 0x106 0x108 0x109 0 0) (fun s => sIs 8 0x40000 (sIs 9 0 s)) (fun i e => match i with
      | .cpygat o => !isOk (e.checkCopy i o)
      | _ => false) = true := by decide

/-- A relay operation of the warp, not complete. -/
def openRelay : RelayOp :=
  { id := 9, key := key, tag := 1, chan := 0, kind := .recv, cause := 0, pc := 0, serial := 0, step := 0, slot := 0, peer := 1
    fwd := none, occR := 0, occS := 0, off := 0, src := 0, dst := 0x40000, len := 16, op := 0, ty := .z64 }

/-- The instruction `w` of a relay warp whose scalar registers 2, 6 and 7 hold a length, a peer and an offset. -/
def relayAt (w : BitVec 96) (len peer off : Word) (f : State → State) (p : Instr → Env → Collective → Bool) : Bool :=
  holdsFor w (fun s => sIs 2 len (sIs 6 peer (sIs 7 off (f s)))) fun i e => match e.coll with
    | some c => p i e c
    | none => false

set_option maxRecDepth 4000 in
/-- `CollectiveInstructionResults`: slices that are misaligned, too long, past the buffer; a peer that is this
rank, none, the switch with and without an in-network program; an operation that is issued; 63 and 64
incomplete operations. -/
theorem witness_CollectiveInstructionResults_data :
    [mkWord 0x380 0 0x106 0x107 0 0x102, mkWord 0x381 0 0x106 0x107 0x14 0x102,
     mkWord 0x382 0x106 0x106 0x107 0xa800 0x102].all (fun w =>
      let at_ (len peer off : Word) (f : State → State) (slice peers : Bool) : Bool :=
        relayAt w len peer off f fun i e c =>
          let b := off.toNat
          decide (off.toNat % 16 = 0 ∧ len.toNat % 16 = 0 ∧ len.toNat ≤ 2 ^ 24 ∧ b + len.toNat ≤ c.sizes.getD 0 0) == slice &&
            (decide (peer.toNat < c.nranks ∧ peer.toNat ≠ c.rank) || (peer == 0xffffffff && c.isr && w != mkWord 0x382 0x106 0x106 0x107 0xa800 0x102)) == peers &&
            decide ((e.s.relayOf e.k).length < 64) && [Path.ld, .st, .sp].all (fun p => e.w.counter p == 0) &&
            (!(slice && peers) || match i with
              | .csend o => (match e.fork c .send 0 peer.toNat none b (c.slice 0 b) 0 (e.scalarC o.imm) 0 .z64 with | .next _ => true | _ => false)
              | .crecv o => (match e.fork c .recv 5 peer.toNat none b 0 (c.slice 0 b) (e.scalarC o.imm) 0 .z64 with | .next _ => true | _ => false)
              | .crrs o => (match e.fork c .reduce 0 peer.toNat (some peer.toNat) b (c.slice 0 b) (c.slice 0 b) (e.scalarC o.imm)
                  (o.mod.extractLsb' 8 2) ((typOfCode (o.mod.extractLsb' 10 4)).getD .z64) with | .next _ => true | _ => false)
              | _ => false)
      let isr (s : State) : State := s.modColl 1 fun c => { c with isr := true }
      at_ 16 1 8 id false true && at_ 24 1 0 id false true && at_ 32 1 0xff0 id false true && at_ 16 1 0xff0 id true true &&
        at_ 16 0 0 id true false && at_ 16 2 0 id true false && at_ 16 0xffffffff 0 id true false &&
        at_ 16 0xffffffff 0 isr true (w != mkWord 0x382 0x106 0x106 0x107 0xa800 0x102) && at_ 0 1 0 id true true &&
        at_ 16 1 0 (fun s => { s with relayOps := List.replicate 63 openRelay }) true true) = true := by decide
set_option maxRecDepth 4000 in
/-- The same: `ccopy` with a bad source, a bad destination, none; `cwait` that may end, with a signal that is
misaligned and one that may be written; `cdone`; `cpeer` and `crank` in every form, with a grid and without. -/
theorem witness_CollectiveInstructionResults_others :
    (let at_ (src dst len : Word) (p : Bool → Bool → Bool) : Bool :=
       relayAt (mkWord 0x383 0x107 0x106 0x102 2 0) len src dst id fun i e c => match i with
         | .ccopy o =>
           let ok (buf : Nat) (x : Operand) : Bool :=
             decide ((e.scalar x).toNat % 16 = 0 ∧ (e.scalar o.b).toNat % 16 = 0 ∧ (e.scalar o.b).toNat ≤ 2 ^ 24 ∧
               (e.scalar x).toNat + (e.scalar o.b).toNat ≤ c.sizes.getD buf 0)
           p (ok (o.mod.toNat / 4 % 4) o.a) (ok (o.mod.toNat % 4) o.d)
         | _ => false
     at_ 8 0 16 (fun a _ => !a) && at_ 0 0x1000 16 (fun a b => a && !b) && at_ 0 0xff0 16 (fun a b => a && b)) = true ∧
    [0, 1].all (fun m => relayAt (mkWord 0x384 0 (if m = 1 then 0x106 else 0) 0 m 1) 0 0x40000 0
      (fun s => { inL2 0x800 (mapped s) with relayOps := [openRelay] }) fun i e _ => match i with
        | .cwait o => decide ((e.s.relayOf e.k).length ≤ o.imm.toNat) && (m == 0 || (e.signalBad (e.scalar o.a)).isNone &&
            match ({ e with s := e.s.flashInvalidate e.w.core }.signal i o.a .atomic fun e va r => e.afterRelease .dv fun e =>
              .next (e.signalAdd va r 0)) with | .next _ => true | _ => false)
        | _ => false) = true ∧
    relayAt (mkWord 0x384 0 0x106 0 1 1) 0 0x40004 0 id (fun i e _ => match i with
      | .cwait o => e.signalBad (e.scalar o.a) == some 6 | _ => false) = true ∧
    relayAt 0x387 0 0 0 id (fun i e _ => i.sig.isSome && (e.s.relayOf e.k).isEmpty) = true ∧
    [0, 1, 2].all (fun m => [0, 1].all fun cols => relayAt (mkWord 0x385 0x106 0x107 0 m 0) 0 0 (-1)
      (fun s => s.modColl 1 fun c => { c with cols := cols }) fun i _ c => match i with
        | .cpeer o => o.mod.toNat == m && c.cols == cols && c.nranks != 0
        | _ => false) = true ∧
    [0, 1, 2, 3].all (fun m => relayAt (mkWord 0x388 0x106 0 0 m 0) 0 0 0 id fun i _ _ => match i with
      | .crank o => o.mod.toNat == m
      | _ => false) = true ∧
    relayAt 0x386 0 0 0 id (fun i e c => i.sig.isSome && e.w.cbars == 0 && c.tag == 1) = true := by decide

/-- `VectorWritesReadBack` and `RegisterInstructionsKeepMemory`: a vector instruction whose destination holds
its row; results of every shape. -/
theorem witness_VectorWritesReadBack :
    holdsFor (mkWord 0x80 3 1 2 0 0) (vIs 3 (general 5)) (fun i e => match i with
      | .iadd o =>
        e.lanes.all (fun l => e.w.regOf o.d l == some 3) && !e.lanes.isEmpty && e.w.v.length == 64 && e.width == 32 &&
          (e.w.vreg 3).shape == .g && !(e.w.vreg 3).spilled &&
          [VRes.mk .u 0 (List.replicate 32 5) 0 0, VRes.mk .a 2 ((List.range 32).map fun l => BitVec.ofNat 64 (7 + 2 * l)) 0 0,
            VRes.mk .g 0 ((List.range 32).map fun l => BitVec.ofNat 64 (l * l)) 1 0].all fun x =>
            x.vals.length == 32 && (x.shape != .u || x.vals.all (· == x.vals.getD 0 0)) &&
              (x.shape != .a || (List.range 32).all fun l => x.vals.getD l 0 == x.vals.getD 0 0 + BitVec.ofNat 64 l * x.stride.signExtend 64) &&
              (e.write (e.w.named [] (List.range 32)) o.d x).isSome
      | _ => false) = true ∧
    (let e := { envOf (vIs 3 { general 5 with spilled := true } (State.reset.withFetchWord 96 0x80)) { guard := ⟨0, false⟩, ok4 := true } with m := 1 }
     (e.w.destRegs (.v 3) e.lanes).1 == [3] && (e.w.vreg 3).spilled && e.m != fullMask e.width &&
       (e.s.takeRow e.k e.t.kernel.g [3]).isSome) = true := by decide

/-- `RegisterInstructionsKeepMemory`: the opcodes 0x80 and 0x1cd in a state that keeps the edge condition. -/
theorem witness_RegisterInstructionsKeepMemory :
    holdsFor (mkWord 0x80 3 1 2 0 0) (vIs 3 (general 5)) (fun i e => (encode i).isSome && i.sig.any fun g =>
      (e.w.named g.dest (e.seen i)).all fun n => (e.w.vreg n).shape == .g && !(e.w.vreg n).spilled) = true ∧
    ((State.reset.withFetchWord 96 0x80).warp? key).map (·.atEnd) = some false := by decide
set_option maxRecDepth 4000 in
/-- `WritesChangeNamedBytesOnly`: a packet of a full sector and a partial mask, a sector that L2 holds, and
reset memory. -/
theorem witness_WritesChangeNamedBytesOnly :
    Memory.wf State.reset.mem = true ∧ ((inL2 5 State.reset).l2? false 5).any (fun x => x.data.length == 128) = true ∧
    (let m := byteMask 127 1
     (500 / 128 = 3 ∧ m.getLsbD (511 % 128) = true ∧ m.getLsbD (510 % 128) = false) ∧ (List.replicate 128 (1 : Byte)).length = 128) := by
  decide

set_option maxRecDepth 4000 in
/-- `StepRunsDecodedInstruction`: a warp at an instruction that no core keeps; the fetch reads its word. -/
theorem witness_StepRunsDecodedInstruction :
    (let s := State.reset.withFetchWord 96 0x400000008083
     decide (s.cur = some key) && (s.team? key.team).any fun t => (s.warp? key).any fun w =>
       !w.bedge && t.kernel.inCode w.pc && !w.looping w.pc && ((s.ctx t.ctx).findRange w.pc 12).any fun r =>
         r.pex && !(s.pass.core w.core).badCode.contains (r.target w.pc) && (s.pass.oldWords w.core (r.target w.pc)).isEmpty &&
           (match s.pass.l2Read false (r.target w.pc) 12 with
            | (.bytes bs none, _) => (match decodeWord (BitVec.ofNat 96 (leNat bs)) with | .instr _ => leNat bs == 0x400000008083 | _ => false)
            | _ => false) &&
           match s.pass.fetch t w with | .word _ x => x == 0x400000008083 | .failed _ _ _ => false) = true ∧
    [32, 33].all (fun n => ((State.reset.withFetchWord 96 1).modCtx 0 fun c => { c with held := List.replicate n [] }).recordsFit == (n == 32)) =
      true := by decide

/-- The checks of one instruction in the small state: relay, operands, order, width, guard. -/
def gates (w : BitVec 96) (setup : State → State) (p : Sig → Team → Warp → Bool) : Bool :=
  match decode w with
  | some i => i.sig.any fun g =>
    let s := setup (State.reset.withFetchWord 96 w.toNat)
    decide (s.cur = some key) && (s.team? key.team).any fun t => (s.warp? key).any fun w => p g t w
  | none => false

def gateRelay (g : Sig) (t : Team) : Bool := g.relay && t.relay.isNone
def gateOperands (g : Sig) (t : Team) : Bool := !gateRelay g t && g.ok4 && g.fits t.kernel.n t.kernel.g
def gateOrder (g : Sig) (t : Team) : Bool := gateOperands g t && g.ok5
def gateWidth (g : Sig) (t : Team) : Bool := gateOrder g t && (!g.w32 || t.kernel.width == 32)

/-- `IssueChecksInOrder`: each check fails somewhere with those before it passed, and passes somewhere. -/
theorem witness_IssueChecksInOrder :
    gates 0x386 (teamIs fun t => { t with relay := none }) (fun g t _ => gateRelay g t) = true ∧
    gates (mkWord 0x80 63 1 2 0 5) id (fun g t _ => !gateRelay g t && !g.ok4) = true ∧
    gates (mkWord 0x80 63 1 2 0 0) (kernelIs fun k => { k with n := 32 }) (fun g t _ => g.ok4 && !gateOperands g t) = true ∧
    gates (mkWord 0x280 1 0x104 0x15f (0x207 + 0x80) 0) id (fun g t _ => gateOperands g t && !g.ok5) = true ∧
    gates (mkWord 0x201 0 0 0 0 0) (kernelIs fun k => { k with width := 64 }) (fun g t _ => gateOrder g t && !gateWidth g t) = true ∧
    gates (mkWord 0x4080 3 1 2 0 0) id (fun g t w => gateWidth g t && (g.mask t w).isNone) = true ∧
    gates (mkWord 0x201 0 0 0 0 0) (warpIs fun w => { w with mask := 0x7fffffff }) (fun g t w => gateWidth g t &&
      (g.mask t w).isSome && g.full && w.mask &&& fullMask 32 != fullMask 32) = true ∧
    gates (mkWord 0x80 3 1 2 0 0) (vIs 1 { general 1 with pend := true }) (fun g t w => gateWidth g t && (g.mask t w).isSome &&
      (w.named (g.reads ++ g.dest) (List.range 32)).any fun n => (w.vreg n).pend) = true ∧
    (Instr.neverFaults (.pref ⟨⟨0, false⟩, false, 0, false, .v 0, .s 4, .v 2, ⟨.add, .l1, .wp, .rlx, 0, .s8⟩, 0⟩)) = true ∧
    gates (mkWord 0x80 3 0x180 2 0 0) (warpIs fun w => { w with x := { idx := List.replicate 32 5, bound := 3 } :: w.x.tail })
      (fun g t w => gateWidth g t && (g.mask t w).isSome &&
        (w.indexFault t.kernel.n ((decode (mkWord 0x80 3 0x180 2 0 0)).elim [] fun i => i.fields) (List.range 32)).isSome) = true ∧
    ((State.reset.withFetchWord 96 0).team? key.team).any (fun t => !t.kernel.inCode 0x20000) = true ∧
    decodeWord 0x3ff = .illegalOpcode ∧ decodeWord (mkWord 0x80 3 0x160 2 0 0) = .illegalOperand ∧
    decodeWord (mkWord 0x386 0x160 0 0 0 0) = .illegalOperand ∧ isRelayOpcode (mkWord 0x386 0x160 0 0 0 0) = true := by decide

/-- The context's fault ring is full, and it has no room for one more. -/
def ringFull (s : State) : State := s.modCtx 0 fun c => { c with fqCtl := 0x100, held := List.replicate 32 [] }

/-- `TakingAFault`: room and none; a team that runs and one that is being saved; a warp in a round trip. -/
theorem witness_TakingAFault :
    (let s := State.reset.withFetchWord 96 0x10
     s.fqRoom 0 && (s.team? key.team).any (fun t => t.phase.live && t.relay.isNone) && (s.warp? key).isSome &&
       ((teamIs (fun t => { t with phase := .saving }) s).team? key.team).any (fun t => t.phase == .saving && t.phase.live) &&
       ((warpIs (fun w => { w with act := .sigTrip }) s).warp? key).any Warp.inTrip && !(ringFull s).fqRoom 0) = true := by decide

set_option maxRecDepth 4000 in
/-- `StepKeepsMemoryCanonical` and `StepKeepsWarpsWhole`: a state that is canonical and whole, and whose step
answers a next state. -/
theorem witness_StepKeeps :
    (let s := State.reset.withFetchWord 96 1
     Memory.wf s.mem && swf (0 : BitVec 4) 0 s.tags && s.poisoned.isEmpty &&
       s.teams.all fun t => t.warps.all fun w => w.v.length == t.kernel.n && w.s.length == 64 && w.p.length == 16 && w.x.length == 4) = true ∧
    (match step (State.reset.withFetchWord 96 1) with | .next _ => true | _ => false) = true := by decide
/-! ## States in which the events are due -/

/-- The small state at `nop`. -/
def start : State := State.reset.withFetchWord 96 1

/-- Its team and warp pass a check. -/
def due (s : State) (p : Team → Warp → Bool) : Bool := (s.team? key.team).any fun t => (s.warp? key).any fun w => p t w

/-- The small state with the warp as told. -/
def warpDue (f : Warp → Warp) (p : State → Team → Warp → Bool) : Bool := due (warpIs f start) (p (warpIs f start))

/-- `WaitsEnd`: each wait, ended. -/
theorem witness_WaitsEnd :
    warpDue (fun w => { w with act := .barWait 0, arrivals := (false, 7) :: w.arrivals.tail }) (fun _ t w =>
      !t.still w && !w.parked && (t.barrier 0).phase != (w.arrival 0).2) = true ∧
    warpDue (fun w => { w with act := .sleep }) (fun s t w => !t.still w && s.sleepRemain w == 0) = true ∧
    warpDue (fun w => { w with act := .bton false }) (fun _ t w => !t.still w && t.mayTake w false) = true ∧
    warpDue (fun w => { w with act := .sigWait ⟨⟨0, false⟩, false, 0, false, .s 1, .s 2, .s 3, 0, 0⟩ })
      (fun s t w => !t.still w && !w.parked && s.fqRoom 0) = true ∧
    warpDue (fun w => { w with act := .scopeTrip ⟨.s 1, 5, none⟩ }) (fun s _ _ => s.serving) = true ∧
    (let s := start.modCtx 0 fun c => { c with scopes := [{ scopeEntry true false with count := 0 }] }
     due (warpIs (fun w => { w with act := .scopeWait (.s 1) 0x100 }) s) fun t w =>
       s.serving && !t.still w && ((s.ctx 0).scope? 0x100).any (·.done)) = true ∧
    warpDue (fun w => { w with act := .emitTrip 3 [⟨0, 0, 0x100, 0, none⟩] }) (fun _ _ w => w.act != .run) = true ∧
    warpDue (fun w => { w with act := .icinv 64 12 }) (fun _ _ w => w.act == .icinv 64 12) = true ∧
    [false, true].all (fun b => warpDue (fun w => { w.setV 3 { general 5 with spilled := b } with reloading := some (3, [3]) })
      fun s t w => (w.vreg 3).spilled == b && (s.takeRow key t.kernel.g [3]).isSome) = true := by decide

/-- The small state whose team is in a phase. -/
def phase (p : TeamPhase) : State := teamIs (fun t => { t with phase := p }) start

/-- `HaltsComplete`: a live warp of a halting team; a team that has stopped, kept under ATTACH and not; a late
fault of a team and of none; held records with a ring, full, and without; data that were read before a stop. -/
theorem witness_HaltsComplete :
    [false, true].all (fun b => due (warpIs (fun w => { w with stopping := b }) (phase .halting)) fun t w =>
      t.phase == .halting && w.live && !w.halted && !w.inTrip && w.stopping == b) = true ∧
    due (teamIs (fun t => { t with heldFaults := [⟨0, 1, { code := 0x1A, pc := 0, cause := 0 }, true⟩] })
      (warpIs (fun w => { w with halted := true }) (phase .halting))) (fun t w => !t.heldFaults.isEmpty && w.halted) = true ∧
    [false, true].all (fun b =>
      let s := (warpIs (fun w => { w with halted := true }) (phase .halting)).modCtx 0 fun c => { c with attach := b }
      due s fun t _ => t.warps.all (fun w => !w.live || w.halted) && !s.unitsBusy t && s.ops.isEmpty && s.fqRoom 0 &&
        (s.ctx 0).attach == b && t.relay.isNone && t.heldFaults.isEmpty) = true ∧
    [(0, true), (9, false)].all (fun (x : Nat × Bool) =>
      let f : LateFault := { id := 4, key := ⟨0, x.1⟩, info := { code := 0x19, pc := 0, cause := 0 } }
      let s := { start with lateFaults := [f] }
      (s.lateFaults.find? (·.id == 4)).isSome && s.fqRoom 0 && (s.team? f.key).isSome == x.2) = true ∧
    [(0x100, 0), (0x100, 64), (0, 0)].all (fun (x : Word × Nat) =>
      let s := start.modCtx 0 fun c => { c with fqCtl := x.1, fqWrite := BitVec.ofNat 32 x.2, held := [[1], [2]] }
      !(s.ctx 0).held.isEmpty && (s.ctx 0).fqEn == (x.1 == 0x100) && (s.ctx 0).fqFull == (x.2 == 64)) = true ∧
    (let q : Quarantine := { cmd := 1, key := key.team, scratch := false, addr := 0, bytes := [1], span := 0, poison := false }
     ({ start with quarantine := [{ q with written := true }, q] } : State).quarantine.any fun x => !x.written && x.key == key.team) =
      true := by
  decide

/-- A launch of the probe kernel. -/
def aLaunch : Launch :=
  { id := 4, ctx := 0, packet := 9, kernel := probeKernel, inst := 0, args := [0, 0, 0, 0], scopes := [0], records := []
    firing := none, node := 0, parent := 0 }

/-- The context owns these cores and a save area, and the launch waits. -/
def launching (cores : BitVec 576) (s : State) : State :=
  { s.modCtx 0 fun c => { c with coreSet := cores, saveBase := 0x200000, saveSize := 64 } with launches := [aLaunch] }

set_option maxRecDepth 20000 in
/-- `TeamsAdmittedSavedRestored`, the launches: one that finds a place, one that does not and shows its wait,
one that waits already and for which a team of a lower class is pre-empted. -/
theorem witness_TeamsAdmitted :
    [0, 1].all (fun (cores : BitVec 576) =>
      let s := launching cores start
      (s.launches.find? (·.id == 4)).any fun l => s.mayAdmit l && ((s.ctx 0).leasesAwaited l.kernel).isEmpty &&
        (s.edgeAwaited l).isNone && (s.frameFor l).isSome && (s.places 0 l.kernel).isEmpty == (cores == 0) &&
        (s.launchWaits l l.admissionWait).isSome) = true := by decide

/-- A launch of class 0 whose wait shows, for the core that a team of class 7 fills. -/
def crowded : State :=
  let big := { probeKernel with spg := 400 }
  let l : Launch := { aLaunch with ctx := 1, kernel := big, wait := some (Launch.admissionWait { aLaunch with kernel := big }), waitIdx := some 0 }
  { (kernelIs (fun _ => big) start).modCtx 1 fun c =>
      { c with coreSet := 1, saveBase := 0x200000, saveSize := 64, control := 0x10, ranges := c.ranges.set 0 probeRange } with launches := [l] }

set_option maxRecDepth 20000 in
theorem witness_TeamsAdmitted_crowded :
    (crowded.launches.find? (·.id == 4)).any (fun l => crowded.mayAdmit l && ((crowded.ctx 1).leasesAwaited l.kernel).isEmpty &&
      (crowded.edgeAwaited l).isNone && (crowded.frameFor l).isSome && (crowded.places 1 l.kernel).isEmpty &&
      (crowded.launchWaits l l.admissionWait).isNone &&
      (crowded.fewest l.kernel (crowded.homeCores 1 l.kernel) 0).map (·.map (·.key)) == [[key.team]] && (crowded.ctx 1).cls == 0) = true := by
  decide

set_option maxRecDepth 20000 in
/-- The same, a team's life: starting, draining past its time, saving with nothing under way, saved and
coming back. -/
theorem witness_TeamsSavedRestored :
    due (phase .starting) (fun t _ => t.phase == .starting) = true ∧
    (let s := { phase .draining with clock := 2 ^ 60 }
     due s fun t _ => decide (t.drainFrom + (s.drainTime t).getD 0 ≤ s.clock)) = true ∧
    (let s := phase .saving
     due s fun t w => !w.inTrip && !s.unitsBusy t && t.cores.all (fun c => (s.core c).parity.isEmpty) && (s.copiesOf t).isEmpty &&
       s.ops.isEmpty && s.quarantine.isEmpty && decide (s.pendingBytes t ≤ 65536) && !t.forced) = true ∧
    (let s := (phase .saving).modCore 0 fun c => { c with channels := [[{ otherCopy with key := key }], [], [], []] }
     due s fun t w => !w.inTrip && !s.unitsBusy t && !(s.copiesOf t).isEmpty) = true ∧
    (let s := { phase .saving with savedCopies := List.replicate 513 { otherCopy with key := key } }
     due s fun t w => !w.inTrip && (s.copiesOf t).isEmpty && decide (65536 < s.pendingBytes t)) = true ∧
    (start.core 5).gret.getLsbD 3 = false ∧ (start.core 5).degr.getLsbD 3 = false ∧ (start.core 5).retired = false ∧
    (let s := start.modCore 5 fun c => { c with degr := 8, rbank := [0, 0, 0, 2] }
     (s.core 5).degr.getLsbD 3 && (s.core 5).rbank.getD 3 0 != 31 % 8 && (s.teamsOn 5 []).isEmpty) = true := by decide

set_option maxRecDepth 20000 in
theorem witness_TeamsSavedRestored_comeback :
    (let s := launching 1 (phase .saved)
     due { s with launches := [] } fun t _ => t.phase == .saved && ({ s with launches := [] } : State).comeback 0 == some key.team &&
       s.serving && !(s.ctx 0).lost && !(s.ctx 0).resetting && s.cores.all (fun u => u.wbs.isEmpty) && s.fqRoom 0 &&
       !(({ s with launches := [] } : State).places 0 t.kernel).isEmpty) = true := by decide
/-- A memory operation of the warp on one address: its kind, and whether the L1 already holds its bytes. -/
def anOp (kind : OpKind) (through : Bool) (ias : List Nat) : MemOp :=
  { id := 4, key := key, core := 0, kind := kind, pc := 0, word := 0, cause := 0, serial := 0, size := 8, pk := 0, ty := .z64
    atop := .add, cache := .l1, ord := .rlx, scope := .wp, through := through, seq := 0
    lanes := ias.map fun ia => { lane := ia / 128 % 32, va := BitVec.ofNat 64 ia, ia := ia } }

/-- `MemoryOperationsProceed`: a load whose page is unknown, one and two requests that are ready, a store whose
page is unknown and known, a write-back. -/
theorem witness_MemoryOperationsProceed :
    (let o := anOp .load false [0x40000]
     let s : State := { start with ops := [o] }
     s.fqRoom 0 && (s.needsWalk o).isSome && (s.readyRequests o).isEmpty) = true ∧
    (let o := anOp .load false [0x40000]
     let s := inL2 0x800 { start with ops := [o] }
     (s.needsWalk o).isNone && (s.readyRequests o).length == 1) = true ∧
    (let o := anOp .load false [0x40000, 0x40080]
     let s := inL2 0x801 (inL2 0x800 { start with ops := [o] })
     (s.readyRequests o).length == 2) = true ∧
    [[], [4]].all (fun walked =>
      let o := { anOp .store false [0x40000] with
        walked := walked, lanes := [{ lane := 0, va := 0x40000, ia := 0x40000, stored := true }] }
      !o.probed.isEmpty && o.parked.isEmpty && o.probed.all (·.stored) && start.fqRoom 0 &&
        (o.probed.find? fun a => !o.walked.contains (pageOf a.ia)).isNone == (walked == [4])) = true ∧
    (let b : WriteBack := ⟨4, 0x800, List.replicate 128 1, 1, false, key.team, none, none⟩
     let s := start.modCore 0 fun c => { c with wbs := [{ b with id := 5 }, b] }
     ((s.core 0).wbs.find? (·.id == 4)).isSome && (s.core 0).wbs.all fun x => !s.sameSector x.sector 0x800 || decide (4 ≤ x.id)) = true := by decide

/-- The page of the address 0x40000 in context 0. -/
def aPage : PageKey := ⟨0, 4⟩

/-- An entry of that page at its hub. -/
def aFault : PageFault :=
  { page := aPage, hub := 0, cause := 0, serial := 0, va := 0x40000, range := 0, acc := 1, since := 0 }

/-- An operation parked on the page, of which core 0 has to tell. -/
def parkedOp (s : State) : State :=
  ({ s with ops := [{ anOp .load false [0x40000] with parked := [4] }] } : State).modCore 0 fun c =>
    { c with filter := [⟨aPage, 0, 0, 0x40000, 0, 1⟩] }

set_option maxRecDepth 4000 in
/-- `PageFaultsAreReportedAndReplayed`: a report with and without an entry; an open window that ends; a re-walk
that finds a leaf, and that finds the page missing with the window open and closed. -/
theorem witness_PageFaultsAreReportedAndReplayed :
    [[], [aFault]].all (fun l =>
      let s := parkedOp { start with pageFaults := l }
      ((s.core 0).filter.find? (·.page == aPage)).any fun r => (s.pageFault? aPage).isSome == !l.isEmpty &&
        (!l.isEmpty || decide ((s.pageFaults.filter (·.hub == (s.report r).hub)).length < 512))) = true ∧
    start.mgmt.fwPhase = .idle ∧
    (let s : State := { start with pageFaults := [aFault], clock := 1000 }
     (s.pageFault? aPage).any fun f => f.windowOpen && decide (f.since + 1000 ≤ s.clock) && s.fqRoom 0) = true ∧
    (let s := mapped { start with pageFaults := [{ aFault with replay := true }] }
     (s.pageFault? aPage).any fun f => f.replay && s.walk (aPage.page * 65536) != .missing) = true ∧
    [false, true].all (fun b =>
      let s : State := { start with pageFaults := [{ aFault with replay := true, windowOpen := b }] }
      (s.pageFault? aPage).any fun f => f.replay && f.windowOpen == b && s.fqRoom 0 && s.walk (aPage.page * 65536) == .missing) = true := by
  decide

/-- A stream with a request of a kind and a reply. -/
def streamIs (kind : PacketKind) (read : Bool) (fill : Option (Bool × Nat)) : State :=
  let q : Stream := ⟨0, 0⟩
  start.setStream
    { key := q, requests := [{ kind := kind, tag := some 1, gmask := 1, pa := 5, cause := 0, data := List.replicate 128 1, mask := 1 }]
      replies := [{ read := read, tag := 0, gmask := 1, pa := 5, cause := 0, data := List.replicate 128 2, flag := false, fill := fill }] }

/-- `PacketsAreTaken`: a request of each kind, a read's reply that fills a sector, one that fills none, a
write's reply. -/
theorem witness_PacketsAreTaken :
    [PacketKind.rd, .wr, .mwr].all (fun kind => [(true, none), (true, some (false, 5)), (false, none)].all fun (x : Bool × Option (Bool × Nat)) =>
      let s := streamIs kind x.1 x.2
      let q := s.stream ⟨0, 0⟩
      (q.requests.head?.any fun p => p.kind == kind && p.tag == some 1) &&
        (q.replies.find? fun r => r.read == x.1 && r.tag == 0).any fun r => r.fill == x.2 && ((s.takeReply ⟨0, 0⟩ r).l2? false 5).isNone) =
      true ∧
    (let s := inL2 5 (streamIs .rd true (some (false, 5)))
     (s.takeReply ⟨0, 0⟩ { read := true, tag := 0, gmask := 1, pa := 5, cause := 0, data := List.replicate 128 2, flag := false, fill := some (false, 5) }).l2?
       false 5).isSome = true := by decide

/-- An `sts` that the lane port has accepted. -/
def anSp : SpOp :=
  { id := 4, key := key, pc := 0, cause := 0, serial := 0, size := 8, seq := 0, lanes := [{ lane := 0, va := 0, ia := 8, data := 7 }]
    instr := .sts ⟨⟨0, false⟩, false, 0, false, .v 1, .s 4, .special .zero, ⟨.add, .l1, .wp, .rlx, 0, .z64⟩, 0⟩ }

set_option maxRecDepth 4000 in
/-- `CoreEnginesProceed`: an access of the lane port, a stale row, an `mma` that may start, one that may end with
its tile clean and poisoned, another operation, a copy waiting, running with units left, and done. -/
theorem witness_CoreEnginesProceed :
    (let s := start.modCore 0 fun c => { c with spOps := [anSp], port := [(0, 4)] }
     (s.spWaiting 0).isNone && s.fqRoom 0 && match s.portHead 0 with
       | some (_, some x) => (s.team? x.key.team).isSome
       | _ => false) = true ∧
    (let s := start.modCore 0 fun c => { c with spOps := [{ anSp with lanes := [{ lane := 0, va := 0, ia := 8, data := 7, done := true }] }] }
     (s.spWaiting 0).isSome) = true ∧
    (((start.modCore 0 fun c => { c with parity := [{ group := 2, key := key.team, row := 0 }] }).core 0).parity.find?
      (·.group == 2)).isSome = true ∧
    [(false, []), (true, []), (true, [5])].all (fun (x : Bool × List Nat) =>
      let s := (teamIs (fun t => { t with tiles := [{ half := 0, num := 0, elems := [], poison := x.2 }] }) start).modCore 0 fun c =>
        { c with mxOps := [{ waitingMma false with started := x.1 }] }
      ((s.core 0).mmaQueue false).head?.any fun y => y.started == x.1 && (s.core 0).mxReady y && (s.arrayUpset 0 0).isNone &&
        (s.team? y.key.team).any fun t => (t.tile y.half y.tile).poison == x.2 && s.fqRoom 0) = true ∧
    (let s := start.modCore 0 fun c => { c with mxOps := [{ waitingMma false with
       instr := .accz ⟨⟨0, false⟩, false, 0, false, .v 0, .v 0, .v 0, ⟨0, 0, false, .bf16⟩, 0⟩ }] }
     ((s.core 0).mxOps.find? (·.id == 9)).any fun x => (s.core 0).mxReady x && !x.isMma) = true ∧
    [(false, 0), (true, 48), (true, 64)].all (fun (x : Bool × Nat) =>
      let s := start.modCore 0 fun c => { c with channels := [[{ otherCopy with key := key, running := x.1, moved := x.2 }], [], [], []] }
      ((s.core 0).channel 0).head?.any fun y => y.running == x.1 && y.held.isNone && (s.team? y.key.team).isSome && s.fqRoom 0 &&
        decide (y.moved < y.len) == (x.2 != 64)) = true := by decide
/-- Queue 0 of context 0. -/
def aKey : QKey := ⟨0, 0⟩

/-- The context is enabled. -/
def enabled (s : State) : State := s.modCtx 0 fun c => { c with control := c.control ||| 0x80 }

/-- A ring at 0x40000 whose slot 0 begins with this word; the notify word behind it reads n; QCTL is given. -/
def ringIs (head n : Nat) (ctl : Word) (f : Queue → Queue) : State :=
  let bytes (x : Nat) : L2Sector → L2Sector := fun y => { y with data := putBytes y.data 0 (natBytes x 8) }
  let s := inL2 0x810 (inL2 0x800 (enabled start))
  { s.modQueue aKey (fun q => f { q with base := 0x40000, ctl := ctl, write := 1 }) with
    l2 := s.l2.map fun y => if y.sector == 0x800 then bytes head y else if y.sector == 0x810 then bytes n y else y }

set_option maxRecDepth 20000 in
/-- `QueueEvents`, the registers and the decode: a notify word that raises WRITE; ERR set and clear; QCTL good
and bad; a packet of each KIND and one of a reserved KIND in its queue's turn; a slot that cannot be read. -/
theorem witness_QueueEvents_decode :
    (let s := ringIs 0 5 0x500 id
     s.serving && (s.queue aKey).ctl.getLsbD 8 && (s.queue aKey).ctl.getLsbD 10 &&
       match s.l2Word (s.queue aKey).notifyAt with
       | (some x, _) => x.setWidth 32 != (s.queue aKey).write && !lowers (s.queue aKey).write (x.setWidth 32)
       | _ => false) = true ∧
    lowers 5 4 = true ∧ lowers 5 6 = false ∧ (start.queue aKey).err = false ∧
    ((ringIs 0 0 0x100 fun q => { q with err := true }).queue aKey).err = true ∧
    [0, 1, 2, 3, 4, 5, 6].all (fun kind =>
      let s := ringIs (2 * kind + 1) 0 0x100 id
      (s.heldPacket aKey).isNone && s.nextQueue (homeHub 0) == some aKey && (s.unfinished aKey 4).isNone && s.fqRoom 0 &&
        match s.ringSlot (s.queue aKey) with
        | (some bs, s1) => validOf bs && kindOf bs == kind && (s1.decodePacket aKey bs).isSome
        | _ => false) = true ∧
    (let s := ringIs 2 0 0x100 id
     (s.heldPacket aKey).isNone && s.nextQueue (homeHub 0) == some aKey && match s.ringSlot (s.queue aKey) with
       | (some bs, _) => !validOf bs
       | _ => false) = true ∧
    (let s := ((enabled start).modQueue aKey fun q => { q with base := 0x40000, ctl := 0x100, write := 1 })
     (s.heldPacket aKey).isNone && s.nextQueue (homeHub 0) == some aKey && (s.ringSlot (s.queue aKey)).1.isNone && s.fqRoom 0) = true := by
  decide

/-- A packet of a KIND that runs. -/
def aPacket (kind : Nat) : PacketRun :=
  { id := 9, ctx := 0, queue := 0, index := 0, kind := kind, cause := 0, parent := 0, barrier := true, acqsc := 0, relsc := 0
    signal := 0, scope := 0, started := true }

set_option maxRecDepth 4000 in
/-- The same: a packet held behind BARRIER that may begin; a SIGNAL whose word may be written, a CAST without a
parity collective, a WAIT of a satisfied signal with OR and without; a partial wave whose time has passed. -/
theorem witness_QueueEvents_packets :
    [1, 2, 3].all (fun kind =>
      let s : State := { start with packets := [{ aPacket kind with started := false }] }
      (s.heldPacket aKey).any fun p => s.serving && !p.begun && p.kind == kind && s.barrierOpen p) = true ∧
    (let s := mapped (inL2 0x800 { start with packets := [{ aPacket 4 with pendingEffect := [0x40000, 5, 1] }] })
     (s.unfinished aKey 4).isSome && (s.runSignal 9).packets != s.packets) = true ∧
    (let s : State := { start with packets := [aPacket 5] }
     (s.unfinished aKey 5).any fun p => s.castDue p) = true ∧
    [(false, false, false), (false, true, false), (true, false, false), (true, true, true), (true, false, true)].all (fun (x : Bool × Bool × Bool) =>
      let c : CastRun := { restore := x.2.1, manifest := 0, pos := 0, expVA := 0, gen := 0, npos := 0, feed := false, board := false
                           rack := false, shards := [], placed := x.1, copied := x.2.2 }
      let s : State := { start with packets := [{ aPacket 5 with cast := some c }] }
      (s.packet? 9).any fun p => p.cast == some c && s.parityDone p && s.castDue p) = true ∧
    [false, true].all (fun b =>
      let s := mapped (inL2 0x800 { start with packets := [{ aPacket 3 with orWait := b, waits := [0x40000] }] })
      (s.packet? 9).any fun p => p.kind == 3 && p.started && s.serving && (s.readWaits p).1 == [true]) = true ∧
    (let n : Node := ⟨probeKernel, 0, 0, [], 1, 32, true, [⟨0, 0, 0, 0, none⟩], 0⟩
     let s := { start.modCtx 0 fun c => { c with firings := [⟨3, 9, 0, [n], []⟩] } with clock := 100 }
     ((s.ctx 0).firing? 3).any fun f => f.nodes.head?.any fun x => s.serving && x.lane && !x.pending.isEmpty &&
       decide (x.last + 100 * x.timeout ≤ s.clock)) = true := by decide

/-- An access of a peer to eight bytes. -/
def anAccess (ia : Nat) : RemoteAccess := ⟨3, 0, ia, 8, 0, false, .read⟩

/-- `LinkEvents`: an access that reaches L2, one whose page is missing. -/
theorem witness_LinkEvents :
    ((inL2 0x800 start).remoteWalk (anAccess 0x40000)).1 = none ∧
    ((start.remoteWalk (anAccess 0x40000)).1 == some 0x18) = true := by decide

/-- The small state of a relay warp, with an operation. -/
def relaying (o : RelayOp) : State := { State.reset.withFetchWord 96 0x386 with relayOps := [o] }

/-- The message of the tests: from rank 1 to rank 0 of the collective. -/
def aMsg (src dst len : Nat) : RelayMsg := ⟨1, 0, src, dst, 0, 0, 0, len, 0, 0, 0⟩

set_option maxRecDepth 4000 in
/-- `RelayMessages`: a request to send with its receive posted and not; a credit of a send not yet made, made,
of another length, of no bytes, with a slice that can be read and one that cannot; a payload that is received,
one that is forwarded; an acknowledgement with and without its send. -/
theorem witness_RelayMessages :
    (let at_ (o : RelayOp) (p : State → Collective → Bool) : Bool :=
       let s := relaying o
       (s.coll? 1).any fun c => !s.collHalted 1 && c.held.isEmpty && p s c
     let recv := { openRelay with posted := true }
     let send := { openRelay with kind := .send, posted := true, src := 0x40000 }
     at_ recv (fun s c => (s.heard 1 1 0).relayOps.any fun o => o.posted && !o.matched && sameKey (aMsg 1 0 16) (o.recvMsg c)) &&
     at_ send (fun s c => !(s.heard 1 1 0).relayOps.any fun o => o.kind == .recv && sameKey (aMsg 1 0 16) (o.recvMsg c)) &&
     [send, { send with sent := true }, { send with len := 0 }, { send with len := 32 }].all (fun x => at_ x fun s c =>
       ((s.heard 1 1 0).senderOf c (aMsg 0 1 16)).isSome) &&
     at_ send (fun s _ => match (s.readSlice send 0x40000).1 with | .ok _ => false | .error _ => true) &&
     (let s := mapped (inL2 0x800 (relaying send))
      match (s.readSlice send 0x40000).1 with | .ok _ => true | .error _ => false) &&
     [{ recv with matched := true }, { recv with matched := true, kind := .reduce, fwd := some 1 }].all (fun x => at_ x fun s c =>
       (s.heard 1 1 0).relayOps.any fun o => o.matched && !o.received && o.failed.isNone && sameKey (aMsg 1 0 16) (o.recvMsg c)) &&
     (let x := { recv with matched := true }
      let s := mapped (inL2 0x800 (relaying x))
      (match (s.receive x (List.replicate 16 1)).1 with | .ok _ => true | .error _ => false) &&
        match ((relaying x).receive x (List.replicate 16 1)).1 with | .ok _ => false | .error _ => true)) = true := by decide

set_option maxRecDepth 20000 in
/-- `CollectiveEvents`, the start: a collective that waits, with free relay cores. -/
theorem witness_CollectiveEvents_start :
    (let c := { probeCollective with live := false, packet := 9 }
     let s := launching 0 { start with packets := [{ aPacket 1 with begun := true }], collectives := [c] }
     let s := { s with mgmt := { s.mgmt with relayPart := 1 }, launches := [] }
     (s.packet? 9).any fun p => (s.collectives.find? fun c => c.packet == 9 && !c.live).any fun c => s.serving && p.begun &&
       p.cast.isNone && (s.coll? c.tag).isNone && !(s.ctx 0).lost && !(s.ctx 0).resetting &&
         ((s.ctx 0).leasesAwaited c.progKernel).isEmpty && ((s.ctx 0).codeRegister c.progKernel).isSome && s.onRelayCores.isEmpty && (s.placeRelay p c 0).isSome && c.chans == 1) =
      true := by decide

/-- `CollectiveEvents`: an operation that has failed, is done, is not posted and may be, is a copy of no bytes and of some; a watchdog
whose period has passed with and without an item; no live collective and one. -/
theorem witness_CollectiveEvents :
    [{ openRelay with failed := some (0x1d, 3, none) }, { openRelay with received := true, posted := true },
     { openRelay with kind := .copy, posted := true, len := 0 }].all (fun o =>
      (relaying o).fqRoom 0 && (o.failed.isSome || o.posted && o.done)) = true ∧
    ((relaying openRelay).coll? 1).isSome = true ∧ (relaying openRelay).mayPost openRelay = true ∧
    (let o := { openRelay with kind := .copy, posted := true, src := 0x40000, dst := 0x40000 }
     let s := mapped (inL2 0x800 (relaying o))
     o.done && match s.readSlice o o.src with
       | (.ok bs, s1) => (match (s1.writeSlice o o.dst bs).1, (s1.writeSlice o 0x300000 bs).1 with
         | .ok _, .error _ => true
         | _, _ => false)
       | _ => false) = true ∧
    [({ openRelay with posted := true }, false), (openRelay, true), ({ openRelay with posted := true, tag := 2 }, true)].all
      (fun (x : RelayOp × Bool) =>
        let s := { relaying x.1 with clock := 100000 }
        (s.coll? 1).any fun c => decide (c.progress + c.wdt * 100000 ≤ s.clock) && s.fqRoom c.ctx && (oldest (s.items c)).isNone == x.2) =
      true ∧
    start.anyLive = false ∧ (relaying openRelay).anyLive = true ∧ (start.coll? 7).isNone = true := by decide
/-- `DriverWrites`: a context with a resident team, one without, one that is being reset with none of its
requests open; an idle binding and a busy one; translation commands good and bad; one that is busy. -/
theorem witness_DriverWrites :
    start.hasResident 0 = true ∧ State.reset.hasResident 0 = false ∧ start.mgmt.fwPhase = .idle ∧ start.mgmt.heldCommands = [] ∧
    (let s := State.reset.modCtx 5 fun c => { c with resetting := true }
     (s.ctx 5).resetting && s.ops.isEmpty && s.cores.all fun c => c.wbs.isEmpty) = true ∧
    State.reset.idleAfterReset 9 = true ∧ start.idleAfterReset 0 = false ∧ start.mgmt.binding.length = 64 ∧
    translationBad 0x4000000000000000 = false ∧ translationBad 0 = false ∧ translationBad 0x2000000000000000 = true ∧
    ({ start with mgmt := { start.mgmt with transBusy := some 0 } } : State).mgmt.transBusy = some 0 := by decide

/-- `DebugCommands`: an update of the firmware and none; no team, a retired one; a team that HALT may stop and
one it may not, under ATTACH, with room for the record and without; no ATTACH; a halted team, with a warp that
may step and without it, and one whose step is under way; a saved one. -/
theorem witness_DebugCommands :
    start.mgmt.fwPhase = .idle ∧ start.mgmt.heldCommands = [] ∧
    ({ start with mgmt := { start.mgmt with fwPhase := .verify } } : State).mgmt.fwPhase ≠ .idle ∧
    ({ start with mgmt := { start.mgmt with heldCommands := [.halt ⟨0, 0⟩] } } : State).mgmt.heldCommands ≠ [] ∧
    (start.team? ⟨0, 7⟩).isNone = true ∧ due (phase .retired) (fun t _ => t.phase == .retired) = true ∧
    [false, true].all (fun full => [TeamPhase.running, .draining, .saved].all fun p =>
      let s := (if full then ringFull else id) ((phase p).modCtx 0 fun c => { c with attach := true })
      (s.ctx 0).attach && s.fqRoom 0 == !full && due s fun t _ => t.phase == p) = true ∧
    (start.ctx 0).attach = false ∧
    due (phase .halted) (fun t _ => t.phase == .halted && t.stepping.isNone && (t.warps.any fun x => x.num == 0 && x.live) &&
      t.warps.all fun x => x.num != 5) = true ∧
    due (teamIs (fun t => { t with stepping := some 0 }) (phase .halted)) (fun t _ => t.phase == .halted && t.stepping.isSome) = true ∧
    due (phase .saved) (fun t _ => t.phase == .saved) = true := by decide

set_option maxRecDepth 100000 in
/-- The same: a frame that LOAD reads back, and one in which a RANK repeats. -/
theorem witness_DebugCommands_load :
    [false, true].all (fun b =>
      let s := teamIs (fun t => { t with kernel := { t.kernel with tiles := 0, spg := 0 } })
        (warpIs (fun w => { w with v := if b then [general 5, general 6] else [general 5] }) (phase .halted))
      due s fun t _ => t.phase == .halted && t.stepping.isNone && (s.readFrame t).2.1 == b) = true := by decide

/-- `HostWindows`: an access inside WBLIMIT and outside, with PHYS and without, one that leaves the address
space; a context that a function is bound to. -/
theorem witness_HostWindows :
    (let limit (l : Word) (base : Word) : State := { start with mgmt := { start.mgmt with
       wbLimit := [(0, l)], wbBase := [(0, base)] } }
     (limit 64 0).mgmt.wbLimitOf 0 == 64 && (limit 64 0x8000000000000000).mgmt.wbBaseOf 0 == 0x8000000000000000) = true ∧
    (({ start with mgmt := { start.mgmt with binding := start.mgmt.binding.set 5 0x80 } } : State).boundTo 0)[0]? = some 5 ∧ (start.boundTo 3)[0]? = none ∧
    (List.replicate 8 (0 : Byte)).length = 8 ∧ (List.replicate 4 (0 : Byte)).length ≠ 8 := by decide

/-- An update's verdict over the staged image. -/
def aVerdict (good : Bool) (svn lo hi : Nat) : FwVerdict := ⟨good, true, svn, lo, hi, 1, 0⟩

/-- `FirmwareUpdate`: RESULT 1 and another; an image that can be read, one that cannot; verdicts that are not genuine, too old, of another handover,
accepted; a heartbeat in time and late. -/
theorem witness_FirmwareUpdate :
    start.mgmt.fwResult ≠ 1 ∧
    (let m := { start.mgmt with fwPhase := .verify, fwResult := 1, handover := 7, fwSlots := [⟨1, 0, 5, 7, true, none⟩, ⟨1, 0, 5, 7, true, none⟩] }
     m.fwResult == 1 && m.fwPhase == .verify && m.running.svn == 5 && m.handover == 7 &&
       !(aVerdict false 5 7 7).signatureGood && decide ((aVerdict true 4 7 7).svn < m.running.svn) &&
       decide (m.running.svn ≤ (aVerdict true 5 8 9).svn ∧ m.handover < (aVerdict true 5 8 9).handLo) &&
       decide ((aVerdict true 5 1 6).handHi < m.handover) &&
       decide (m.running.svn ≤ (aVerdict true 5 7 7).svn ∧ (aVerdict true 5 7 7).handLo ≤ m.handover ∧ m.handover ≤ (aVerdict true 5 7 7).handHi)) = true ∧
    [0x40000, 0x300000].all (fun (at_ : Word) =>
      let s := inL2 0x800 start
      ({ s with mgmt := { s.mgmt with fwImg := at_, fwLen := 16 } } : State).stagedImage.1.isSome == (at_ == 0x40000)) = true ∧
    ({ start.mgmt with fwPhase := FwPhase.heartbeat } : Mgmt).fwPhase = .heartbeat ∧ (20000000 : Nat) ≤ 0 + 20000000 := by decide

set_option maxRecDepth 20000 in
/-- `ManagementEvents`: a sample that crosses and one that does not; a step down, up and none; a rail that asks
for no code, for the code in force, for the other, during a change; a point in lock; a buffer with a record. -/
theorem witness_ManagementEvents :
    ([95, 105].map fun temp => min 80 (8 * (10 - (105 - temp)))) = [0, 80] ∧
    (let m := { start.mgmt with samples := List.replicate 1000 3, riskCtl := 40 }
     m.riskTh ≠ 0 ∧ m.riskTh ≤ 80 ∧ m.samples.length = 1000 ∧ m.samples.all (fun x => decide (x < m.riskTh)) = true) ∧
    start.mgmt.riskTh = 0 ∧
    [(PowerReading.mk 0 1101 5000 90 1101, some (false, 0)), (.mk 0 1100 5000 106 1100, some (false, 2)),
      (.mk 0 1000 5000 90 1000, some (true, 3)), (.mk 0 1100 5000 90 1100, none)].all (fun x => start.mgmt.throttleStep x.1 == x.2 &&
        !start.mgmt.overModule x.1) = true ∧
    start.mgmt.overModule (.mk 0 1000 6001 90 1000) = true ∧
    (start.mgmt.dieClk.getD 0 1900 ≤ 1900 ∧ 800 ≤ start.mgmt.dieClk.getD 0 1900) ∧
    ((start.modHub 1 fun u => { u with changing := some true }).hub 1).changing = some true ∧ (start.hub 1).changing = none ∧
    ((start.modEmitter 5 fun m => { m with locked := true }).emitter 5).locked = true ∧
    ((start.modEmitter 5 fun m => { m with buffer := [⟨[1], false⟩] }).emitter 5).buffer ≠ [] := by decide

/-- `ResetAndPower`: held in reset and not, erasing, powered and not. -/
theorem witness_ResetAndPower :
    start.mgmt.inReset = false ∧ ({ start.mgmt with inReset := true } : Mgmt).inReset = true ∧ start.mgmt.powered = true ∧
    ({ start.mgmt with steleErasing := true } : Mgmt).steleErasing = true ∧
    ({ start.mgmt with powered := false } : Mgmt).powered = false := by decide

/-- `AttestationRequests`: signatures left and none; a signed answer that has not left; sessions open, established and
neither; measurements by index, and indices of none; a key message. -/
theorem witness_AttestationRequests :
    start.mgmt.sigTop < 2 ^ 15 ∧ start.mgmt.sigLow < 2 ^ 15 ∧ (2 ^ 15 ≤ ({ start.mgmt with sigTop := 2 ^ 15 } : Mgmt).sigTop) ∧
    ({ start.mgmt with signing := [⟨0x83, [1], [2], 0, 0⟩] } : Mgmt).signing = [⟨0x83, [1], [2], 0, 0⟩] ∧
    ({ start.mgmt with keyMessages := [⟨4, 0, .go⟩], sessions := [(4, true)] } : Mgmt).keyMessages = [⟨4, 0, .go⟩] ∧
    (4, true) ∈ [(4, true)] ∧ (4, true) ∉ [(4, false)] ∧
    [0, 6].all (fun i => decide (i = 0 ∨ 5 < i) && (start.mgmt.measurementOf i).isNone) = true ∧
    (start.mgmt.measurementOf 1).isSome = true ∧
    (∃ x ∈ ({ start.mgmt with sessions := [(4, false)] } : Mgmt).sessions, x.1 = 4) ∧ start.mgmt.sessions = [] := by decide
/-! ## One step, with results calculated by hand from the rules -/

/-- The state after one step of the word in the small state. -/
def after (w : BitVec 96) (setup : State → State) (p : State → Warp → Bool) : Bool :=
  match step (setup (State.reset.withFetchWord 96 w.toNat)) with
  | .next t => (t.warp? key).any (p t)
  | _ => false

set_option maxRecDepth 20000 in
/-- `li s5, -2` sign-extends its immediate, and the PC moves on by 12 (R71, R83). -/
theorem test_li : after (mkWord 0x40 0x105 0 0 0x8000 0xffffffe) id
    (fun _ w => w.sreg 5 == 0xfffffffffffffffe && w.pc == BitVec.ofNat 64 (probeBase + 12)) = true := by decide

set_option maxRecDepth 20000 in
/-- `sadd.s32 s5, s4, s4` of 0x7fffffff wraps to -2, and with SAT clamps to 0x7fffffff (R24, R118). -/
theorem test_sadd_wraps_and_saturates :
    after (mkWord 0x42 0x105 0x104 0x104 0x2 0) (sIs 4 0x7fffffff) (fun _ w => w.sreg 5 == 0xfffffffffffffffe) = true ∧
    after (mkWord 0x42 0x105 0x104 0x104 0x202 0) (sIs 4 0x7fffffff) (fun _ w => w.sreg 5 == 0x7fffffff) = true := by decide

set_option maxRecDepth 20000 in
/-- `%lane` is affine with stride 1: `iadd.s64 v3, %lane, %lane` gives lane l the value 2 l (R89, R92). -/
theorem test_iadd_lanes : after (mkWord 0x80 3 0x150 0x150 3 0) id
    (fun _ w => (w.vreg 3).at 31 == 62 && (w.vreg 3).at 0 == 0 && (w.vreg 3).shape == .a) = true := by decide

set_option maxRecDepth 20000 in
/-- `trap 7` without a ring: its record is counted in NORING, its warp halts, and resumes behind it (R318, R336). -/
theorem test_trap : after (mkWord 0x18 0 0 0 0 7) id (fun s w => w.halted && (s.ctx 0).noring == 1 &&
    w.pc == BitVec.ofNat 64 (probeBase + 12)) = true := by decide

set_option maxRecDepth 20000 in
/-- `st.z64` of 7 by every lane to one address goes out with the data of all 32 lanes; `ST` rises by 1 (R76, R190). -/
theorem test_store : after (mkWord 0x281 1 0x104 0x15f 0x207 0) (fun s => sIs 4 0x40000 (vIs 1 (general 7) s))
    (fun s w => w.counter .st == 1 && s.ops.any fun o => o.kind == .store && (o.lanes.map (·.lane)).length == 32 &&
      o.lanes.all fun a => a.data == 7 && a.ia == 0x40000) = true := by decide

end Sys2Proof.Machine.Tests
end

section
/-!
SUPPORT. The statements of the scope: the state right after reset, the step of a warp that issues, and the
checks before an instruction in their order.
-/

namespace Sys2Proof.Machine

/-! ## The parts of the state after reset

No part is listed, so each one that is looked up reads at its reset value (R375). -/

@[simp] theorem State.reset_ctx (n : Nat) : State.reset.ctx n = { num := n } := rfl
@[simp] theorem State.reset_queue (k : QKey) : State.reset.queue k = { num := k.q } := rfl
@[simp] theorem State.reset_core (n : Nat) : State.reset.core n = { num := n } := rfl
@[simp] theorem State.reset_hub (h : Nat) : State.reset.hub h = { num := h } := rfl
@[simp] theorem State.reset_emitter (n : Nat) : State.reset.emitter n = { num := n } := rfl
@[simp] theorem State.reset_tagOf (g : Nat) : State.reset.tagOf g = 0 := rfl

/-- A byte of the carve-out holds two tags, which are 0 after reset. -/
theorem State.reset_memByte (a : Nat) : State.reset.memByte a = 0 := by
  unfold State.memByte
  split
  · rfl
  · simp [State.tagByte]

/-- The registers of a context after reset: none of the 16 range registers maps or is in use. -/
theorem State.reset_ctx_ranges (n : Nat) :
    (∀ k < 16, (State.reset.ctx n).ranges[k]? = some 0) ∧ (∀ k < 16, (State.reset.ctx n).uses[k]? = some 0) :=
  ⟨fun _ hk => List.getElem?_replicate_of_lt hk, fun _ hk => List.getElem?_replicate_of_lt hk⟩

/-- Settles O1: each part of the state is looked up at its reset value. -/
theorem resetState : Obligations.ResetState := by
  have hctx (n : Nat) := State.reset_ctx_ranges n
  refine ⟨rfl, rfl, rfl, rfl, rfl, rfl, rfl, rfl, rfl, State.reset_memByte, State.reset_tagOf, fun _ => rfl,
    fun n => ?context, fun _ => ?queue, fun _ => ?core, fun _ => ?hub, fun _ => ?emitter, ?management⟩
  case context => exact ⟨rfl, rfl, (hctx n).1, (hctx n).2, by simp⟩
  case queue => simp
  case core => simp
  case hub => simp
  case emitter => simp [State.uncAt]
  case management => exact ⟨rfl, rfl, rfl, rfl, rfl, rfl, rfl, rfl, rfl, rfl, rfl⟩

/-! ## The step of the warp that issues -/

@[simp] theorem State.pass_cur (s : State) : s.pass.cur = s.cur := rfl
@[simp] theorem State.pass_team? (s : State) (k : TKey) : s.pass.team? k = s.team? k := rfl
@[simp] theorem State.pass_warp? (s : State) (k : WKey) : s.pass.warp? k = s.warp? k := rfl
@[simp] theorem State.pass_ctx (s : State) (n : Nat) : s.pass.ctx n = s.ctx n := rfl

/-- A warp that stands in its code with no back edge pending runs the word that its fetch gives. -/
theorem State.issue_of_fetch {s s1 : State} {k : WKey} {t : Team} {w : Warp} {x : BitVec 96} (ht : s.team? k.team = some t)
    (hw : s.warp? k = some w) (hb : w.bedge = false) (hin : t.kernel.inCode w.pc = true)
    (hf : s.fetch t w = .word s1 x) : s.issue k = s1.runWord x := by
  simp [State.issue, ht, hw, hb, hin, hf]

/-- The step of `s` is the outcome `x` of the issuing warp: it goes on from there without an issuing warp, or, when
what it records has no room, from the state before the instruction (R318); a stop is the step's. -/
def StepsAs (s : State) (x : Host.Outcome State Fault Refusal) : Prop :=
  (∀ u, x = .next u → u.recordsFit = true → step s = .next { u with cur := none }) ∧
  (∀ u, x = .next u → u.recordsFit = false → step s = .next { s.pass with cur := none }) ∧
  (∀ f, x = .fault f → step s = .fault f) ∧ (∀ r, x = .refused r → step s = .refused r)

/-- A step in which a warp is named is what the issue of that warp answers. -/
theorem stepsAs_issue {s : State} {k : WKey} (hc : s.cur = some k) : StepsAs s (s.pass.issue k) := by
  have hcur : { s.pass with cur := some k } = s.pass := by rw [← hc, ← s.pass_cur]
  have hstep : step s = s.pass.issueNext k := by simp [step, State.next, hc]
  unfold StepsAs
  rw [hstep, State.issueNext, hcur]
  refine ⟨fun u h hfit => ?_, fun u h hfit => ?_, fun f h => ?_, fun r h => ?_⟩
  · simp [h, hfit]
  · simp [h, hfit]
  · rw [h]
  · rw [h]

/-- A word that neither the core nor the loop buffer keeps, and that no store has changed, is fetched from memory and
kept in the core's instruction cache (R36, R38, R75). -/
theorem State.fetch_of_memory {s u : State} {t : Team} {w : Warp} {r : Range} {bs : List Byte}
    (hr : (s.ctx t.ctx).findRange w.pc 12 = some r) (hx : r.pex = true) (hl : w.looping w.pc = false)
    (hbad : (s.core w.core).badCode.contains (r.target w.pc) = false) (hold : s.oldWords w.core (r.target w.pc) = [])
    (hread : s.l2Read false (r.target w.pc) 12 = (.bytes bs none, u)) :
    s.fetch t w = .word (u.cacheWord w.core (r.target w.pc) (BitVec.ofNat 96 (leNat bs))) (BitVec.ofNat 96 (leNat bs)) := by
  have hnow : s.fetchNow w (r.target w.pc) = .word u (BitVec.ofNat 96 (leNat bs)) := by simp [State.fetchNow, hread]
  have hnot : (r.target w.pc) ∉ (s.core w.core).badCode := by simpa using hbad
  simp [State.fetch, hr, hx, hl, hnot, hold, hnow, State.keepWord]

/-- Running a word that decodes is running its instruction; one whose opcode is not assigned runs as its trap (R33). -/
theorem State.runWord_instr (s : State) {x : BitVec 96} {i : Instr} (hd : decodeWord x = .instr i) :
    s.runWord x = exec i s := by rw [State.runWord, hd]
theorem State.runWord_illegalOpcode (s : State) {x : BitVec 96} (hd : decodeWord x = .illegalOpcode) :
    s.runWord x = exec (.illegalOpcode x) s := by rw [State.runWord, hd]
theorem State.runWord_illegalOperand (s : State) {x : BitVec 96} (hd : decodeWord x = .illegalOperand) :
    s.runWord x = illegalOperand x s := by rw [State.runWord, hd]

/-- Settles O6: the step is the issue of the warp, and the issue runs the word that the fetch gives. -/
theorem stepRunsDecodedInstruction : Obligations.StepRunsDecodedInstruction := by
  intro s k t w hc ht hw hb hin
  have hword {s1 x y} (hf : s.pass.fetch t w = .word s1 x) (hy : s1.runWord x = y) : StepsAs s y :=
    hy ▸ State.issue_of_fetch ((s.pass_team? _).trans ht) ((s.pass_warp? _).trans hw) hb hin hf ▸ stepsAs_issue hc
  refine ⟨fun s1 x hf => ⟨fun i hd => ?instr, fun hd => ?opcode, fun _ => ?operand⟩,
    fun r bs u i hr hx hl hbad hold hread => fun hd => ?memory⟩
  case instr => exact hword hf (s1.runWord_instr hd)
  case opcode => exact hword hf (s1.runWord_illegalOpcode hd)
  case operand => exact hword hf rfl
  case memory =>
    have hf := State.fetch_of_memory (by rwa [State.pass_ctx]) hx hl hbad hold hread
    exact hword hf (State.runWord_instr _ hd)

end Sys2Proof.Machine

/-! ## The checks before an instruction -/

namespace Sys2Proof

open Machine

/-- Checks 3 to 7 of R35, each with its condition as the rules state it. -/
theorem Sig.check_eq (g : Sig) (t : Team) : g.check t =
    if g.relay = true ∧ t.relay = none then some 0x01
    else if ¬ (g.ok4 = true ∧ g.fits t.kernel.n t.kernel.g = true) then some 0x02
    else if g.ok5 = false then some 0x03
    else if ¬ (g.w32 = false ∨ t.kernel.width = 32) then some 0x0F
    else none := by
  have hoperands : (!g.ok4 || !g.fits t.kernel.n t.kernel.g) = true ↔
      ¬ (g.ok4 = true ∧ g.fits t.kernel.n t.kernel.g = true) := by cases g.ok4 <;> simp
  have hwidth : (g.w32 && t.kernel.width != 32) = true ↔ ¬ (g.w32 = false ∨ t.kernel.width = 32) := by cases g.w32 <;> simp
  simp only [Sig.check, hoperands, hwidth, Bool.and_eq_true, Option.isNone_iff_eq_none, Bool.not_eq_true']

end Sys2Proof

namespace Sys2Proof.Machine

/-- An instruction of the instruction set runs under the gate. -/
theorem runs_of_sig {i : Instr} {g : Sig} (h : i.sig = some g) : Runs i := (runs_or i).resolve_left (by simp [h])

/-- The lowest lane with an indexed operand out of bounds, as the gate looks for it (R102, R205). -/
def Env.indexFault (e : Env) (i : Instr) (g : Sig) : Option (Nat × Nat) :=
  if g.indexed && !i.neverFaults then e.w.indexFault e.t.kernel.n (i.fields ++ g.reads.map (·.1)) e.lanes else none

section

variable {i : Instr} {g : Sig} {e : Env}

/-- A decode check that fails is the gate's trap, before the guard is looked at. -/
theorem gate_of_check {code : Nat} (h : g.check e.t = some code) :
    gate i g e.s e.k e.t e.w = .trap e.s (e.w.faultAt code) := by simp [gate, h]

/-- The check of the active mask passes where no full mask is needed, or it is full. -/
theorem mask_check_passes (h : g.full = false ∨ e.w.mask &&& fullMask e.width = fullMask e.width) :
    ¬ (g.full && e.w.mask &&& fullMask e.t.kernel.width != fullMask e.t.kernel.width) = true := by
  rcases h with h | h
  · simp [h]
  · simpa [Env.width] using fun _ => h

variable (hcheck : g.check e.t = none)
include hcheck

/-- A guard that is off skips the instruction (R17, R63). -/
theorem gate_of_guard_off (hm : g.mask e.t e.w = none) : gate i g e.s e.k e.t e.w = .skip := by simp [gate, hcheck, hm]

variable (hm : g.mask e.t e.w = some e.m)
include hm

/-- An active mask that is not full traps an instruction that needs a full one (R35). -/
theorem gate_of_mask_not_full (hf : g.full = true) (hw : e.w.mask &&& fullMask e.width ≠ fullMask e.width) :
    gate i g e.s e.k e.t e.w = .trap e.s (e.w.faultAt 0x04) := by
  simp only [Env.width] at hw
  simp [gate, hcheck, hm, hf, hw]

variable (hfull : g.full = false ∨ e.w.mask &&& fullMask e.width = fullMask e.width)
include hfull

/-- Past the check of the active mask, an index out of bounds traps in its lowest lane (R102). -/
theorem gate_of_index_fault {l a : Nat} (hidx : e.indexFault i g = some (l, a)) :
    gate i g e.s e.k e.t e.w = .trap e.s (e.w.faultAt 0x07 l (BitVec.ofNat 64 a)) := by
  simp only [Env.indexFault, Env.lanes, Env.width] at hidx
  simp only [gate, hcheck, hm, hidx]
  rw [if_neg (mask_check_passes hfull)]

/-- Past the check of the indexes, a register that is pending holds the instruction (R98, Table 3-2). -/
theorem gate_of_pending (hidx : e.indexFault i g = none)
    (hp : (∃ n ∈ e.w.named (g.reads ++ g.dest) (e.seen i), (e.w.vreg n).pend = true) ∨ e.s.scalarPending e.k i = true) :
    gate i g e.s e.k e.t e.w = .wait e.s := by
  simp only [Env.indexFault, Env.lanes, Env.width] at hidx
  simp only [Env.seen, Env.lanes, Env.width] at hp
  simp only [gate, hcheck, hm, hidx]
  rw [if_neg (mask_check_passes hfull), if_pos (by simpa using hp)]

end

/-! ## The traps of fetch and decode -/

section

variable {s : State} {k : WKey} {t : Team} {w : Warp} (hc : s.cur = some k) (hw : s.warp? k = some w)
include hc hw

/-- A trap at decode is the issuing warp's precise trap. -/
theorem trapDecode_of_warp (code : Nat) : trapDecode code s = .next (s.trapped k (w.faultAt code) none) := by
  simp [trapDecode, hc, hw]

/-- A word whose opcode is not assigned traps with ILLEGAL_OPCODE (R33). -/
theorem exec_illegalOpcode_of_warp {x : BitVec 96} (hd : decodeWord x = .illegalOpcode) :
    exec (.illegalOpcode x) s = .next (s.trapped k (w.faultAt 0x01) none) := by
  rw [exec_illegalOpcode, execIllegalOpcode, if_pos hd, trapDecode_of_warp hc hw]

variable (ht : s.team? k.team = some t)
include ht

/-- A PC that is not an address of the code traps with SEQUENTIAL_FETCH_PAST_CODE (R37). -/
theorem exec_sequentialFetchPastCode_of_warp (hin : t.kernel.inCode w.pc = false) :
    exec .sequentialFetchPastCode s = .next (s.trapped k (w.faultAt 0x05) none) := by
  rw [exec_sequentialFetchPastCode]
  simp [execSequentialFetchPastCode, hc, hw, ht, hin]

/-- A word that fails decode otherwise traps with ILLEGAL_OPERAND, unless its relay opcode traps first (R33, R35). -/
theorem illegalOperand_of_warp (x : BitVec 96) :
    illegalOperand x s = .next (s.trapped k
      (w.faultAt (if isRelayOpcode x = true ∧ t.relay = none then 0x01 else 0x02)) none) := by
  have hrelay : (isRelayOpcode x && !t.relay.isSome) = true ↔ isRelayOpcode x = true ∧ t.relay = none := by simp
  simp only [illegalOperand, hc, Option.bind_some, ht, hrelay]
  exact trapDecode_of_warp hc hw _

end

/-- Settles O8: the gate's answer, check by check, and the traps before the gate. -/
theorem issueChecksInOrder : Obligations.IssueChecksInOrder := by
  refine ⟨fun i g s k t w hg hc ht hw => ?gate, fun s k t w hc ht hw => ⟨?past, ?opcode, ?operand⟩⟩
  case past => exact exec_sequentialFetchPastCode_of_warp hc hw ht
  case opcode => exact fun _ hd => exec_illegalOpcode_of_warp hc hw hd
  case operand => exact fun x hd => s.runWord_illegalOperand hd ▸ illegalOperand_of_warp hc hw ht x
  case gate =>
    intro traps relay operands width whole
    obtain ⟨hnext, htrap, hwait, hskip⟩ := exec_of_gate (runs_of_sig hg) hg hc ht hw
    let e (m : Mask) : Env := ⟨s, k, t, w, m⟩
    have hcheck (code : Nat) (h : g.check t = some code) : traps code 255 0 := htrap _ _ (gate_of_check (e := e 0) h)
    refine ⟨hnext, fun hr => hcheck _ ?_, fun hr ho => hcheck _ ?_, fun hr ho h5 => hcheck _ ?_,
      fun hr ho h5 hwd => hcheck _ ?_, fun hr ho h5 hwd => ?executes⟩
    · rw [Sig.check_eq, if_pos hr]
    · rw [Sig.check_eq, if_neg hr, if_pos ho]
    · rw [Sig.check_eq, if_neg hr, if_neg (not_not_intro ho), if_pos h5]
    · rw [Sig.check_eq, if_neg hr, if_neg (not_not_intro ho), if_neg (by simp [h5]), if_pos hwd]
    case executes =>
      have hpass : g.check t = none := by
        rw [Sig.check_eq, if_neg hr, if_neg (not_not_intro ho), if_neg (by simp [h5]), if_neg (not_not_intro hwd)]
      refine ⟨fun hm => hskip (gate_of_guard_off (e := e 0) hpass hm), fun m hm => ?_⟩
      intro lanes index seen
      exact ⟨fun hf hmask => htrap _ _ (gate_of_mask_not_full (e := e m) hpass hm hf hmask),
        fun hfull => ⟨fun l a hidx => htrap _ _ (gate_of_index_fault (e := e m) hpass hm hfull hidx),
          fun hidx hp => hwait _ (gate_of_pending (e := e m) hpass hm hfull hidx hp)⟩⟩

end Sys2Proof.Machine
end

section
/-!
SUPPORT. The instruction word (R11 to R34): what each code, modifier layout and field of a word stands for, one
equivalence each, from which decoding and encoding are inverse to each other.
-/

namespace Sys2Proof

/-! ## Field codes -/

theorem typOfCode_eq_some {c : BitVec 4} {t : Typ} : typOfCode c = some t ↔ c = t.code := by
  revert c; cases t <;> decide
theorem rndOfCode_eq_some {c : BitVec 3} {r : Rnd} : rndOfCode c = some r ↔ c = r.code := by
  revert c; cases r <;> decide
theorem scopeOfCode_eq_some {c : BitVec 3} {x : Scope} : scopeOfCode c = some x ↔ c = x.code := by
  revert c; cases x <;> decide
theorem cscopeOfCode_eq_some {c : BitVec 3} {x : CScope} : cscopeOfCode c = some x ↔ c = x.code := by
  revert c; cases x <;> decide
theorem fmtOfCode_eq_some {c : BitVec 3} {f : Fmt} : fmtOfCode c = some f ↔ c = f.code := by
  revert c; cases f <;> decide
theorem pathOfCode_eq_some {c : BitVec 3} {p : Path} : pathOfCode c = some p ↔ c = p.code := by
  revert c; cases p <;> decide
theorem ordOfCode_eq_iff {c : BitVec 2} {x : Ord} : ordOfCode c = x ↔ c = x.code := by
  revert c; cases x <;> decide
theorem cacheOfCode_eq_iff {c : BitVec 2} {x : Cache} : cacheOfCode c = x ↔ c = x.code := by
  revert c; cases x <;> decide
theorem atopOfCode_eq_iff {c : BitVec 3} {x : Atop} : atopOfCode c = x ↔ c = x.code := by
  revert c; cases x <;> decide

/-- Every operand has its own code, and a code that names an operand is the operand's (R18). -/
theorem operandOfCode_eq_some {c : BitVec 9} {x : Operand} : operandOfCode c = some x ↔ c = x.code := by
  constructor
  · have h : ∀ c : BitVec 9, ∀ x ∈ operandOfCode c, c = x.code := by decide
    exact h c x
  · rintro rfl
    cases x with
    | v n => revert n; decide
    | s n => revert n; decide
    | p n => revert n; decide
    | special r => cases r <;> decide
    | vx x b => revert x b; decide

@[simp] theorem operandOfCode_code (x : Operand) : operandOfCode x.code = some x := operandOfCode_eq_some.2 rfl

/-! ## Fields side by side -/

/-- A word is two fields side by side exactly when each is its part of the word. -/
theorem eq_append_iff (m n : Nat) {x : BitVec m} {y : BitVec n} {w : BitVec (m + n)} :
    w = x ++ y ↔ w.extractLsb' n m = x ∧ w.extractLsb' 0 n = y := by
  constructor
  · rintro rfl
    exact ⟨BitVec.extractLsb'_append_eq_left, BitVec.extractLsb'_append_eq_right⟩
  · rintro ⟨rfl, rfl⟩
    exact BitVec.extractLsb'_append_extractLsb'.symm

theorem extractLsb'_extractLsb' {l a b c d : Nat} (w : BitVec l) (h : a + b ≤ d) :
    (w.extractLsb' c d).extractLsb' a b = w.extractLsb' (c + a) b := by
  ext i hi
  simp [show a + i < d by omega, Nat.add_assoc]

/-- The same for the part of a word that begins at bit `k`. -/
theorem extractLsb'_eq_append_iff {m n l k : Nat} {x : BitVec m} {y : BitVec n} {w : BitVec l} :
    w.extractLsb' k (m + n) = x ++ y ↔ w.extractLsb' (k + n) m = x ∧ w.extractLsb' k n = y := by
  rw [eq_append_iff, extractLsb'_extractLsb' w (by omega), extractLsb'_extractLsb' w (by omega), Nat.add_zero]

theorem extractLsb'_eq_bit_iff {b : Bool} {l k : Nat} {w : BitVec l} : w.extractLsb' k 1 = bit b ↔ w.getLsbD k = b := by
  rw [BitVec.getLsbD_eq_extractLsb', bit]
  generalize w.extractLsb' k 1 = x
  revert b x; decide

/-- A reserved bit is written 0. -/
theorem extractLsb'_eq_zero_iff {l k : Nat} {w : BitVec l} : w.extractLsb' k 1 = 0#1 ↔ w.getLsbD k = false :=
  extractLsb'_eq_bit_iff (b := false)

/-! ## Modifier layouts -/

/-- A layout reads exactly what it writes. -/
def Layout.Lawful {L : Type} (lay : Layout L) : Prop := ∀ (m : BitVec 16) (l : L), lay.dec m = some l ↔ m = lay.enc l

@[simp] theorem layMA_lawful : layMA.Lawful := by
  rintro m ⟨ib, sub, sat, rnd, pk, ty⟩
  rw [layMA, eq_append_iff (1 + 5 + 1 + 3 + 2) 4]
  simp only [extractLsb'_eq_append_iff, extractLsb'_eq_bit_iff]
  simp [Option.bind_eq_some_iff, typOfCode_eq_some, rndOfCode_eq_some, and_assoc, and_comm, and_left_comm]

@[simp] theorem layMC_lawful : layMC.Lawful := by
  rintro m ⟨spk, sty, sat, rnd, pk, ty⟩
  rw [layMC, eq_append_iff (2 + 4 + 1 + 3 + 2) 4]
  simp only [extractLsb'_eq_append_iff, extractLsb'_eq_bit_iff]
  simp [Option.bind_eq_some_iff, typOfCode_eq_some, rndOfCode_eq_some, and_assoc, and_comm, and_left_comm]

@[simp] theorem layMK_lawful : layMK.Lawful := by
  rintro m ⟨iter, rnd, pk, ty⟩
  rw [layMK, eq_append_iff (1 + 6 + 3 + 2) 4]
  simp only [extractLsb'_eq_append_iff, extractLsb'_eq_zero_iff]
  simp [Option.bind_eq_some_iff, typOfCode_eq_some, rndOfCode_eq_some, and_assoc, and_comm, and_left_comm]

@[simp] theorem layMM_lawful : layMM.Lawful := by
  rintro m ⟨atop, cache, scope, ord, pk, ty⟩
  rw [layMM, eq_append_iff (3 + 2 + 3 + 2 + 2) 4]
  simp only [extractLsb'_eq_append_iff]
  simp [Option.bind_eq_some_iff, typOfCode_eq_some, scopeOfCode_eq_some, ordOfCode_eq_iff, cacheOfCode_eq_iff,
    atopOfCode_eq_iff, and_assoc, and_comm, and_left_comm]

@[simp] theorem layMF_lawful : layMF.Lawful := by
  rintro m ⟨scope, dst, src⟩
  rw [layMF, eq_append_iff (4 + 3 + 3) 6]
  simp only [extractLsb'_eq_append_iff]
  simp [Option.bind_eq_some_iff, scopeOfCode_eq_some, pathOfCode_eq_some, and_assoc, and_comm, and_left_comm]

@[simp] theorem layMX_lawful : layMX.Lawful := by
  rintro m ⟨sub, acc, arr, fmt⟩
  rw [layMX, eq_append_iff (6 + 5 + 1 + 1) 3]
  simp only [extractLsb'_eq_append_iff, extractLsb'_eq_bit_iff, extractLsb'_eq_zero_iff]
  simp [Option.bind_eq_some_iff, fmtOfCode_eq_some, and_assoc, and_comm, and_left_comm]

@[simp] theorem layMY_lawful : layMY.Lawful := by
  rintro m ⟨scope, cwg, cwadd, ch, dig, span⟩
  rw [layMY, eq_append_iff (5 + 3 + 1 + 1 + 2 + 1) 3]
  simp only [extractLsb'_eq_append_iff, extractLsb'_eq_bit_iff]
  simp [Option.bind_eq_some_iff, cscopeOfCode_eq_some, and_assoc, and_comm, and_left_comm]

@[simp] theorem layMS_lawful : layMS.Lawful := fun _ _ => Option.some_inj

/-! ## Words -/

/-- The fields of an instruction as bits, its modifiers in a layout. -/
def Ops.raw {L : Type} (o : Ops L) (enc : L → BitVec 16) : RawOps :=
  ⟨o.guard, o.nf, false, o.stall, o.yld, o.d.code, o.a.code, o.b.code, enc o.mod, o.imm⟩

/-- A word packs an opcode and fields exactly when those are what is read from it (Table 2-1, R13). -/
theorem eq_pack_iff {L : Type} {o : Ops L} {opc : BitVec 10} {enc : L → BitVec 16} {w : BitVec 96} :
    w = o.pack opc enc ↔ w.extractLsb' 0 10 = opc ∧ rawOps w = o.raw enc := by
  obtain ⟨⟨p, neg⟩, nf, stall, yld, d, a, b, mod, imm⟩ := o
  rw [Ops.pack, eq_append_iff (28 + 3 + 1 + 4 + 1 + 1 + 16 + 9 + 9 + 9 + 1 + 4) 10]
  simp only [extractLsb'_eq_append_iff, extractLsb'_eq_bit_iff, extractLsb'_eq_zero_iff, rawOps, Ops.raw, RawOps.mk.injEq,
    Guard.mk.injEq, Bool.or_eq_false_iff, bne_eq_false_iff_eq, and_assoc]
  constructor
  · rintro ⟨himm, hres, hyld, hstall, hres59, hnf, hmod, hb, ha, hd, hneg, hp, hopc⟩
    exact ⟨hopc, hp, hneg, hnf, hres59, hres, hstall, hyld, hd, ha, hb, hmod, himm⟩
  · rintro ⟨hopc, hp, hneg, hnf, hres59, hres, hstall, hyld, hd, ha, hb, hmod, himm⟩
    exact ⟨himm, hres, hyld, hstall, hres59, hnf, hmod, hb, ha, hd, hneg, hp, hopc⟩

/-- Fields build an instruction exactly when they are the bits of its fields (R13, R18). -/
theorem RawOps.build_eq_instr_iff {L : Type} {r : RawOps} {lay : Layout L} (hl : lay.Lawful) {mk : Ops L → Instr}
    {i : Instr} : r.build lay mk = .instr i ↔ ∃ o, r = o.raw lay.enc ∧ i = mk o := by
  constructor
  · intro h
    unfold RawOps.build at h
    split at h
    case h_2 => cases h
    case h_1 d a b m hd ha hb hm hresv =>
      cases h
      rw [operandOfCode_eq_some] at hd ha hb
      rw [hl] at hm
      exact ⟨_, by cases r; simp_all [Ops.raw], rfl⟩
  · rintro ⟨o, rfl, rfl⟩
    have hdec : lay.dec (lay.enc o.mod) = some o.mod := (hl _ _).2 rfl
    simp [RawOps.build, Ops.raw, hdec]

/-- The word of an instruction in a row of Table 2-5 decodes to it. -/
theorem decodeWord_pack {L : Type} {lay : Layout L} (hl : lay.Lawful) {opc : BitVec 10} {mk : Ops L → Instr}
    (hrow : ∀ r, decodeFields opc.toNat r = r.build lay mk) (o : Ops L) :
    decodeWord (o.pack opc lay.enc) = .instr (mk o) := by
  obtain ⟨hopc, hraw⟩ := eq_pack_iff.1 (Eq.refl (o.pack opc lay.enc))
  rw [decodeWord, hopc, hraw, hrow]
  exact (RawOps.build_eq_instr_iff hl).2 ⟨o, rfl, rfl⟩

/-! ## The opcode map -/

/-- The word of an instruction decodes to it (R33, R34). -/
theorem decodeWord_of_encode {i : Instr} {w : BitVec 96} (hi : ∀ x, i ≠ .illegalOpcode x) (h : encode i = some w) :
    decodeWord w = .instr i := by
  cases i
  case illegalOpcode x => exact absurd rfl (hi x)
  all_goals cases h
  all_goals exact decodeWord_pack (by simp) (fun _ => rfl) _

/-- What a row of the opcode map makes of the fields of a word with opcode `n`: an instruction whose word has that
opcode, read in its layout; or that the opcode is not assigned (R33). -/
inductive IsRow (n : Nat) (r : RawOps) : Decoded → Prop where
  | assigned {L : Type} {lay : Layout L} (hl : lay.Lawful) {mk : Ops L → Instr}
      (hrow : ∀ o, encode (mk o) = some (o.pack (BitVec.ofNat 10 n) lay.enc)) : IsRow n r (r.build lay mk)
  | unassigned : IsRow n r .illegalOpcode

/-- The opcode map of Table 2-5, row by row in each group. -/
theorem decodeFields_isRow (n : Nat) (r : RawOps) : IsRow n r (decodeFields n r) := by
  fun_cases decodeFields n r
  case' case1 => unfold decodeControl
  case' case2 => unfold decodeScalar
  case' case3 => unfold decodeInteger
  case' case4 => unfold decodeFloat
  case' case5 => unfold decodeCordic
  case' case6 => unfold decodeCross
  case' case7 => unfold decodeMatrix
  case' case8 => unfold decodeScratch
  case' case9 => unfold decodeGlobal
  case' case10 => unfold decodeCopy
  case' case11 => unfold decodeGraph
  case' case12 => unfold decodeRelay
  case' case13 => unfold decodeRecorder
  case' case14 => unfold decodeSystem
  all_goals split
  any_goals exact .unassigned
  all_goals exact .assigned (by simp) fun _ => rfl

/-- A word that decodes to an instruction is the word of that instruction. -/
theorem encode_of_decodeWord {w : BitVec 96} {i : Instr} (h : decodeWord w = .instr i) : encode i = some w := by
  have hrow := decodeFields_isRow (w.extractLsb' 0 10).toNat (rawOps w)
  rw [decodeWord] at h
  rw [h] at hrow
  generalize hd : Decoded.instr i = d at hrow
  cases hrow with
  | unassigned => cases hd
  | assigned hl hrow =>
    obtain ⟨o, hraw, rfl⟩ := (RawOps.build_eq_instr_iff hl).1 hd.symm
    rw [hrow, BitVec.ofNat_toNat, BitVec.setWidth_eq, ← eq_pack_iff.2 ⟨rfl, hraw⟩]

/-- Settles O5: field by field, a word and an instruction determine each other. -/
theorem encodeAndDecodeAgree : Obligations.EncodeAndDecodeAgree := by
  refine ⟨fun i w hwf h => ?_, fun w i => encode_of_decodeWord⟩
  by_cases hi : ∃ x, i = .illegalOpcode x
  · obtain ⟨x, rfl⟩ := hi
    obtain rfl : x = w := Option.some.inj h
    have hx : decodeWord x = .illegalOpcode := eq_of_beq hwf
    rw [decode, hx]
  · rw [decode, decodeWord_of_encode (fun x hx => hi ⟨x, hx⟩) h]

/-- Settles O7: each word is decoded, and a reserved operand code lies in the one range of Table 2-2 that names none. -/
theorem tableWordsDecode : Obligations.TableWordsDecode := by
  refine ⟨rfl, rfl, rfl, rfl, rfl, rfl, fun c hlo hhi => ?_⟩
  unfold operandOfCode
  rw [if_neg (by omega), if_neg (by omega), if_neg (by omega), if_neg (by omega), if_pos hhi]

end Sys2Proof
end

section
/-!
SUPPORT. The branches and the scalar instructions: what a branch does with its target, and the values that the
scalar instructions and the special registers give.
-/

namespace Sys2Proof.Machine

/-! ## Branches (R37, R65 to R67, R74) -/

/-- Cancelling loop levels leaves the PC. -/
theorem Warp.cancelTo_pc {w u : Warp} {target : Word} (h : w.cancelTo target = some u) : u.pc = w.pc := by
  simp only [Warp.cancelTo] at h
  split at h
  · cases h
  · cases h; rfl

/-- The link register of a branch, written with the address of the next instruction; no link register, no write. -/
def Env.linked (e : Env) (link : Option Operand) (u : Warp) : Warp :=
  match link with
  | some d => u.setS d (e.w.pc + 12)
  | none => u

/-- A ready branch to this target checks it, cancels levels, writes its link and sets the PC. -/
def Env.Jumps (e : Env) (i : Instr) (g : Sig) (target : Word) (link : Option Operand) : Prop :=
  (e.t.kernel.inCode target = false → e.Traps i g 0x05) ∧
  (e.t.kernel.inCode target = true → e.w.cancelTo target = none → e.Traps i g 0x08) ∧
  (e.t.kernel.inCode target = true → ∀ u, e.w.cancelTo target = some u →
    e.DoesRaw i g (e.s.modWarp e.k fun _ => { e.linked link u with pc := target }))

section

variable {e : Env} {i : Instr} {g : Sig} {target : Word} {link : Option Operand}

theorem Env.branch_outside (h : e.t.kernel.inCode target = false) : e.branch target link = e.trap 0x05 := by
  simp [Env.branch, h]

theorem Env.branch_open_entry (h : e.t.kernel.inCode target = true) (hc : e.w.cancelTo target = none) :
    e.branch target link = e.trap 0x08 := by
  simp [Env.branch, h, hc]

theorem Env.branch_taken (h : e.t.kernel.inCode target = true) {u : Warp} (hc : e.w.cancelTo target = some u) :
    e.branch target link = .next (e.s.modWarp e.k fun _ => { e.linked link u with pc := target }) := by
  cases link <;> simp [Env.branch, h, hc, Env.linked, Warp.cancelTo_pc hc]

/-- An instruction that sets the PC itself jumps when its effect is a branch. -/
theorem Env.jumps_of_branch {f : Env → Act} (hx : ∀ s, exec i s = runRaw i s f) (hf : f e = e.branch target link) :
    e.Jumps i g target link := by
  refine ⟨fun h hr => ?outside, fun h hc hr => ?open_entry, fun h u hc hr => ?taken⟩
  case outside => rw [hx, runRaw_trap hr (hf.trans (branch_outside h))]
  case open_entry => rw [hx, runRaw_trap hr (hf.trans (branch_open_entry h hc))]
  case taken => rw [hx, runRaw_next hr (hf.trans (branch_taken h hc))]

/-- A conditional branch jumps when its condition holds and moves on when it does not. -/
theorem Env.branches_of_branchIf {imm : BitVec 28} {taken : Bool} {P : Prop} (hP : taken = true ↔ P) {f : Env → Act}
    (hx : ∀ s, exec i s = runRaw i s f) (hf : f e = e.branchIf taken imm) :
    (P → e.Jumps i g (e.direct imm) none) ∧ (¬ P → e.DoesRaw i g (e.s.advance e.k)) := by
  refine ⟨fun h => jumps_of_branch hx ?taken, fun h hr => ?fall⟩
  case taken => rw [hf, branchIf, if_pos (hP.2 h)]
  case fall =>
    have hfall : f e = .next (e.s.advance e.k) := by rw [hf, branchIf, if_neg (mt hP.1 h), fall]
    rw [hx, runRaw_next hr hfall]

end

/-- Settles O26: every branch is the one shared jump, conditional or not. -/
theorem branchResults : Obligations.BranchResults := by
  intro g e o
  refine ⟨?bra, ?brx, ?call, ?callx, ?ret, ?bc, ?bany, ?ball⟩
  case bra => exact Env.jumps_of_branch (link := none) (exec_bra · o) rfl
  case brx => exact Env.jumps_of_branch (link := none) (exec_brx · o) rfl
  case call => exact Env.jumps_of_branch (link := some o.d) (exec_call · o) rfl
  case callx => exact Env.jumps_of_branch (link := some o.d) (exec_callx · o) rfl
  case ret => exact Env.jumps_of_branch (link := none) (exec_ret · o) rfl
  case bc => exact Env.branches_of_branchIf Iff.rfl (exec_bc · o) rfl
  case bany => exact Env.branches_of_branchIf (by simp) (exec_bany · o) rfl
  case ball => exact Env.branches_of_branchIf (by simp) (exec_ball · o) rfl

/-! ## Scalar instructions (R15, R83) -/

theorem Env.scalarA_lt (e : Env) (o : Ops MA) : e.scalarA o < 2 ^ o.mod.ty.width := Nat.mod_lt _ (Nat.two_pow_pos _)

/-- A ready instruction that goes on to the next one does what its effect answers. -/
theorem Env.does_of_runSeq {e : Env} {i : Instr} {g : Sig} {t : State} {f : Env → Act}
    (hx : ∀ s, exec i s = runSeq i s f) (hf : f e = .next t) : e.Does i g t := fun hr => by
  rw [hx, runSeq_next hr hf]

/-- An instruction that runs as a scalar operation sets its destination to the extended result. -/
theorem Env.sets_of_scalarOp {e : Env} {i : Instr} {g : Sig} {o : Ops MA} {f : Env → Nat → Nat → Nat} {n : Nat}
    (hx : ∀ s, exec i s = scalarOp i o s f) (hf : f e (e.scalarA o) (e.scalarB o) = n) :
    e.Sets i g o.d (extendTo64 o.mod.ty n) := fun hr => by
  rw [hx, scalarOp_ready hr, hf]

/-- One on the values of its operands sets it to the value, clamped or wrapped and extended. -/
theorem Env.sets_of_scalarInt {e : Env} {i : Instr} {g : Sig} {o : Ops MA} {f : Int → Int → Int} {x : Int}
    (hx : ∀ s, exec i s = scalarInt i o s f)
    (hf : f (readInt o.mod.ty (e.scalarA o)) (readInt o.mod.ty (e.scalarB o)) = x) :
    e.Sets i g o.d (extendTo64 o.mod.ty (narrowInt o.mod.ty o.mod.sat x)) :=
  sets_of_scalarOp (fun s => (hx s).trans (scalarInt_eq ..)) (hf ▸ rfl)

theorem notElem_eq {w a : Nat} (h : a < 2 ^ w) : notElem w a = 2 ^ w - 1 - a := by
  rw [notElem, Nat.mod_eq_of_lt h]
theorem shlElem_eq (w a b : Nat) : shlElem w a b = a * 2 ^ (b % w) % 2 ^ w := by
  rw [shlElem, Nat.shiftLeft_eq]
theorem shrElem_eq (w a b : Nat) : shrElem w a b = a / 2 ^ (b % w) := Nat.shiftRight_eq_div_pow _ _
theorem popElem_eq (w a : Nat) : popElem w a = (List.range w).countP fun k => a.testBit k :=
  List.countP_eq_length_filter.symm
theorem bitField_eq (signed : Bool) (w a pos len : Nat) :
    bitField signed w a pos len = extendField signed w (min len w) (a / 2 ^ pos) := by
  rw [bitField, Nat.shiftRight_eq_div_pow]

/-- `scmp` writes 1 or 0 to an s register or %zero, and all lanes or none to a predicate (R83). -/
theorem Env.sets_scmp {e : Env} {g : Sig} {o : Ops MA} (hd : o.d.isP = false) :
    e.Sets (.scmp o) g o.d (if intCond o.mod.sub.toNat (readInt o.mod.ty (e.scalarA o)) (readInt o.mod.ty (e.scalarB o))
      then 1 else 0) := by
  refine does_of_runSeq (exec_scmp · o) ?_
  generalize intCond _ _ _ = r
  obtain ⟨guard, nf, stall, yld, d, a, b, mod, imm⟩ := o
  cases d
  case p => cases hd
  all_goals cases r <;> rfl

theorem Env.does_scmp_predicate {e : Env} {g : Sig} {o : Ops MA} {n : BitVec 4} (hd : o.d = .p n) :
    e.Does (.scmp o) g (e.s.modWarp e.k fun u => u.setP n e.width
      (if intCond o.mod.sub.toNat (readInt o.mod.ty (e.scalarA o)) (readInt o.mod.ty (e.scalarB o))
        then BitVec.allOnes 64 else 0)) :=
  does_of_runSeq (exec_scmp · o) (by simp only [hd])

/-- A special register other than %lane and %flags reads one value for the warp, in every lane too (R19, R20). -/
theorem Env.reads_special (e : Env) (r : Special) (hr : r ≠ .lane ∧ r ≠ .flags := by decide) :
    e.scalar (.special r) = e.special r ∧ ∀ l, e.lane (.special r) l = e.special r := by
  obtain ⟨hlane, hflags⟩ := hr
  refine ⟨rfl, fun l => ?_⟩
  cases r
  case lane => contradiction
  case flags => contradiction
  all_goals rfl

theorem Env.lane_lane (e : Env) {l : Nat} (h : l < 64) : (e.lane (.special .lane) l).toNat = l :=
  Nat.mod_eq_of_lt (by omega)

/-- Settles O17: each instruction is one of the shared scalar operations; the special registers are read one by one. -/
theorem scalarResults : Obligations.ScalarResults := by
  intro g e o ty w a b bits exact
  refine ⟨?li, ?lih, ?sadd, ?ssub, ?smul, ?smulh, ?sand, ?sor, ?sxor, ?snot, ?sshl, ?sshr, ?ssra, ?smin, ?smax, ?sclz,
    ?spopc, ?scmp, ?scmpPredicate, ?ssel, ?smov, ?sext, ?sbfe, ?special⟩
  case li => exact Env.does_of_runSeq (exec_li · o) rfl
  case lih => exact Env.does_of_runSeq (exec_lih · o) rfl
  case sadd => exact Env.sets_of_scalarInt (exec_sadd · o) rfl
  case ssub => exact Env.sets_of_scalarInt (exec_ssub · o) rfl
  case smul => exact Env.sets_of_scalarInt (exec_smul · o) rfl
  case smulh => exact Env.sets_of_scalarInt (exec_smulh · o) rfl
  case sand => exact Env.sets_of_scalarOp (exec_sand · o) rfl
  case sor => exact Env.sets_of_scalarOp (exec_sor · o) rfl
  case sxor => exact Env.sets_of_scalarOp (exec_sxor · o) rfl
  case snot => exact Env.sets_of_scalarOp (exec_snot · o) (notElem_eq (e.scalarA_lt o))
  case sshl => exact Env.sets_of_scalarOp (exec_sshl · o) (shlElem_eq ..)
  case sshr => exact Env.sets_of_scalarOp (exec_sshr · o) (shrElem_eq ..)
  case ssra => exact Env.sets_of_scalarOp (exec_ssra · o) rfl
  case smin => exact Env.sets_of_scalarInt (exec_smin · o) (Int.min_def ..).symm
  case smax => exact Env.sets_of_scalarInt (exec_smax · o) (Int.max_def ..).symm
  case sclz => exact Env.sets_of_scalarOp (exec_sclz · o) rfl
  case spopc => exact Env.sets_of_scalarOp (exec_spopc · o) (popElem_eq ..)
  case scmp => exact Env.sets_scmp
  case scmpPredicate => exact fun _ => Env.does_scmp_predicate
  case ssel => exact Env.sets_of_scalarOp (exec_ssel · o) (by simp [a, b])
  case smov => exact Env.sets_of_scalarOp (exec_smov · o) rfl
  case sext => exact Env.sets_of_scalarOp (exec_sext · o) rfl
  case sbfe => exact Env.sets_of_scalarOp (exec_sbfe · o) (bitField_eq ..)
  case special =>
    exact ⟨fun l hl => ⟨e.lane_lane hl, rfl⟩, e.reads_special .warp, e.reads_special .team, e.reads_special .node,
      e.reads_special .inst, e.reads_special .ctx, e.reads_special .core, e.reads_special .clk, e.reads_special .cause,
      e.reads_special .mask, e.reads_special .serial, e.reads_special .lc0, e.reads_special .lc1, e.reads_special .lc2,
      e.reads_special .zero⟩

end Sys2Proof.Machine
end

section
/-!
SUPPORT. The life of a team at the foundry and the banks of a core's pool: what each event answers when it is due.
-/

namespace Sys2Proof.Machine

/-! ## Choices and records -/

/-- A free number names one of the entries of a list that is not empty (assumption 5). -/
theorem getD_mod_length_mem {α : Type} {l : List α} (h : l ≠ []) (n : Nat) (d : α) : l.getD (n % l.length) d ∈ l := by
  have hn : n % l.length < l.length := Nat.mod_lt _ (List.length_pos_iff.2 h)
  have hget : l.getD (n % l.length) d = l[n % l.length] := by
    rw [List.getD_eq_getElem?_getD, List.getElem?_eq_getElem hn, Option.getD_some]
  exact hget ▸ List.getElem_mem hn

/-- Emitting a record leaves every core. -/
@[simp] theorem State.emit_core (s : State) (src : Src) (kind aux : Nat) (cid parent : Word) (payload : List Word)
    (n : Nat) : (s.emit src kind aux cid parent payload).core n = s.core n := by
  obtain ⟨⟨em, hb, h⟩, -⟩ := emit_recorder s src kind aux cid parent payload
  rw [h]; rfl

@[simp] theorem State.emitBank_core (s : State) (core bank step n : Nat) : (s.emitBank core bank step).core n = s.core n :=
  s.emit_core ..

/-! ## Admission (R281) -/

theorem State.mayAdmit_looksAt {s : State} {l : Launch} (h : s.mayAdmit l = true) : s.looksAt l = true := by
  simp only [State.mayAdmit, Bool.and_eq_true] at h
  obtain ⟨⟨hlooks, -⟩, -⟩ := h
  exact hlooks

/-- A launch that finds no space shows its wait before any team gives way. -/
theorem State.admitLater_of_waits {s t : State} {l : Launch} {e : WaitEntry} (way : Bool)
    (h : s.launchWaits l e = some t) : s.admitLater l e way = .next t := by
  simp only [State.admitLater, h]

theorem State.admitLater_of_makeWay {s t : State} {l : Launch} {e : WaitEntry} (hw : s.launchWaits l e = none)
    (h : s.makeWay l = some t) : s.admitLater l e true = .next t := by
  simp only [State.admitLater, hw, if_true, h]

section

variable {s : State} {id a : Nat} {l : Launch} (hl : s.launches.find? (·.id == id) = some l) (hm : s.mayAdmit l = true)
  (hlease : (s.ctx l.ctx).leasesAwaited l.kernel = []) (hedge : s.edgeAwaited l = none) (hf : s.frameFor l = some a)
include hl hm hlease hedge hf

/-- With leases, edges and a frame but no place, a launch waits, or teams give way. -/
theorem execTeamAdmit_no_place (hp : s.places l.ctx l.kernel = []) :
    execTeamAdmit id s = s.admitLater l l.admissionWait true := by
  simp [execTeamAdmit, hl, s.mayAdmit_looksAt hm, hm, hlease, hedge, hf, hp]

/-- With all of them and a place, it is placed at one of the places. -/
theorem execTeamAdmit_placed (hp : s.places l.ctx l.kernel ≠ []) :
    ∃ c ∈ s.places l.ctx l.kernel,
      execTeamAdmit id s = .next (((s.draw.2.endLaunchWait l).placeTeam l c a none).launchStarted l) :=
  ⟨_, getD_mod_length_mem hp s.draw.1 0, by simp [execTeamAdmit, hl, s.mayAdmit_looksAt hm, hm, hlease, hedge, hf]⟩

end

/-! ## Start, drain, save, restore (R49, R325, R326, R331) -/

section

variable {s : State} {k : TKey} {t : Team} (ht : s.team? k = some t)
include ht

theorem execTeamStart_of_starting (h : t.phase = .starting) :
    execTeamStart k s = .next (((t.cores.foldl State.flashInvalidate s).emitTeam t 0x02A).modTeam k fun t =>
      { t with phase := .running, since := s.clock }) := by
  simp [execTeamStart, ht, h]

theorem execDrainExpiry_of_due (h : t.phase = .draining) (hd : t.drainFrom + (s.drainTime t).getD 0 ≤ s.clock) :
    execDrainExpiry k s = .next (s.beginSave t t.forced) := by
  simp [execDrainExpiry, ht, h, hd]

/-- The first team of its context that waits to come back takes one of the places (R60, R331). -/
theorem execTeamRestore_placed (h : t.phase = .saved) (hfirst : s.comeback k.ctx = some k) (hserve : s.serving = true)
    (hlive : (s.ctx k.ctx).lost = false) (hset : (s.ctx k.ctx).resetting = false)
    (hwrote : ∀ u ∈ s.cores, ∀ b ∈ u.wbs, b.owner ≠ k) (hroom : s.fqRoom k.ctx = true)
    (hp : s.places k.ctx t.kernel ≠ []) :
    ∃ c ∈ s.places k.ctx t.kernel, execTeamRestore k s = .next (s.draw.2.restoreTeam t c) := by
  have hlanded : (s.cores.any fun u => u.wbs.any (·.owner == k)) = false := by simpa using hwrote
  exact ⟨_, getD_mod_length_mem hp s.draw.1 0, by
    simp [execTeamRestore, ht, h, hfirst, hserve, hlive, hset, hlanded, hroom]⟩

/-- Moving a team's pool takes each word as a load reads it, and no parity row of it stays stale (R183). -/
theorem execPoolCompactorMove_of_team :
    execPoolCompactorMove k s = .next ((t.cores.foldl (fun s n => s.modCore n fun c =>
      { c with parity := c.parity.filter fun p => p.key != k }) (s.readPool t).2).modTeam k fun u =>
        { u with sp := (s.readPool t).1.sp, reliefBad := [] }) := by
  simp only [execPoolCompactorMove, ht]

section

variable (h : t.phase = .saving) (htrip : ∀ w ∈ t.warps, w.live = true → w.inTrip = false) (hunits : s.unitsBusy t = false)
  (hparity : ∀ c ∈ t.cores, ∀ p ∈ (s.core c).parity, p.key ≠ k)
include h htrip hunits hparity

/-- Once the warps and units of a saving team are at rest its copies come first, then what is under way, then its
pending records. -/
theorem execTeamSave_stopped : execTeamSave k s =
    if s.copiesOf t ≠ [] then .next (s.stopCopies t fun _ => true)
    else if s.quarantine.any (fun q => q.key == k && !q.written) ||
        s.ops.any (fun o => o.key.team == k && !o.dropped && o.busy) then .refused (.eventNotPending "TEAM_SAVE")
    else if s.pendingBytes t > 65536 then
      (if t.forced then .refused (.eventNotPending "TEAM_SAVE") else .next (s.withdrawSave t))
    else .next (s.finishSave t) := by
  have hrest : (t.warps.any fun w => w.live && w.inTrip) = false := by simpa using htrip
  have hfresh : (t.cores.any fun c => (s.core c).parity.any (·.key == k)) = false := by simpa using hparity
  simp [execTeamSave, ht, h, hrest, hunits, hfresh]

theorem execTeamSave_copies (hc : s.copiesOf t ≠ []) : execTeamSave k s = .next (s.stopCopies t fun _ => true) :=
  (execTeamSave_stopped ht h htrip hunits hparity).trans (if_pos hc)

/-- With no copy, held byte or request under way, its pending records decide (R323, R326). -/
theorem execTeamSave_at_rest (hc : s.copiesOf t = []) (hq : ∀ q ∈ s.quarantine, q.key = k → q.written = true)
    (ho : ∀ o ∈ s.ops, o.key.team = k → o.dropped = false → o.busy = false) :
    execTeamSave k s = if s.pendingBytes t > 65536 then
        (if t.forced then .refused (.eventNotPending "TEAM_SAVE") else .next (s.withdrawSave t))
      else .next (s.finishSave t) := by
  have hheld : (s.quarantine.any fun q => q.key == k && !q.written) = false := by simpa using hq
  have hasked : (s.ops.any fun o => o.key.team == k && !o.dropped && o.busy) = false := by simpa using ho
  simp [execTeamSave_stopped ht h htrip hunits hparity, hc, hheld, hasked]

end

end

/-! ## Banks of the pool (R176, R178) -/

section

variable {s : State} {core bank : Nat} (hb : bank < 32) (hr : (s.core core).retired = false)
  (hg : (s.core core).gret.getLsbD (bank / 8) = false)
include hb hr hg

/-- The first bank of a group degrades the group. -/
theorem execBankRetire_first (hd : (s.core core).degr.getLsbD (bank / 8) = false) :
    execBankRetire core bank s = .next ((s.emitBank core bank 0).modCore core fun c =>
      { c with parity := [], degr := c.degr ||| (1#4 <<< (bank / 8)), rbank := c.rbank.set (bank / 8) (bank % 8) }) := by
  simp [execBankRetire, hb, hr, hg, hd]

/-- A second bank of a group removes it, once the core holds no team. -/
theorem execBankRetire_second (hd : (s.core core).degr.getLsbD (bank / 8) = true)
    (hn : (s.core core).rbank.getD (bank / 8) 0 ≠ bank % 8) (ht : s.teamsOn core [] = []) :
    execBankRetire core bank s = .next (s.removeGroup core bank) := by
  have hother : ((s.core core).rbank.getD (bank / 8) 0 == bank % 8) = false := by simpa using hn
  simp only [execBankRetire, hr, hg, hd, hother, ht]
  simp [hb]

end

/-- A core that has lost no group loses the bank's group; no bank of it is on its way out then. -/
theorem State.removeGroup_core_of_whole {s : State} {core : Nat} (bank : Nat) (h : (s.core core).gret = 0) :
    (s.removeGroup core bank).core core =
      { s.core core with gret := (s.core core).gret ||| (1#4 <<< (bank / 8)), retiring := none, num := core } := by
  simp only [State.removeGroup, if_pos h, State.modCore_core_same, State.emitBank_core]

/-- A core that has lost a group already is retired. -/
theorem State.removeGroup_core_of_lost {s : State} {core : Nat} (bank : Nat) (h : (s.core core).gret ≠ 0) :
    (s.removeGroup core bank).core core = { s.core core with retired := true, retiring := none, num := core } := by
  simp only [State.removeGroup, if_neg h, State.modCore_core_same, State.emit_core]

/-- Settles O45: every clause is the answer of its event when the event is due. -/
theorem teamsAdmittedSavedRestored : Obligations.TeamsAdmittedSavedRestored := by
  intro s
  refine ⟨fun id l hl hm hlease hedge a hf => ⟨fun hp => ?placed, fun hp t hw => ?waits, fun hp hw t hway => ?way⟩,
    fun k t ht => ⟨fun h => ?start, fun h hd => ?drain,
      fun h htrip hunits hparity => ⟨fun hc => ?copies, fun hc hq ho => ⟨fun hfit => ?save, fun hbig hforced => ?withdraw⟩⟩,
      fun h hfirst hserve hlive hset hwrote hroom hp => ?restore, ?move⟩,
    fun core bank hb hr hg => ⟨fun hd => ?first, fun hd hn hnone => ?second⟩, fun core bank => ?group⟩
  case placed => exact execTeamAdmit_placed hl hm hlease hedge hf hp
  case waits => exact (execTeamAdmit_no_place hl hm hlease hedge hf hp).trans (State.admitLater_of_waits _ hw)
  case way => exact (execTeamAdmit_no_place hl hm hlease hedge hf hp).trans (State.admitLater_of_makeWay hw hway)
  case start => exact execTeamStart_of_starting ht h
  case drain => exact execDrainExpiry_of_due ht h hd
  case copies => exact execTeamSave_copies ht h htrip hunits hparity hc
  case save =>
    exact (execTeamSave_at_rest ht h htrip hunits hparity hc hq ho).trans (if_neg (Nat.not_lt.2 hfit))
  case withdraw =>
    exact (execTeamSave_at_rest ht h htrip hunits hparity hc hq ho).trans ((if_pos hbig).trans (by simp [hforced]))
  case restore => exact execTeamRestore_placed ht h hfirst hserve hlive hset hwrote hroom hp
  case move => exact execPoolCompactorMove_of_team ht
  case first => exact execBankRetire_first hb hr hg hd
  case second => exact execBankRetire_second hb hr hg hd hn hnone
  case group =>
    intro c d
    by_cases h : c.gret = 0
    · have hd : d = _ := State.removeGroup_core_of_whole bank h
      rw [hd]
      exact ⟨rfl, fun _ => ⟨rfl, rfl⟩, fun hn => absurd h hn⟩
    · have hd : d = _ := State.removeGroup_core_of_lost bank h
      rw [hd]
      exact ⟨rfl, fun h0 => absurd h0 h, fun _ => ⟨rfl, rfl⟩⟩

end Sys2Proof.Machine
end

section
/-!
SUPPORT. The control instructions that branch on lane data, keep the mask stack and the loops (R67 to R73), and the
back edge of a loop level.
-/

namespace Sys2Proof.Machine

/-! ## From an effect to what a ready instruction does -/

section

variable {e : Env} {i : Instr} {g : Sig} {t : State} {f : Env → Act} {code lane aux : Nat} {addr : Word}

theorem Env.traps_of_runSeq (hx : ∀ s, exec i s = runSeq i s f) (hf : f e = e.trap code lane addr aux) :
    e.Traps i g code lane addr aux := fun hr => by rw [hx, runSeq_trap hr hf]

theorem Env.traps_of_runRaw (hx : ∀ s, exec i s = runRaw i s f) (hf : f e = e.trap code lane addr aux) :
    e.Traps i g code lane addr aux := fun hr => by rw [hx, runRaw_trap hr hf]

theorem Env.doesRaw_of_runRaw (hx : ∀ s, exec i s = runRaw i s f) (hf : f e = .next t) : e.DoesRaw i g t :=
  fun hr => by rw [hx, runRaw_next hr hf]

theorem Env.enters_of_runSeq (hx : ∀ s, exec i s = runSeq i s f) (hf : f e = .enter t) : e.Enters i g t :=
  fun hr => by rw [hx, runSeq_enter hr hf]

theorem Env.enters_of_runRaw (hx : ∀ s, exec i s = runRaw i s f) (hf : f e = .enter t) : e.Enters i g t :=
  fun hr => by rw [hx, runRaw_enter hr hf]

theorem Env.holds_of_runRaw (hx : ∀ s, exec i s = runRaw i s f) (hf : f e = .wait t) : e.Holds i g t :=
  fun hr => by rw [hx, runRaw_wait hr hf]

end

/-! ## Lanes of a mask -/

theorem Mask.ne_zero_iff (m : Mask) : m ≠ 0 ↔ ∃ l < 64, m.has l = true := by
  rw [Ne, BitVec.eq_of_getLsbD_eq_iff]
  simp [Mask.has]

theorem Mask.and_not_eq_zero_iff (m q : Mask) : m &&& ~~~q = 0 ↔ ∀ l < 64, m.has l = true → q.has l = true := by
  rw [BitVec.eq_of_getLsbD_eq_iff]
  refine forall₂_congr fun l hl => ?_
  cases hm : m.getLsbD l <;> simp [Mask.has, hm, hl]

/-- The bit of a lane in a predicate operand: its predicate's, inverted by PN (R67). -/
theorem Env.pred_has (e : Env) (n : BitVec 4) (pn : Bool) {l : Nat} (hl : l < 64) :
    (e.pred (.p n) pn).has l = ((e.w.preg n).has l != pn) := by
  cases pn <;> simp [Env.pred, Mask.has, hl]

/-- Settles O14: the predicate's lanes that are active, and that the condition leaves out, as facts about bits. -/
theorem banyAndBall : Obligations.BanyAndBall := by
  intro g e o n ha q active target goes
  have hq {l : Nat} (hl : l < 64) : (e.pred o.a (o.mod.getLsbD 0)).has l = q l := ha ▸ e.pred_has n _ hl
  have hgoes {i : Instr} {f : Env → Act} {taken : Bool} {P : Prop} (hP : taken = true ↔ P)
      (hx : ∀ s, exec i s = runRaw i s f) (hf : f e = e.branchIf taken o.imm) : goes i P := by
    obtain ⟨htaken, hfall⟩ := Env.branches_of_branchIf (g := g) hP hx hf
    refine ⟨fun hp hin u hu => ?_, hfall, fun hg hc ht hw hcheck hmask => ?_⟩
    · obtain ⟨-, -, hjump⟩ := htaken hp
      exact hjump hin u hu
    · obtain ⟨-, -, -, hskip⟩ := exec_of_gate (runs_of_sig hg) hg hc ht hw
      exact hskip (gate_of_guard_off (e := ⟨e.s, e.k, e.t, e.w, 0⟩) hcheck hmask)
  refine ⟨hgoes ?bany (exec_bany · o) rfl, hgoes ?ball (exec_ball · o) rfl⟩
  case bany =>
    rw [bne_iff_ne, Mask.ne_zero_iff]
    refine exists_congr fun l => and_congr_right fun hl => ?_
    rw [← hq hl]
    simp [active, Mask.has]
  case ball =>
    rw [Bool.and_eq_true, bne_iff_ne, beq_iff_eq, Mask.ne_zero_iff, Mask.and_not_eq_zero_iff]
    exact and_congr_right fun _ => forall₂_congr fun l hl => by rw [hq hl]

/-! ## The mask stack and the loops -/

/-- A ready instruction opens a level of `len` instructions for `count` passes, or traps (R71). -/
def Env.Opens (e : Env) (i : Instr) (g : Sig) (len : Nat) (count : Word) : Prop :=
  let fin := e.w.pc + BitVec.ofNat 64 (12 * len)
  let inside := decide (e.w.pc.toNat + 12 * len < e.t.kernel.codeBase + e.t.kernel.codeSize)
  let nests := e.w.loops.length < 3 ∧ ∀ lv, e.w.loops.head? = some lv → lv.fin.ult fin = false
  (256 < len → e.Traps i g 0x09) ∧
  (len ≤ 256 → inside = false → e.Traps i g 0x05) ∧
  (len ≤ 256 → inside = true → ¬ nests → e.Traps i g 0x09) ∧
  (len ≤ 256 → inside = true → nests → count = 0 → e.DoesRaw i g (e.setWarp { e.w with pc := fin + 12 })) ∧
  (len ≤ 256 → inside = true → nests → count ≠ 0 → e.DoesRaw i g (e.setWarp { e.w with
    loops := ⟨e.w.pc + 12, fin, e.w.stack.length, 0, 0⟩ :: e.w.loops, lc := e.w.lc.set e.w.loops.length count
    loopBuf := if e.w.loops = [] then [] else e.w.loopBuf
    badLoop := if e.w.loops = [] then [] else e.w.badLoop
    pc := e.w.pc + 12 }))

/-- Opening a level, check by check (R71). -/
theorem Env.openLoop_eq (e : Env) (len : Nat) (count : Word) : e.openLoop len count =
    let fin := e.w.pc + BitVec.ofNat 64 (12 * len)
    if 256 < len then e.trap 0x09
    else if e.t.kernel.codeBase + e.t.kernel.codeSize ≤ e.w.pc.toNat + 12 * len then e.trap 0x05
    else if decide (3 ≤ e.w.loops.length) || e.w.loops.head?.any (·.fin.ult fin) then e.trap 0x09
    else if count = 0 then .next (e.setWarp { e.w with pc := fin + 12 })
    else .next (e.setWarp { e.w with
      loops := ⟨e.w.pc + 12, fin, e.w.stack.length, 0, 0⟩ :: e.w.loops, lc := e.w.lc.set e.w.loops.length count
      loopBuf := if e.w.loops = [] then [] else e.w.loopBuf
      badLoop := if e.w.loops = [] then [] else e.w.badLoop
      pc := e.w.pc + 12 }) := by
  unfold Env.openLoop
  cases hl : e.w.loops <;> simp

theorem Env.opens_of_openLoop {e : Env} {i : Instr} {g : Sig} {f : Env → Act} {len : Nat} {count : Word}
    (hx : ∀ s, exec i s = runRaw i s f) (hf : f e = e.openLoop len count) : e.Opens i g len count := by
  rw [Env.openLoop_eq] at hf
  unfold Env.Opens
  intro fin inside nests
  have hin : inside = true ↔ ¬ e.t.kernel.codeBase + e.t.kernel.codeSize ≤ e.w.pc.toNat + 12 * len := by simp [inside]
  have hnest : (decide (3 ≤ e.w.loops.length) || e.w.loops.head?.any (·.fin.ult fin)) = true ↔ ¬ nests := by
    cases hl : e.w.loops <;> simp [nests, hl, Decidable.imp_iff_not_or]
  refine ⟨fun hlen => traps_of_runRaw hx (hf.trans ?long), fun hlen hout => traps_of_runRaw hx (hf.trans ?outside),
    fun hlen h hn => traps_of_runRaw hx (hf.trans ?full), fun hlen h hn h0 => doesRaw_of_runRaw hx (hf.trans ?skip),
    fun hlen h hn h0 => doesRaw_of_runRaw hx (hf.trans ?opened)⟩
  case long => exact if_pos hlen
  all_goals refine (if_neg (Nat.not_lt.2 hlen)).trans ?_
  case outside => exact if_pos (Decidable.not_not.1 (mt hin.2 (by simp [hout])))
  all_goals refine (if_neg (hin.1 h)).trans ?_
  case full => exact if_pos (hnest.2 hn)
  all_goals refine (if_neg (mt hnest.1 (not_not_intro hn))).trans ?_
  case skip => exact if_pos h0
  case opened => exact if_neg h0

/-- A ready `vbrk` or `vcont` takes the lanes of its predicate out of the active mask and of the entries that the
innermost level has pushed; `lv'` is that level with the lanes it then holds (R73). -/
theorem Env.leaveLoop_cons {e : Env} {lv : LoopLevel} {outer : List LoopLevel} (h : e.w.loops = lv :: outer) (p : Operand)
    (pn cont : Bool) : e.leaveLoop p pn cont =
      let out := e.pred p pn &&& e.w.mask
      let inner := e.w.stack.length - lv.sdepth
      .next (e.setWarp { e.w with
        mask := e.w.mask &&& ~~~out
        stack := (e.w.stack.take inner).map (fun x => { x with save := x.save &&& ~~~out, alt := x.alt &&& ~~~out }) ++
          e.w.stack.drop inner
        loops := (if cont then { lv with cont := lv.cont ||| out } else { lv with brk := lv.brk ||| out }) :: outer }) := by
  simp only [Env.leaveLoop, h]

/-- Settles O27: each instruction by the checks of its own, in their order. -/
theorem maskStackAndLoopResults : Obligations.MaskStackAndLoopResults := by
  intro g e o q depth set
  refine ⟨fun h => ?vifFull, fun h => ?vif, fun h => ⟨?velseEmpty, ?vendEmpty⟩,
    fun x rest hs hd => ⟨fun hx => ?velseTwice, fun hx => ?velse, ?vend⟩, ⟨?loop, ?loopx⟩,
    fun h => ⟨?vbrkNone, ?vcontNone, ?lbrkNone⟩, fun lv outer h => ⟨?vbrk, ?vcont, fun hd => ?lbrkDeep, fun hd => ?lbrk⟩⟩
  case vifFull => exact Env.traps_of_runSeq (exec_vif · o) (if_pos h)
  case vif => exact Env.does_of_runSeq (exec_vif · o) (if_neg h)
  case velseEmpty =>
    refine Env.traps_of_runSeq (exec_velse · o) ?_
    split
    · rfl
    · exact if_pos (.inl h)
  case vendEmpty =>
    refine Env.traps_of_runSeq (exec_vend · o) ?_
    split
    · rfl
    · exact if_pos h
  case velseTwice => exact Env.traps_of_runSeq (exec_velse · o) (by simp [hs, hx])
  case velse =>
    refine Env.does_of_runSeq (exec_velse · o) ?_
    simp only [hs]
    rw [← hs, if_neg (by simpa [hx] using hd)]
    rfl
  case vend =>
    refine Env.does_of_runSeq (exec_vend · o) ?_
    simp only [hs]
    rw [← hs, if_neg (Nat.not_le.2 hd)]
    rfl
  case loop => exact Env.opens_of_openLoop (exec_loop · o) rfl
  case loopx => exact Env.opens_of_openLoop (exec_loopx · o) rfl
  case vbrkNone => exact Env.traps_of_runSeq (exec_vbrk · o) (by simp only [Env.leaveLoop, h])
  case vcontNone => exact Env.traps_of_runSeq (exec_vcont · o) (by simp only [Env.leaveLoop, h])
  case lbrkNone => exact Env.traps_of_runRaw (exec_lbrk · o) (by simp only [h])
  case vbrk => exact Env.does_of_runSeq (exec_vbrk · o) (Env.leaveLoop_cons h ..)
  case vcont => exact Env.does_of_runSeq (exec_vcont · o) (Env.leaveLoop_cons h ..)
  case lbrkDeep => exact Env.traps_of_runRaw (exec_lbrk · o) (by simp only [h]; exact if_pos hd)
  case lbrk => exact Env.doesRaw_of_runRaw (exec_lbrk · o) (by simp only [h]; exact if_neg (not_not_intro hd))

/-! ## The back edge -/

section

variable {w : Warp} {lv : LoopLevel} {outer : List LoopLevel} (hl : w.loops = lv :: outer)
include hl

theorem Warp.atEnd_of_fin (hf : lv.fin = w.pc) : w.atEnd = true := by simp [Warp.atEnd, hl, hf]

/-- A mask stack that is not at the level's depth is the trap, with no level closed. -/
theorem Warp.backEdge_open_entry (hd : w.stack.length ≠ lv.sdepth) (n : Nat) : w.backEdge (n + 1) = .error w := by
  simp [Warp.backEdge, hl, hd]

variable (hd : w.stack.length = lv.sdepth)
include hd

/-- Another pass: the level goes back to its start. -/
theorem Warp.backEdge_repeats (hn : w.lc.getD outer.length 0 - 1 ≠ 0) (ha : w.mask ||| lv.cont ≠ 0) (n : Nat) :
    w.backEdge (n + 1) = .ok { w with
      mask := w.mask ||| lv.cont, lc := w.lc.set outer.length (w.lc.getD outer.length 0 - 1)
      loops := { lv with cont := 0 } :: outer, pc := lv.start } := by
  simp only [Warp.backEdge, hl, hd, ne_eq, not_true_eq_false, if_false]
  exact if_pos ⟨hn, ha⟩

/-- The last pass: the level closes, and no outer one ends with it. -/
theorem Warp.backEdge_closes (hn : w.lc.getD outer.length 0 - 1 = 0 ∨ w.mask ||| lv.cont = 0)
    (ho : ∀ x, outer.head? = some x → x.fin ≠ lv.fin) (n : Nat) :
    w.backEdge (n + 1) = .ok { w with
      mask := w.mask ||| lv.cont ||| lv.brk, lc := w.lc.set outer.length (w.lc.getD outer.length 0 - 1)
      loops := outer, pc := lv.fin + 12 } := by
  simp only [Warp.backEdge, hl, hd, ne_eq, not_true_eq_false, if_false]
  rw [if_neg fun ⟨hmore, hlane⟩ => hn.elim hmore hlane]
  cases outer with
  | nil => rfl
  | cons x _ => exact if_neg (ho x rfl)

end

section

variable {s : State} {k : WKey} {w u : Warp} (hw : s.warp? k = some w)
include hw

theorem State.advance_atEnd (h : w.atEnd = true) : s.advance k = s.doBackEdge k := by simp [State.advance, hw, h]

theorem State.doBackEdge_ok (h : w.backEdge 3 = .ok u) : s.doBackEdge k = s.modWarp k (·.edged u false) := by
  simp [State.doBackEdge, hw, h]

theorem State.doBackEdge_error (h : w.backEdge 3 = .error u) :
    s.doBackEdge k = (s.modWarp k (·.edged u true)).takeFault k (w.faultAt 0x08) := by
  simp [State.doBackEdge, hw, h]

end

/-- Settles O28: the PC rises where no level ends, and a level that ends repeats, closes or traps. -/
theorem backEdge : Obligations.BackEdge := by
  intro s k w hw
  have hedge {lv outer} (hl : w.loops = lv :: outer) (hf : lv.fin = w.pc) : s.advance k = s.doBackEdge k :=
    State.advance_atEnd hw (Warp.atEnd_of_fin hl hf)
  refine ⟨s.advance_next k w hw, fun lv outer hl hf hd => ⟨fun hn ha => ?repeats, fun hn ho => ?closes⟩,
    fun lv outer hl hf hd => ?opened⟩
  case repeats => exact (hedge hl hf).trans (State.doBackEdge_ok hw (Warp.backEdge_repeats hl hd hn ha 2))
  case closes => exact (hedge hl hf).trans (State.doBackEdge_ok hw (Warp.backEdge_closes hl hd hn ho 2))
  case opened => exact (hedge hl hf).trans (State.doBackEdge_error hw (Warp.backEdge_open_entry hl hd 2))

end Sys2Proof.Machine
end

section
/-!
SUPPORT. Waits, barriers and halts of the issuing warp, and the events that end a wait.
-/

namespace Sys2Proof.Machine

/-! ## Waits, barriers and halts of the issuing warp -/

/-- A wait whose counters are low enough covers the operations of its paths and goes on. -/
theorem Env.waitCounters_low {e : Env} {l : List (Path × Nat)} (h : ∀ x ∈ l, e.w.counter x.1 ≤ x.2) :
    e.waitCounters l = .next (e.s.modWarp e.k fun w => l.foldl (fun w x => w.joinWait x.1 x.2) w) := by
  have hnone : l.find? (fun x => decide (x.2 < e.w.counter x.1)) = none := by
    simpa [List.find?_eq_none] using h
  simp only [Env.waitCounters, hnone]

/-- An instruction that halts its team, with room for the record, takes its trap and leaves the PC after it. -/
theorem Env.stopHere_of_room {e : Env} (h : e.s.fqRoom e.k.ctx = true) (code aux : Nat) :
    e.stopHere code aux =
      .wait ((e.s.trapped e.k (e.w.faultAt code 255 0 aux) none).modWarp e.k fun w => { w with pc := e.w.pc + 12 }) :=
  if_pos h

section

variable {e : Env} {s : State} {t : Team} {w : Warp} {b : Nat} (ht : s.team? e.k.team = some t)
  (hw : s.warp? e.k = some w)
include ht hw

theorem Env.waitBarrier_not_pending (h : (w.arrival b).1 = false) : e.waitBarrier s b = .next s := by
  simp [Env.waitBarrier, ht, hw, h]

variable (h : (w.arrival b).1 = true)
include h

theorem Env.waitBarrier_moved_on (hp : (t.barrier b).phase ≠ (w.arrival b).2) :
    e.waitBarrier s b = .next (s.leaveBarrier e.k b) := by simp [Env.waitBarrier, ht, hw, h, hp]

theorem Env.waitBarrier_waits (hp : (t.barrier b).phase = (w.arrival b).2) :
    e.waitBarrier s b = .enter (s.enterWait e.k (.barWait b) (t.barrierWait b)) := by
  simp [Env.waitBarrier, ht, hw, h, hp]

end

/-- Settles O29: each instruction by its own checks; `bar` and `barw` share the wait for the phase. -/
theorem warpControlResults : Obligations.WarpControlResults := by
  intro g e o
  refine ⟨?nop, ?yield, ⟨fun h => ?sleepNone, fun h => ?sleep⟩, ?exit, fun hld hst hcp hmx => ?waitc, fun h => ?waitp,
    ⟨fun h => ⟨?baraPending, ?barPending⟩, fun h => ?bara, fun h t ht => ?barGoesOn, fun h t ht => ?barWaits,
      fun h hr => ?barwNone, fun h hp hr => ?barwGoesOn, fun h hp hr => ?barwWaits⟩,
    fun hroom => ⟨?trap, ?bkpt, fun ha => ?dbgh⟩, fun ha => ?dbghNop⟩
  case nop => exact Env.does_of_runSeq (exec_nop · o) rfl
  case yield => exact Env.does_of_runSeq (exec_yield · o) rfl
  case sleepNone => exact Env.doesRaw_of_runRaw (exec_sleep · o) (if_pos h)
  case sleep => exact Env.enters_of_runRaw (exec_sleep · o) (if_neg h)
  case exit => exact Env.enters_of_runRaw (exec_exit · o) rfl
  case waitc => exact Env.does_of_runSeq (exec_waitc · o) (Env.waitCounters_low (by simpa using ⟨hld, hst, hcp, hmx⟩))
  case waitp => exact Env.does_of_runSeq (exec_waitp · o) (Env.waitCounters_low (by simpa using h))
  case baraPending => exact Env.traps_of_runSeq (exec_bara · o) (if_pos h)
  case barPending => exact Env.traps_of_runSeq (exec_bar · o) (if_pos h)
  case bara => exact Env.does_of_runSeq (exec_bara · o) (if_neg (by simp [h]))
  case barGoesOn => exact Env.does_of_runSeq (exec_bar · o) ((if_neg (by simp [h])).trans ht)
  case barWaits => exact Env.enters_of_runSeq (exec_bar · o) ((if_neg (by simp [h])).trans ht)
  case barwNone => exact Env.does_of_runSeq (exec_barw · o) (Env.waitBarrier_not_pending hr.team hr.warp h) hr
  case barwGoesOn => exact Env.does_of_runSeq (exec_barw · o) (Env.waitBarrier_moved_on hr.team hr.warp h hp) hr
  case barwWaits => exact Env.enters_of_runSeq (exec_barw · o) (Env.waitBarrier_waits hr.team hr.warp h hp) hr
  case trap => exact Env.holds_of_runRaw (exec_trap · o) (Env.stopHere_of_room hroom ..)
  case bkpt => exact Env.holds_of_runRaw (exec_bkpt · o) (Env.stopHere_of_room hroom ..)
  case dbgh => exact Env.holds_of_runRaw (exec_dbgh · o) ((if_pos ha).trans (Env.stopHere_of_room hroom ..))
  case dbghNop => exact Env.doesRaw_of_runRaw (exec_dbgh · o) (if_neg (by simp [ha]))

/-! ## Waits that end -/

section

variable {s : State} {k : WKey} {t : Team} {w : Warp} (ht : s.team? k.team = some t) (hw : s.warp? k = some w)
include ht hw

theorem execBarrierWake_moved_on {b : Nat} (ha : w.act = .barWait b) (hs : t.still w = false) (hp : w.parked = false)
    (h : (t.barrier b).phase ≠ (w.arrival b).2) :
    execBarrierWake k s = .next (((s.leaveWait k).leaveBarrier k b).advance k) := by
  simp [execBarrierWake, ht, hw, ha, hs, hp, h]

theorem execSleepExpiry_run_out (ha : w.act = .sleep) (hs : t.still w = false) (h : s.sleepRemain w = 0) :
    execSleepExpiry k s = .next ((s.modWarp k fun w => { w with sleepLeft := 0 }).leaveWait k) := by
  simp [execSleepExpiry, ht, hw, ha, hs, h]

theorem execBatonHandoff_takes {arr : Bool} (ha : w.act = .bton arr) (hs : t.still w = false)
    (h : t.mayTake w arr = true) : execBatonHandoff k s =
      .next (((s.setBaton k (t.batonIdx w arr) (.held w.num)).leaveWait k).advance k) := by
  simp [execBatonHandoff, ht, hw, ha, hs, h]

theorem execSigwaitReread_reads {o : Ops (BitVec 16)} (ha : w.act = .sigWait o) (hs : t.still w = false)
    (hp : w.parked = false) (h : s.fqRoom k.ctx = true) :
    execSigwaitReread k s = .next (Env.reread ⟨s, k, t, w, 0⟩ o) := by
  simp [execSigwaitReread, ht, hw, ha, hs, hp, h]

theorem execScopeReply_trip {r : ScopeReply} (ha : w.act = .scopeTrip r) (hv : s.serving = true) :
    execScopeReply k s = .next (((s.modWarp k fun w => w.reply t.kernel.width r).leaveWait k).advance k) := by
  simp [execScopeReply, ht, hw, ha, hv]

theorem execScopeReply_scope_done {d : Operand} {h : Word} {x : ScopeEntry} (ha : w.act = .scopeWait d h)
    (hv : s.serving = true) (hs : t.still w = false) (hx : (s.ctx k.ctx).scope? h = some x) (hd : x.done = true) :
    execScopeReply k s = .next ((((((s.modWarp k fun w => w.setS d x.waitWord).freeScope k.ctx h).leaveWait k).acquire
      w.core t.kernel.paired .dv)).advance k) := by
  simp [execScopeReply, ht, hw, ha, hv, hs, hx, hd]

section

variable {v : Nat} {named : List Nat} (hr : w.reloading = some (v, named))
include hr

theorem execRegReload_resident (h : (w.vreg v).spilled = false) :
    execRegReload k v s = .next (s.modWarp k fun w => { w with reloading := none }) := by
  simp [execRegReload, ht, hw, hr, h]

/-- A reload takes a row, reads the slot and counts (R97, R99). -/
theorem execRegReload_spilled (h : (w.vreg v).spilled = true) {row : Nat} {s0 : State}
    (hrow : s.takeRow k t.kernel.g named = some (row, s0)) :
    let x := s0.readSlot k v ((s0.warp? k).getD w |>.vreg v)
    let s2 := x.2.emit (w.src 1) 0x022 (auxCtx k.ctx) w.cause t.cause (regEventPayload w.serial v (w.vreg v).rank)
    execRegReload k v s = .next (s2.modWarp k fun w =>
      { (w.setV v { x.1 with spilled := false, row := row, dirty := false }) with
        reloads := satAdd 32 w.reloads 1, reloading := none, served := v :: w.served }) := by
  simp [execRegReload, ht, hw, hr, h, hrow]

end

end

section

variable {s : State} {k : WKey} {w : Warp} (hw : s.warp? k = some w)
include hw

theorem execEmitRecordArrival_trip {fid : Nat} {l : List Record} (ha : w.act = .emitTrip fid l) :
    execEmitRecordArrival k s = .next (((s.arriveRecords k.ctx fid l).leaveWait k).advance k) := by
  simp [execEmitRecordArrival, hw, ha]

theorem execIcinvAcknowledge_trip {ia n : Nat} (ha : w.act = .icinv ia n) :
    execIcinvAcknowledge k s = .next (((s.dropCode ia n).leaveWait k).advance k) := by
  simp [execIcinvAcknowledge, hw, ha]

end

/-- Settles O43: every event is due when its clause holds, and answers the state that the clause gives. -/
theorem waitsEnd : Obligations.WaitsEnd := by
  intro s k t w ht hw goesOn
  refine ⟨fun b ha hs hp h => ?barrier, fun ha hs h => ?sleep, fun arr ha hs h => ?baton, fun o ha hs hp h => ?signal,
    fun r ha hv => ?reply, fun d h x ha hv hs hx hd => ?scope, fun fid l ha => ?records, fun ia n ha => ?code,
    fun v named hr => ⟨fun h => ?resident, fun h row s0 hrow => ?reload⟩⟩
  case barrier => exact execBarrierWake_moved_on ht hw ha hs hp h
  case sleep => exact execSleepExpiry_run_out ht hw ha hs h
  case baton => exact execBatonHandoff_takes ht hw ha hs h
  case signal => exact execSigwaitReread_reads ht hw ha hs hp h
  case reply => exact execScopeReply_trip ht hw ha hv
  case scope => exact execScopeReply_scope_done ht hw ha hv hs hx hd
  case records => exact execEmitRecordArrival_trip hw ha
  case code => exact execIcinvAcknowledge_trip hw ha
  case resident => exact execRegReload_resident ht hw hr h
  case reload => exact execRegReload_spilled ht hw hr h hrow

end Sys2Proof.Machine
end

section
/-!
SUPPORT. The issue of a memory instruction and the operation that it queues.
-/

namespace Sys2Proof.Machine

/-! ## Changes of one warp, one after another -/

theorem updIf_updIf {α : Type} {p : α → Bool} {f : α → α} (h : ∀ x, p x = true → p (f x) = true) (f' : α → α) (l : List α) :
    updIf p f' (updIf p f l) = updIf p (f' ∘ f) l := by
  simp only [updIf, List.map_map]
  refine List.map_congr_left fun x _ => ?_
  by_cases hx : p x = true
  · simp [hx, h x hx]
  · simp [hx]

theorem updIf_id {α : Type} (p : α → Bool) (l : List α) : updIf p id l = l := by simp [updIf]

theorem State.modWarp_modWarp (s : State) (k : WKey) {f : Warp → Warp} (h : ∀ w : Warp, w.num = k.w → (f w).num = k.w)
    (f' : Warp → Warp) : (s.modWarp k f).modWarp k f' = s.modWarp k (f' ∘ f) := by
  have hteam (t : Team) : (t.modWarp k.w f).modWarp k.w f' = t.modWarp k.w (f' ∘ f) := by
    simp only [Team.modWarp]
    rw [updIf_updIf (by simpa using h)]
  simp only [State.modWarp, State.modTeam]
  rw [updIf_updIf (by simp)]
  congr 2
  exact funext hteam

theorem State.modWarp_id (s : State) (k : WKey) : s.modWarp k id = s := by
  have hteam : (fun t : Team => t.modWarp k.w id) = id := funext fun t => by simp [Team.modWarp, updIf_id]
  simp only [State.modWarp, State.modTeam, hteam, updIf_id]

/-! ## Queueing an operation -/

theorem Warp.counter_countUp (w : Warp) (p : Path) (id : Nat) (q : Path) :
    (w.countUp p id).counter q = w.counter q + if p = q then 1 else 0 := by
  cases p <;> cases q <;> simp [Warp.countUp, Warp.setQueue, Warp.counter, Warp.queue]

/-- What queueing the operation numbered `id` does to its warp: its path's counter rises, and an ordered access is
counted and holds later ones where it acquires (R76, R198). -/
def MemForm.count (f : MemForm) (id : Nat) (w : Warp) : Warp :=
  let acq := f.o.mod.ord.acquires && (f.kind.remote || f.o.mod.scope != .wp)
  let w1 := f.kind.path.elim w (w.countUp · id)
  { w1 with
    issuedAcc := if f.kind.ordered then w1.issuedAcc + 1 else w1.issuedAcc
    acquiring := if acq then w1.acquiring ++ [id] else w1.acquiring }

/-- The operation that an instruction queues, with its number (R190). -/
def Env.newOp (e : Env) (i : Instr) (f : MemForm) (s : State) (lanes : List LaneAccess) (through : Bool) : MemOp :=
  { id := s.nextId, key := e.k, core := e.w.core, kind := f.kind, pc := e.w.pc, word := (encode i).getD 0
    cause := e.w.cause, serial := e.w.serial, lanes := lanes, size := f.size, pk := f.o.mod.pk, ty := f.o.mod.ty
    atop := f.o.mod.atop, cache := f.o.mod.cache, ord := f.o.mod.ord, scope := f.o.mod.scope
    sdst := if f.scalar && f.kind.hasResult then (match f.o.d with | .s n => some n.toNat | _ => none) else none
    uniform := e.uniformLoad f.o.d lanes, through := through, seq := e.w.issuedAcc
    after := if f.kind.ordered then s.openRegions e.k e.w.core e.w.regions else []
    nth := e.w.issued + 1 }

/-- Queueing an operation: the next number is taken, the operation is the last, and its warp counts it. -/
theorem Env.queueOp_eq (e : Env) (i : Instr) (f : MemForm) (s : State) (lanes : List LaneAccess) (through : Bool) :
    e.queueOp i f s lanes through =
      ({ s with nextId := s.nextId + 1, ops := s.ops ++ [e.newOp i f s lanes through] }).modWarp e.k (f.count s.nextId) := by
  let s2 : State := { s with nextId := s.nextId + 1, ops := s.ops ++ [e.newOp i f s lanes through] }
  let acq := f.o.mod.ord.acquires && (f.kind.remote || f.o.mod.scope != .wp)
  let s3 : State := match f.kind.path with | some p => s2.modWarp e.k fun w => w.countUp p s.nextId | none => s2
  have hpath : s3 = s2.modWarp e.k fun w => f.kind.path.elim w (w.countUp · s.nextId) := by
    unfold s3
    cases f.kind.path with
    | none => exact (s2.modWarp_id e.k).symm
    | some p => rfl
  have hnum (w : Warp) (h : w.num = e.k.w) : (f.kind.path.elim w (w.countUp · s.nextId)).num = e.k.w := by
    cases f.kind.path with
    | none => exact h
    | some p => cases p <;> exact h
  have hrest : (if f.kind.ordered then s3.countAccess e.k s.nextId acq
      else if acq then s3.holdLater e.k s.nextId else s3) = s3.modWarp e.k fun w =>
        { w with issuedAcc := if f.kind.ordered then w.issuedAcc + 1 else w.issuedAcc
                 acquiring := if acq then w.acquiring ++ [s.nextId] else w.acquiring } := by
    cases f.kind.ordered <;> cases acq
    · exact (s3.modWarp_id e.k).symm
    all_goals rfl
  exact hrest.trans (by rw [hpath, State.modWarp_modWarp _ _ hnum]; rfl)

/-- Counting an operation leaves the registers, masks and PC of its warp. -/
theorem MemForm.count_keeps (f : MemForm) (id : Nat) (w : Warp) :
    (f.count id w).num = w.num ∧ (f.count id w).pc = w.pc ∧ (f.count id w).s = w.s ∧ (f.count id w).p = w.p ∧
      (f.count id w).v = w.v ∧ (f.count id w).x = w.x ∧ (f.count id w).flags = w.flags ∧ (f.count id w).mask = w.mask ∧
      (f.count id w).stack = w.stack := by
  simp only [MemForm.count]
  cases f.kind.path with
  | none => simp
  | some p => cases p <;> simp [Warp.countUp, Warp.setQueue]

theorem MemForm.count_counter (f : MemForm) (id : Nat) (w : Warp) (q : Path) :
    (f.count id w).counter q = w.counter q + if f.kind.path = some q then 1 else 0 := by
  have hkeep (u : Warp) (a : Nat) (l : List Nat) : ({ u with issuedAcc := a, acquiring := l } : Warp).counter q = u.counter q := by
    cases q <;> rfl
  simp only [MemForm.count, hkeep]
  cases f.kind.path with
  | none => simp
  | some p => simp [Warp.counter_countUp]

/-- Settles O35: the number and the list aside, queueing is one change of the issuing warp. -/
theorem queueingRaisesOneCounter : Obligations.QueueingRaisesOneCounter := by
  intro e i f s lanes through w hw t
  have ht : t = _ := e.queueOp_eq i f s lanes through
  have hnum (u : Warp) (h : u.num = e.k.w) : (f.count s.nextId u).num = e.k.w := (f.count_keeps s.nextId u).1.trans h
  rw [ht]
  refine ⟨⟨fun _ => rfl, fun _ => rfl, fun _ => rfl, rfl, rfl, rfl⟩, rfl, ⟨_, rfl, rfl, rfl, rfl, rfl, rfl, rfl⟩,
    ⟨f.count s.nextId w, ?read, f.count_counter s.nextId w, (f.count_keeps s.nextId w).2⟩, fun k' hk => ?other⟩
  case read => exact (State.modWarp_warp? _ _ _ hnum).trans (by rw [Option.map_eq_some_iff]; exact ⟨w, hw, rfl⟩)
  case other => exact State.modWarp_warp?_other _ _ _ _ hk hnum

/-! ## Issuing a memory instruction, check by check -/

/-- The watch slot that an access meets; a tag instruction meets none (R261). -/
def Env.watched (e : Env) (f : MemForm) (lanes : List LaneAccess) : Option LaneAccess :=
  if f.kind = .tagStore ∨ f.kind = .tagLoad then none else e.watchHit f.kind.watchKind f.size lanes

theorem Env.watched_eq (e : Env) (f : MemForm) (lanes : List LaneAccess) :
    (if f.kind == .tagStore || f.kind == .tagLoad then none else e.watchHit f.kind.watchKind f.size lanes) =
      e.watched f lanes := by simp [Env.watched]

/-- The release action that a releasing order asks for is done in `t`: there is none, an RM operation has no earlier
one open, or that of its scope is complete (R198). -/
def Env.Released (e : Env) (f : MemForm) (t : State) : Prop :=
  ((f.o.mod.ord.releases = false ∨ (f.kind.remote = true ∧ e.remoteOpen = false)) ∧ t = e.s) ∨
    (f.o.mod.ord.releases = true ∧ f.kind.remote = false ∧ e.release f.o.mod.scope = .ok t)

theorem find_misaligned_eq_none {l : List LaneAccess} {n : Nat} (h : ∀ a ∈ l, a.va.toNat % n = 0) :
    l.find? (fun a => a.va.toNat % n != 0) = none := by simpa using h

theorem find_host_poison_eq_none {l : List LaneAccess} (h : ∀ a ∈ l, a.poison = true → a.rkind ≠ 3) :
    l.find? (fun a => a.poison && a.rkind == 3) = none := by simpa using h

section

variable {e : Env} {i : Instr} {f : MemForm}
  (hfree : e.pathRoom f.kind = true ∧ (if f.kind.remote then e.remoteHeld else e.heldByAcquire) = false)
include hfree

theorem Env.issueMem_misaligned {a : LaneAccess} (ha : (e.accesses f).find? (fun a => a.va.toNat % f.align != 0) = some a) :
    e.issueMem i f = e.trap 0x06 a.lane a.va := by
  simp [Env.issueMem, hfree, ha]

variable (haligned : ∀ a ∈ e.accesses f, a.va.toNat % f.align = 0)
include haligned

theorem Env.issueMem_refused {c : Nat} {a : LaneAccess} (h : e.checkAll f (e.accesses f) = .error (c, a)) :
    e.issueMem i f = e.trap c a.lane a.va := by
  simp [Env.issueMem, hfree, find_misaligned_eq_none haligned, h]

variable {lanes : List LaneAccess} (hok : e.checkAll f (e.accesses f) = .ok lanes)
include hok

theorem Env.issueMem_poison {a : LaneAccess} (h : lanes.find? (fun a => a.poison && a.rkind == 3) = some a) :
    e.issueMem i f = e.trap 0x19 a.lane := by
  simp [Env.issueMem, hfree, find_misaligned_eq_none haligned, hok, h]

variable (hclean : ∀ a ∈ lanes, a.poison = true → a.rkind ≠ 3)
include hclean

theorem Env.issueMem_watched {a : LaneAccess} (h : e.watched f lanes = some a) :
    e.issueMem i f = e.trap 0x16 a.lane a.va := by
  simp only [Env.issueMem, hfree, find_misaligned_eq_none haligned, hok, find_host_poison_eq_none hclean, Env.watched_eq, h]
  rfl

theorem Env.issueMem_sends (h : e.watched f lanes = none) (hslots : e.slotsFree (requestsOf lanes).length = true)
    {t : State} (ht : e.Released f t) : e.issueMem i f = ({ e with s := t } : Env).sendOp i f lanes := by
  simp only [Env.issueMem, hfree, find_misaligned_eq_none haligned, hok, find_host_poison_eq_none hclean, Env.watched_eq, h, hslots]
  obtain ⟨hnone | ⟨hremote, hopen⟩, rfl⟩ | ⟨hrel, hlocal, hdone⟩ := ht
  · simp [hnone]
  · simp [hremote, hopen]
  · simp [hrel, hlocal, Env.afterRelease, hdone]

end

section

variable {e : Env} {i : Instr} {f : MemForm} {lanes : List LaneAccess}

theorem Env.sendOp_store (h : f.kind = .store) : e.sendOp i f lanes = .next (e.queueOp i f e.s lanes
    (!(f.o.mod.cache == .l1 || f.o.mod.cache == .ev) || (f.o.mod.ord.releases && f.o.mod.scope.wide e.t.kernel.paired) ||
      e.s.isRelayCore e.w.core)) := by
  simp [Env.sendOp, h, OpKind.hasResult]

theorem Env.sendOp_other (h : f.kind ≠ .store) {t : State}
    (ht : (if f.kind.hasResult && !f.scalar then e.prepLoad i e.s f.o.d (e.uniformLoad f.o.d lanes) else some e.s) = some t) :
    e.sendOp i f lanes = .next (e.queueOp i f t lanes false) := by
  simp only [Env.sendOp, ht, beq_eq_false_iff_ne.2 h, Bool.false_and]

end

/-- Settles O34: one argument for the twelve instructions, check by check in the order of `Env.issueMem`. -/
theorem memoryInstructionsIssue : Obligations.MemoryInstructionsIssue := by
  intro g e o issues form
  have hissues {i : Instr} {f : MemForm} (hx : ∀ s, exec i s = runSeq i s fun e => e.issueMem i f) (ho : f.o = o) :
      issues i f := by
    subst ho
    refine ⟨fun hfree a ha => ?misaligned, fun hfree hal c a h => ?refused, fun hfree hal lanes hok =>
      ⟨fun a h => ?poison, fun hclean => ⟨fun a h => ?watched, fun hseen hslots t0 ht0 => ⟨fun h => ?store, fun h t1 ht1 => ?other⟩⟩⟩⟩
    case misaligned => exact Env.traps_of_runSeq hx (Env.issueMem_misaligned hfree ha)
    case refused => exact Env.traps_of_runSeq hx (Env.issueMem_refused hfree hal h)
    case poison => exact Env.traps_of_runSeq hx (Env.issueMem_poison hfree hal hok h)
    case watched => exact Env.traps_of_runSeq hx (Env.issueMem_watched hfree hal hok hclean h)
    all_goals have hsend := Env.issueMem_sends (i := i) hfree hal hok hclean hseen hslots ht0
    case store => exact Env.does_of_runSeq hx (hsend.trans (Env.sendOp_store h))
    case other => exact Env.does_of_runSeq hx (hsend.trans (Env.sendOp_other h ht1))
  exact ⟨hissues (exec_ld · o) rfl, hissues (exec_st · o) rfl, hissues (exec_atom · o) rfl, hissues (exec_red · o) rfl,
    hissues (exec_ldr · o) rfl, hissues (exec_str · o) rfl, hissues (exec_redr · o) rfl, hissues (exec_sld · o) rfl,
    hissues (exec_sst · o) rfl, hissues (exec_satom · o) rfl, hissues (exec_tagst · o) rfl, hissues (exec_tagld · o) rfl⟩

end Sys2Proof.Machine
end

section
/-!
SUPPORT. The invariants at reset, and three states in which a statement about every state fails: two of them hold
two teams of one key, which no hypothesis rules out, the third a kernel with N above 256.
-/

namespace Sys2Proof.Machine

/-- Settles O2: no byte is written, no tag or poison mark is kept, and there is no team. -/
theorem resetMeetsInvariants : Obligations.ResetMeetsInvariants :=
  ⟨⟨wf_reset, rfl, List.Pairwise.nil⟩, fun _ ht => absurd ht List.not_mem_nil⟩

/-! ## Two teams of one key

A team is found by its key, and a change of a team or warp is made in every team of that key. -/

/-- The one warp of the small states. -/
def probeKey : WKey := ⟨0, 0, 0⟩

/-- A state in which each team stands a second time under its key, changed by `f`. -/
def State.twinned (s : State) (f : Team → Team) : State := { s with teams := s.teams ++ s.teams.map f }

/-- A team of the same key whose kernel has 32 vector registers. -/
def Team.narrow (t : Team) : Team :=
  { t with kernel := { t.kernel with n := 32 }, warps := t.warps.map fun w => { w with v := List.replicate 32 {} } }

/-- The word of `vif p0`. -/
def vifWord : BitVec 96 := (encode (.vif ⟨⟨0, false⟩, false, 0, false, .v 0, .p 0, .v 0, 0, 0⟩)).getD 0

/-- A warp with 64 vector registers at `vif p0`, and a team of the same key whose warps have 32. -/
def twinsAtVif : State := (State.reset.withFetchWord 96 vifWord.toNat).twinned Team.narrow

theorem twinsAtVif_whole : twinsAtVif.WarpsWhole := by
  unfold State.WarpsWhole Warp.Whole
  decide

/-- N of the kernel of each warp, beside the number of vector registers it has. -/
def State.vregCounts (s : State) : List (Nat × Nat) :=
  s.teams.flatMap fun t => t.warps.map fun w => (t.kernel.n, w.v.length)

theorem State.WarpsWhole.vregCounts_eq {s : State} (h : s.WarpsWhole) : ∀ x ∈ s.vregCounts, x.2 = x.1 := by
  simp only [State.vregCounts, List.mem_flatMap, List.mem_map]
  rintro x ⟨t, ht, w, hw, rfl⟩
  obtain ⟨hv, -⟩ := h t ht w hw
  exact hv

set_option maxRecDepth 4000 in
/-- The `vif` puts its warp, of 64 registers, in the place of both. -/
theorem step_twinsAtVif : (match step twinsAtVif with | .next t => t.vregCounts | _ => []) = [(64, 64), (32, 64)] := by
  decide

/-- Refutes O4: of two teams of one key, the one that is found executes a `vif`, and the changed warp replaces that
of the other too, whose kernel has another N. -/
theorem not_stepKeepsWarpsWhole : ¬ Obligations.StepKeepsWarpsWhole := by
  intro h
  have hcounts := step_twinsAtVif
  cases hstep : step twinsAtVif with
  | next t =>
    simp only [hstep] at hcounts
    have hwhole := (h _ t twinsAtVif_whole hstep).vregCounts_eq
    exact absurd (hwhole (32, 64) (by simp [hcounts])) (by decide)
  | fault f => simp [hstep] at hcounts
  | refused r => simp [hstep] at hcounts

/-- A team halted for a debugger's step of its warp, and one of the same key that is halted without one. -/
def twinsAtStep : State :=
  (State.reset.withFetchWord 96 1 |>.modTeam probeKey.team fun t => { t with phase := .halted, stepping := some 0 }).twinned
    fun t => { t with stepping := none }

/-- No loop level ends at the instruction of a warp that is in no loop. -/
theorem State.edgeOk_of_not_atEnd {s : State} {k : WKey} (h : (s.warp? k).any Warp.atEnd = false) : s.edgeOk k := by
  intro w hw hend
  simp [hw, hend] at h

/-- Refutes O10: of two halted teams of one key, only the first is stepped. The end of the step makes that one
halting; the statement says it of every team of the key. -/
theorem not_movingOnFrame : ¬ Obligations.MovingOnFrame := by
  intro h
  obtain ⟨hbody, -⟩ := h { s := twinsAtStep, k := probeKey, t := probeTeam false, w := probeWarp, m := 0 } twinsAtStep
    (State.edgeOk_of_not_atEnd (by decide))
  exact absurd (congrArg (fun s => s.teams.map (·.phase)) hbody) (by decide)

/-! ## A register pair that ends past v255 -/

/-- `cvtmx v255, v16, v1` from f16 elements: it writes the pair at v255 and its scales to v1. -/
def pairAtTop : Ops MC := ⟨⟨0, false⟩, false, 0, false, .v 255, .v 16, .v 1, ⟨2, .f16, false, .rn, 0, .mxf4⟩, 0⟩

/-- Its signature: an f16 source group of 8 registers. -/
def pairSig : Sig :=
  { guard := ⟨0, false⟩, lanewise := true, ok4 := true, reads := [(.v 16, 8)], dest := [(.v 255, 2), (.v 1, 1)] }

/-- A general register that holds a row. -/
def rowReg (row : Nat) : VReg := { shape := .g, row := row, lanes := List.replicate 32 0 }

/-- Registers of a warp with N = 257 and 11 rows: v1 to v9, v255 and the one after it hold them all, v0 holds none. -/
def fullRows : List VReg :=
  [({} : VReg)] ++ (List.range 9).map rowReg ++ List.replicate 245 ({} : VReg) ++ [rowReg 9, rowReg 10]

/-- The probe's warp with those registers. -/
def pairWarp : Warp := { probeWarp with v := fullRows }

/-- Its team. The backing slot of v2 lies in the sector that L2 holds. -/
def pairTeam : Team :=
  { probeTeam false with
    kernel := { probeKernel with n := 257, g := 11 }, warps := [pairWarp], frame := probeBase - 8192 - 257 * 16 - 2 * 256 }

/-- That team about to execute, in a context with no room for a fault record. -/
def pairState : State :=
  ((State.reset.withFetchWord 96 1).modTeam probeKey.team fun _ => pairTeam).modCtx 0
    fun c => { c with fqCtl := 0x100, held := List.replicate 32 [] }

/-- The warp about to execute the `cvtmx` in all its lanes. -/
def pairEnv : Env := { s := pairState, k := probeKey, t := pairTeam, w := pairWarp, m := fullMask 32 }

set_option maxRecDepth 4000 in
theorem pairEnv_ready : Ready (.cvtmx pairAtTop) pairSig pairEnv := by
  constructor
  case sig => rfl
  case strike => exact fun _ => rfl
  all_goals decide

/-- Every destination that the signature names holds its row. -/
theorem pairAtTop_dest_in_rows : ∀ n ∈ pairEnv.w.named pairSig.dest (pairEnv.seen (.cvtmx pairAtTop)),
    (pairEnv.w.vreg n).shape = .g ∧ (pairEnv.w.vreg n).spilled = false := by decide

set_option maxRecDepth 4000 in
/-- The second register of the pair, whose number wraps to v0, takes a row, and v2 goes to its slot. -/
theorem exec_pairAtTop_writes_l2 :
    (match exec (.cvtmx pairAtTop) pairState with | .next u => u.l2.map L2Sector.dirty | _ => []) ≠
      pairState.l2.map L2Sector.dirty := by decide

/-- Refutes O12: with N = 257 the pair at v255 is a valid destination, but its second register is written as v0, which
the signature does not name. v0 takes a row, so v2 spills to memory; a trap would change nothing, for the context has
no room for its record. -/
theorem not_registerInstructionsKeepMemory : ¬ Obligations.RegisterInstructionsKeepMemory := by
  intro h
  have hr := pairEnv_ready
  obtain ⟨⟨u, hu⟩, -⟩ := exec_of_gate (runs_of_sig hr.sig) hr.sig hr.cur hr.team hr.warp
  have hwrites : u.l2 ≠ pairState.l2 := fun hl2 => exec_pairAtTop_writes_l2 <| by
    have hu' : exec (.cvtmx pairAtTop) pairState = .next u := hu
    simp only [hu', hl2]
  have hfull : pairState.fqRoom probeKey.ctx = false := by decide
  rcases h _ _ _ _ u rfl (by decide) (by decide) hr (State.edgeOk_of_not_atEnd (by decide)) pairAtTop_dest_in_rows hu with
    ⟨-, -, -, hl2, -⟩ | ⟨f, ia, htrap⟩
  · exact hwrites hl2
  · exact hwrites (congrArg State.l2 (htrap.trans (if_neg (Bool.eq_false_iff.1 hfull))))

end Sys2Proof.Machine
end

section
/-!
SUPPORT. What the memory behind the cores and the recorder leave as it was: every team.
-/

namespace Sys2Proof.Machine

@[simp] theorem State.emit_teams (s : State) (src : Src) (kind aux : Nat) (cid parent : Word) (payload : List Word) :
    (s.emit src kind aux cid parent payload).teams = s.teams := by
  obtain ⟨⟨em, hb, h⟩, -⟩ := emit_recorder s src kind aux cid parent payload
  rw [h]

/-- Folding changes that keep every team keeps every team. -/
theorem foldl_teams {α β : Type} {f : β → α → β} {st : β → State}
    (h : ∀ b a, (st (f b a)).teams = (st b).teams) (l : List α) (b : β) : (st (l.foldl f b)).teams = (st b).teams := by
  induction l generalizing b with
  | nil => rfl
  | cons a l ih => rw [List.foldl_cons, ih, h]

@[simp] theorem State.draw_teams (s : State) : s.draw.2.teams = s.teams := rfl
@[simp] theorem State.spoiltEntry_teams (s : State) (t : TlbEntry) : (s.spoiltEntry t).2.teams = s.teams := rfl
@[simp] theorem State.cancelFills_teams (s : State) (ps : Nat) : (s.cancelFills ps).teams = s.teams := rfl
@[simp] theorem State.send_teams (s : State) (p : Packet) : (s.send p).teams = s.teams := rfl

@[simp] theorem State.tlbPut_teams (s : State) (e : TlbEntry) : (s.tlbPut e).teams = s.teams := by
  unfold State.tlbPut; split <;> rfl

@[simp] theorem State.walkStart_teams (s : State) (ia level table : Nat) :
    (s.walkStart ia level table).2.teams = s.teams := by
  have htables := foldl_teams (st := id) State.tlbPut_teams (s.walkTables ia (4 - level) level table) s
  unfold State.walkStart
  split
  · exact (State.tlbPut_teams _ _).trans htables
  · exact htables

@[simp] theorem State.walkCached_teams (s : State) (ia : Nat) : (s.walkCached ia).2.teams = s.teams := by
  unfold State.walkCached
  split
  · simp
  · dsimp only
    split
    · simp
    · split <;> simp

@[simp] theorem State.translate_teams (s : State) (ia : Nat) : (s.translate ia).2.teams = s.teams := by
  simp only [State.translate]
  repeat' split
  all_goals simp

@[simp] theorem State.lostWrite_teams (s : State) (ia : Nat) (mask : BitVec 128) (owner : Option TKey) :
    (s.lostWrite ia mask owner).teams = s.teams := by
  unfold State.lostWrite
  split
  · rfl
  · exact State.emit_teams ..

@[simp] theorem State.l2WriteBack_teams (s : State) (x : L2Sector) : (s.l2WriteBack x).teams = s.teams := by
  simp only [State.l2WriteBack]
  repeat' split
  all_goals simp

@[simp] theorem State.l2Evict_teams (s : State) (l : Bool × Nat) : (s.l2Evict l).teams = s.teams :=
  foldl_teams (st := id) State.l2WriteBack_teams _ _

@[simp] theorem State.l2Room_teams (s : State) (phys : Bool) (line : Nat) : (s.l2Room phys line).teams = s.teams := by
  simp only [State.l2Room]
  repeat' split
  all_goals simp

@[simp] theorem State.l2Install_teams (s : State) (phys : Bool) (sec ps : Nat) (data : List Byte) (poison : Bool) :
    (s.l2Install phys sec ps data poison).teams = s.teams := by simp [State.l2Install]

@[simp] theorem State.l2Bring_teams (s : State) (phys : Bool) (sec : Nat) : (s.l2Bring phys sec).2.teams = s.teams := by
  cases hheld : s.l2? phys sec with
  | some x => simp [State.l2Bring, hheld]
  | none =>
    cases phys
    case true => simp [State.l2Bring, hheld]
    case false =>
      simp only [State.l2Bring, hheld]
      split <;> simp

@[simp] theorem State.noteCode_teams (s : State) (sec : Nat) : (s.noteCode sec).teams = s.teams := by
  unfold State.noteCode
  repeat' split
  all_goals rfl

@[simp] theorem State.l2Write_teams (s : State) (phys : Bool) (sec : Nat) (data : List Byte) (mask : BitVec 128)
    (poison : Bool) (owner : Option TKey) (cause : BitVec 20) :
    (s.l2Write phys sec data mask poison owner cause).2.teams = s.teams := by
  have hbring : ((if phys then s else s.noteCode sec).l2Bring phys sec).2.teams = s.teams := by
    rw [State.l2Bring_teams]; split <;> simp
  unfold State.l2Write
  split
  all_goals rename_i heq; rw [heq] at hbring; exact hbring

@[simp] theorem State.l2PutMarked_teams (s : State) (a : Nat) (bs : List (Byte × Bool)) :
    (s.l2PutMarked a bs).teams = s.teams :=
  foldl_teams (st := id) (fun _ _ => State.l2Write_teams ..) _ _

@[simp] theorem State.l2GetMarked_teams (s : State) (a n : Nat) : (s.l2GetMarked a n).2.teams = s.teams := by
  refine foldl_teams (st := Prod.snd) (fun b x => ?_) _ _
  have hbring := b.2.l2Bring_teams false x.1
  split
  all_goals rename_i heq; rw [heq] at hbring; exact hbring

@[simp] theorem State.writeSlot_teams (s : State) (k : WKey) (v : Nat) (lanes : List Word) (poison : Mask) :
    (s.writeSlot k v lanes poison).teams = s.teams := by
  unfold State.writeSlot; split <;> simp

@[simp] theorem State.readSlot_teams (s : State) (k : WKey) (v : Nat) (r : VReg) :
    (s.readSlot k v r).2.teams = s.teams := by
  unfold State.readSlot; split <;> simp

theorem State.warp?_of_teams {s t : State} (h : t.teams = s.teams) (k : WKey) : t.warp? k = s.warp? k := by
  simp only [State.warp?, State.team?, h]

end Sys2Proof.Machine
end

section
/-!
SUPPORT. The vector registers of a warp (R84 to R100): what a register reads, the rows, and the settling of a
destination register before its values are written.
-/

namespace Sys2Proof.Machine

/-! ## Registers of a warp -/

/-- What a register reads from: its shape, base, stride and words (R88). -/
def VReg.content (r : VReg) : Shape × Word × BitVec 32 × List Word := (r.shape, r.base, r.stride, r.lanes)

theorem VReg.shape_of_content {r q : VReg} (h : q.content = r.content) : q.shape = r.shape := congrArg (·.1) h

theorem VReg.at_of_content {r q : VReg} (h : q.content = r.content) (l : Nat) : q.at l = r.at l := by
  simp only [VReg.content, Prod.mk.injEq] at h
  obtain ⟨hshape, hbase, hstride, hlanes⟩ := h
  simp only [VReg.at, hshape, hbase, hstride, hlanes]

theorem Warp.vreg_setV_same {w : Warp} {n : Nat} (h : n < w.v.length) (r : VReg) : (w.setV n r).vreg n = r := by
  simp [Warp.vreg, Warp.setV, h]

theorem Warp.vreg_setV_other {w : Warp} {n m : Nat} (h : m ≠ n) (r : VReg) : (w.setV n r).vreg m = w.vreg m := by
  simp [Warp.vreg, Warp.setV, List.getElem?_set_ne (Ne.symm h)]

/-- `q` is `r` but for its RANK. -/
def VReg.reranked (r q : VReg) : Prop := ∃ rank, q = { r with rank := rank }

theorem VReg.reranked.content_eq {r q : VReg} (h : r.reranked q) : q.content = r.content := by
  obtain ⟨rank, rfl⟩ := h; rfl

/-- Changing RANKs register by register changes the RANK of each; an absent register stays absent. -/
theorem reranked_getD_map {f : VReg → VReg} (hf : ∀ q : VReg, q.reranked (f q)) (v : List VReg) (r : Nat) :
    (v.getD r {}).reranked ((v.map f).getD r {}) := by
  rw [List.getD_eq_getElem?_getD, List.getD_eq_getElem?_getD, List.getElem?_map]
  cases v[r]? with
  | none => exact ⟨_, rfl⟩
  | some q => exact hf q

/-- A write to register n changes RANKs, and no more, of the other registers (R95). -/
theorem Warp.rankWrite_vreg_other (w : Warp) {n r : Nat} (h : r ≠ n) : (w.vreg r).reranked ((w.rankWrite n).vreg r) := by
  have hset (v : List VReg) (q : VReg) : (v.set n q).getD r {} = v.getD r {} := by simp [List.getElem?_set_ne (Ne.symm h)]
  unfold Warp.rankWrite Warp.vreg
  rw [hset]
  refine reranked_getD_map (fun q => ?_) _ _
  split
  · exact ⟨_, rfl⟩
  · exact ⟨_, rfl⟩

/-- When register n leaves G, RANKs change, and no more (R95). -/
theorem Warp.rankLeave_vreg (w : Warp) (n r : Nat) : (w.vreg r).reranked ((w.rankLeave n).vreg r) := by
  unfold Warp.rankLeave
  dsimp only
  split
  · exact ⟨_, rfl⟩
  · refine reranked_getD_map (fun q => ?_) _ _
    split
    · exact ⟨_, rfl⟩
    · exact ⟨_, rfl⟩

/-- The general register of `width` lanes in a row that holds what `r` holds (R91). -/
def VReg.general (r : VReg) (width row : Nat) : VReg :=
  { r with shape := .g, spilled := false, row := row, rank := 0, stride := 0, base := 0, lanes := r.all width
           dirty := true }

@[simp] theorem VReg.general_shape (r : VReg) (width row : Nat) : (r.general width row).shape = .g := rfl

theorem VReg.at_general (r : VReg) {width l : Nat} (h : l < width) (row : Nat) : (r.general width row).at l = r.at l := by
  simp [VReg.general, VReg.at, VReg.all, h]

/-- The general register with RANK 0 that a write leaves, in its warp (R91, R95). -/
def Warp.settleG (w : Warp) (n width row : Nat) : Warp := (w.rankWrite n).setV n ((w.vreg n).general width row)

/-- `u` is `w` but for its vector registers and the counts of spills and reloads (R99). -/
def Warp.SameButRegs (w u : Warp) : Prop := ∃ v sp rl, u = { w with v := v, spills := sp, reloads := rl }

theorem Warp.SameButRegs.refl (w : Warp) : w.SameButRegs w := ⟨_, _, _, rfl⟩

theorem Warp.SameButRegs.trans {w u x : Warp} (h : w.SameButRegs u) (h' : u.SameButRegs x) : w.SameButRegs x := by
  obtain ⟨_, _, _, rfl⟩ := h
  obtain ⟨_, _, _, rfl⟩ := h'
  exact ⟨_, _, _, rfl⟩

/-- `u` is `w` with register `n` changed to `q`: every other register reads as before, wherever its row has gone, and
nothing else changes but the counts of spills and reloads (R84, R99). -/
structure Warp.Settles (w u : Warp) (n : Nat) (q : VReg) : Prop where
  frame : w.SameButRegs u
  length : u.v.length = w.v.length
  same : u.vreg n = q
  other : ∀ r, r ≠ n → (u.vreg r).content = (w.vreg r).content

theorem Warp.Settles.refl (w : Warp) (n : Nat) : w.Settles w n (w.vreg n) := ⟨.refl w, rfl, rfl, fun _ _ => rfl⟩

theorem Warp.Settles.trans {w u x : Warp} {n : Nat} {q q' : VReg} (h : w.Settles u n q) (h' : u.Settles x n q') :
    w.Settles x n q' :=
  ⟨h.frame.trans h'.frame, h'.length.trans h.length, h'.same, fun r hr => (h'.other r hr).trans (h.other r hr)⟩

/-- The counts of spills and reloads are free. -/
theorem Warp.Settles.counted {w u : Warp} {n : Nat} {q : VReg} (h : w.Settles u n q) (sp rl : Nat) :
    w.Settles { u with spills := sp, reloads := rl } n q :=
  ⟨h.frame.trans ⟨_, _, _, rfl⟩, h.length, h.same, h.other⟩

theorem Warp.settles_setV {w : Warp} {n : Nat} (h : n < w.v.length) (r : VReg) : w.Settles (w.setV n r) n r :=
  ⟨⟨_, _, _, rfl⟩, by simp [Warp.setV], Warp.vreg_setV_same h r, fun _ hr => by rw [Warp.vreg_setV_other hr]⟩

/-- Storing a register that reads as before settles any other one as it is. -/
theorem Warp.settles_setV_content {w : Warp} {v n : Nat} (h : v < w.v.length) {r : VReg}
    (hr : r.content = (w.vreg v).content) (hn : n ≠ v) : w.Settles (w.setV v r) n (w.vreg n) := by
  refine ⟨⟨_, _, _, rfl⟩, by simp [Warp.setV], Warp.vreg_setV_other hn r, fun m _ => ?_⟩
  by_cases hm : m = v
  · rw [hm, Warp.vreg_setV_same h, hr]
  · rw [Warp.vreg_setV_other hm]

/-- A general register that holds its row, and one whose words are in its backing slot (R96). -/
abbrev VReg.inRow (r : VReg) : Prop := r.shape = .g ∧ r.spilled = false
abbrev VReg.inSlot (r : VReg) : Prop := r.shape = .g ∧ r.spilled = true

theorem VReg.inRow.not_inSlot {r : VReg} (h : r.inRow) : ¬ r.inSlot := fun hslot =>
  Bool.false_ne_true (h.2.symm.trans hslot.2)

/-- A register read back from its slot, in its new row (R97). -/
def VReg.reloaded (r : VReg) (row : Nat) : VReg := { r with spilled := false, row := row, dirty := false }

/-- The write that makes register n general leaves it in its row (R91, R95). -/
theorem Warp.settleG_settles (w : Warp) {n : Nat} (hn : n < w.v.length) (width row : Nat) :
    w.Settles (w.settleG n width row) n ((w.vreg n).general width row) := by
  refine ⟨⟨_, _, _, rfl⟩, by simp [Warp.settleG, Warp.setV, Warp.rankWrite],
    Warp.vreg_setV_same (by simpa [Warp.rankWrite]) _, fun r hr => ?_⟩
  rw [Warp.settleG, Warp.vreg_setV_other hr]
  exact (w.rankWrite_vreg_other hr).content_eq

theorem Warp.rankLeave_num (w : Warp) (n : Nat) : (w.rankLeave n).num = w.num := by
  unfold Warp.rankLeave; dsimp only; split <;> rfl

/-- Register n of a warp that leaves G for another shape, its values to follow (R91). -/
def VReg.leave (r : VReg) (shape : Shape) : VReg :=
  { r with shape := shape, spilled := false, row := 0, rank := 0, stride := 0, lanes := [], dirty := true, poison := 0
           recon := 0 }

theorem Warp.leave_settles (w : Warp) {n : Nat} (hn : n < w.v.length) (shape : Shape) :
    w.Settles ((w.rankLeave n).setV n ((w.vreg n).leave shape)) n ((w.vreg n).leave shape) := by
  have hframe : ∃ v, w.rankLeave n = { w with v := v } ∧ v.length = w.v.length := by
    unfold Warp.rankLeave
    dsimp only
    split
    · exact ⟨_, rfl, rfl⟩
    · exact ⟨_, rfl, by simp⟩
  obtain ⟨v, hv, hlen⟩ := hframe
  refine ⟨⟨v.set n ((w.vreg n).leave shape), _, _, by rw [hv]; rfl⟩, by simp [hv, Warp.setV, hlen],
    Warp.vreg_setV_same (by rw [hv, hlen]; exact hn) _, fun r hr => ?_⟩
  rw [Warp.vreg_setV_other hr]
  exact (w.rankLeave_vreg n r).content_eq

/-- A change of one warp is read back (R84). -/
theorem State.modWarp_reads {s : State} {k : WKey} {w : Warp} (hw : s.warp? k = some w) {f : Warp → Warp}
    (hf : ∀ u : Warp, (f u).num = u.num) : (s.modWarp k f).warp? k = some (f w) := by
  rw [State.modWarp_warp? _ _ _ fun u hu => (hf u).trans hu, hw, Option.map_some]

/-! ## Rows, spills and reloads (R95 to R99) -/

/-- A choice that keeps the best so far or takes the next entry is one of the entries. -/
theorem mem_of_foldl_choice {α : Type} {f : Option α → α → Option α}
    (hf : ∀ best a, f best a = some a ∨ f best a = best) {l : List α} {best : Option α} {v : α}
    (h : l.foldl f best = some v) : best = some v ∨ v ∈ l := by
  induction l generalizing best with
  | nil => exact .inl h
  | cons a l ih =>
    rcases ih h with hbest | hmem
    · rcases hf best a with htaken | hkept
      · exact .inr (Option.some.inj (htaken.symm.trans hbest) ▸ List.mem_cons_self)
      · exact .inl (hkept.symm.trans hbest)
    · exact .inr (List.mem_cons_of_mem a hmem)

/-- The victim is a register of the warp that the instruction does not name (R95). -/
theorem Warp.victim_spec {w : Warp} {named : List Nat} {v : Nat} (h : w.victim named = some v) :
    v < w.v.length ∧ v ∉ named := by
  have hv : v ∈ w.victims named := (mem_of_foldl_choice (fun best n => by
    cases best with
    | none => exact .inl rfl
    | some b =>
      dsimp only
      split
      · exact .inl rfl
      · exact .inr rfl) h).resolve_left nofun
  simp only [Warp.victims, List.mem_filter, List.mem_range, Bool.and_eq_true, Bool.not_eq_true', List.contains_eq_mem,
    decide_eq_false_iff_not] at hv
  obtain ⟨hlt, -, hnot⟩ := hv
  exact ⟨hlt, hnot⟩

section

variable {s s' : State} {k : WKey} {w : Warp} (hw : s.warp? k = some w)
include hw

theorem State.team?_of_warp? : ∃ t, s.team? k.team = some t := by
  simp only [State.warp?, Option.bind_eq_some_iff] at hw
  obtain ⟨t, ht, -⟩ := hw
  exact ⟨t, ht⟩

/-- A spill keeps what every register reads, and leaves the other registers as they are (R95, R99). -/
theorem State.spill_settles {v n : Nat} (hv : v < w.v.length) (hn : n ≠ v) :
    ∃ u, (s.spill k v).warp? k = some u ∧ w.Settles u n (w.vreg n) := by
  obtain ⟨t, ht⟩ := State.team?_of_warp? hw
  simp only [State.spill, ht, hw]
  refine ⟨_, State.modWarp_reads ((State.warp?_of_teams (by simp) k).trans hw) fun _ => rfl,
    (Warp.settles_setV_content hv ?_ hn).counted _ _⟩
  rfl

/-- Finding a row keeps what every register reads, and leaves a named register as it is (R95). -/
theorem State.takeRow_settles {g n row : Nat} {named : List Nat} (hn : n ∈ named)
    (h : s.takeRow k g named = some (row, s')) : ∃ u, s'.warp? k = some u ∧ w.Settles u n (w.vreg n) := by
  simp only [State.takeRow, hw] at h
  cases hfree : w.freeRow g with
  | some r =>
    simp only [hfree, Option.some.injEq, Prod.mk.injEq] at h
    obtain ⟨-, rfl⟩ := h
    exact ⟨w, hw, .refl w n⟩
  | none =>
    cases hvictim : w.victim named with
    | none => simp [hfree, hvictim] at h
    | some v =>
      simp only [hfree, hvictim, Option.some.injEq, Prod.mk.injEq] at h
      obtain ⟨-, rfl⟩ := h
      obtain ⟨hv, hnot⟩ := Warp.victim_spec hvictim
      exact State.spill_settles hw hv fun hnv => hnot (hnv ▸ hn)

/-- A reload gives a register its row and the words of its slot (R97). -/
theorem State.reloadInto_settles {n row : Nat} (t : Team) (hn : n < w.v.length) :
    ∃ u, (s.reloadInto k t n row).warp? k = some u ∧
      w.Settles u n ((s.readSlot k n (w.vreg n)).1.reloaded row) := by
  simp only [State.reloadInto, hw]
  exact ⟨_, State.modWarp_reads ((State.warp?_of_teams (by simp) k).trans hw) fun _ => rfl,
    (Warp.settles_setV hn _).counted _ _⟩

/-! ## Settling a destination register (R91, R95, R97) -/

/-- A register becomes general in the row that it holds, or in one that is found for it. -/
theorem State.makeG_eq (t : Team) (named : List Nat) (n : Nat) : s.makeG k t named n =
    (if (w.vreg n).inRow then some ((w.vreg n).row, s) else s.takeRow k t.kernel.g named).map
      fun x => x.2.modWarp k (·.settleG n t.kernel.width x.1) := by
  simp only [State.makeG, hw, Bool.not_eq_true']
  split
  next hgot => simp only [VReg.inRow, hgot, Option.map_none]
  next hgot => simp only [VReg.inRow, hgot, Option.map_some, Warp.settleG, VReg.general]

theorem State.makeG_of_inRow {n : Nat} (h : (w.vreg n).inRow) (t : Team) (named : List Nat) :
    s.makeG k t named n = some (s.modWarp k (·.settleG n t.kernel.width (w.vreg n).row)) := by
  rw [State.makeG_eq hw, if_pos h, Option.map_some]

theorem State.keepOld_of_resident {n : Nat} (h : ¬ (w.vreg n).inSlot) (t : Team) (named : List Nat) :
    s.keepOld k t named n = some s := by
  simp only [State.keepOld, hw]
  exact if_neg h

theorem State.keepOld_of_inSlot {n : Nat} (h : (w.vreg n).inSlot) (t : Team) (named : List Nat) :
    s.keepOld k t named n = (s.takeRow k t.kernel.g named).map fun x => x.2.reloadInto k t n x.1 := by
  simp only [State.keepOld, hw]
  exact if_pos h

section

variable {n : Nat} {t : Team} {named : List Nat} {full : Bool} {shape : Shape} (hn : n < w.v.length) (hmem : n ∈ named)
include hn hmem

/-- Making a register general keeps what every register reads (R91, R95). -/
theorem State.makeG_settles (h : s.makeG k t named n = some s') :
    ∃ u row, s'.warp? k = some u ∧ w.Settles u n ((w.vreg n).general t.kernel.width row) := by
  by_cases hrow : (w.vreg n).inRow
  · obtain rfl := Option.some.inj ((State.makeG_of_inRow hw hrow t named).symm.trans h)
    exact ⟨_, _, State.modWarp_reads hw fun _ => rfl, w.settleG_settles hn ..⟩
  · rw [State.makeG_eq hw, if_neg hrow, Option.map_eq_some_iff] at h
    obtain ⟨⟨row, s1⟩, htake, rfl⟩ := h
    obtain ⟨u, hu, hsettles⟩ := State.takeRow_settles hw hmem htake
    refine ⟨_, row, State.modWarp_reads hu fun _ => rfl, hsettles.trans ?_⟩
    rw [← hsettles.same]
    exact u.settleG_settles (hsettles.length ▸ hn) ..

/-- A register written in part that holds its row, or needs none, keeps what it reads (R91). -/
theorem State.prepReg_resident (hres : ¬ (w.vreg n).inSlot) (h : s.prepReg k t named false shape n = some s') :
    ∃ u row, s'.warp? k = some u ∧ w.Settles u n ((w.vreg n).general t.kernel.width row) := by
  refine State.makeG_settles hw hn hmem ?_
  rw [← h, State.prepReg, if_neg nofun, State.keepOld_of_resident hw hres, Option.bind_some]

/-- A spilled register written in part takes a row, and keeps the words of its slot (R97). -/
theorem State.prepReg_inSlot (hslot : (w.vreg n).inSlot) (h : s.prepReg k t named false shape n = some s') :
    ∃ row s1 u row', s.takeRow k t.kernel.g named = some (row, s1) ∧ s'.warp? k = some u ∧
      w.Settles u n (((s1.readSlot k n (w.vreg n)).1.reloaded row).general t.kernel.width row') := by
  rw [State.prepReg, if_neg nofun, State.keepOld_of_inSlot hw hslot, Option.bind_eq_some_iff] at h
  obtain ⟨s2, hkeep, hmake⟩ := h
  obtain ⟨⟨row, s1⟩, htake, rfl⟩ := Option.map_eq_some_iff.1 hkeep
  obtain ⟨u1, hu1, h1⟩ := State.takeRow_settles hw hmem htake
  obtain ⟨u2, hu2, h2⟩ := State.reloadInto_settles hu1 (row := row) t (h1.length ▸ hn)
  obtain ⟨u3, row', hu3, h3⟩ := State.makeG_settles hu2 (h2.length ▸ h1.length ▸ hn) hmem hmake
  rw [h2.same, h1.same] at h3
  rw [h1.same] at h2
  exact ⟨row, s1, u3, row', htake, hu3, (h1.trans h2).trans h3⟩

/-- A register written in all lanes takes the shape of the result (R91). -/
theorem State.prepReg_full (h : s.prepReg k t named true shape n = some s') :
    ∃ u q, s'.warp? k = some u ∧ w.Settles u n q ∧ q.shape = shape := by
  rw [State.prepReg, if_pos rfl] at h
  split at h
  case isTrue hg =>
    obtain ⟨u, row, hu, hsettles⟩ := State.makeG_settles hw hn hmem h
    exact ⟨u, _, hu, hsettles, hg.symm⟩
  case isFalse =>
    obtain rfl := Option.some.inj h
    exact ⟨_, _, State.modWarp_reads hw fun u => u.rankLeave_num n, w.leave_settles hn shape, rfl⟩

/-- What settling any destination register does: the others read as before (R91). -/
theorem State.prepReg_settles (h : s.prepReg k t named full shape n = some s') :
    ∃ u q, s'.warp? k = some u ∧ w.Settles u n q ∧ q.shape = if full then shape else .g := by
  cases full
  case true => exact State.prepReg_full hw hn hmem h
  case false =>
    by_cases hslot : (w.vreg n).inSlot
    · obtain ⟨row, s1, u, row', -, hu, hsettles⟩ := State.prepReg_inSlot hw hn hmem hslot h
      exact ⟨u, _, hu, hsettles, rfl⟩
    · obtain ⟨u, row, hu, hsettles⟩ := State.prepReg_resident hw hn hmem hslot h
      exact ⟨u, _, hu, hsettles, rfl⟩

end

theorem State.prepReg_inRow_partial {n : Nat} (h : (w.vreg n).inRow) (t : Team) (named : List Nat) (shape : Shape) :
    s.prepReg k t named false shape n = some (s.modWarp k (·.settleG n t.kernel.width (w.vreg n).row)) := by
  rw [State.prepReg, if_neg nofun, State.keepOld_of_resident hw h.not_inSlot, Option.bind_some, State.makeG_of_inRow hw h]

/-- A register that holds its row is settled by a change of its warp alone. -/
theorem State.prepReg_inRow {n : Nat} (h : (w.vreg n).inRow) (t : Team) (named : List Nat) (full : Bool) (shape : Shape) :
    ∃ f, s.prepReg k t named full shape n = some (s.modWarp k f) := by
  cases full
  case false => exact ⟨_, State.prepReg_inRow_partial hw h t named shape⟩
  case true =>
    rw [State.prepReg, if_pos rfl]
    split
    · exact ⟨_, State.makeG_of_inRow hw h t named⟩
    · exact ⟨_, rfl⟩

end

end Sys2Proof.Machine
end

section
/-!
SUPPORT. Writing a vector destination (R91, R97, R102): the lanes and registers it names, the filling of a settled
register, and registers written one after another.
-/

namespace Sys2Proof.Machine

/-! ## Lanes and destinations (R91, R102) -/

theorem fullMask_has {n l : Nat} (h : l < n) (hn : n ≤ 64) : (fullMask n).has l = true := by
  rw [fullMask, Mask.low, Mask.has, BitVec.getLsbD_ofNat, Nat.testBit_two_pow_sub_one]
  simp only [Bool.and_eq_true, decide_eq_true_iff]
  omega

theorem Mask.has_bit {i j : Nat} (hj : j < 64) : Mask.has (1#64 <<< i) j = true ↔ j = i := by
  rw [Mask.has, BitVec.getLsbD_shiftLeft, BitVec.getLsbD_one]
  simp only [Bool.and_eq_true, decide_eq_true_iff, Bool.not_eq_true', decide_eq_false_iff_not]
  omega

/-- Collecting the lanes of a list that meet a test. -/
theorem Mask.has_foldl {p : Nat → Prop} [DecidablePred p] {j : Nat} (hj : j < 64) (l : List Nat) (m : Mask) :
    Mask.has (l.foldl (fun acc i => if p i then acc ||| (1#64 <<< i) else acc) m) j = true ↔
      m.has j = true ∨ (j ∈ l ∧ p j) := by
  induction l generalizing m with
  | nil => simp
  | cons i l ih =>
    have hhead : Mask.has (if p i then m ||| 1#64 <<< i else m) j = true ↔ m.has j = true ∨ (j = i ∧ p i) := by
      split
      next hp =>
        rw [Mask.has, BitVec.getLsbD_or, Bool.or_eq_true, ← Mask.has, ← Mask.has, Mask.has_bit hj, and_iff_left hp]
      next hp => simp [hp]
    rw [List.foldl_cons, ih, hhead, List.mem_cons, or_assoc, or_and_right]
    refine or_congr_right (or_congr_left (and_congr_right fun hji => ?_))
    rw [hji]

theorem mem_maskLanes {width l : Nat} {m : Mask} : l ∈ maskLanes width m ↔ l < width ∧ m.has l = true := by
  simp [maskLanes]

/-- The lanes written to a register: the effective lanes in which the destination names it. -/
theorem Warp.lanesTo_has {w : Warp} {d : Operand} {width l n : Nat} {m : Mask} (hl : l < width) (hwidth : width ≤ 64) :
    (w.lanesTo d width m n).has l = true ↔ m.has l = true ∧ w.regOf d l = some n := by
  rw [Warp.lanesTo, Mask.has_foldl (by omega), mem_maskLanes, and_iff_right hl]
  simp [Mask.has]

theorem mem_foldl_setInsert {f : Nat → Nat} {a : Nat} (l acc : List Nat) :
    a ∈ l.foldl (fun acc i => setInsert acc (f i)) acc ↔ a ∈ acc ∨ ∃ i ∈ l, f i = a := by
  induction l generalizing acc with
  | nil => simp
  | cons i l ih =>
    rw [List.foldl_cons, ih, mem_setInsert]
    simp [or_assoc, or_left_comm, eq_comm]

/-- A register that an index register of shape U names is the same in every lane (R101). -/
theorem XReg.at_uniform {x : XReg} (h : x.shape = .u) (l : Nat) : x.at l = x.at 0 := by simp [XReg.at, h]

/-- A destination that is not addressed lane by lane is one register, in every lane (R102). -/
theorem Warp.destRegs_uniform {w : Warp} {d : Operand} {lanes : List Nat} {r : Nat} (hu : (w.destRegs d lanes).2 = false)
    (hr : r ∈ (w.destRegs d lanes).1) : (w.destRegs d lanes).1 = [r] ∧ ∀ l, w.regOf d l = some r := by
  cases d
  case v n =>
    obtain rfl := List.mem_singleton.1 hr
    exact ⟨rfl, fun _ => rfl⟩
  case vx x b =>
    by_cases hx : (w.xreg x).shape = .u
    · simp only [Warp.destRegs, if_pos hx, List.mem_singleton] at hr ⊢
      exact ⟨by rw [hr], fun l => by rw [Warp.regOf, XReg.at_uniform hx, hr]⟩
    · simp [Warp.destRegs, hx] at hu
  all_goals exact absurd hr List.not_mem_nil

/-- The registers of a destination are those that it names in the effective lanes (R102). -/
theorem Warp.mem_destRegs {w : Warp} {d : Operand} {lanes : List Nat} (hlanes : lanes ≠ []) {r : Nat} :
    r ∈ (w.destRegs d lanes).1 ↔ ∃ l ∈ lanes, w.regOf d l = some r := by
  obtain ⟨l0, hl0⟩ := List.exists_mem_of_ne_nil _ hlanes
  cases d
  case v n => simpa [Warp.destRegs, Warp.regOf, eq_comm] using fun _ => ⟨l0, hl0⟩
  case vx x b =>
    by_cases hx : (w.xreg x).shape = .u
    · simpa [Warp.destRegs, Warp.regOf, hx, XReg.at_uniform hx, eq_comm] using fun _ => ⟨l0, hl0⟩
    · simp [Warp.destRegs, Warp.regOf, hx, mem_foldl_setInsert]
  all_goals simp [Warp.destRegs, Warp.regOf]

/-! ## Filling a settled register -/

section

variable {r : VReg} {width l : Nat} {m : Mask} {x : VRes}

@[simp] theorem VReg.fill_shape : (r.fill width m x).shape = r.shape := by
  unfold VReg.fill; split <;> rename_i h <;> exact h.symm ▸ rfl

theorem VReg.at_fill_general (h : r.shape = .g) (hl : l < width) :
    (r.fill width m x).at l = if m.has l then x.vals.getD l 0 else r.at l := by
  simp [VReg.fill, VReg.at, h, hl]

/-- The lowest lane of a mask with lanes lies below the width. -/
theorem headD_maskLanes_lt (hl : l < width) : (maskLanes width m).headD 0 < width := by
  cases h : maskLanes width m with
  | nil => exact Nat.zero_lt_of_lt hl
  | cons i _ => exact (mem_maskLanes.1 (h ▸ List.mem_cons_self : i ∈ maskLanes width m)).1

/-- A lane that is written holds its value, when a uniform or affine result is so in all lanes (R88). -/
theorem VReg.at_fill_written (hl : l < width) (hm : m.has l = true)
    (hu : r.shape = .u → ∀ j < width, x.vals.getD j 0 = x.vals.getD 0 0)
    (ha : r.shape = .a → ∀ j < width, x.vals.getD j 0 = x.vals.getD 0 0 + BitVec.ofNat 64 j * x.stride.signExtend 64) :
    (r.fill width m x).at l = x.vals.getD l 0 := by
  cases hshape : r.shape
  case u =>
    simp only [VReg.fill, VReg.at, hshape]
    rw [hu hshape l hl, hu hshape _ (headD_maskLanes_lt hl)]
  case a => simp only [VReg.fill, VReg.at, hshape, ha hshape l hl]
  case g => rw [VReg.at_fill_general hshape hl, if_pos hm]

end

/-! ## Writing a vector destination (R91, R102) -/

/-- All lanes of the one register of a destination are written (R91). -/
def Env.fullWrite (e : Env) (d : Operand) : Bool := e.m == fullMask e.width && !(e.w.destRegs d e.lanes).2

theorem Env.fullWrite_iff {e : Env} {d : Operand} :
    e.fullWrite d = true ↔ e.m = fullMask e.width ∧ (e.w.destRegs d e.lanes).2 = false := by simp [Env.fullWrite]

/-- The shape that a result has under a full mask: one with poison is general (R345). -/
def VRes.written (x : VRes) : Shape := if x.poison = 0 then x.shape else .g

/-- Writing one register of a destination. -/
def Env.writeReg (e : Env) (named : List Nat) (d : Operand) (x : VRes) (s : State) (n : Nat) : Option State :=
  (s.prepReg e.k e.t (n :: named) (e.fullWrite d) x.written n).map fun s => s.fillOne e.k e.t e.w d e.m x n

/-- Steps that each go on from the one before, if that has an answer, are the steps of a fold in `Option`. -/
theorem foldl_bind_eq_foldlM {α β : Type} (f : β → α → Option β) (l : List α) (acc : Option β) :
    l.foldl (fun acc a => acc.bind fun b => f b a) acc = acc.bind (l.foldlM f) := by
  induction l generalizing acc with
  | nil => cases acc <;> rfl
  | cons a l ih =>
    rw [List.foldl_cons, ih]
    cases acc <;> rfl

/-- A vector write writes one register after another. -/
theorem Env.write_eq (e : Env) (named : List Nat) (d : Operand) (x : VRes) :
    e.write named d x = (e.w.destRegs d e.lanes).1.foldlM (e.writeReg named d x) e.s :=
  foldl_bind_eq_foldlM (e.writeReg named d x) _ (some e.s)

/-- The register that a write leaves, from the one that was settled for it. -/
def Env.filled (e : Env) (d : Operand) (x : VRes) (n : Nat) (q : VReg) : VReg :=
  q.fill e.width (e.w.lanesTo d e.width e.m n) x

/-- A warp with register n settled in its row as general and filled. -/
def Env.refill (e : Env) (d : Operand) (x : VRes) (w : Warp) (n row : Nat) : Warp :=
  (w.settleG n e.width row).setV n (e.filled d x n ((w.settleG n e.width row).vreg n))

section

variable {e : Env} {named : List Nat} {d : Operand} {x : VRes} {s t : State} {w : Warp} (hw : s.warp? e.k = some w)
include hw

/-- Filling a settled register. -/
theorem State.fillOne_settles {w0 : Warp} {n : Nat} {q : VReg} (hn : n < w0.v.length) (h : w0.Settles w n q) :
    ∃ u, (s.fillOne e.k e.t e.w d e.m x n).warp? e.k = some u ∧ w0.Settles u n (e.filled d x n q) := by
  refine ⟨_, State.modWarp_reads hw fun _ => rfl, h.trans ?_⟩
  rw [h.same]
  exact Warp.settles_setV (h.length ▸ hn) _

/-- Writing one register: it is settled and filled, and every other one reads as before. -/
theorem Env.writeReg_settles {n : Nat} (hn : n < w.v.length) (h : e.writeReg named d x s n = some t) :
    ∃ u q, t.warp? e.k = some u ∧ w.Settles u n (e.filled d x n q) ∧
      q.shape = if e.fullWrite d then x.written else .g := by
  obtain ⟨s1, hprep, rfl⟩ := Option.map_eq_some_iff.1 h
  obtain ⟨u, q, hu, hsettles, hshape⟩ := State.prepReg_settles hw hn List.mem_cons_self hprep
  obtain ⟨u', hu', hfilled⟩ := State.fillOne_settles (e := e) (d := d) (x := x) hu hn hsettles
  exact ⟨u', q, hu', hfilled, hshape⟩

/-- A register written in part that holds its row, or needs none, is filled over what it reads. -/
theorem Env.writeReg_resident {n : Nat} (hn : n < w.v.length) (hfull : e.fullWrite d = false)
    (hres : ¬ (w.vreg n).inSlot) (h : e.writeReg named d x s n = some t) :
    ∃ u row, t.warp? e.k = some u ∧ w.Settles u n (e.filled d x n ((w.vreg n).general e.width row)) := by
  obtain ⟨s1, hprep, rfl⟩ := Option.map_eq_some_iff.1 h
  rw [hfull] at hprep
  obtain ⟨u, row, hu, hsettles⟩ := State.prepReg_resident hw hn List.mem_cons_self hres hprep
  obtain ⟨u', hu', hfilled⟩ := State.fillOne_settles (e := e) (d := d) (x := x) hu hn hsettles
  exact ⟨u', row, hu', hfilled⟩

/-- A spilled register written in part is filled over the words of its slot (R97). -/
theorem Env.writeReg_inSlot {n : Nat} (hn : n < w.v.length) (hfull : e.fullWrite d = false)
    (hslot : (w.vreg n).inSlot) (h : e.writeReg named d x s n = some t) :
    ∃ row s1 u row', s.takeRow e.k e.t.kernel.g (n :: named) = some (row, s1) ∧ t.warp? e.k = some u ∧
      w.Settles u n (e.filled d x n (((s1.readSlot e.k n (w.vreg n)).1.reloaded row).general e.width row')) := by
  obtain ⟨s2, hprep, rfl⟩ := Option.map_eq_some_iff.1 h
  rw [hfull] at hprep
  obtain ⟨row, s1, u, row', htake, hu, hsettles⟩ := State.prepReg_inSlot hw hn List.mem_cons_self hslot hprep
  obtain ⟨u', hu', hfilled⟩ := State.fillOne_settles (e := e) (d := d) (x := x) hu hn hsettles
  exact ⟨row, s1, u', row', htake, hu', hfilled⟩

/-- A register that holds its row is written by a change of its warp alone. -/
theorem Env.writeReg_inRow {n : Nat} (hrow : (w.vreg n).inRow) (h : e.writeReg named d x s n = some t) :
    ∃ teams, t = { s with teams := teams } := by
  obtain ⟨f, hprep⟩ := State.prepReg_inRow hw hrow e.t (n :: named) (e.fullWrite d) x.written
  rw [Env.writeReg, hprep, Option.map_some, Option.some.injEq] at h
  exact ⟨_, h.symm⟩

/-- One that is written in part is settled in its row and filled. -/
theorem Env.writeReg_inRow_partial {n : Nat} (hfull : e.fullWrite d = false) (hrow : (w.vreg n).inRow)
    (h : e.writeReg named d x s n = some t) : t.warp? e.k = some (e.refill d x w n (w.vreg n).row) := by
  rw [Env.writeReg, hfull, State.prepReg_inRow_partial hw hrow, Option.map_some, Option.some.injEq] at h
  subst h
  have hsettled : (s.modWarp e.k (·.settleG n e.width (w.vreg n).row)).warp? e.k =
      some (w.settleG n e.width (w.vreg n).row) := State.modWarp_reads hw fun _ => rfl
  exact State.modWarp_reads hsettled fun _ => rfl

end

/-! ### Registers that hold their rows -/

section

variable {e : Env} {w : Warp} {n : Nat} (hn : n < w.v.length) (d : Operand) (x : VRes) (row : Nat)
include hn

theorem Warp.refill_settles : w.Settles (e.refill d x w n row) n (e.filled d x n ((w.vreg n).general e.width row)) := by
  have hsettles := w.settleG_settles hn e.width row
  rw [← hsettles.same]
  exact hsettles.trans (Warp.settles_setV (hsettles.length ▸ hn) _)

/-- The lanes that are not written read as before. -/
theorem Warp.at_refill {r l : Nat} (hl : l < e.width) (hunwritten : (e.w.lanesTo d e.width e.m r).has l = false) :
    ((e.refill d x w n row).vreg r).at l = (w.vreg r).at l := by
  have hsettles := Warp.refill_settles (e := e) hn d x row
  by_cases hr : r = n
  · subst hr
    rw [hsettles.same, Env.filled, VReg.at_fill_general rfl hl, hunwritten, if_neg nofun, VReg.at_general _ hl]
  · exact VReg.at_of_content (hsettles.other r hr) l

/-- Every register that holds its row goes on to hold it. -/
theorem Warp.inRow_refill {r : Nat} (hr : (w.vreg r).inRow) : ((e.refill d x w n row).vreg r).inRow := by
  by_cases hrn : r = n
  · subst hrn
    rw [(Warp.refill_settles hn d x row).same]
    exact ⟨rfl, rfl⟩
  · obtain ⟨rank, hrank⟩ := w.rankWrite_vreg_other hrn
    rw [Env.refill, Warp.vreg_setV_other hrn, Warp.settleG, Warp.vreg_setV_other hrn, hrank]
    exact hr

end

/-! ### All the registers of a destination -/

/-- Writing registers one after another: each is settled and filled, and every other one reads as before. -/
theorem Env.writeRegs_settle {e : Env} {named : List Nat} {d : Operand} {x : VRes} {t : State} {ns : List Nat}
    {s : State} {w : Warp} (hw : s.warp? e.k = some w) (hns : ∀ n ∈ ns, n < w.v.length)
    (h : ns.foldlM (e.writeReg named d x) s = some t) :
    ∃ u, t.warp? e.k = some u ∧ w.SameButRegs u ∧ u.v.length = w.v.length ∧
      (∀ r ∉ ns, (u.vreg r).content = (w.vreg r).content) ∧
      ∀ r ∈ ns, ∃ q, (u.vreg r).content = (e.filled d x r q).content ∧
        q.shape = if e.fullWrite d then x.written else .g := by
  induction ns generalizing s w with
  | nil =>
    obtain rfl := Option.some.inj h
    exact ⟨w, hw, .refl w, rfl, fun _ _ => rfl, fun _ hr => absurd hr List.not_mem_nil⟩
  | cons n ns ih =>
    rw [List.foldlM_cons] at h
    obtain ⟨s1, hone, hrest⟩ := Option.bind_eq_some_iff.1 h
    obtain ⟨u1, q, hu1, hsettles, hshape⟩ := Env.writeReg_settles hw (hns n List.mem_cons_self) hone
    obtain ⟨u, hu, hframe, hlen, hkept, hwritten⟩ :=
      ih hu1 (fun m hm => hsettles.length ▸ hns m (List.mem_cons_of_mem n hm)) hrest
    refine ⟨u, hu, hsettles.frame.trans hframe, hlen.trans hsettles.length, fun r hr => ?kept, fun r hr => ?written⟩
    case kept =>
      rw [List.mem_cons, not_or] at hr
      exact (hkept r hr.2).trans (hsettles.other r hr.1)
    case written =>
      by_cases hlater : r ∈ ns
      · exact hwritten r hlater
      · obtain rfl := (List.mem_cons.1 hr).resolve_right hlater
        exact ⟨q, (hkept r hlater).trans (congrArg VReg.content hsettles.same), hshape⟩

/-- Writing registers in part that all hold their rows changes the warp alone, and only the lanes written. -/
theorem Env.writeRegs_inRow {e : Env} {named : List Nat} {d : Operand} {x : VRes} {t : State} {ns : List Nat} {s : State}
    {w : Warp} (hw : s.warp? e.k = some w) (hfull : e.fullWrite d = false)
    (hns : ∀ n ∈ ns, n < w.v.length ∧ (w.vreg n).inRow)
    (h : ns.foldlM (e.writeReg named d x) s = some t) :
    (∃ teams, t = { s with teams := teams }) ∧ ∃ u, t.warp? e.k = some u ∧ ∀ r, ∀ l < e.width,
      (e.w.lanesTo d e.width e.m r).has l = false → (u.vreg r).at l = (w.vreg r).at l := by
  induction ns generalizing s w with
  | nil =>
    obtain rfl := Option.some.inj h
    exact ⟨⟨_, rfl⟩, w, hw, fun _ _ _ _ => rfl⟩
  | cons n ns ih =>
    rw [List.foldlM_cons] at h
    obtain ⟨s1, hone, hrest⟩ := Option.bind_eq_some_iff.1 h
    obtain ⟨hn, hrow⟩ := hns n List.mem_cons_self
    obtain ⟨_, rfl⟩ := Env.writeReg_inRow hw hrow hone
    have hu1 := Env.writeReg_inRow_partial hw hfull hrow hone
    have hlen := (Warp.refill_settles (e := e) hn d x (w.vreg n).row).length
    obtain ⟨⟨teams, ht⟩, u, hu, hkept⟩ := ih hu1 (fun m hm => by
      obtain ⟨hm, hmrow⟩ := hns m (List.mem_cons_of_mem n hm)
      exact ⟨hlen ▸ hm, Warp.inRow_refill hn d x _ hmrow⟩) hrest
    exact ⟨⟨teams, ht⟩, u, hu, fun r l hl hr => (hkept r l hl hr).trans (Warp.at_refill hn d x _ hl hr)⟩

theorem sameMemory_of_teams (s : State) (teams : List Team) : sameMemory s { s with teams := teams } :=
  ⟨fun _ => rfl, fun _ => rfl, fun _ => rfl, rfl, rfl, rfl⟩

theorem State.readSlot_shape (s : State) (k : WKey) (v : Nat) (r : VReg) : (s.readSlot k v r).1.shape = r.shape := by
  unfold State.readSlot; split <;> rfl

/-- A result shape other than G is the result's own. -/
theorem VRes.shape_of_written {x : VRes} {full : Bool} {sh : Shape} (h : (if full then x.written else .g) = sh)
    (hne : sh ≠ .g) : x.shape = sh := by
  cases full
  · exact absurd h.symm hne
  · unfold VRes.written at h
    split at h
    · split at h
      · exact h
      · exact absurd h.symm hne
    · exact absurd h.symm hne

/-- A destination in whose place one register stands is written as that one. -/
theorem Env.write_one {e : Env} {named : List Nat} {d : Operand} {x : VRes} {n : Nat}
    (hone : (e.w.destRegs d e.lanes).1 = [n]) : e.write named d x = e.writeReg named d x e.s n := by
  rw [Env.write_eq, hone, List.foldlM_cons]
  simp

section

variable {e : Env} {named : List Nat} {d : Operand} {x : VRes} {t : State} {u : Warp} (hw : e.s.warp? e.k = some e.w)
  (h : e.write named d x = some t) (hut : t.warp? e.k = some u) {n l : Nat} (hl : l < e.width)
include hw h hut hl

section

variable (hone : (e.w.destRegs d e.lanes).1 = [n]) (hn : n < e.w.v.length) (hfull : e.fullWrite d = false)
  (hunwritten : (e.w.lanesTo d e.width e.m n).has l = false)
include hone hn hfull hunwritten

/-- A lane that is not written, of a single destination that holds its row or needs none, keeps its value (R91). -/
theorem Env.write_keeps_resident (hres : ¬ (e.w.vreg n).inSlot) : (u.vreg n).at l = (e.w.vreg n).at l := by
  rw [Env.write_one hone] at h
  obtain ⟨u', row, hu', hsettles⟩ := Env.writeReg_resident hw hn hfull hres h
  obtain rfl := Option.some.inj (hut.symm.trans hu')
  rw [hsettles.same, Env.filled, VReg.at_fill_general rfl hl, hunwritten, if_neg nofun, VReg.at_general _ hl]

/-- A lane that is not written, of a single destination that is spilled, is that of its slot (R97). -/
theorem Env.write_reloads_inSlot {row : Nat} {s1 : State} (hslot : (e.w.vreg n).inSlot)
    (htake : e.s.takeRow e.k e.t.kernel.g (n :: named) = some (row, s1)) :
    (u.vreg n).at l = (s1.readSlot e.k n (e.w.vreg n)).1.lanes.getD l 0 := by
  rw [Env.write_one hone] at h
  obtain ⟨row', s1', u', row'', htake', hu', hsettles⟩ := Env.writeReg_inSlot hw hn hfull hslot h
  obtain rfl := Option.some.inj (hut.symm.trans hu')
  obtain ⟨rfl, rfl⟩ := Prod.mk.inj (Option.some.inj (htake.symm.trans htake'))
  rw [hsettles.same, Env.filled, VReg.at_fill_general rfl hl, hunwritten, if_neg nofun, VReg.at_general _ hl]
  simp only [VReg.at, VReg.reloaded, State.readSlot_shape, hslot.1]

end

/-- A lane that is not written, when every destination holds its row, keeps its value. -/
theorem Env.write_keeps_inRow (hfull : e.fullWrite d = false)
    (hrows : ∀ r ∈ (e.w.destRegs d e.lanes).1, r < e.w.v.length ∧ (e.w.vreg r).inRow)
    (hunwritten : (e.w.lanesTo d e.width e.m n).has l = false) : (u.vreg n).at l = (e.w.vreg n).at l := by
  rw [Env.write_eq] at h
  obtain ⟨-, u', hu', hkept⟩ := Env.writeRegs_inRow hw hfull hrows h
  obtain rfl := Option.some.inj (hut.symm.trans hu')
  exact hkept n l hl hunwritten

end

/-- The shape that a write leaves its destinations (R91, R345). -/
theorem Env.writtenShape_eq (e : Env) (d : Operand) (x : VRes) : (if e.fullWrite d then x.written else .g) =
    if e.m = fullMask e.width ∧ (e.w.destRegs d e.lanes).2 = false ∧ x.poison = 0 then x.shape else .g := by
  simp only [Env.fullWrite_iff, VRes.written, ← and_assoc]
  by_cases hfull : e.m = fullMask e.width ∧ (e.w.destRegs d e.lanes).2 = false
  · simp only [if_pos hfull, and_iff_right hfull]
  · rw [if_neg hfull, if_neg fun hall => hfull hall.1]

/-- A vector write whose destinations hold their rows changes no memory (R76, R95). -/
theorem Env.write_sameMemory {e : Env} {named : List Nat} {d : Operand} {x : VRes} {t : State}
    (hw : e.s.warp? e.k = some e.w) (h : e.write named d x = some t)
    (hrows : ∀ r ∈ (e.w.destRegs d e.lanes).1, r < e.w.v.length ∧ (e.w.vreg r).inRow) :
    sameMemory e.s t := by
  cases hfull : e.fullWrite d with
  | false =>
    rw [Env.write_eq] at h
    obtain ⟨⟨teams, rfl⟩, -⟩ := Env.writeRegs_inRow hw hfull hrows h
    exact sameMemory_of_teams e.s teams
  | true =>
    cases hregs : (e.w.destRegs d e.lanes).1 with
    | nil =>
      rw [Env.write_eq, hregs] at h
      obtain rfl := Option.some.inj h
      exact sameMemory_of_teams e.s e.s.teams
    | cons n _ =>
      have hn : n ∈ (e.w.destRegs d e.lanes).1 := hregs ▸ List.mem_cons_self
      obtain ⟨hone, -⟩ := Warp.destRegs_uniform (Env.fullWrite_iff.1 hfull).2 hn
      rw [Env.write_one hone] at h
      obtain ⟨teams, rfl⟩ := Env.writeReg_inRow hw (hrows n hn).2 h
      exact sameMemory_of_teams e.s teams

/-- Settles O11: the destinations are settled and filled one after another; a lane that is not written is looked up
before the write, or in the slot that its register is reloaded from. -/
theorem vectorWritesReadBack : Obligations.VectorWritesReadBack := by
  intro e named d x t hteam hw hwidth hvals hu ha hreg hlanes h
  have hdst {r : Nat} : r ∈ (e.w.destRegs d e.lanes).1 ↔ ∃ l ∈ e.lanes, e.w.regOf d l = some r :=
    Warp.mem_destRegs hlanes
  have hlt : ∀ n ∈ (e.w.destRegs d e.lanes).1, n < e.w.v.length := fun n hn => by
    obtain ⟨l, hl, hlr⟩ := hdst.1 hn
    exact hreg l hl n hlr
  have hlanesTo {l : Nat} (hl : l < e.width) (r : Nat) := Warp.lanesTo_has (w := e.w) (d := d) (n := r) (m := e.m) hl hwidth
  have hunwritten {l : Nat} (hl : l < e.width) {r : Nat} (hnot : ¬ (e.m.has l = true ∧ e.w.regOf d l = some r)) :
      (e.w.lanesTo d e.width e.m r).has l = false := Bool.eq_false_iff.2 (mt (hlanesTo hl r).1 hnot)
  obtain ⟨u, hut, hframe, hlen, hkept, hwritten⟩ := Env.writeRegs_settle hw hlt ((e.write_eq named d x).symm.trans h)
  refine ⟨⟨u, hut, ⟨fun r hr l hl => ⟨fun hm hlr => ?written, fun hnot hcase => ?kept⟩,
    fun n row s1 hone hpart hg hspilled htake l hl hnot => ?reloaded⟩, fun r hr => ?shape, ?frame⟩,
    fun hrows => ?memory⟩
  case written =>
    obtain ⟨q, hcontent, hshape⟩ := hwritten r (hdst.2 ⟨l, mem_maskLanes.2 ⟨hl, hm⟩, hlr⟩)
    rw [VReg.at_of_content hcontent]
    exact VReg.at_fill_written hl ((hlanesTo hl r).2 ⟨hm, hlr⟩)
      (fun hq => hu (VRes.shape_of_written (hshape.symm.trans hq) nofun))
      (fun hq => ha (VRes.shape_of_written (hshape.symm.trans hq) nofun))
  case kept =>
    by_cases hr' : r ∈ (e.w.destRegs d e.lanes).1
    case neg => exact VReg.at_of_content (hkept r hr') l
    have hpart : e.fullWrite d = false := Bool.eq_false_iff.2 fun hfull => by
      obtain ⟨hm, heach⟩ := Env.fullWrite_iff.1 hfull
      obtain ⟨-, hreg⟩ := Warp.destRegs_uniform heach hr'
      exact hnot ⟨hm ▸ fullMask_has hl hwidth, hreg l⟩
    rcases hcase with hno | hfull | ⟨hone, hres⟩ | hrows
    · exact absurd hr' hno
    · exact absurd (Env.fullWrite_iff.2 hfull) (Bool.eq_false_iff.1 hpart)
    · exact Env.write_keeps_resident hw h hut hl hone hr hpart (hunwritten hl hnot) fun ⟨hg, hslot⟩ =>
        Bool.false_ne_true ((hres hg).symm.trans hslot)
    · exact Env.write_keeps_inRow hw h hut hl hpart (fun n hn => ⟨hlt n hn, hrows n hn⟩) (hunwritten hl hnot)
  case reloaded =>
    exact Env.write_reloads_inSlot hw h hut hl hone (hlt n (hone ▸ List.mem_cons_self))
      (Bool.eq_false_iff.2 (mt Env.fullWrite_iff.1 hpart)) (hunwritten hl hnot) ⟨hg, hspilled⟩ htake
  case shape =>
    obtain ⟨q, hcontent, hshape⟩ := hwritten r hr
    exact (VReg.shape_of_content hcontent).trans (VReg.fill_shape.trans (hshape.trans (e.writtenShape_eq d x)))
  case frame =>
    obtain ⟨v, sp, rl, rfl⟩ := hframe
    exact ⟨rfl, rfl, rfl, rfl, rfl, rfl, rfl, rfl, hlen⟩
  case memory => exact Env.write_sameMemory hw h fun n hn => ⟨hlt n hn, hrows n hn⟩

end Sys2Proof.Machine
end

section
/-!
SUPPORT. The register instructions (R104 to R110), and a vector result after the move to the next instruction.
-/

namespace Sys2Proof.Machine

/-! ## The register instructions -/

/-- An instruction whose effect is to put a result, raising no flags, gives it where rows can be had. -/
theorem Env.gives_of_put {e : Env} {i : Instr} {g : Sig} {d : Operand} {x : VRes} {f : Env → Act}
    (hx : ∀ s, exec i s = runSeq i s f) (hf : f e = e.put i d x) : e.Gives i g d x := fun hr hroom => by
  obtain ⟨t, ht⟩ := write_some hroom x
  exact ⟨t, ht, by rw [hx]; exact runSeq_next hr (hf.trans (put_ready hr ht))⟩

/-- The value that `mkaff` forms: base + l * stride in lane l, uniform when the stride is 0 (R106). -/
def Env.affine (e : Env) (base : Word) (stride : BitVec 32) : VRes :=
  { shape := if stride = 0 then .u else .a, stride := stride
    vals := (List.range e.width).map fun l => base + BitVec.ofNat 64 l * stride.signExtend 64 }

theorem Env.gives_mkaff (e : Env) (g : Sig) (o : Ops (BitVec 16)) :
    e.Gives (.mkaff o) g o.d (e.affine (e.scalar o.a) ((e.scalar o.b).setWidth 32)) :=
  Env.gives_of_put (exec_mkaff · o) rfl

/-- Settles O24: each instruction puts its result, sets its register or changes its warp; `expand` and `xmov` by case. -/
theorem registerMoveResults : Obligations.RegisterMoveResults := by
  intro g e
  refine ⟨fun o => ⟨?mov, ?movi⟩, fun o => ⟨fun r ha hm => ?info, fun r ha hm => ?base, fun hm => ?counts, ?mkaff,
    fun r hd hg => ?isGeneral, fun r t hd hg ht => ?expand, ?xset, fun hm => ?values, fun hm => ?bound, fun hm => ?copy⟩⟩
  case mov => exact Env.gives_of_put (exec_mov · o) rfl
  case movi => exact Env.gives_of_put (exec_movi · o) rfl
  case info => exact Env.does_of_runSeq (exec_shape · o) (by simp only [hm, ha]; rfl)
  case base => exact Env.does_of_runSeq (exec_shape · o) (by simp only [hm, ha]; rfl)
  case counts => exact Env.does_of_runSeq (exec_shape · o) (by simp only [hm]; rfl)
  case mkaff => exact e.gives_mkaff g o
  case isGeneral => exact Env.does_of_runSeq (exec_expand · o) (by rw [hd]; exact if_pos hg)
  case expand => exact Env.does_of_runSeq (exec_expand · o) (by rw [hd]; exact (if_neg hg).trans (congrArg e.orWait ht))
  case xset => exact Env.does_of_runSeq (exec_xset · o) rfl
  case values => exact Env.gives_of_put (exec_xmov · o) (by simp only [mfield, hm]; rfl)
  case bound => exact Env.does_of_runSeq (exec_xmov · o) (by simp only [mfield, hm]; rfl)
  case copy => exact Env.does_of_runSeq (exec_xmov · o) (by simp only [mfield, hm]; rfl)

/-! ## The vector registers after the move to the next instruction -/

/-- The warp is there, with these vector registers. -/
def State.hasRegs (s : State) (k : WKey) (v : List VReg) : Prop := ∃ u, s.warp? k = some u ∧ u.v = v

section

variable {s : State} {k : WKey} {v : List VReg}

theorem State.hasRegs.modWarp (h : s.hasRegs k v) {f : Warp → Warp} (hnum : ∀ u : Warp, (f u).num = u.num)
    (hv : ∀ u : Warp, (f u).v = u.v) : (s.modWarp k f).hasRegs k v := by
  obtain ⟨u, hu, rfl⟩ := h
  exact ⟨f u, State.modWarp_reads hu hnum, hv u⟩

/-- A change of a team that changes each of its warps of one number keeps what the change keeps of the warp. -/
theorem State.hasRegs.modTeam (h : s.hasRegs k v) {f : Team → Team} {g : Team → Warp → Warp}
    (his : ∀ t : Team, (f t).is k.team = t.is k.team)
    (hwarps : ∀ t : Team, (f t).warps = updIf (·.num == k.w) (g t) t.warps)
    (hnum : ∀ t (u : Warp), (g t u).num = u.num) (hv : ∀ t (u : Warp), (g t u).v = u.v) :
    (s.modTeam k.team f).hasRegs k v := by
  obtain ⟨u, hu, rfl⟩ := h
  obtain ⟨t, ht, htu⟩ := Option.bind_eq_some_iff.1 hu
  refine ⟨g t u, ?_, hv t u⟩
  have hfind := find_updIf (fun w : Warp => w.num == k.w) (g t) t.warps fun w hw => by rwa [hnum]
  rw [State.warp?, State.modTeam_team? _ _ _ fun t ht => (his t).trans ht, ht, Option.map_some, Option.bind_some,
    Team.warp?, hwarps, hfind]
  exact Option.map_eq_some_iff.2 ⟨u, htu, rfl⟩

theorem State.hasRegs.of_teams {t : State} (h : s.hasRegs k v) (ht : t.teams = s.teams) : t.hasRegs k v := by
  rwa [State.hasRegs, State.warp?_of_teams ht]

theorem State.hasRegs.dropWait (h : s.hasRegs k v) : (s.dropWait k).hasRegs k v := by
  unfold State.dropWait
  split
  · split
    · exact h
    · exact (h.of_teams (State.emit_teams ..)).modWarp (fun _ => rfl) fun _ => rfl
  · exact h

theorem State.hasRegs.endWait (h : s.hasRegs k v) : (s.endWait k).hasRegs k v := by
  unfold State.endWait
  split
  · exact h
  · split
    · exact h.modWarp (fun _ => rfl) fun _ => rfl
    · exact h.dropWait

theorem State.hasRegs.suspendWait (h : s.hasRegs k v) : (s.suspendWait k).hasRegs k v := by
  unfold State.suspendWait
  split
  · exact h
  · exact h.dropWait.modWarp (fun _ => rfl) fun _ => rfl

theorem Team.beginHalt_is (t : Team) (k : TKey) : t.beginHalt.is k = t.is k := by
  unfold Team.beginHalt; split <;> rfl

theorem State.hasRegs.endStep (h : s.hasRegs k v) : (s.endStep k).hasRegs k v := by
  unfold State.endStep
  split
  · exact h
  · split
    · refine State.hasRegs.modTeam ?_ (fun t => t.beginHalt_is k.team) (fun _ => rfl) (fun _ _ => rfl) fun _ _ => rfl
      split
      · exact h
      · exact h.suspendWait
    · exact h

theorem State.hasRegs.issued (h : s.hasRegs k v) : (s.issued k).hasRegs k v :=
  State.hasRegs.endStep (h.modTeam (fun _ => rfl) (fun _ => rfl) (fun _ _ => rfl) fun _ _ => rfl)

/-- Moving on by a back edge that does not trap (R72). -/
theorem State.hasRegs.advance (h : s.hasRegs k v) (hedge : s.edgeOk k) : (s.advance k).hasRegs k v := by
  obtain ⟨w, hw, -⟩ := id h
  cases hend : w.atEnd with
  | false => exact s.advance_next k w hw hend ▸ h.modWarp (fun _ => rfl) fun _ => rfl
  | true =>
    obtain ⟨x, hx⟩ := hedge w hw hend
    rw [State.advance_atEnd hw hend, State.doBackEdge_ok hw hx]
    exact h.modWarp (fun _ => rfl) fun _ => rfl

end

theorem Env.after_hasRegs {e : Env} {t : State} {v : List VReg} (h : t.hasRegs e.k v) (hedge : t.edgeOk e.k) :
    (e.after t).hasRegs e.k v := (h.advance hedge).endWait.issued

/-- Whether a back edge traps does not depend on vector registers (R72). -/
theorem Warp.SameButRegs.backEdge_ok {w u x : Warp} (h : w.SameButRegs u) {fuel : Nat} (hx : w.backEdge fuel = .ok x) :
    ∃ y, u.backEdge fuel = .ok y := by
  induction fuel generalizing w u with
  | zero => exact ⟨u, rfl⟩
  | succ fuel ih =>
    obtain ⟨v, sp, rl, rfl⟩ := h
    cases hloops : w.loops with
    | nil =>
      simp only [Warp.backEdge]
      exact ⟨_, rfl⟩
    | cons lv outer =>
      simp only [Warp.backEdge, hloops] at hx ⊢
      split at hx
      next => cases hx
      next hdepth =>
        rw [if_neg hdepth]
        split at hx
        next hmore =>
          rw [if_pos hmore]
          exact ⟨_, rfl⟩
        next hlast =>
          rw [if_neg hlast]
          cases outer with
          | nil => exact ⟨_, rfl⟩
          | cons lv' outer =>
            dsimp only at hx ⊢
            split at hx
            next hfin =>
              rw [if_pos hfin]
              exact ih ⟨v, sp, rl, rfl⟩ hx
            next hfin =>
              rw [if_neg hfin]
              exact ⟨_, rfl⟩

theorem State.edgeOk.of_sameButRegs {s t : State} {k : WKey} {w u : Warp} (h : s.edgeOk k) (hw : s.warp? k = some w)
    (hu : t.warp? k = some u) (hwu : w.SameButRegs u) : t.edgeOk k := by
  intro u' hu' hend
  obtain rfl := Option.some.inj (hu.symm.trans hu')
  have hend' : w.atEnd = true := by
    obtain ⟨_, _, _, rfl⟩ := hwu
    exact hend
  obtain ⟨x, hx⟩ := h w hw hend'
  exact hwu.backEdge_ok hx

/-! ## The affine value of `mkaff` (R106) -/

theorem Env.affine_getD (e : Env) (base : Word) (stride : BitVec 32) {l : Nat} (hl : l < e.width) :
    (e.affine base stride).vals.getD l 0 = base + BitVec.ofNat 64 l * stride.signExtend 64 := by
  simp [Env.affine, hl]

/-- A register that an affine value fills, in a lane that is written. -/
theorem Env.at_fill_affine {e : Env} {base : Word} {stride : BitVec 32} {q : VReg} {m : Mask} {l : Nat} (hl : l < e.width)
    (hm : m.has l = true) (hu : q.shape = .u → stride = 0) :
    (q.fill e.width m (e.affine base stride)).at l = base + BitVec.ofNat 64 l * stride.signExtend 64 := by
  have hzero : (e.affine base stride).vals.getD 0 0 = base := by rw [e.affine_getD _ _ (Nat.zero_lt_of_lt hl)]; simp
  rw [← e.affine_getD base stride hl]
  refine VReg.at_fill_written hl hm (fun hq j hj => ?_) fun hq j hj => ?_
  · rw [e.affine_getD _ _ hj, hzero, hu hq]; simp
  · rw [e.affine_getD _ _ hj, hzero]; rfl

/-- Base and stride of a uniform or affine register that an affine value fills. -/
theorem Env.fill_affine_base_stride {e : Env} {base : Word} {stride : BitVec 32} {q : VReg} (m : Mask) (hpos : 0 < e.width)
    (hq : q.shape = if stride = 0 then .u else .a) :
    (q.fill e.width m (e.affine base stride)).base = base ∧ (q.fill e.width m (e.affine base stride)).stride = stride := by
  by_cases hstride : stride = 0
  · rw [if_pos hstride] at hq
    simp only [VReg.fill, hq, hstride, e.affine_getD _ _ (headD_maskLanes_lt hpos)]
    simp
  · rw [if_neg hstride] at hq
    simp only [VReg.fill, hq, e.affine_getD _ _ hpos]
    simp [Env.affine]

/-- Settles O25: the write of the affine value, as it settles and fills its one register, and the move after it. -/
theorem mkaffFormsAnAffineValue : Obligations.MkaffFormsAnAffineValue := by
  intro g e o n hd hn hpos hwidth hedge hr hroom base stride
  have hstride : (e.scalar o.b).setWidth 32 = stride := BitVec.setWidth_eq_extractLsb' (by decide)
  obtain ⟨t, ht, hexec⟩ := e.gives_mkaff g o hr hroom
  rw [hstride] at ht
  have hone : e.w.destRegs o.d e.lanes = ([n.toNat], false) := by rw [hd]; rfl
  have hfull : e.fullWrite o.d = true ↔ e.m = fullMask e.width := by simp [Env.fullWrite_iff, hone]
  rw [Env.write_one (congrArg Prod.fst hone)] at ht
  obtain ⟨u, q, hu, hsettles, hshape⟩ := Env.writeReg_settles hr.warp hn ht
  obtain ⟨u', hu', hv⟩ := Env.after_hasRegs ⟨u, hu, rfl⟩ (hedge.of_sameButRegs hr.warp hu hsettles.frame)
  have hreg : u'.vreg n.toNat = e.filled o.d (e.affine base stride) n.toNat q := by
    rw [← hsettles.same, Warp.vreg, hv]; rfl
  refine ⟨_, u', hexec, hu', ?_⟩
  rw [hreg]
  refine ⟨fun l hl => ?lanes, fun hm => ?full, fun hm => ?part⟩
  case lanes =>
    obtain ⟨hl, hm⟩ := mem_maskLanes.1 hl
    refine Env.at_fill_affine hl ((Warp.lanesTo_has hl hwidth).2 ⟨hm, by rw [hd]; rfl⟩) fun hq => ?_
    have hu := VRes.shape_of_written (hshape.symm.trans hq) nofun
    exact Decidable.byContradiction fun hne => absurd ((if_neg hne).symm.trans hu) nofun
  case full =>
    rw [if_pos (hfull.2 hm)] at hshape
    exact ⟨VReg.fill_shape.trans hshape, Env.fill_affine_base_stride _ hpos hshape⟩
  case part => exact VReg.fill_shape.trans (hshape.trans (if_neg (mt hfull.1 hm)))

end Sys2Proof.Machine
end

section
/-!
SUPPORT. The vector floating-point instructions (R119 to R122, R132 to R134), the conversions (R135 to R137) and the
instructions that read and clear %flags (R124).
-/

namespace Sys2Proof.Machine

/-! ## A result and its flags -/

section

variable {e : Env} {i : Instr} {g : Sig} {d : Operand} {f : Env → Act}

/-- Putting a result and then a further change: a ready instruction makes both where rows can be had (R95). -/
theorem Env.next_of_put_andThen {x : VRes} {h : State → State} (hx : ∀ s, exec i s = runSeq i s f)
    (hf : f e = (e.put i d x).andThen h) (hr : Ready i g e) (hroom : e.HasRoom g d) :
    ∃ t, e.write (e.named g) d x = some t ∧ exec i e.s = .next (e.after (h t)) := by
  obtain ⟨t, ht⟩ := write_some hroom x
  have hnext : f e = .next (h t) := by rw [hf, put_ready hr ht]; rfl
  exact ⟨t, ht, by rw [hx, runSeq_next hr hnext]⟩

/-- Writing the elements of `r` gives them, with the flags of all the elements of a lane (R122). -/
theorem Env.gives_of_fpWrite {nf : Bool} {ty : Typ} {pk : BitVec 2} {srcs : List SrcShape} {r : Nat → Nat → FpRes}
    (hx : ∀ s, exec i s = runSeq i s f) (hf : f e = e.fpWrite i d nf ty pk srcs r) :
    e.Gives i g d (e.elemwise ty pk srcs none fun l k => (r l k).code) nf fun l => laneFlags pk (r l) :=
  next_of_put_andThen hx hf

end

section

variable {e : Env} {i : Instr} {g : Sig} {o : Ops MA}

/-- What an instruction that runs as a unary element-wise operation gives, and one that runs as a binary one. -/
theorem Env.gives_of_vec1 {f : Nat → Nat} {r : Nat → Nat → Nat} (hx : ∀ s, exec i s = vec1 i o s f)
    (hr : ∀ l k, f (e.elem o.mod.ty o.a l k) = r l k) :
    e.Gives i g o.d (e.elemwise o.mod.ty o.mod.pk [e.w.srcShape o.a] none r) := by
  obtain rfl : (fun l k => f (e.elem o.mod.ty o.a l k)) = r := funext fun l => funext (hr l)
  exact gives_of_put hx rfl

theorem Env.gives_of_vec2 {f : Nat → Nat → Nat} {r : Nat → Nat → Nat} (hx : ∀ s, exec i s = vec2 i o s f)
    (hr : ∀ l k, f (e.elem o.mod.ty o.a l k) (e.elemB o l k) = r l k) :
    e.Gives i g o.d (e.elemwise o.mod.ty o.mod.pk [e.w.srcShape o.a, e.w.srcShapeB o] none r) := by
  obtain rfl : (fun l k => f (e.elem o.mod.ty o.a l k) (e.elemB o l k)) = r := funext fun l => funext (hr l)
  exact gives_of_put (fun s => (hx s).trans (vec2_eq ..)) rfl

/-- What a unary floating-point operation on codes gives, and a binary one: the flags of the operands read join those
of the result (R121). -/
theorem Env.gives_of_flt1 {f : FpFmt → Nat → FpRes} {r : Nat → Nat → FpRes} (hx : ∀ s, exec i s = flt1 i o s f)
    (hr : ∀ l k, let a := e.elem o.mod.ty o.a l k
      (f (fpOf o.mod.ty) a).reading (fpOf o.mod.ty) [a] = r l k) :
    e.Gives i g o.d (e.elemwise o.mod.ty o.mod.pk [e.w.srcShape o.a] none fun l k => (r l k).code) o.nf
      fun l => laneFlags o.mod.pk (r l) := by
  obtain rfl := funext fun l => funext (hr l)
  exact gives_of_fpWrite hx rfl

theorem Env.gives_of_flt2 {f : FpFmt → Nat → Nat → FpRes} {r : Nat → Nat → FpRes} (hx : ∀ s, exec i s = flt2 i o s f)
    (hr : ∀ l k, let a := e.elem o.mod.ty o.a l k; let b := e.elemB o l k
      (f (fpOf o.mod.ty) a b).reading (fpOf o.mod.ty) [a, b] = r l k) :
    e.Gives i g o.d (e.elemwise o.mod.ty o.mod.pk [e.w.srcShape o.a, e.w.srcShapeB o] none fun l k => (r l k).code) o.nf
      fun l => laneFlags o.mod.pk (r l) := by
  obtain rfl := funext fun l => funext (hr l)
  exact gives_of_fpWrite hx rfl

/-- The fused operation of R132 on three codes: the product and the addend, each with its sign turned or not, summed
exactly and rounded once. -/
def fusedResult (f : FpFmt) (rnd : Rnd) (negP negC : Bool) (x y z : Nat) : FpRes :=
  let p := fpMul (f.val x) (f.val y)
  let s := fpSum rnd [if negP then p.1.flip else p.1, if negC then (f.val z).flip else f.val z]
  (f.finish rnd false (s.1, s.2 ||| p.2)).reading f [x, y, z]

/-- What an instruction that runs as a fused multiply-add gives, with the operand C that its immediate field names. -/
theorem Env.gives_of_fltFma {negP negC : Bool} {c : Operand} (hc : cOperand o.imm = some c)
    (hx : ∀ s, exec i s = fltFma i o s negP negC) :
    let res (l k : Nat) : FpRes := fusedResult (fpOf o.mod.ty) o.mod.rnd negP negC (e.elem o.mod.ty o.a l k)
      (e.elem o.mod.ty o.b l k) (e.elem o.mod.ty c l k)
    e.Gives i g o.d (e.elemwise o.mod.ty o.mod.pk [e.w.srcShape o.a, e.w.srcShape o.b, e.w.srcShape c] none
      fun l k => (res l k).code) o.nf fun l => laneFlags o.mod.pk (res l) := by
  refine gives_of_fpWrite hx ?_
  simp only [hc, Option.getD_some]
  rfl

end

/-- Settles O20: each instruction is one of the shared operations, or writes its own elements and flags; those that
move bits put their result and raise none. -/
theorem vectorFloatResults : Obligations.VectorFloatResults := by
  intro g e o ty f rnd sa sb a b writes one two bits
  refine ⟨?fadd, ?fsub, ?fmul, fun c hc => ⟨?fma, ?fnma, ?fms, ?fnms⟩, ?fmin, ?fmax, ?fabs, ?fneg, ?fcpsgn, ?fclass,
    ?frcp, ?frnd, ?fscale, ?fexpt, ?fmant, ?fsat, ?fdot2⟩
  case fadd => exact Env.gives_of_flt2 (exec_fadd · o) fun _ _ => rfl
  case fsub => exact Env.gives_of_flt2 (exec_fsub · o) fun _ _ => rfl
  case fmul => exact Env.gives_of_flt2 (exec_fmul · o) fun _ _ => rfl
  case fma => exact Env.gives_of_fltFma hc (exec_fma · o)
  case fnma => exact Env.gives_of_fltFma hc (exec_fnma · o)
  case fms => exact Env.gives_of_fltFma hc (exec_fms · o)
  case fnms => exact Env.gives_of_fltFma hc (exec_fnms · o)
  case fmin => exact Env.gives_of_flt2 (exec_fmin · o) fun _ _ => rfl
  case fmax => exact Env.gives_of_flt2 (exec_fmax · o) fun _ _ => rfl
  case fabs => exact Env.gives_of_vec1 (exec_fabs · o) fun _ _ => rfl
  case fneg => exact Env.gives_of_vec1 (exec_fneg · o) fun _ _ => rfl
  case fcpsgn => exact Env.gives_of_vec2 (exec_fcpsgn · o) fun _ _ => rfl
  case fclass => exact Env.gives_of_fpWrite (exec_fclass · o) rfl
  case frcp => exact Env.gives_of_flt1 (exec_frcp · o) fun _ _ => rfl
  case frnd => exact Env.gives_of_flt1 (exec_frnd · o) fun _ _ => rfl
  case fscale => exact Env.gives_of_fpWrite (exec_fscale · o) rfl
  case fexpt => exact Env.gives_of_flt1 (exec_fexpt · o) fun _ _ => rfl
  case fmant => exact Env.gives_of_flt1 (exec_fmant · o) fun _ _ => rfl
  case fsat => exact Env.gives_of_flt1 (exec_fsat · o) fun _ _ => rfl
  case fdot2 => exact Env.gives_of_fpWrite (exec_fdot2 · o) rfl

/-! ## The conversions and the flag instructions -/

/-- Writing three destinations one after another is the three vector writes. -/
theorem Env.putMany_three_ready {e : Env} {i : Instr} {g : Sig} (hr : Ready i g e) {d1 d2 d3 : Operand} {x1 x2 x3 : VRes}
    {t1 t2 t3 : State} (h1 : e.write (e.named g) d1 x1 = some t1)
    (h2 : ({ e with s := t1 } : Env).write (e.named g) d2 x2 = some t2)
    (h3 : ({ e with s := t2 } : Env).write (e.named g) d3 x3 = some t3) :
    e.putMany i [(d1, x1), (d2, x2), (d3, x3)] = .next t3 := by
  simp [putMany, hr.sig, h1, h2, h3, orWait]

/-- Settles O21: each instruction by the writes and the change of %flags that it makes. -/
theorem conversionResults : Obligations.ConversionResults := by
  intro g e
  refine ⟨fun o => ?cvt, fun o => ?cvtsc, fun o t1 t2 t3 => ?cvtmx, fun o => ⟨fun hk => ?read, fun hk => ?readAndClear,
    fun hb => ?clearImmediate, fun hb => ?clearLanes⟩⟩
  case cvt => exact Env.gives_of_fpWrite (exec_cvt · o) rfl
  case cvtsc => exact Env.gives_of_fpWrite (exec_cvtsc · o) rfl
  case cvtmx =>
    intro blk half h1 h2 h3 hr
    have hput := congrArg (Act.andThen · (e.raise o.nf fun l => (blk l).2.2)) (Env.putMany_three_ready hr h1 h2 h3)
    exact Env.does_of_runSeq (exec_cvtmx · o) hput hr
  case read => exact Env.next_of_put_andThen (h := id) (exec_flgr · o) (by simp only [hk]; rfl)
  case readAndClear => exact Env.next_of_put_andThen (exec_flgr · o) (by simp only [hk]; rfl)
  case clearImmediate => exact Env.does_of_runSeq (exec_flgc · o) (by simp only [hb]; rfl)
  case clearLanes => exact Env.does_of_runSeq (exec_flgc · o) (by simp only [hb]; rfl)

end Sys2Proof.Machine
end

section
/-!
SUPPORT. The vector integer instructions (R128, R130), the comparisons and the carry instruction (R131, R133).
-/

namespace Sys2Proof.Machine

/-! ## The vector integer instructions -/

section

variable {e : Env} {i : Instr} {g : Sig} {o : Ops MA}

/-- What an instruction that runs as a binary element-wise operation with an affine form gives. -/
theorem Env.gives_of_vec2Aff {aff : Env → Option Word} {f : Nat → Nat → Nat} {stride : Option Word}
    {r : Nat → Nat → Nat} (hx : ∀ s, exec i s = vec2Aff i o s aff f) (ha : aff e = stride)
    (hr : ∀ l k, f (e.elem o.mod.ty o.a l k) (e.elemB o l k) = r l k) :
    e.Gives i g o.d (e.elemwise o.mod.ty o.mod.pk [e.w.srcShape o.a, e.w.srcShapeB o] stride r) := by
  obtain rfl : (fun l k => f (e.elem o.mod.ty o.a l k) (e.elemB o l k)) = r := funext fun l => funext (hr l)
  exact gives_of_put hx (by rw [ha])

/-- What one that runs as a binary element-wise operation and reads D gives. -/
theorem Env.gives_of_vec2D {f : Nat → Nat → Nat → Nat} {r : Nat → Nat → Nat} (hx : ∀ s, exec i s = vec2D i o s f)
    (hr : ∀ l k, f (e.elem o.mod.ty o.a l k) (e.elemB o l k) (e.elem o.mod.ty o.d l k) = r l k) :
    e.Gives i g o.d
      (e.elemwise o.mod.ty o.mod.pk [e.w.srcShape o.a, e.w.srcShapeB o, e.w.srcShape o.d] none r) := by
  obtain rfl : (fun l k => f (e.elem o.mod.ty o.a l k) (e.elemB o l k) (e.elem o.mod.ty o.d l k)) = r :=
    funext fun l => funext (hr l)
  exact gives_of_put hx rfl

/-- What `ibfi` and `isel` give, with the operand C that their immediate field names (R14). -/
theorem Env.gives_ibfi {c : Operand} (hc : cOperand o.imm = some c) :
    e.Gives (.ibfi o) g o.d (e.elemwise o.mod.ty o.mod.pk [e.w.srcShape o.a, e.w.srcShape o.b, e.w.srcShape c] none
      fun l k => insertField o.mod.ty.width (e.elem o.mod.ty o.a l k) (e.elem o.mod.ty o.b l k)
        (e.elem o.mod.ty c l k)) :=
  gives_of_put (exec_ibfi · o) (by simp only [hc, Option.getD_some])

theorem Env.gives_isel {c : Operand} (hc : cOperand o.imm = some c) :
    e.Gives (.isel o) g o.d (e.elemwise o.mod.ty o.mod.pk [e.w.srcShape o.a, e.w.srcShape o.b, e.w.srcShape c] none
      fun l k => if e.lane c l = 0 then e.elem o.mod.ty o.b l k else e.elem o.mod.ty o.a l k) :=
  gives_of_put (exec_isel · o) (by simp only [hc, Option.getD_some, bne_iff_ne, ne_eq, ite_not])

/-- `isad` adds to the old element of D where SUB is 1, and does not where it is 0 (R131). -/
theorem exec_isad_of_sub_zero (h : o.mod.sub = 0) (s : State) : exec (.isad o) s = vec2 (.isad o) o s fun a b =>
    wrapInt o.mod.ty.width (readInt o.mod.ty a - readInt o.mod.ty b).natAbs :=
  (exec_isad s o).trans (if_neg (by rw [h]; decide))

theorem exec_isad_of_sub_one (h : o.mod.sub = 1) (s : State) : exec (.isad o) s = vec2D (.isad o) o s fun a b d =>
    wrapInt o.mod.ty.width (d + (readInt o.mod.ty a - readInt o.mod.ty b).natAbs) :=
  (exec_isad s o).trans (if_pos h)

/-- What `ilop3` gives: the second of its sources is the register after A (R131). -/
theorem Env.gives_ilop3 {r : BitVec 8} (ha : o.a = .v r) :
    e.Gives (.ilop3 o) g o.d
      (e.elemwise .z64 0 [e.w.srcShape o.a, e.w.srcShape (.v (r + 1)), e.w.srcShape o.d] none fun l k =>
        lop3 o.imm.toNat (e.elem .z64 o.a l k) (e.elem .z64 (.v (r + 1)) l k) (e.elem .z64 o.d l k)) := by
  have hpair : BitVec.ofNat 8 (o.a.vNum + 1) = r + 1 := by
    simp only [ha, Operand.vNum, BitVec.ofNat_add, BitVec.ofNat_toNat, BitVec.setWidth_eq, BitVec.ofNat_eq_ofNat]
  exact gives_of_put (exec_ilop3 · o) (by simp only [hpair])

end

/-- Settles O18: each instruction is one of the shared element-wise operations; its element function is the one that
the statement writes out. -/
theorem vectorIntegerResults : Obligations.VectorIntegerResults := by
  intro g e o ty w sa sb int one two three
  refine ⟨?iadd, ?isub, ?imul, ?imul24, ?imulh, ?imad24, ?iabs, ?ineg, ?imin, ?imax, ?iand, ?ior, ?ixor, ?inot, ?ishl,
    ?ishr, ?isra, ?irot, ?iclz, ?ipopc, ?ibrev, ?ibfe, fun c hc => ⟨?ibfi, ?isel⟩, ?iavg, fun h => ?isad,
    fun h => ?isadAdd, ?idp4, ?iext, fun r ha => ?ilop3, ?ishfd⟩
  case iadd => exact Env.gives_of_vec2Aff (exec_iadd · o) rfl fun _ _ => rfl
  case isub => exact Env.gives_of_vec2Aff (exec_isub · o) rfl fun _ _ => rfl
  case imul => exact Env.gives_of_vec2Aff (exec_imul · o) rfl fun _ _ => rfl
  case imul24 => exact Env.gives_of_vec2 (exec_imul24 · o) fun _ _ => rfl
  case imulh => exact Env.gives_of_vec2 (exec_imulh · o) fun _ _ => rfl
  case imad24 => exact Env.gives_of_vec2D (exec_imad24 · o) fun _ _ => rfl
  case iabs => exact Env.gives_of_vec1 (exec_iabs · o) fun _ _ => rfl
  case ineg => exact Env.gives_of_vec1 (exec_ineg · o) fun _ _ => congrArg (narrowInt ty o.mod.sat) (Int.zero_sub _)
  case imin => exact Env.gives_of_vec2 (exec_imin · o) fun _ _ => congrArg (narrowInt ty o.mod.sat) (Int.min_def ..).symm
  case imax => exact Env.gives_of_vec2 (exec_imax · o) fun _ _ => congrArg (narrowInt ty o.mod.sat) (Int.max_def ..).symm
  case iand => exact Env.gives_of_vec2 (exec_iand · o) fun _ _ => rfl
  case ior => exact Env.gives_of_vec2 (exec_ior · o) fun _ _ => rfl
  case ixor => exact Env.gives_of_vec2 (exec_ixor · o) fun _ _ => rfl
  case inot => exact Env.gives_of_vec1 (exec_inot · o) fun _ _ => rfl
  case ishl => exact Env.gives_of_vec2 (exec_ishl · o) fun _ _ => shlElem_eq ..
  case ishr => exact Env.gives_of_vec2 (exec_ishr · o) fun _ _ => shrElem_eq ..
  case isra => exact Env.gives_of_vec2 (exec_isra · o) fun _ _ => rfl
  case irot => exact Env.gives_of_vec2 (exec_irot · o) fun _ _ => rfl
  case iclz => exact Env.gives_of_vec1 (exec_iclz · o) fun _ _ => rfl
  case ipopc => exact Env.gives_of_vec1 (exec_ipopc · o) fun _ _ => popElem_eq ..
  case ibrev => exact Env.gives_of_vec1 (exec_ibrev · o) fun _ _ => rfl
  case ibfe => exact Env.gives_of_vec2 (exec_ibfe · o) fun _ _ => bitField_eq ..
  case ibfi => exact Env.gives_ibfi hc
  case isel => exact Env.gives_isel hc
  case iavg => exact Env.gives_of_vec2 (exec_iavg · o) fun _ _ => rfl
  case isad => exact Env.gives_of_vec2 (exec_isad_of_sub_zero h) fun _ _ => rfl
  case isadAdd => exact Env.gives_of_vec2D (exec_isad_of_sub_one h) fun _ _ => rfl
  case idp4 => exact Env.gives_of_vec2D (exec_idp4 · o) fun _ _ => rfl
  case iext => exact Env.gives_of_vec2 (exec_iext · o) fun _ _ => rfl
  case ilop3 => exact Env.gives_ilop3 ha
  case ishfd => exact Env.gives_of_vec2D (exec_ishfd · o) fun _ _ => rfl

/-! ## Comparisons and the carry -/

section

variable {e : Env} {i : Instr} {o : Ops MA} {f : Nat → Nat → Bool}

/-- A comparison whose destination is no predicate puts all ones or zeros in each element. -/
theorem Env.compare_of_not_predicate (hd : o.d.isP = false) : e.compare i o f =
    e.put i o.d (e.elemwise o.mod.ty o.mod.pk [e.w.srcShape o.a, e.w.srcShapeB o] none
      fun l k => if f l k then 2 ^ o.mod.ty.width - 1 else 0) := by
  obtain ⟨guard, nf, stall, yld, d, a, b, mod, imm⟩ := o
  cases d
  case p => cases hd
  all_goals rfl

/-- One to a predicate writes its effective lanes from the first element of each. -/
theorem Env.compare_of_predicate {n : BitVec 4} (hd : o.d = .p n) :
    e.compare i o f = .next (e.setLanes e.s n fun l => f l 0) := by simp only [Env.compare, hd]

end

/-- The carry in of a lane, as a number. -/
theorem intCast_b2n (b : Bool) : ((b2n b : Nat) : Int) = if b then 1 else 0 := by cases b <;> rfl

/-- Settles O19: a comparison by its destination; `iaddc` puts the sums and then writes the carries out. -/
theorem comparisonResults : Obligations.ComparisonResults := by
  intro g e o ty w sh ci cf fl mask
  refine ⟨fun hd => ?icmp, fun n hd => ?icmpPredicate, fun hd => ?fcmp, fun n hd => ?fcmpPredicate, ?iaddc⟩
  case icmp => exact Env.gives_of_put (exec_icmp · o) (Env.compare_of_not_predicate hd)
  case icmpPredicate => exact Env.does_of_runSeq (exec_icmp · o) (Env.compare_of_predicate hd)
  case fcmp =>
    exact Env.next_of_put_andThen (exec_fcmp · o)
      (congrArg (Act.andThen · (e.raise o.nf fl)) (Env.compare_of_not_predicate hd))
  case fcmpPredicate =>
    exact Env.does_of_runSeq (exec_fcmp · o)
      (congrArg (Act.andThen · (e.raise o.nf fl)) (Env.compare_of_predicate hd))
  case iaddc =>
    intro n sub c t hr hroom
    refine Env.next_of_put_andThen (exec_iaddc · o) ?_ hr hroom
      (h := fun u => e.setLanes u n fun l => if sub then decide (t l < 0) else decide (2 ^ w ≤ t l))
    simp only [intCast_b2n]
    rfl

end Sys2Proof.Machine
end

section
/-!
SUPPORT. The CORDIC instructions (R138, R139): the arguments of the exact column of Table 7-6, and the result of each
instruction by the kind of its argument.
-/

namespace Sys2Proof.Machine

/-! ## Arguments of the exact column -/

/-- The number m * 2^q is the integer j. -/
def IsInt (m : Nat) (q : Int) (j : Nat) : Prop := (q ≤ 0 ∧ m = j * 2 ^ (-q).toNat) ∨ (0 ≤ q ∧ j = m * 2 ^ q.toNat)

theorem isInteger_iff {m : Nat} {q : Int} : isInteger m q = true ↔ ∃ j, IsInt m q j := by
  rw [isInteger, Bool.or_eq_true, decide_eq_true_iff, beq_iff_eq]
  constructor
  · rintro (hq | hm)
    · exact ⟨_, .inr ⟨hq, rfl⟩⟩
    · rcases Int.le_total 0 q with hq | hq
      · exact ⟨_, .inr ⟨hq, rfl⟩⟩
      · exact ⟨m / 2 ^ (-q).toNat, .inl ⟨hq, (Nat.div_mul_cancel (Nat.dvd_of_mod_eq_zero hm)).symm⟩⟩
  · rintro ⟨j, ⟨-, rfl⟩ | ⟨hq, -⟩⟩
    · exact .inr (Nat.mul_mod_left ..)
    · exact .inl hq

/-- The integer itself, as the model computes it. -/
theorem IsInt.value {m : Nat} {q : Int} {j : Nat} (h : IsInt m q j) :
    (if 0 ≤ q then (m : Int) * 2 ^ q.toNat else (m : Int) / 2 ^ (-q).toNat) = j := by
  have hpow (k : Nat) : (2 : Int) ^ k = ((2 ^ k : Nat) : Int) := (Int.natCast_pow 2 k).symm
  rcases h with ⟨hq, hm⟩ | ⟨hq, hj⟩
  · split
    next hq0 =>
      obtain rfl : q = 0 := Int.le_antisymm hq hq0
      rw [hpow, ← Int.natCast_mul, hm]
      exact congrArg Int.ofNat (by rw [Int.neg_zero, Int.toNat_zero, Nat.pow_zero, Nat.mul_one, Nat.mul_one])
    next => rw [hpow, ← Int.natCast_ediv, hm, Nat.mul_div_cancel _ (Nat.two_pow_pos _)]
  · rw [if_pos hq, hpow, ← Int.natCast_mul, ← hj]

theorem log2_mul_two_pow {a : Nat} (ha : a ≠ 0) (n : Nat) : Nat.log2 (a * 2 ^ n) = Nat.log2 a + n := by
  induction n with
  | zero => rw [Nat.pow_zero, Nat.mul_one, Nat.add_zero]
  | succ n ih =>
    have hne : a * 2 ^ n ≠ 0 := Nat.mul_ne_zero ha (Nat.ne_of_gt (Nat.two_pow_pos n))
    rw [Nat.pow_succ', Nat.mul_left_comm, Nat.log2_two_mul hne, ih, Nat.add_assoc]

/-- The integer has the binary logarithm of its number. -/
theorem IsInt.log2 {m : Nat} {q : Int} {j : Nat} (h : IsInt m q j) (hm : m ≠ 0) :
    (Nat.log2 m : Int) + q = Nat.log2 j := by
  rcases h with ⟨hq, rfl⟩ | ⟨hq, rfl⟩
  · rw [log2_mul_two_pow (Nat.mul_ne_zero_iff.1 hm).1]; omega
  · rw [log2_mul_two_pow hm]; omega

theorem boundExp_natCast (j : Nat) : boundExp j = (min j 5000 : Nat) := by
  unfold boundExp
  omega

theorem IsInt.eq_zero_iff {m : Nat} {q : Int} {j : Nat} (h : IsInt m q j) : j = 0 ↔ m = 0 := by
  have hne (k : Nat) : 2 ^ k ≠ 0 := Nat.ne_of_gt (Nat.two_pow_pos k)
  rcases h with ⟨-, rfl⟩ | ⟨-, rfl⟩
  · rw [Nat.mul_eq_zero, or_iff_left (hne _)]
  · rw [Nat.mul_eq_zero, or_iff_left (hne _)]

/-- An integer argument of `cexp2`, bounded: past 5000 every format overflows or underflows. -/
theorem IsInt.bounded {m : Nat} {q : Int} {j : Nat} (h : IsInt m q j) :
    (if m = 0 then 0 else boundedInt m q) = (min j 5000 : Nat) := by
  split
  next hm => rw [h.eq_zero_iff.2 hm]; rfl
  next hm =>
    rw [boundedInt, h.log2 hm, h.value, boundExp_natCast]
    split
    next hlarge =>
      have hj : 2 ^ 13 ≤ j := (Nat.le_log2 (mt h.eq_zero_iff.1 hm)).1 (by omega)
      omega
    next => rfl

theorem isPow2_iff {m : Nat} : isPow2 m = true ↔ ∃ j, m = 2 ^ j := by
  rw [isPow2, beq_iff_eq]
  refine ⟨fun h => ⟨_, h⟩, ?_⟩
  rintro ⟨j, rfl⟩
  rw [Nat.log2_two_pow]

/-- A power of four, which has a root in the exact column. -/
theorem pow4_two_pow (j : Nat) (h : Int) : pow4 (2 ^ j) (2 * h - j) = some h := by
  have hlog : (Nat.log2 (2 ^ j) : Int) + (2 * h - j) = 2 * h := by rw [Nat.log2_two_pow]; omega
  have hhalf : 2 * h / 2 = h := by omega
  have heven : 2 * h % 2 = 0 := by omega
  simp only [pow4, isPow2_iff.2 ⟨j, rfl⟩, hlog, heven, hhalf, Bool.true_and, beq_self_eq_true, if_true]

theorem pow4_eq_none {m : Nat} {q : Int} (h : ∀ (j : Nat) (h : Int), m = 2 ^ j → q ≠ 2 * h - j) : pow4 m q = none := by
  refine if_neg fun hpow => ?_
  rw [Bool.and_eq_true, beq_iff_eq, isPow2, beq_iff_eq] at hpow
  obtain ⟨hm, heven⟩ := hpow
  exact h (Nat.log2 m) (((Nat.log2 m : Int) + q) / 2) hm (by omega)

/-! ## The result of an element -/

/-- The result for an argument of a format: the canonical NaN for a NaN, what `h` gives for any other value. -/
def cordicResult (f : FpFmt) (h : FpVal → FpRes) : FpVal → FpRes
  | .nan _ => ⟨f.nan, 0⟩
  | v => h v

section

variable {f : FpFmt} {h : FpVal → FpRes} {v : FpVal}

/-- The result by the kind of the argument: a zero, an infinity, or another number. -/
theorem cordicResult_by_kind {zero inf : Bool → FpRes} {val : Bool → Nat → Int → FpRes}
    (hzero : ∀ neg q, h (.num neg 0 q) = zero neg) (hinf : ∀ neg, h (.inf neg) = inf neg)
    (hnum : ∀ neg m q, m ≠ 0 → h (.num neg m q) = val neg m q) :
    (∀ neg q, v = .num neg 0 q → cordicResult f h v = zero neg) ∧
      (∀ neg, v = .inf neg → cordicResult f h v = inf neg) ∧
      ∀ neg m q, v = .num neg m q → m ≠ 0 → cordicResult f h v = val neg m q := by
  refine ⟨?zero, ?inf, ?num⟩
  case zero => rintro neg q rfl; exact hzero neg q
  case inf => rintro neg rfl; exact hinf neg
  case num => rintro neg m q rfl hm; exact hnum neg m q hm

/-- The result of a root: exact for a power of four, and none for a negative number. -/
theorem cordicResult_root {zero : Bool → FpRes} {inf bad : FpRes} {root : Int → FpRes} {val : Nat → Int → FpRes}
    (hzero : ∀ neg q, h (.num neg 0 q) = zero neg) (hinf : h (.inf false) = inf) (hnegInf : h (.inf true) = bad)
    (hneg : ∀ m q, m ≠ 0 → h (.num true m q) = bad)
    (hpos : ∀ m q, m ≠ 0 → h (.num false m q) = (pow4 m q).elim (val m q) root) :
    (∀ neg q, v = .num neg 0 q → cordicResult f h v = zero neg) ∧ (v = .inf false → cordicResult f h v = inf) ∧
      (v = .inf true → cordicResult f h v = bad) ∧ (∀ m q, v = .num true m q → m ≠ 0 → cordicResult f h v = bad) ∧
      (∀ (j : Nat) (k : Int), v = .num false (2 ^ j) (2 * k - j) → cordicResult f h v = root k) ∧
      ∀ m q, v = .num false m q → m ≠ 0 → (∀ (j : Nat) (k : Int), m = 2 ^ j → q ≠ 2 * k - j) →
        cordicResult f h v = val m q := by
  refine ⟨?zero, ?inf, ?negInf, ?neg, ?pow, ?num⟩
  case zero => rintro neg q rfl; exact hzero neg q
  case inf => rintro rfl; exact hinf
  case negInf => rintro rfl; exact hnegInf
  case neg => rintro m q rfl hm; exact hneg m q hm
  case pow =>
    rintro j k rfl
    exact (hpos _ _ (Nat.ne_of_gt (Nat.two_pow_pos j))).trans (by rw [pow4_two_pow]; rfl)
  case num =>
    rintro m q rfl hm hnone
    exact (hpos m q hm).trans (by rw [pow4_eq_none hnone]; rfl)

end

section

variable {e : Env} {i : Instr} {g : Sig} {o : Ops MK}

/-- A ready CORDIC instruction for which rows can be had gives each element a result `r` that `p` relates to its
argument. -/
def Env.GivesCordic (e : Env) (i : Instr) (g : Sig) (o : Ops MK) (p : FpVal → FpRes → Prop) : Prop :=
  let f := fpOf o.mod.ty
  Ready i g e → e.HasRoom g o.d → ∃ r : Nat → Nat → FpRes,
    (∀ l k, (∀ q, f.val (e.elem o.mod.ty o.a l k) = .nan q → r l k = ⟨f.nan, 0⟩) ∧
      p (f.val (e.elem o.mod.ty o.a l k)) (r l k)) ∧
    ∃ t, e.write (e.named g) o.d (e.elemwise o.mod.ty o.mod.pk [e.w.srcShape o.a] none fun l k => (r l k).code) =
        some t ∧
      exec i e.s = .next (e.after (e.raise o.nf (fun l => laneFlags o.mod.pk fun k =>
        (r l k).reading f [e.elem o.mod.ty o.a l k]) t))

/-- What a CORDIC instruction forms for sub-element k of lane l, when `h` gives its result for each value. -/
def Env.cordicElem (e : Env) (o : Ops MK) (h : FpFmt → Nat → FpVal → FpRes) (l k : Nat) : FpRes :=
  cordicResult (fpOf o.mod.ty) (h (fpOf o.mod.ty) o.mod.iter.toNat) ((fpOf o.mod.ty).val (e.elem o.mod.ty o.a l k))

theorem cordicOp_eq (i : Instr) (o : Ops MK) (s : State) (h : FpFmt → Nat → FpVal → FpRes) :
    cordicOp i o s h = runSeq i s fun e =>
      e.fpWrite i o.d o.nf o.mod.ty o.mod.pk [e.w.srcShape o.a] fun l k =>
        (e.cordicElem o h l k).reading (fpOf o.mod.ty) [e.elem o.mod.ty o.a l k] := by
  refine congrArg (runSeq i s) (funext fun e => ?_)
  refine congrArg (e.fpWrite i o.d o.nf o.mod.ty o.mod.pk _) (funext fun l => funext fun k => ?_)
  dsimp only [Env.cordicElem]
  generalize (fpOf o.mod.ty).val (e.elem o.mod.ty o.a l k) = v
  cases v <;> rfl

/-- One that runs as the shared operation gives every element the result of its argument. -/
theorem Env.givesCordic_of_cordicOp {h : FpFmt → Nat → FpVal → FpRes} {p : FpVal → FpRes → Prop}
    (hx : ∀ s, exec i s = cordicOp i o s h)
    (hp : ∀ v, p v (cordicResult (fpOf o.mod.ty) (h (fpOf o.mod.ty) o.mod.iter.toNat) v)) : e.GivesCordic i g o p := by
  intro hr hroom
  refine ⟨e.cordicElem o h, fun l k => ⟨fun q hq => ?nan, hp _⟩, ?gives⟩
  case nan => simp only [cordicElem, hq, cordicResult]
  case gives =>
    exact gives_of_fpWrite (r := fun l k => (e.cordicElem o h l k).reading (fpOf o.mod.ty) [e.elem o.mod.ty o.a l k])
      (fun s => (hx s).trans (cordicOp_eq ..)) rfl hr hroom

end

/-- Settles O22: each instruction is the shared operation; its result is read off for each kind of argument. -/
theorem cordicResults : Obligations.CordicResults := by
  intro g e o f rnd rounding bad n rounded isInt gives
  have hgives {i : Instr} {h : FpFmt → Nat → FpVal → FpRes} {p : FpVal → FpRes → Prop}
      (hx : ∀ s, exec i s = cordicOp i o s h) (hp : ∀ v, p v (cordicResult f (h f n) v)) : gives i p :=
    Env.givesCordic_of_cordicOp hx hp
  -- The statement's own form is needed no further.
  clear_value gives
  refine ⟨?csin, ?ccos, ?catan, ?cexp2, ?clog2, ?ctanh, ?crsq, ?csqrt⟩
  case csin =>
    exact hgives (exec_csin · o) fun _ =>
      cordicResult_by_kind (fun _ _ => rfl) (fun _ => rfl) fun _ _ _ hm => if_neg hm
  case ccos =>
    exact hgives (exec_ccos · o) fun _ =>
      cordicResult_by_kind (fun _ _ => rfl) (fun _ => rfl) fun _ _ _ hm => if_neg hm
  case catan =>
    exact hgives (exec_catan · o) fun _ =>
      cordicResult_by_kind (fun _ _ => rfl) (fun _ => rfl) fun _ _ _ hm => if_neg hm
  case cexp2 =>
    refine hgives (exec_cexp2 · o) fun v => ⟨?inf, ?int, ?num⟩
    case inf => rintro neg rfl; rfl
    case int =>
      rintro neg m q j rfl hj
      refine (if_pos (isInteger_iff.2 ⟨j, hj⟩)).trans ?_
      rw [IsInt.bounded hj]
      rfl
    case num => rintro neg m q rfl hj; exact if_neg (mt isInteger_iff.1 (not_exists.2 hj))
  case clog2 =>
    refine hgives (exec_clog2 · o) fun v => ⟨?zero, ?inf, ?negInf, ?neg, ?pow, ?num⟩
    case zero => rintro neg q rfl; rfl
    case inf => rintro rfl; rfl
    case negInf => rintro rfl; rfl
    case neg => rintro m q rfl hm; exact if_neg hm
    case pow =>
      rintro j q rfl
      refine (if_neg (Nat.ne_of_gt (Nat.two_pow_pos j))).trans ((if_pos (isPow2_iff.2 ⟨j, rfl⟩)).trans ?_)
      rw [Nat.log2_two_pow]
      rfl
    case num => rintro m q rfl hj hm; exact (if_neg hm).trans (if_neg (mt isPow2_iff.1 (not_exists.2 hj)))
  case ctanh =>
    exact hgives (exec_ctanh · o) fun _ =>
      cordicResult_by_kind (fun _ _ => rfl) (fun _ => rfl) fun _ _ _ hm => if_neg hm
  case crsq =>
    refine hgives (exec_crsq · o) fun v => cordicResult_root (fun _ _ => rfl) rfl rfl (fun _ _ hm => if_neg hm)
      fun m q hm => (if_neg hm).trans ?_
    cases pow4 m q <;> rfl
  case csqrt =>
    refine hgives (exec_csqrt · o) fun v => cordicResult_root (fun _ _ => rfl) rfl rfl (fun _ _ hm => if_neg hm)
      fun m q hm => (if_neg hm).trans ?_
    cases pow4 m q <;> rfl

end Sys2Proof.Machine
end

section
/-!
SUPPORT. Whether rows can be had for a destination (R95): it depends on the places of the vector registers alone, not on
what they hold.
-/

namespace Sys2Proof.Machine

/-! ## The places of registers -/

/-- Where a register's words stand: its shape, row and RANK, whether it is spilled or pending; nothing of its value. -/
def VReg.place (r : VReg) : VReg :=
  { shape := r.shape, spilled := r.spilled, pend := r.pend, row := r.row, rank := r.rank }

/-- A warp with the places of its vector registers, and without their values. -/
def Warp.placed (w : Warp) : Warp := { w with v := w.v.map VReg.place, spills := 0, reloads := 0 }

namespace Warp

variable (w : Warp)

@[simp] theorem placed_vreg (n : Nat) : w.placed.vreg n = (w.vreg n).place := by
  simp only [vreg, placed, List.getD_eq_getElem?_getD, List.getElem?_map]
  cases w.v[n]? <;> rfl

@[simp] theorem placed_freeRow (g : Nat) : w.placed.freeRow g = w.freeRow g := by
  have hused : w.placed.rowsUsed = w.rowsUsed := by
    simp only [rowsUsed, placed, List.filterMap_map]; rfl
  simp only [freeRow, hused]

@[simp] theorem placed_victim (named : List Nat) : w.placed.victim named = w.victim named := by
  have hvictims : w.placed.victims named = w.victims named := by
    simp only [victims, placed_vreg]
    simp only [placed, List.length_map]
    rfl
  simp only [victim, hvictims, placed_vreg]
  rfl

theorem placed_setV (n : Nat) (r : VReg) : (w.setV n r).placed = w.placed.setV n r.place := by
  simp only [placed, setV, List.map_set]

/-- A map that looks at places alone commutes with forgetting the values. -/
theorem map_place_comm {f : VReg → VReg} {f' : VReg → VReg} (hf : ∀ r, (f r).place = f' r.place) (v : List VReg) :
    (v.map f).map VReg.place = (v.map VReg.place).map f' := by
  simp only [List.map_map]
  exact List.map_congr_left fun r _ => hf r

theorem placed_rankWrite (n : Nat) : (w.rankWrite n).placed = w.placed.rankWrite n := by
  simp only [rankWrite, placed_vreg]
  simp only [placed, List.map_set]
  rw [map_place_comm fun r => ?_]
  · rfl
  · rw [apply_ite VReg.place]; rfl

theorem placed_rankLeave (n : Nat) : (w.rankLeave n).placed = w.placed.rankLeave n := by
  simp only [rankLeave, placed_vreg]
  rw [apply_ite Warp.placed]
  simp only [placed]
  rw [map_place_comm fun r => ?_]
  · rfl
  · rw [apply_ite VReg.place]; rfl

/-- Settling a register as general, and releasing its row for another shape, look at places alone. -/
theorem placed_settleG (n width row : Nat) : (w.settleG n width row).placed =
    (w.placed.rankWrite n).setV n ((w.placed.vreg n).general width row).place := by
  rw [settleG, placed_setV, placed_rankWrite, placed_vreg]; rfl

theorem placed_leave (n : Nat) (shape : Shape) : ((w.rankLeave n).setV n ((w.vreg n).leave shape)).placed =
    (w.placed.rankLeave n).setV n ((w.placed.vreg n).leave shape).place := by
  rw [placed_setV, placed_rankLeave, placed_vreg]; rfl

end Warp

/-- Filling a register ends its wait for a load and leaves its place otherwise. -/
theorem VReg.place_fill (r : VReg) (width : Nat) (m : Mask) (x : VRes) :
    (r.fill width m x).place = { r.place with pend := false } := by
  unfold VReg.fill
  split <;> rfl

theorem VReg.place_reloaded (r : VReg) (row : Nat) :
    (r.reloaded row).place = { r.place with spilled := false, row := row } := rfl

theorem State.place_readSlot (s : State) (k : WKey) (v : Nat) (r : VReg) : (s.readSlot k v r).1.place = r.place := by
  unfold State.readSlot
  split <;> rfl

/-! ## States whose warp has the same places -/

/-- The warp `k` has its vector registers at the same places in both states. -/
def State.SamePlaces (k : WKey) (s s' : State) : Prop :=
  ∃ w u, s.warp? k = some w ∧ s'.warp? k = some u ∧ w.placed = u.placed

section

variable {s : State} {k : WKey} {w : Warp} (hw : s.warp? k = some w)
include hw

/-- The warp after a spill, and after a reload (R95, R97, R99). -/
theorem State.spill_reads (v : Nat) : (s.spill k v).warp? k =
    some { w.setV v { w.vreg v with spilled := true, row := 0, dirty := false } with
      spills := satAdd 32 w.spills 1 } := by
  obtain ⟨t, ht⟩ := State.team?_of_warp? hw
  simp only [State.spill, ht, hw]
  exact State.modWarp_reads ((State.warp?_of_teams (by simp only [emit_teams, writeSlot_teams]) k).trans hw) fun _ => rfl

theorem State.reloadInto_reads (t : Team) (n row : Nat) : (s.reloadInto k t n row).warp? k =
    some { w.setV n ((s.readSlot k n (w.vreg n)).1.reloaded row) with reloads := satAdd 32 w.reloads 1 } := by
  simp only [State.reloadInto, hw]
  exact State.modWarp_reads ((State.warp?_of_teams (by simp only [emit_teams, readSlot_teams]) k).trans hw) fun _ => rfl

end

namespace State.SamePlaces

variable {k : WKey} {s s' t : State}

/-- The same change of the warp's places in both states. -/
theorem modWarp (h : SamePlaces k s s') {f : Warp → Warp} (hnum : ∀ w, (f w).num = w.num)
    (hf : ∀ w u : Warp, w.placed = u.placed → (f w).placed = (f u).placed) :
    SamePlaces k (s.modWarp k f) (s'.modWarp k f) := by
  obtain ⟨w, u, hw, hu, hp⟩ := h
  exact ⟨_, _, modWarp_reads hw hnum, modWarp_reads hu hnum, hf w u hp⟩

theorem vreg_place {w u : Warp} (hp : w.placed = u.placed) (n : Nat) : (w.vreg n).place = (u.vreg n).place := by
  rw [← w.placed_vreg, hp, u.placed_vreg]

/-- What depends on a register's place alone is the same. -/
theorem congr_place.{u} {w u : Warp} (hp : w.placed = u.placed) (n : Nat) {α : Sort u} {f : VReg → α}
    (hf : ∀ r, f r.place = f r) : f (w.vreg n) = f (u.vreg n) := by rw [← hf, vreg_place hp, hf]

theorem setV_placed {w u : Warp} (hp : w.placed = u.placed) (n : Nat) {r q : VReg} (h : r.place = q.place) :
    (w.setV n r).placed = (u.setV n q).placed := by rw [w.placed_setV, u.placed_setV, hp, h]

theorem spill (h : SamePlaces k s s') (v : Nat) : SamePlaces k (s.spill k v) (s'.spill k v) := by
  obtain ⟨w, u, hw, hu, hp⟩ := h
  refine ⟨_, _, spill_reads hw v, spill_reads hu v, setV_placed hp v ?_⟩
  exact congr_place (f := fun r => ({ r with spilled := true, row := 0, dirty := false } : VReg).place) hp v fun _ => rfl

theorem reloadInto (h : SamePlaces k s s') (t : Team) (n row : Nat) :
    SamePlaces k (s.reloadInto k t n row) (s'.reloadInto k t n row) := by
  obtain ⟨w, u, hw, hu, hp⟩ := h
  refine ⟨_, _, reloadInto_reads hw t n row, reloadInto_reads hu t n row, setV_placed hp n ?_⟩
  rw [VReg.place_reloaded, VReg.place_reloaded, place_readSlot, place_readSlot, vreg_place hp]

/-- A row that can be had in the one can be had in the other. -/
theorem takeRow (h : SamePlaces k s s') {g row : Nat} {named : List Nat} (ht : s.takeRow k g named = some (row, t)) :
    ∃ t', s'.takeRow k g named = some (row, t') ∧ SamePlaces k t t' := by
  have hspill := h.spill
  obtain ⟨w, u, hw, hu, hp⟩ := id h
  have hfree : u.freeRow g = w.freeRow g := by rw [← u.placed_freeRow, ← hp, w.placed_freeRow]
  have hvictim : u.victim named = w.victim named := by rw [← u.placed_victim, ← hp, w.placed_victim]
  have hrow (v : Nat) : (u.vreg v).row = (w.vreg v).row :=
    (congr_place hp v (f := VReg.row) fun _ => rfl).symm
  simp only [State.takeRow, hw] at ht
  simp only [State.takeRow, hu, hfree, hvictim, hrow]
  cases hf : w.freeRow g with
  | some r =>
    simp only [hf, Option.some.injEq, Prod.mk.injEq] at ht
    obtain ⟨rfl, rfl⟩ := ht
    exact ⟨s', rfl, h⟩
  | none =>
    cases hv : w.victim named with
    | none => simp only [hf, hv, reduceCtorEq] at ht
    | some v =>
      simp only [hf, hv, Option.some.injEq, Prod.mk.injEq] at ht
      obtain ⟨rfl, rfl⟩ := ht
      exact ⟨_, rfl, hspill v⟩

theorem inRow_iff {w u : Warp} (hp : w.placed = u.placed) (n : Nat) : (w.vreg n).inRow ↔ (u.vreg n).inRow :=
  iff_of_eq (congr_place (f := VReg.inRow) hp n fun _ => rfl)

theorem inSlot_iff {w u : Warp} (hp : w.placed = u.placed) (n : Nat) : (w.vreg n).inSlot ↔ (u.vreg n).inSlot :=
  iff_of_eq (congr_place (f := VReg.inSlot) hp n fun _ => rfl)

section

variable (h : SamePlaces k s s') {tm : Team} {named : List Nat} {n : Nat}
include h

theorem keepOld (ht : s.keepOld k tm named n = some t) :
    ∃ t', s'.keepOld k tm named n = some t' ∧ SamePlaces k t t' := by
  obtain ⟨w, u, hw, hu, hp⟩ := id h
  by_cases hslot : (w.vreg n).inSlot
  · rw [keepOld_of_inSlot hw hslot] at ht
    obtain ⟨⟨row, t1⟩, htake, rfl⟩ := Option.map_eq_some_iff.1 ht
    obtain ⟨t1', htake', h1⟩ := h.takeRow htake
    rw [keepOld_of_inSlot hu ((inSlot_iff hp n).1 hslot), htake']
    exact ⟨_, rfl, h1.reloadInto tm n row⟩
  · rw [keepOld_of_resident hw hslot] at ht
    obtain rfl := Option.some.inj ht
    exact ⟨s', keepOld_of_resident hu (mt (inSlot_iff hp n).2 hslot) tm named, h⟩

theorem makeG (ht : s.makeG k tm named n = some t) : ∃ t', s'.makeG k tm named n = some t' ∧ SamePlaces k t t' := by
  obtain ⟨w, u, hw, hu, hp⟩ := id h
  rw [makeG_eq hw] at ht
  obtain ⟨⟨row, t1⟩, hgot, rfl⟩ := Option.map_eq_some_iff.1 ht
  have hrow : ∃ t1', (if (u.vreg n).inRow then some ((u.vreg n).row, s') else s'.takeRow k tm.kernel.g named) =
      some (row, t1') ∧ SamePlaces k t1 t1' := by
    split at hgot
    next hin =>
      obtain ⟨rfl, rfl⟩ := Prod.mk.inj (Option.some.inj hgot)
      exact ⟨s', by rw [if_pos ((inRow_iff hp n).1 hin), congr_place (f := VReg.row) hp n fun _ => rfl], h⟩
    next hout =>
      obtain ⟨t1', htake, h1⟩ := h.takeRow hgot
      exact ⟨t1', (if_neg (mt (inRow_iff hp n).2 hout)).trans htake, h1⟩
  obtain ⟨t1', hgot', h1⟩ := hrow
  refine ⟨_, by rw [makeG_eq hu, hgot', Option.map_some], h1.modWarp (fun _ => rfl) fun w u hp => ?_⟩
  rw [w.placed_settleG, u.placed_settleG, hp]

theorem makeUA (shape : Shape) (n : Nat) : SamePlaces k (s.makeUA k shape n) (s'.makeUA k shape n) :=
  h.modWarp (fun w => w.rankLeave_num n) fun w u hp =>
    (w.placed_leave n shape).trans (by rw [hp, ← u.placed_leave]; rfl)

theorem prepReg {full : Bool} {shape : Shape} (ht : s.prepReg k tm named full shape n = some t) :
    ∃ t', s'.prepReg k tm named full shape n = some t' ∧ SamePlaces k t t' := by
  cases full
  case false =>
    obtain ⟨t1, hkeep, hmake⟩ := Option.bind_eq_some_iff.1 ht
    obtain ⟨t1', hkeep', h1⟩ := h.keepOld hkeep
    obtain ⟨t', hmake', h'⟩ := h1.makeG hmake
    exact ⟨t', Option.bind_eq_some_iff.2 ⟨t1', hkeep', hmake'⟩, h'⟩
  case true =>
    rw [State.prepReg, if_pos rfl] at ht ⊢
    split at ht
    case isTrue hg => rw [if_pos hg]; exact h.makeG ht
    case isFalse hg =>
      obtain rfl := Option.some.inj ht
      exact ⟨_, if_neg hg, h.makeUA shape n⟩

end

end State.SamePlaces

/-! ## Vector writes -/

section

variable {e : Env} {named : List Nat} {d : Operand} {x : VRes}

theorem Env.writeReg_samePlaces {n : Nat} {s s' t : State} (h : State.SamePlaces e.k s s')
    (ht : e.writeReg named d x s n = some t) :
    ∃ t', e.writeReg named d x s' n = some t' ∧ State.SamePlaces e.k t t' := by
  obtain ⟨t1, hprep, rfl⟩ := Option.map_eq_some_iff.1 ht
  obtain ⟨t1', hprep', h1⟩ := h.prepReg hprep
  refine ⟨_, Option.map_eq_some_iff.2 ⟨t1', hprep', rfl⟩, h1.modWarp (fun _ => rfl) fun w u hp => ?_⟩
  refine State.SamePlaces.setV_placed hp n ?_
  rw [VReg.place_fill, VReg.place_fill, State.SamePlaces.vreg_place hp]

theorem Env.writeRegs_samePlaces {ns : List Nat} {s s' t : State} (h : State.SamePlaces e.k s s')
    (ht : ns.foldlM (e.writeReg named d x) s = some t) : ∃ t', ns.foldlM (e.writeReg named d x) s' = some t' := by
  induction ns generalizing s s' with
  | nil => exact ⟨s', rfl⟩
  | cons n ns ih =>
    rw [List.foldlM_cons] at ht ⊢
    obtain ⟨t1, hone, hrest⟩ := Option.bind_eq_some_iff.1 ht
    obtain ⟨t1', hone', h1⟩ := Env.writeReg_samePlaces h hone
    obtain ⟨t', hrest'⟩ := ih h1 hrest
    exact ⟨t', Option.bind_eq_some_iff.2 ⟨t1', hone', hrest'⟩⟩

/-- Rows that can be had for a destination can be had in any state with the same teams. -/
theorem Env.HasRoom.of_teams {g : Sig} {s' : State} (hw : e.s.warp? e.k = some e.w) (h : e.HasRoom g d)
    (hs : s'.teams = e.s.teams) : ({ e with s := s' } : Env).HasRoom g d := by
  intro x
  obtain ⟨t, ht⟩ := write_some h x
  rw [Env.write_eq] at ht
  obtain ⟨t', ht'⟩ := Env.writeRegs_samePlaces ⟨e.w, e.w, hw, (State.warp?_of_teams hs e.k).trans hw, rfl⟩ ht
  rw [Env.write_eq]
  exact Option.isSome_iff_exists.2 ⟨t', ht'⟩

end

end Sys2Proof.Machine
end

section
/-!
SUPPORT. The cross-lane instructions (R140 to R145): the lanes read outside the effective mask, the tree of a reduction,
the prefixes of a scan.
-/

namespace Sys2Proof.Machine

/-! ## Lanes outside the effective mask (R141, R142) -/

/-- Drawing the free values of stray lanes leaves every team. -/
theorem Env.afterStrays_eq (e : Env) (o : Operand) :
    ∃ s, e.afterStrays o = { e with s := s } ∧ s.teams = e.s.teams := by
  unfold Env.afterStrays
  split
  · exact ⟨_, rfl, rfl⟩
  · exact ⟨e.s, rfl, rfl⟩

/-- An instruction that draws the free values of stray lanes and puts its result gives it where rows can be had. -/
theorem Env.next_of_put_afterStrays {e : Env} {i : Instr} {g : Sig} {a d : Operand} {x : VRes} {f : Env → Act}
    (hx : ∀ s, exec i s = runSeq i s f) (hf : f e = (e.afterStrays a).put i d x) (hr : Ready i g e)
    (hroom : e.HasRoom g d) :
    ∃ t, (e.afterStrays a).write (e.named g) d x = some t ∧ exec i e.s = .next (e.after t) := by
  obtain ⟨s, hs, hteams⟩ := e.afterStrays_eq a
  rw [hs] at hf ⊢
  obtain ⟨t, ht⟩ := write_some (hroom.of_teams hr.warp hteams) x
  have hput : ({ e with s := s } : Env).put i d x = .next t := by
    unfold Env.put
    rw [hr.sig]
    simp only [ht, Env.orWait]
  exact ⟨t, ht, by rw [hx, runSeq_next hr (hf.trans hput)]⟩

/-! ## vote (R142) -/

theorem ofNat_b2n (b : Bool) : BitVec.ofNat 64 (b2n b) = if b then 1 else 0 := by cases b <;> rfl

/-- The four votes (R142). -/
theorem voteValue_eq (op : Nat) (m q : Mask) : voteValue op m q = match op with
    | 0 => q
    | 1 => if q = 0 then 0 else 1
    | 2 => if q = m then 1 else 0
    | _ => BitVec.ofNat 64 ((List.range 64).countP fun l => q.getLsbD l) := by
  rcases op with _ | _ | _ | op
  case zero => rfl
  case succ.zero => exact (ofNat_b2n (q != 0)).trans (by simp only [bne_iff_ne, ne_eq, ite_not])
  case succ.succ.zero => exact (ofNat_b2n (q == m)).trans (by simp only [beq_iff_eq])
  case succ.succ.succ => exact congrArg (BitVec.ofNat 64) (popElem_eq 64 q.toNat)

/-! ## redx (R143) -/

/-- A value at each node of the tree, formed from its two halves, is the fold of the tree. -/
theorem treeFold_eq {α : Type} {leaf : Nat → Option α} {op : α → α → α} {node : Nat → Nat → Option α}
    (hleaf : ∀ lo, node 0 lo = leaf lo)
    (hnode : ∀ n lo, node (n + 1) lo = Option.merge op (node n lo) (node n (lo + 2 ^ n))) (n lo : Nat) :
    treeFold leaf op n lo = node n lo := by
  induction n generalizing lo with
  | zero => exact (hleaf lo).symm
  | succ n ih =>
    rw [treeFold, ih, ih, hnode]
    cases node n lo <;> cases node n (lo + 2 ^ n) <;> rfl

/-- The six operations of `redx` and `scanx` on integer values (R143). -/
theorem foldInt_eq (t : Typ) (op : Nat) (x y : Int) : foldInt t op x y = match op with
    | 0 => x + y
    | 1 => min x y
    | 2 => max x y
    | 3 => readInt t (wrapInt t.width x &&& wrapInt t.width y)
    | 4 => readInt t (wrapInt t.width x ||| wrapInt t.width y)
    | _ => readInt t (wrapInt t.width x ^^^ wrapInt t.width y) := by
  rcases op with _ | _ | _ | _ | _ | op
  case succ.zero =>
    have hmin : (if y < x then y else x) = min x y := by split <;> omega
    exact hmin
  case succ.succ.zero =>
    have hmax : (if x < y then y else x) = max x y := by split <;> omega
    exact hmax
  all_goals rfl

/-- The operation on floating-point results: the flags of both join those of the operation. -/
def foldRes (f : FpFmt) (rnd : Rnd) (op : Nat) (x y : FpRes) : FpRes :=
  let r := foldFp f rnd op x.code y.code
  ⟨r.code, r.fl ||| x.fl ||| y.fl⟩

section

variable {e : Env} {o : Ops MA} {k : Nat}

/-- The operation code of `redx` and `scanx`. -/
def foldCode (o : Ops MA) : Nat := (o.mod.sub.setWidth 3).toNat

/-- One position reduced: integers by their values, clamped at the root; a single floating-point element; the tree of
several. -/
theorem Env.reduce_int (ht : o.mod.ty.isFlt = false) : e.reduce o k =
    ⟨narrowInt o.mod.ty o.mod.sat ((treeFold
      (fun lo => if e.m.has lo then some (readInt o.mod.ty (e.elem o.mod.ty o.a lo k)) else none)
      (foldInt o.mod.ty (foldCode o)) (Nat.log2 e.width) 0).getD 0), 0⟩ := by
  simp only [Env.reduce, ht]
  rfl

theorem Env.reduce_lone (ht : o.mod.ty.isFlt = true) {l : Nat} (hl : e.lanes = [l]) :
    e.reduce o k = loneFp (fpOf o.mod.ty) (e.elem o.mod.ty o.a l k) := by
  simp only [Env.reduce, ht, hl, if_true]

theorem Env.reduce_fp (ht : o.mod.ty.isFlt = true) (hl : e.lanes.length ≠ 1) : e.reduce o k =
    (treeFold (fun lo => if e.m.has lo then some (⟨e.elem o.mod.ty o.a lo k, 0⟩ : FpRes) else none)
      (foldRes (fpOf o.mod.ty) o.mod.rnd (foldCode o)) (Nat.log2 e.width) 0).getD ⟨0, 0⟩ := by
  simp only [Env.reduce, ht, if_true]
  split
  next l hone => exact absurd (congrArg List.length hone) hl
  next => rfl

end

/-! ## scanx (R144) -/

/-- The values formed from a list in order, each from the one before, of which `key` is kept. -/
def scanFrom {β γ : Type} (step : Option β → Nat → γ) (key : γ → β) : Option β → List Nat → List γ
  | _, [] => []
  | acc, x :: xs => step acc x :: scanFrom step key (some (key (step acc x))) xs

/-- A sequence that starts and goes on as the list does gives its entries. -/
theorem getElem?_scanFrom {β γ : Type} {step : Option β → Nat → γ} {key : γ → β} {xs : List Nat} {acc : Option β}
    {v : Nat → γ} (hfirst : ∀ x, xs[0]? = some x → v 0 = step acc x)
    (hnext : ∀ j x, xs[j + 1]? = some x → v (j + 1) = step (some (key (v j))) x) {j : Nat} (hj : j < xs.length) :
    (scanFrom step key acc xs)[j]? = some (v j) := by
  induction xs generalizing acc v j with
  | nil => exact absurd hj (Nat.not_lt_zero j)
  | cons x xs ih =>
    have hv : v 0 = step acc x := hfirst x rfl
    cases j with
    | zero => exact congrArg some hv.symm
    | succ j =>
      exact ih (v := fun j => v (j + 1)) (fun y hy => hv ▸ hnext 0 y hy) (fun j y hy => hnext (j + 1) y hy)
        (Nat.lt_of_succ_lt_succ hj)

/-- The next of the prefixes of integers, and of floating-point codes. -/
def intStep (t : Typ) (op : Nat) (acc : Option Int) (x : Nat) : Int :=
  acc.elim (readInt t x) fun a => foldInt t op a (readInt t x)
def fpStep (f : FpFmt) (rnd : Rnd) (op : Nat) (acc : Option Nat) (x : Nat) : FpRes :=
  acc.elim (loneFp f x) fun a => foldFp f rnd op a x

/-- Both lists of prefixes are formed so. -/
theorem intPrefixes_eq (t : Typ) (op : Nat) (acc : Option Int) (xs : List Nat) :
    intPrefixes t op acc xs = scanFrom (intStep t op) id acc xs := by
  induction xs generalizing acc with
  | nil => rfl
  | cons x xs ih => rw [scanFrom, ← ih]; cases acc <;> rfl

theorem fpPrefixes_eq (f : FpFmt) (rnd : Rnd) (op : Nat) (acc : Option Nat) (xs : List Nat) :
    fpPrefixes f rnd op acc xs = scanFrom (fpStep f rnd op) FpRes.code acc xs := by
  induction xs generalizing acc with
  | nil => rfl
  | cons x xs ih => rw [scanFrom, ← ih]; cases acc <;> rfl

/-- With `.ex` each lane receives the value of the lane before it, the first the identity, with the flags of its own. -/
theorem getElem?_exclusive {ident j : Nat} {l : List FpRes} {r : Nat → FpRes} (hr : ∀ i ≤ j, l[i]? = some (r i)) :
    (List.zipWith (fun c (x : FpRes) => (⟨c, x.fl⟩ : FpRes)) (ident :: l.map (·.code)) l)[j]? =
      some ⟨if j = 0 then ident else (r (j - 1)).code, (r j).fl⟩ := by
  rw [List.getElem?_zipWith, hr j (Nat.le_refl j)]
  cases j with
  | zero => rfl
  | succ j =>
    have hbefore : (l.map (·.code))[j]? = some (r j).code := by
      rw [List.getElem?_map, hr j (Nat.le_succ j), Option.map_some]
    rw [List.getElem?_cons_succ, hbefore]
    rfl

section

variable {e : Env} {o : Ops MA} {k j : Nat}

/-- The inclusive prefixes of one sub-element position. -/
def Env.inclusive (e : Env) (o : Ops MA) (k : Nat) : List FpRes :=
  let xs := e.lanes.map fun l => e.elem o.mod.ty o.a l k
  if o.mod.ty.isFlt then fpPrefixes (fpOf o.mod.ty) o.mod.rnd (foldCode o) none xs
  else (intPrefixes o.mod.ty (foldCode o) none xs).map fun v => ⟨narrowInt o.mod.ty o.mod.sat v, 0⟩

/-- What a lane receives, from the inclusive prefixes. -/
theorem Env.getElem?_prefixes {r : Nat → FpRes} (hr : ∀ i < e.lanes.length, (e.inclusive o k)[i]? = some (r i))
    (hj : j < e.lanes.length) : (e.prefixes o k)[j]? = some
      ⟨if o.mod.sub.getLsbD 3 then (if j = 0 then scanIdentity o.mod.ty (foldCode o) else (r (j - 1)).code)
        else (r j).code, (r j).fl⟩ := by
  have hprefixes : e.prefixes o k = if o.mod.sub.getLsbD 3 then
      List.zipWith (fun c (x : FpRes) => (⟨c, x.fl⟩ : FpRes))
        (scanIdentity o.mod.ty (foldCode o) :: (e.inclusive o k).map (·.code)) (e.inclusive o k)
      else e.inclusive o k := rfl
  rw [hprefixes]
  split
  · exact getElem?_exclusive fun i hi => hr i (Nat.lt_of_le_of_lt hi hj)
  · exact hr j hj

/-- The element that the j-th effective lane contributes. -/
theorem Env.eq_elem_of_getElem?_lanes {x : Nat} (h : (e.lanes.map fun l => e.elem o.mod.ty o.a l k)[j]? = some x) :
    x = e.elem o.mod.ty o.a (e.lanes.getD j 0) k := by
  rw [List.getElem?_map] at h
  obtain ⟨l, hl, rfl⟩ := Option.map_eq_some_iff.1 h
  rw [List.getD_eq_getElem?_getD, hl, Option.getD_some]

/-- The inclusive prefixes are the values that each combine the one before with the next lane's element. -/
theorem Env.getElem?_inclusive_int (ht : o.mod.ty.isFlt = false) {v : Nat → Int}
    (hfirst : v 0 = readInt o.mod.ty (e.elem o.mod.ty o.a (e.lanes.getD 0 0) k))
    (hnext : ∀ j, v (j + 1) =
      foldInt o.mod.ty (foldCode o) (v j) (readInt o.mod.ty (e.elem o.mod.ty o.a (e.lanes.getD (j + 1) 0) k)))
    (hj : j < e.lanes.length) : (e.inclusive o k)[j]? = some ⟨narrowInt o.mod.ty o.mod.sat (v j), 0⟩ := by
  have hscan := getElem?_scanFrom (step := intStep o.mod.ty (foldCode o)) (key := id) (acc := none) (v := v)
    (xs := e.lanes.map fun l => e.elem o.mod.ty o.a l k)
    (fun x hx => eq_elem_of_getElem?_lanes hx ▸ hfirst) (fun j x hx => eq_elem_of_getElem?_lanes hx ▸ hnext j)
    (by rwa [List.length_map])
  simp only [inclusive, ht, Bool.false_eq_true, if_false, intPrefixes_eq, List.getElem?_map, hscan, Option.map_some]

theorem Env.getElem?_inclusive_fp (ht : o.mod.ty.isFlt = true) {v : Nat → FpRes}
    (hfirst : v 0 = loneFp (fpOf o.mod.ty) (e.elem o.mod.ty o.a (e.lanes.getD 0 0) k))
    (hnext : ∀ j, v (j + 1) = foldFp (fpOf o.mod.ty) o.mod.rnd (foldCode o) (v j).code
      (e.elem o.mod.ty o.a (e.lanes.getD (j + 1) 0) k))
    (hj : j < e.lanes.length) : (e.inclusive o k)[j]? = some (v j) := by
  simp only [inclusive, ht, if_true, fpPrefixes_eq]
  exact getElem?_scanFrom (fun x hx => eq_elem_of_getElem?_lanes hx ▸ hfirst)
    (fun j x hx => eq_elem_of_getElem?_lanes hx ▸ hnext j) (by rwa [List.length_map])

end

/-! ## The instructions -/

theorem getD_map_range {α : Type} (f : Nat → α) (n k : Nat) (d : α) :
    ((List.range n).map f).getD k d = if k < n then f k else d := by
  rw [List.getD_eq_getElem?_getD]
  by_cases h : k < n
  · rw [if_pos h, List.getElem?_map, List.getElem?_range h, Option.map_some, Option.getD_some]
  · rw [if_neg h, List.getElem?_eq_none (by rw [List.length_map, List.length_range]; omega), Option.getD_none]

/-- Settles O23: each instruction puts its result or sets its register; a reduction is the fold of its tree, and
each of the prefixes combines the one before it with the next element. -/
theorem crossLaneResults : Obligations.CrossLaneResults := by
  intro g e o ty pk cnt sa sb each
  refine ⟨?shfl, ?bcast, ?vote, ?matchX, ?redx, ?scanx, ⟨?treeInt, ?treeFp, ?lone, ?prefixInt, ?prefixFp⟩, ?perm, ?rng⟩
  case shfl => exact Env.next_of_put_afterStrays (exec_shfl · o) rfl
  case bcast => exact Env.next_of_put_afterStrays (exec_bcast · o) rfl
  case vote => exact Env.does_of_runSeq (exec_vote · o) (congrArg (fun x => Act.next (e.setS o.d x)) (voteValue_eq ..))
  case matchX => exact Env.gives_of_put (exec_matchX · o) rfl
  case redx =>
    intro r
    refine Env.gives_of_fpWrite (r := fun _ => r) (exec_redx · o) ?_
    simp only [getD_map_range]
    rfl
  case scanx =>
    intro r
    refine Env.gives_of_fpWrite (r := r) (exec_scanx · o) ?_
    simp only [getD_map_range, r, apply_ite (List.zip e.lanes), List.zip_nil_right]
    rfl
  case treeInt =>
    intro k node ht hleaf hnode
    have hfold := treeFold_eq (op := foldInt ty (foldCode o)) hleaf fun n lo =>
      (hnode n lo).trans (congrArg (Option.merge · _ _) (funext fun x => funext fun y => (foldInt_eq ..).symm))
    rw [Env.reduce_int ht, hfold]
  case treeFp =>
    intro k node ht hl hleaf hnode
    have hfold := treeFold_eq (op := foldRes (fpOf ty) o.mod.rnd (foldCode o)) hleaf hnode
    rw [Env.reduce_fp ht hl, hfold]
  case lone =>
    exact fun _ _ ht hl => Env.reduce_lone ht hl
  case prefixInt =>
    intro k v ht hfirst hnext j hj
    have hstep (j : Nat) := (hnext j).trans (foldInt_eq ty (foldCode o) ..).symm
    exact Env.getElem?_prefixes (fun _ hi => Env.getElem?_inclusive_int ht hfirst hstep hi) hj
  case prefixFp =>
    intro k v ht hfirst hnext j hj
    exact Env.getElem?_prefixes (fun _ hi => Env.getElem?_inclusive_fp ht hfirst hnext hi) hj
  case perm => exact Env.gives_of_put (exec_perm · o) rfl
  case rng => exact Env.gives_of_put (exec_rng · o) rfl

end Sys2Proof.Machine
end

section
/-!
SUPPORT. The matrix group: what a ready instruction does on tiles, register groups and batons, and what the completion
of a tile operation leaves in the tiles (R148 to R165).
-/

namespace Sys2Proof.Machine

/-! ## Acceptance by the sequencer (R148) -/

/-- A ready instruction whose effect is an acceptance is accepted while MX can rise (R76). -/
theorem Env.does_of_accept {e : Env} {i : Instr} {g : Sig} {t : State} {m : MxOp → MxOp} {f : Env → Act}
    (hx : ∀ s, exec i s = runSeq i s f) (hf : f e = e.accept i t m) (hroom : e.w.roomOn .mx = true) :
    e.Does i g (e.acceptMx i t m) :=
  Env.does_of_runSeq hx (hf.trans (if_pos hroom))

/-- A ready instruction that moves on by itself is held by its effect. -/
theorem Env.holds_of_runSeq {e : Env} {i : Instr} {g : Sig} {t : State} {f : Env → Act}
    (hx : ∀ s, exec i s = runSeq i s f) (hf : f e = .wait t) : e.Holds i g t :=
  fun hr => by rw [hx, runSeq_wait hr hf]

/-- The number of the second tile of `acccp`: the low five bits of its field, from `toff` on (R163). -/
theorem Env.tileNum_setWidth {w : Nat} (e : Env) (n : BitVec w) (imm : BitVec 28) : e.tileNum (n.setWidth 5) imm =
    if n.toNat % 32 + e.toff imm < e.t.kernel.tiles then some (n.toNat % 32 + e.toff imm) else none := by
  simp [Env.tileNum]

section

variable {e : Env} {g : Sig} {o : Ops MX}

theorem Env.traps_accz (h : ¬ o.mod.acc.toNat + e.toff o.imm < e.t.kernel.tiles) : e.Traps (.accz o) g 0x0E :=
  Env.traps_of_runSeq (exec_accz · o) (by simp only [tileNum_none h])

theorem Env.accepts_accz (h : o.mod.acc.toNat + e.toff o.imm < e.t.kernel.tiles) (hroom : e.w.roomOn .mx = true) :
    e.Does (.accz o) g (e.acceptMx (.accz o) e.s fun x => { x with tile := o.mod.acc.toNat + e.toff o.imm }) :=
  Env.does_of_accept (exec_accz · o) (by simp only [tileNum_some h]) hroom

/-- `acccp` checks both of its tile numbers (R163). -/
theorem Env.traps_acccp (h : ¬ o.mod.acc.toNat + e.toff o.imm < e.t.kernel.tiles ∨
    ¬ o.mod.sub.toNat % 32 + e.toff o.imm < e.t.kernel.tiles) : e.Traps (.acccp o) g 0x0E := by
  refine Env.traps_of_runSeq (exec_acccp · o) ?_
  rcases h with h | h
  · simp only [tileNum_none h]
  · simp only [Env.tileNum_setWidth, if_neg h]
    cases e.tileNum o.mod.acc o.imm <;> rfl

theorem Env.accepts_acccp (h : o.mod.acc.toNat + e.toff o.imm < e.t.kernel.tiles)
    (h2 : o.mod.sub.toNat % 32 + e.toff o.imm < e.t.kernel.tiles) (hroom : e.w.roomOn .mx = true) :
    e.Does (.acccp o) g (e.acceptMx (.acccp o) e.s fun x =>
      { x with tile := o.mod.acc.toNat + e.toff o.imm, tile2 := o.mod.sub.toNat % 32 + e.toff o.imm }) :=
  Env.does_of_accept (exec_acccp · o) (by simp only [tileNum_some h, Env.tileNum_setWidth, if_pos h2]) hroom

end

/-! ## The completion of a tile operation (R163, R166) -/

/-- A tile that a team looks up bears the half it is looked up in. -/
@[simp] theorem Team.tile_half (t : Team) (half num : Nat) : (t.tile half num).half = half := by
  unfold Team.tile
  cases hfind : t.tiles.find? fun x => x.half == half && x.num == num with
  | none => rfl
  | some x =>
    have hx : x.half = half ∧ x.num = num := by simpa using List.find?_some hfind
    exact hx.1

@[simp] theorem tileZero_at (half num i j : Nat) : (tileZero half num).at i j = 0 := by
  simp only [Tile.at, tileZero, List.getD_eq_getElem?_getD, List.getElem?_replicate]
  split <;> rfl

/-- What `accz` and `acccp` leave of the team at their completion. -/
def MxOp.clearOrCopy (x : MxOp) (t : Team) : Team :=
  match x.instr with
  | .accz _ => t.setTile (tileZero x.half x.tile)
  | .acccp _ => t.setTile { t.tile x.half x.tile with num := x.tile2 }
  | _ => t

theorem MxOp.clearOrCopy_accz_at {x : MxOp} {o : Ops MX} (h : x.instr = .accz o) (t : Team) (half num i j : Nat) :
    ((x.clearOrCopy t).tile half num).at i j = if half = x.half ∧ num = x.tile then 0 else (t.tile half num).at i j := by
  simp only [MxOp.clearOrCopy, h, setTile_tile]
  rw [apply_ite (Tile.at · i j), tileZero_at]
  rfl

theorem MxOp.clearOrCopy_acccp_at {x : MxOp} {o : Ops MX} (h : x.instr = .acccp o) (t : Team) (half num i j : Nat) :
    ((x.clearOrCopy t).tile half num).at i j =
      if half = x.half ∧ num = x.tile2 then (t.tile x.half x.tile).at i j else (t.tile half num).at i j := by
  simp only [MxOp.clearOrCopy, h, setTile_tile, Team.tile_half]
  exact apply_ite (Tile.at · i j) ..

theorem State.finishMx_clearOrCopy {x : MxOp} {o : Ops MX} (h : x.instr = .accz o ∨ x.instr = .acccp o) (s : State)
    (core : Nat) (t : Team) : s.finishMx core t x = s.endMx core x x.clearOrCopy := by
  change _ = s.endMx core x fun t => x.clearOrCopy t
  rcases h with h | h
  · simp only [State.finishMx, MxOp.clearOrCopy, h]
  · simp only [State.finishMx, MxOp.clearOrCopy, h]

/-- An operation other than an `mma` that has nothing to wait for completes. -/
theorem execMxOpComplete_ready {s : State} {core id : Nat} {x : MxOp} {t : Team}
    (hx : (s.core core).mxOps.find? (·.id == id) = some x) (ht : s.team? x.key.team = some t) (hmma : x.isMma = false)
    (hready : (s.core core).mxReady x = true) (hroom : s.fqRoom x.key.ctx = true) :
    execMxOpComplete core id s = .next (s.finishMx core t x) := by
  simp [execMxOpComplete, hx, ht, hmma, hready, hroom]

theorem execMxOpComplete_clearOrCopy {s : State} {core id : Nat} {x : MxOp} {t : Team} {o : Ops MX}
    (hx : (s.core core).mxOps.find? (·.id == id) = some x) (ht : s.team? x.key.team = some t)
    (hready : (s.core core).mxReady x = true) (hroom : s.fqRoom x.key.ctx = true)
    (h : x.instr = .accz o ∨ x.instr = .acccp o) :
    execMxOpComplete core id s = .next (s.endMx core x x.clearOrCopy) := by
  have hmma : x.isMma = false := by rcases h with h | h <;> simp [MxOp.isMma, h]
  rw [execMxOpComplete_ready hx ht hmma hready hroom, State.finishMx_clearOrCopy h]

/-- Settles O15: both instructions check the numbers they name, and their completion sets one tile. -/
theorem tileClearAndCopy : Obligations.TileClearAndCopy := by
  refine ⟨?issue, fun s core id x t hx ht hready hroom => ⟨x.clearOrCopy, fun o h => ?completes,
    fun o h u half n i j _ _ => ?cleared, fun o h half n i j => ?copied⟩⟩
  case issue =>
    intro g e o tile tile2
    exact ⟨fun h => Env.traps_accz (Nat.not_lt.2 h), Env.accepts_accz,
      fun h => Env.traps_acccp (h.imp Nat.not_lt.2 Nat.not_lt.2), Env.accepts_acccp⟩
  case completes => exact execMxOpComplete_clearOrCopy hx ht hready hroom h
  case cleared => exact MxOp.clearOrCopy_accz_at h ..
  case copied => exact MxOp.clearOrCopy_acccp_at h ..

/-! ## Transfers from and to scratchpad (R157, R158, R161, R164) -/

/-- The checks of a layout word, its offset and the elements they name, and then `act`. -/
def Env.afterLayout (e : Env) (a b : Operand) (esz rows cols : Nat) (act : Act) : Act :=
  match e.layoutArgs a b esz with
  | .error c => e.trap c
  | .ok (l, b) => if !elementsInside e.t.kernel.scratch l b rows cols then e.trap 0x0D else act

/-- A group load: the checks of its layout, then the group is made pending and the operation accepted. -/
theorem Env.issueFrag_eq (e : Env) (i : Instr) (o : Ops MX) (regs rows cols esz : Nat) :
    e.issueFrag i o regs rows cols esz = e.afterLayout o.a o.b esz rows cols
      ((e.prepGroup (groupRegs o.d.vNum regs)).elim (.wait e.s) fun s =>
        e.accept i s fun x => { x with layout := e.scalar o.a, offset := e.scalar o.b, dst := o.d.vNum }) := by
  unfold Env.issueFrag Env.afterLayout
  cases e.prepGroup (groupRegs o.d.vNum regs) <;> rfl

/-- A tile transfer whose tile number is below T: the checks of its layout, then it is accepted. -/
theorem Env.issueTile_of_lt {e : Env} {o : Ops MX} (h : o.mod.acc.toNat + e.toff o.imm < e.t.kernel.tiles) (i : Instr) :
    e.issueTile i o = e.afterLayout o.a o.b (if o.mod.sub.getLsbD 0 then 0 else 3) 96 96 (e.accept i e.s fun x =>
      { x with tile := o.mod.acc.toNat + e.toff o.imm, layout := e.scalar o.a, offset := e.scalar o.b }) := by
  simp only [Env.issueTile, tileNum_some h]
  rfl

/-- A ready transfer traps by the first check of its layout that fails; `P` is what it does when all pass. -/
def Env.ChecksLayout (e : Env) (i : Instr) (g : Sig) (a b : Operand) (esz rows cols : Nat) (P : Prop) : Prop :=
  (∀ c, e.layoutArgs a b esz = .error c → e.Traps i g c) ∧
  (∀ l n, e.layoutArgs a b esz = .ok (l, n) →
    (elementsInside e.t.kernel.scratch l n rows cols = false → e.Traps i g 0x0D) ∧
    (elementsInside e.t.kernel.scratch l n rows cols = true → P))

theorem Env.checksLayout_of_afterLayout {e : Env} {i : Instr} {g : Sig} {f : Env → Act} {a b : Operand}
    {esz rows cols : Nat} {act : Act} {P : Prop} (hx : ∀ s, exec i s = runSeq i s f)
    (hf : f e = e.afterLayout a b esz rows cols act) (hP : f e = act → P) : e.ChecksLayout i g a b esz rows cols P := by
  refine ⟨fun c hc => Env.traps_of_runSeq hx (hf.trans ?bad), fun l n hl =>
    ⟨fun hout => Env.traps_of_runSeq hx (hf.trans ?outside), fun hin => hP (hf.trans ?passes)⟩⟩
  case bad => simp only [Env.afterLayout, hc]
  case outside => simp only [Env.afterLayout, hl, hout]; rfl
  case passes => simp only [Env.afterLayout, hl, hin]; rfl

/-- A ready group load by the checks of its layout; with a group that can be made pending it is accepted (R161). -/
theorem Env.checksLayout_of_issueFrag {e : Env} {i : Instr} {g : Sig} {o : Ops MX} {f : Env → Act} {regs cols esz : Nat}
    (hx : ∀ s, exec i s = runSeq i s f) (hf : f e = e.issueFrag i o regs tileSide cols esz) :
    e.ChecksLayout i g o.a o.b esz 96 cols (∀ t, e.prepGroup (groupRegs o.d.vNum regs) = some t →
      e.w.roomOn .mx = true →
      e.Does i g (e.acceptMx i t fun x => { x with layout := e.scalar o.a, offset := e.scalar o.b, dst := o.d.vNum })) :=
  Env.checksLayout_of_afterLayout hx (hf.trans (e.issueFrag_eq ..)) fun h t ht =>
    Env.does_of_accept hx (h.trans (by rw [ht]; rfl))

/-- A ready tile transfer on a tile below T by the checks of its layout, then accepted (R164). -/
theorem Env.checksLayout_of_issueTile {e : Env} {i : Instr} {g : Sig} {o : Ops MX} {f : Env → Act}
    (hx : ∀ s, exec i s = runSeq i s f) (hf : f e = e.issueTile i o)
    (h : o.mod.acc.toNat + e.toff o.imm < e.t.kernel.tiles) :
    e.ChecksLayout i g o.a o.b (if o.mod.sub.getLsbD 0 then 0 else 3) 96 96 (e.w.roomOn .mx = true →
      e.Does i g (e.acceptMx i e.s fun x =>
        { x with tile := o.mod.acc.toNat + e.toff o.imm, layout := e.scalar o.a, offset := e.scalar o.b })) :=
  Env.checksLayout_of_afterLayout hx (hf.trans (Env.issueTile_of_lt h i)) (Env.does_of_accept hx)

theorem Env.traps_of_issueTile {e : Env} {i : Instr} {g : Sig} {o : Ops MX} {f : Env → Act}
    (hx : ∀ s, exec i s = runSeq i s f) (hf : f e = e.issueTile i o)
    (h : ¬ o.mod.acc.toNat + e.toff o.imm < e.t.kernel.tiles) : e.Traps i g 0x0E :=
  Env.traps_of_runSeq hx (hf.trans (by simp only [Env.issueTile, tileNum_none h]))

/-! ## Operations on tiles and register groups -/

/-- Settles O39: each instruction by its own checks, and then its acceptance. -/
theorem matrixOperationsAreAccepted : Obligations.MatrixOperationsAreAccepted := by
  intro g e o tile bound tile2 accepts layoutThen frag
  refine ⟨?fld, ?fldsc, fun hno => ⟨?mmaTile, ?acczTile, ?acccpTile, ?accldTile, ?accstTile, ?accrdTile, ?accwrTile⟩,
    fun hb => ⟨fun hn => ?mmaBaton, ?mma, Env.accepts_accz hb, fun h2 => ?acccpTile2, Env.accepts_acccp hb,
      ⟨?accld, ?accst⟩, fun t ht => ?accrd, ?accwr⟩⟩
  case fld => exact Env.checksLayout_of_issueFrag (exec_fld · o) rfl
  case fldsc => exact Env.checksLayout_of_issueFrag (exec_fldsc · o) rfl
  case mmaTile => exact Env.traps_of_runSeq (exec_mma · o) (by simp only [tileNum_none hno])
  case acczTile => exact Env.traps_accz hno
  case acccpTile => exact Env.traps_acccp (.inl hno)
  case accldTile => exact Env.traps_of_issueTile (exec_accld · o) rfl hno
  case accstTile => exact Env.traps_of_issueTile (exec_accst · o) rfl hno
  case accrdTile => exact Env.traps_of_runSeq (exec_accrd · o) (by simp only [tileNum_none hno])
  case accwrTile => exact Env.traps_of_runSeq (exec_accwr · o) (by simp only [tileNum_none hno])
  case mmaBaton =>
    refine Env.traps_of_runSeq (exec_mma · o) ?_
    simp only [tileNum_some hb]
    exact if_pos hn
  case mma =>
    intro hheld waiting
    refine ⟨fun hfull => Env.holds_of_runSeq (exec_mma · o) ?full, fun hfree => ?accepted⟩
    case full =>
      simp only [tileNum_some hb]
      exact (if_neg (not_not_intro hheld)).trans (if_pos hfull)
    case accepted =>
      intro scales
      refine Env.does_of_accept (exec_mma · o) ?_
      simp only [tileNum_some hb]
      exact (if_neg (not_not_intro hheld)).trans (if_neg (Nat.not_le.2 hfree))
  case acccpTile2 => exact Env.traps_acccp (.inr (Nat.not_lt.2 h2))
  case accld => exact Env.checksLayout_of_issueTile (exec_accld · o) rfl hb
  case accst => exact Env.checksLayout_of_issueTile (exec_accst · o) rfl hb
  case accrd => exact Env.does_of_accept (exec_accrd · o) (by simp only [tileNum_some hb, ht]; rfl)
  case accwr => exact Env.does_of_accept (exec_accwr · o) (by simp only [tileNum_some hb]; rfl)

/-! ## Batons (R150, R151) -/

/-- A warp may take a baton that it holds, that was passed to it, or that is free with no lower waiter (R151). -/
theorem Team.mayTake_iff (t : Team) (w : Warp) (arr : Bool) : t.mayTake w arr = true ↔
    t.baton w arr = .held w.num ∨ t.baton w arr = .passed w.num ∨
      (t.baton w arr = .free ∧ ∀ x ∈ t.warps, x.core = w.core → x.act = .bton arr → w.num ≤ x.num) := by
  unfold Team.mayTake
  cases t.baton w arr with
  | free => simp [Team.batonWaiters, Classical.or_iff_not_imp_left]
  | held n => simp
  | passed n => simp

/-- Settles O40: each instruction by the state of its baton. -/
theorem batonResults : Obligations.BatonResults := by
  intro g e o arr b idx me lowest pass
  refine ⟨fun h => ?takes, fun hh hp hf => ?waits, fun h => ?notHeld,
    fun h => ⟨fun hrel => ?frees, fun hrel hring => ?ring, fun hrel hname => ?named⟩, ?word⟩
  case takes => exact Env.does_of_runSeq (exec_bton · o) (if_pos ((e.t.mayTake_iff e.w arr).2 h))
  case waits =>
    refine Env.enters_of_runSeq (exec_bton · o) (if_neg (mt (e.t.mayTake_iff e.w arr).1 ?_))
    rintro (h | h | ⟨hfree, hlow⟩)
    · exact hh h
    · exact hp h
    · exact hf hfree hlow
  case notHeld => exact Env.traps_of_runSeq (exec_btpass · o) (if_pos h)
  case frees => exact Env.does_of_runSeq (exec_btpass · o) ((if_neg (not_not_intro h)).trans (if_pos hrel))
  case ring =>
    exact Env.does_of_runSeq (exec_btpass · o) ((if_neg (not_not_intro h)).trans
      ((if_neg (Bool.eq_false_iff.1 hrel)).trans (if_neg (Bool.eq_false_iff.1 hring))))
  case named =>
    intro n named
    have hnamed : (e.t.warps.any fun x => x.live && x.core == e.w.core && x.num == n) = true ↔ named := by
      simp [named, and_assoc]
    refine ⟨fun hlive => Env.does_of_runSeq (exec_btpass · o) ?_, fun hno => Env.traps_of_runSeq (exec_btpass · o) ?_⟩
    all_goals refine (if_neg (not_not_intro h)).trans ((if_neg (Bool.eq_false_iff.1 hrel)).trans ((if_pos hname).trans ?_))
    · exact if_pos (hnamed.2 hlive)
    · exact if_neg (mt hnamed.1 hno)
  case word => exact Env.does_of_runSeq (exec_btq · o) rfl

end Sys2Proof.Machine
end

section
/-!
SUPPORT. The completion of a halt: its warps, its team, the late faults and fault records, and the quarantine (R315 to
R322, R328); what a write at L2 leaves of the rest of the state.
-/

namespace Sys2Proof.Machine

/-! ## What a write at L2 leaves (R196, R249, R386) -/

/-- The state without what a write at L2 may change: L2 and what it holds of code, the cached translations, the packets
to memory, the recorder, the late faults that lost data leaves, and the numbers drawn. -/
def State.besidesL2 (s : State) : State :=
  { s with draws := 0, nextId := 0, l2 := [], codeOld := [], tlb := [], streams := [], hubs := [], emitters := []
           lateFaults := [] }

theorem foldl_besidesL2 {α : Type} {f : State → α → State} (h : ∀ s a, (f s a).besidesL2 = s.besidesL2) (l : List α)
    (s : State) : (l.foldl f s).besidesL2 = s.besidesL2 :=
  List.foldlRecOn l f (motive := fun t => t.besidesL2 = s.besidesL2) rfl fun t ht a _ => (h t a).trans ht

@[simp] theorem State.emit_besidesL2 (s : State) (src : Src) (kind aux : Nat) (cid parent : Word) (payload : List Word) :
    (s.emit src kind aux cid parent payload).besidesL2 = s.besidesL2 := by
  obtain ⟨⟨em, hb, h⟩, -⟩ := emit_recorder s src kind aux cid parent payload
  rw [h]; rfl

@[simp] theorem State.draw_besidesL2 (s : State) : s.draw.2.besidesL2 = s.besidesL2 := rfl
@[simp] theorem State.spoiltEntry_besidesL2 (s : State) (t : TlbEntry) : (s.spoiltEntry t).2.besidesL2 = s.besidesL2 := rfl
@[simp] theorem State.cancelFills_besidesL2 (s : State) (ps : Nat) : (s.cancelFills ps).besidesL2 = s.besidesL2 := rfl
@[simp] theorem State.send_besidesL2 (s : State) (p : Packet) : (s.send p).besidesL2 = s.besidesL2 := rfl
@[simp] theorem State.l2Touch_besidesL2 (s : State) (x : L2Sector) : (s.l2Touch x).besidesL2 = s.besidesL2 := rfl

@[simp] theorem State.tlbPut_besidesL2 (s : State) (e : TlbEntry) : (s.tlbPut e).besidesL2 = s.besidesL2 := by
  unfold State.tlbPut; split <;> rfl

@[simp] theorem State.noteCode_besidesL2 (s : State) (sec : Nat) : (s.noteCode sec).besidesL2 = s.besidesL2 := by
  unfold State.noteCode
  repeat' split
  all_goals rfl

/-- A walk caches the entries it meets (R250). -/
@[simp] theorem State.walkStart_besidesL2 (s : State) (ia level table : Nat) :
    (s.walkStart ia level table).2.besidesL2 = s.besidesL2 := by
  have htables := foldl_besidesL2 State.tlbPut_besidesL2 (s.walkTables ia (4 - level) level table) s
  unfold State.walkStart
  split
  · exact (State.tlbPut_besidesL2 ..).trans htables
  · exact htables

@[simp] theorem State.walkCached_besidesL2 (s : State) (ia : Nat) : (s.walkCached ia).2.besidesL2 = s.besidesL2 := by
  simp only [State.walkCached]
  repeat' split
  all_goals simp

@[simp] theorem State.translate_besidesL2 (s : State) (ia : Nat) : (s.translate ia).2.besidesL2 = s.besidesL2 := by
  simp only [State.translate]
  repeat' split
  all_goals simp

@[simp] theorem State.lostWrite_besidesL2 (s : State) (ia : Nat) (mask : BitVec 128) (owner : Option TKey) :
    (s.lostWrite ia mask owner).besidesL2 = s.besidesL2 := by
  unfold State.lostWrite
  split
  · rfl
  · exact State.emit_besidesL2 ..

@[simp] theorem State.l2WriteBack_besidesL2 (s : State) (x : L2Sector) : (s.l2WriteBack x).besidesL2 = s.besidesL2 := by
  simp only [State.l2WriteBack]
  repeat' split
  all_goals simp

@[simp] theorem State.l2Evict_besidesL2 (s : State) (l : Bool × Nat) : (s.l2Evict l).besidesL2 = s.besidesL2 :=
  foldl_besidesL2 State.l2WriteBack_besidesL2 ..

@[simp] theorem State.l2Room_besidesL2 (s : State) (phys : Bool) (line : Nat) :
    (s.l2Room phys line).besidesL2 = s.besidesL2 := by
  simp only [State.l2Room]
  repeat' split
  all_goals simp

@[simp] theorem State.l2Install_besidesL2 (s : State) (phys : Bool) (sec ps : Nat) (data : List Byte) (poison : Bool) :
    (s.l2Install phys sec ps data poison).besidesL2 = s.besidesL2 := by simp [State.l2Install]

@[simp] theorem State.l2Bring_besidesL2 (s : State) (phys : Bool) (sec : Nat) :
    (s.l2Bring phys sec).2.besidesL2 = s.besidesL2 := by
  have hwalk : (if phys then (Walk.leaf (128 * sec) 3, s) else s.translate (128 * sec)).2.besidesL2 = s.besidesL2 := by
    cases phys
    · exact s.translate_besidesL2 _
    · rfl
  unfold State.l2Bring
  split
  · rfl
  · dsimp only
    split
    all_goals simp [hwalk]

@[simp] theorem State.l2Write_besidesL2 (s : State) (phys : Bool) (sec : Nat) (data : List Byte) (mask : BitVec 128)
    (poison : Bool) (owner : Option TKey) (cause : BitVec 20) :
    (s.l2Write phys sec data mask poison owner cause).2.besidesL2 = s.besidesL2 := by
  have hbring : ((if phys then s else s.noteCode sec).l2Bring phys sec).2.besidesL2 = s.besidesL2 := by
    rw [State.l2Bring_besidesL2]; split <;> simp
  unfold State.l2Write
  split
  all_goals rename_i heq; rw [heq] at hbring; exact hbring

@[simp] theorem State.l2PutMarked_besidesL2 (s : State) (a : Nat) (bs : List (Byte × Bool)) :
    (s.l2PutMarked a bs).besidesL2 = s.besidesL2 :=
  foldl_besidesL2 (fun _ _ => State.l2Write_besidesL2 ..) ..

@[simp] theorem State.l2PutMarked_quarantine (s : State) (a : Nat) (bs : List (Byte × Bool)) :
    (s.l2PutMarked a bs).quarantine = s.quarantine :=
  (congrArg State.quarantine (s.l2PutMarked_besidesL2 a bs) :)

/-! ## The quarantine (R328) -/

/-- The first byte range of a team that is not written yet is the one that returns. -/
theorem execQuarantineWrite_of_first {s : State} {k : TKey} {t : Team} {before after : List Quarantine} {q : Quarantine}
    (ht : s.team? k = some t) (hs : s.quarantine = before ++ q :: after)
    (hb : ∀ x ∈ before, x.key = k → x.written = true) (hk : q.key = k) (hw : q.written = false) :
    execQuarantineWrite k s =
      .next { s.l2PutMarked (t.quarantineAt + s.quarantineBytes k)
                (clean (bytes8 (BitVec.ofNat 64 q.addr) ++ bytes8 (atBit q.bytes.length 0 ||| atBit (b2n q.scratch) 63)) ++
                  q.bytes.map fun b => (b, q.poison)) with
              quarantine := before ++ { q with written := true } :: after } := by
  have hskip (x : Quarantine) (hx : x ∈ before) : (!(x.key == k && !x.written)) = true := by
    by_cases hkey : x.key = k
    · simp [hkey, hb x hx hkey]
    · simp [hkey]
  have hstop : (q.key == k && !q.written) = true := by simp [hk, hw]
  have hfind : (before ++ q :: after).find? (fun x => x.key == k && !x.written) = some q :=
    List.find?_eq_some_iff_append.2 ⟨hstop, before, after, rfl, hskip⟩
  have htake : (before ++ q :: after).takeWhile (fun x => !(x.key == k && !x.written)) = before := by
    rw [List.takeWhile_append_of_pos hskip]
    simp [hk, hw]
  simp only [execQuarantineWrite, ht, hs, hfind, htake, State.l2PutMarked_quarantine]
  simp

/-! ## Warps and teams that halt (R315, R317, R168) -/

section

variable {s : State} {k : WKey} {t : Team} {w : Warp} (ht : s.team? k.team = some t) (hw : s.warp? k = some w)
  (hphase : t.phase = .halting) (hlive : w.live = true) (hrun : w.halted = false) (htrip : w.inTrip = false)
include ht hw hphase hlive hrun htrip

/-- The faulting warp, its round trip over, stops without a record or a skid count. -/
theorem execSiblingHalt_stopping (h : w.stopping = true) : execSiblingHalt k s =
    .next ((s.suspendWait k).modWarp k fun w => { w with halted := true, stopping := false }) := by
  simp [execSiblingHalt, ht, hw, hphase, hlive, hrun, htrip, h]

theorem execSiblingHalt_sibling (h : w.stopping = false) {u : Warp} :
    let s1 := (s.suspendWait k).modWarp k fun w => { w with halted := true }
    let s2 := s1.emit (w.src 0) 0x023 (auxCtx k.ctx) w.cause t.cause
      [w.pc, atBit (w.skid % 256) 0 ||| ((w.serial &&& 0xFFFFFFFFFFFF#64) <<< 8)]
    s2.warp? k = some u → execSiblingHalt k s =
      .next (s2.l2PutMarked (t.block w.num) (clean (bytes8 w.pc ++ bytes8 u.statusWord))) := by
  intro s1 s2 hu
  simp only [s2, s1] at hu
  simp [execSiblingHalt, ht, hw, hphase, hlive, hrun, htrip, h, hu, s2, s1]

end

/-- Once its warps have stopped and what it had accepted is done, a halting team writes the records it holds, is kept,
or is discarded. -/
theorem execTeamHaltComplete_of_stopped {s : State} {k : TKey} {t : Team} (ht : s.team? k = some t)
    (hphase : t.phase = .halting) (hstopped : ∀ w ∈ t.warps, w.live = true → w.halted = true)
    (hunits : s.unitsBusy t = false)
    (hloads : ∀ o ∈ s.ops, o.key.team = k → o.dropped = false → o.kind.path = some .ld → o.busy = false) :
    execTeamHaltComplete k s =
      let s1 := if t.stepping.isSome then s.stepDone k.ctx else s
      if t.heldFaults ≠ [] then .next (s.writeHeld t)
      else if (s.ctx k.ctx).attach = true ∨ t.relay.isSome = true then
        .next ((s1.stopCopies t CopyCmd.writesScratch).modTeam k fun u =>
          { u with phase := .halted, runTime := s.ranFor t, since := s.clock, stepping := none })
      else if s.fqRoom k.ctx = false then .refused (.eventNotPending "TEAM_HALT_COMPLETE")
      else .next (s1.discardTeam k) := by
  have hrunning : (t.warps.any fun w => w.live && !w.halted) = false := by simpa using hstopped
  have hasked : (s.ops.any fun o => o.key.team == k && !o.dropped && o.kind.path == some .ld && o.busy) = false := by
    simpa using hloads
  simp [execTeamHaltComplete, ht, hphase, hrunning, hunits, hasked]

/-! ## Late faults and fault records (R318, R321) -/

section

variable {s : State} {id : Nat} {f : LateFault} (hf : s.lateFaults.find? (·.id == id) = some f)
  (hroom : s.fqRoom f.key.ctx = true)
include hf hroom

theorem execLateFault_of_none :
    let s1 := { s with lateFaults := s.lateFaults.filter (·.id != id) }
    s1.team? f.key = none → execLateFault id s = .next s1 := by
  intro s1 h
  simp only [s1] at h
  simp [execLateFault, hf, hroom, h, s1]

theorem execLateFault_of_team {t : Team} :
    let s1 := { s with lateFaults := s.lateFaults.filter (·.id != id) }
    s1.team? f.key = some t → execLateFault id s = .next ((s1.lateOn t f).settleComplete f.key) := by
  intro s1 h
  simp only [s1] at h
  simp [execLateFault, hf, hroom, h, s1]

end

section

variable {s : State} {c : Nat} {r : List Word} {rest : List (List Word)} (h : (s.ctx c).held = r :: rest)
include h

theorem execFaultRecordDrain_ring (hen : (s.ctx c).fqEn = true) (hfull : (s.ctx c).fqFull = false) :
    execFaultRecordDrain c s = .next ((s.modCtx c fun x => { x with held := rest }).ringWrite c r) := by
  simp [execFaultRecordDrain, h, hen, hfull]

theorem execFaultRecordDrain_no_ring (hen : (s.ctx c).fqEn = false) :
    execFaultRecordDrain c s = .next ((s.modCtx c fun x => { x with held := rest }).countNoRing c) := by
  simp [execFaultRecordDrain, h, hen]

end

/-- Settles O44: every event is due when its clause holds, and answers the state that the clause gives. -/
theorem haltsComplete : Obligations.HaltsComplete := by
  intro s
  refine ⟨fun k t w ht hw hphase hlive hrun htrip => ⟨fun h => ?stopping, fun h => ?sibling⟩,
    fun k t ht hphase hstopped hunits hloads => ?team, fun id f hf hroom => ⟨fun h => ?noTeam, fun t h => ?late⟩,
    fun c r rest h => ⟨fun hen hfull => ?ring, fun hen => ?noRing⟩,
    fun k t before after q ht hs hb hk hw => ?quarantine⟩
  case stopping => exact execSiblingHalt_stopping ht hw hphase hlive hrun htrip h
  case sibling => exact fun u => execSiblingHalt_sibling ht hw hphase hlive hrun htrip h
  case team =>
    have hdone := execTeamHaltComplete_of_stopped ht hphase hstopped hunits hloads
    refine ⟨fun hheld => hdone.trans (if_pos hheld), fun hnone hkept => hdone.trans ?kept,
      fun hnone hattach hrelay hroom => hdone.trans ?discarded⟩
    all_goals refine (if_neg (not_not_intro hnone)).trans ?_
    case kept => exact if_pos hkept
    case discarded => exact (if_neg (by simp [hattach, hrelay])).trans (if_neg (by simp [hroom]))
  case noTeam => exact execLateFault_of_none hf hroom h
  case late => exact execLateFault_of_team hf hroom h
  case ring => exact execFaultRecordDrain_ring h hen hfull
  case noRing => exact execFaultRecordDrain_no_ring h hen
  case quarantine => exact execQuarantineWrite_of_first ht hs hb hk hw

end Sys2Proof.Machine
end

section
/-!
SUPPORT. The scratchpad instructions (R181 to R188): the checks of an access or a range in their order, and its place
in the lane ports.
-/

namespace Sys2Proof.Machine

/-! ## The checks of the offsets (R181, R187) -/

section

variable {limit size : Nat} {l : List LaneAccess} {a : LaneAccess}

theorem spFault_misaligned (h : l.find? (fun a => a.ia % size != 0) = some a) : spFault limit size l = some (0x06, a) := by
  simp only [spFault, h]

variable (haligned : ∀ a ∈ l, a.ia % size = 0)
include haligned

/-- Where every offset is aligned, the bounds alone decide. -/
theorem spFault_of_aligned :
    spFault limit size l = (l.find? fun a => decide (limit < a.ia + size)).map fun a => (0x0D, a) := by
  have hnone : l.find? (fun a => a.ia % size != 0) = none := by simpa using haligned
  simp only [spFault, hnone]

theorem spFault_outside (h : l.find? (fun a => decide (limit < a.ia + size)) = some a) :
    spFault limit size l = some (0x0D, a) := by rw [spFault_of_aligned haligned, h, Option.map_some]

theorem spFault_eq_none (hin : ∀ a ∈ l, a.ia + size ≤ limit) : spFault limit size l = none := by
  have hnone : l.find? (fun a => decide (limit < a.ia + size)) = none := by simpa using hin
  rw [spFault_of_aligned haligned, hnone, Option.map_none]

end

section

variable {e : Env} {a b : Word}

theorem Env.spRange_misaligned (h : a.toNat % 4 ≠ 0 ∨ b.toNat % 4 ≠ 0) : e.spRange a b = some 0x06 := if_pos h

variable (ha : a.toNat % 4 = 0) (hb : b.toNat % 4 = 0)
include ha hb

theorem Env.spRange_outside (h : e.t.kernel.scratch < a.toNat + b.toNat) : e.spRange a b = some 0x0D := by
  simp [Env.spRange, ha, hb, h]

theorem Env.spRange_inside (h : a.toNat + b.toNat ≤ e.t.kernel.scratch) : e.spRange a b = none := by
  simp [Env.spRange, ha, hb, Nat.not_lt.2 h]

end

/-! ## Issuing (R175, R181, R182) -/

/-- The accesses of the effective lanes, each at the offset that `off` gives (R185). -/
def Env.spLanes (e : Env) (o : Ops MM) (atomic : Bool) (off : Nat → Nat) : List LaneAccess :=
  e.lanes.map (e.access o atomic off)

/-- A load whose lanes name one offset under a full mask leaves its one destination uniform (R91). -/
def Env.oneOffset (e : Env) (d : Operand) (lanes : List LaneAccess) : Bool :=
  lanes.all (fun a => a.ia == (lanes.head?.map (·.ia)).getD 0) && e.m == fullMask e.width && !(e.w.destRegs d e.lanes).2

/-- An access after its checks and its release action: the destination of a load is settled, then it is queued. -/
def Env.sendSp (e : Env) (i : Instr) (o : Ops MM) (result : Bool) (lanes : List LaneAccess) (layout : Word) : Act :=
  match (if result then e.prepLoad i e.s o.d (e.oneOffset o.d lanes) else some e.s) with
  | none => .wait e.s
  | some t => .next (e.queueSp i t lanes (accessSize o.mod.ty o.mod.pk) (e.oneOffset o.d lanes)
      (o.mod.ord.acquires && o.mod.scope != .wp) layout)

theorem Env.sendSp_queues {e : Env} {i : Instr} {o : Ops MM} {result : Bool} {lanes : List LaneAccess} {layout : Word}
    {t : State} (h : (if result then e.prepLoad i e.s o.d (e.oneOffset o.d lanes) else some e.s) = some t) :
    e.sendSp i o result lanes layout = .next (e.queueSp i t lanes (accessSize o.mod.ty o.mod.pk) (e.oneOffset o.d lanes)
      (o.mod.ord.acquires && o.mod.scope != .wp) layout) := by
  simp only [Env.sendSp, h]

section

variable {e : Env} {i : Instr} {o : Ops MM} {atomic result : Bool} {off : Nat → Nat} {layout : Word}
  (hheld : e.heldOnSp (o.mod.ord.releases && o.mod.scope == .wp) = false) (hroom : e.w.roomOn .sp = true)
include hheld hroom

theorem Env.issueSp_trap {code : Nat} {a : LaneAccess}
    (h : spFault e.t.kernel.scratch (accessSize o.mod.ty o.mod.pk) (e.spLanes o atomic off) = some (code, a)) :
    e.issueSp i o atomic result off layout = e.trap code a.lane (BitVec.ofNat 64 a.ia) := by
  rw [Env.spLanes] at h
  simp [Env.issueSp, hheld, hroom, h]

/-- An access that no check stops is sent, a releasing one after its release action. -/
theorem Env.issueSp_passed
    (h : spFault e.t.kernel.scratch (accessSize o.mod.ty o.mod.pk) (e.spLanes o atomic off) = none) :
    e.issueSp i o atomic result off layout =
      if o.mod.ord.releases then
        e.afterRelease (spScope o.mod.scope) fun u => u.sendSp i o result (e.spLanes o atomic off) layout
      else e.sendSp i o result (e.spLanes o atomic off) layout := by
  rw [Env.spLanes] at h
  refine (if_neg (by simp [hheld, hroom])).trans ?_
  simp only [h]
  rfl

/-- It is queued once its release action is done, in `t0`, and the destination of a load is settled, in `t1`. -/
theorem Env.issueSp_queues {t0 t1 : State}
    (hfault : spFault e.t.kernel.scratch (accessSize o.mod.ty o.mod.pk) (e.spLanes o atomic off) = none)
    (ht0 : (o.mod.ord.releases = false ∧ t0 = e.s) ∨
      (o.mod.ord.releases = true ∧ e.release (spScope o.mod.scope) = .ok t0))
    (ht1 : (if result then ({ e with s := t0 } : Env).prepLoad i t0 o.d (e.oneOffset o.d (e.spLanes o atomic off))
      else some t0) = some t1) :
    e.issueSp i o atomic result off layout = .next (({ e with s := t0 } : Env).queueSp i t1 (e.spLanes o atomic off)
      (accessSize o.mod.ty o.mod.pk) (e.oneOffset o.d (e.spLanes o atomic off))
      (o.mod.ord.acquires && o.mod.scope != .wp) layout) := by
  rw [Env.issueSp_passed hheld hroom hfault]
  obtain ⟨hplain, rfl⟩ | ⟨hrel, hdone⟩ := ht0
  · rw [hplain]
    exact Env.sendSp_queues ht1
  · simp only [hrel, if_true, Env.afterRelease, hdone]
    exact Env.sendSp_queues (e := { e with s := t0 }) ht1

end

section

variable {e : Env} {i : Instr} {o : Ops MM} {result : Bool}

theorem Env.issueSpx_malformed (h : layoutOf (e.scalar o.a) = none) : e.issueSpx i o result = e.trap 0x02 := by
  simp only [Env.issueSpx, h]

variable {x : Layout} (hx : layoutOf (e.scalar o.a) = some x)
include hx

theorem Env.issueSpx_refused (h : x.esz ≠ 0 ∨ x.kMajor = true) : e.issueSpx i o result = e.trap 0x02 := by
  simp only [Env.issueSpx, hx, if_pos h]

/-- A swizzled access with a plain layout word issues at the offsets that the layout gives (R185). -/
theorem Env.issueSpx_plain (hesz : x.esz = 0) (hk : x.kMajor = false) : e.issueSpx i o result =
    e.issueSp i o false result (fun l => x.phys (e.lane o.b l + o.imm.signExtend 64).toNat) (e.scalar o.a) := by
  simp [Env.issueSpx, hx, hesz, hk, sextImm]

end

section

variable {e : Env} {i : Instr} {a b pattern : Word} (hheld : e.heldOnSp false = false) (hroom : e.w.roomOn .sp = true)
include hheld hroom

theorem Env.issueRange_trap {code : Nat} (h : e.spRange a b = some code) : e.issueRange i a b pattern = e.trap code := by
  simp [Env.issueRange, hheld, hroom, h]

theorem Env.issueRange_queues (h : e.spRange a b = none) : e.issueRange i a b pattern =
    .next (e.queueSp i e.s (e.t.rangeParts { lane := 255, va := a, ia := a.toNat, cmp := b, data := pattern }) 4 false
      false) := by
  simp [Env.issueRange, hheld, hroom, h]

end

/-! ## `spstat` (R188) -/

section

variable {e : Env} {g : Sig} {o : Ops (BitVec 16)}

theorem Env.sets_spstat_counts (h : o.mod = 0) : e.Sets (.spstat o) g o.d e.t.spCounts :=
  Env.does_of_runSeq (exec_spstat · o) (by simp only [h]; rfl)

theorem Env.sets_spstat_health (h : o.mod = 1) : e.Sets (.spstat o) g o.d (e.s.core e.w.core).spHealth :=
  Env.does_of_runSeq (exec_spstat · o) (by simp only [h]; rfl)

theorem Env.sets_spstat_word (h : o.mod = 2) (hsp : e.w.counter .sp = 0) (hin : e.spRange (e.scalar o.a) 4 = none) :
    e.Sets (.spstat o) g o.d (e.s.spWordInfo e.t e.w.core (e.scalar o.a).toNat) :=
  Env.does_of_runSeq (exec_spstat · o) (by
    simp only [h, hsp, hin]
    rfl)

end

/-- Settles O38: one argument for the six lane accesses, check by check in the order of `Env.issueSp`; a swizzled one
checks its layout word before; `spinv` and `spfill` share the checks of a range. -/
theorem scratchpadInstructionsIssue : Obligations.ScratchpadInstructionsIssue := by
  refine fun g e => ⟨fun o => ?accesses, fun o => ⟨?ranges, ?counts, ?health, ?word⟩⟩
  case accesses =>
    intro size issues plain swizzled
    have hissues {i : Instr} {atomic result : Bool} {off : Nat → Nat} {layout : Word} {f : Env → Act}
        (hx : ∀ s, exec i s = runSeq i s f) (hf : f e = e.issueSp i o atomic result off layout) :
        issues i atomic result off layout := by
      refine fun hheld hroom => ⟨fun a h => ?misaligned, fun hal => ⟨fun a h => ?outside, fun hin t0 ht0 t1 ht1 => ?queued⟩⟩
      case misaligned =>
        exact Env.traps_of_runSeq hx (hf.trans (Env.issueSp_trap hheld hroom (spFault_misaligned h)))
      case outside =>
        exact Env.traps_of_runSeq hx (hf.trans (Env.issueSp_trap hheld hroom (spFault_outside hal h)))
      case queued =>
        exact Env.does_of_runSeq hx (hf.trans (Env.issueSp_queues hheld hroom (spFault_eq_none hal hin) ht0 ht1))
    have hswizzled {i : Instr} {result : Bool} (hx : ∀ s, exec i s = runSeq i s fun e => e.issueSpx i o result) :
        swizzled i result :=
      ⟨fun h => Env.traps_of_runSeq hx (Env.issueSpx_malformed h), fun x h =>
        ⟨fun hbad => Env.traps_of_runSeq hx (Env.issueSpx_refused h hbad),
          fun hesz hk => hissues hx (Env.issueSpx_plain h hesz hk)⟩⟩
    exact ⟨hissues (exec_lds · o) rfl, hissues (exec_sts · o) rfl, hissues (exec_atoms · o) rfl, hissues (exec_reds · o) rfl,
      hswizzled (exec_ldsx · o), hswizzled (exec_stsx · o)⟩
  case ranges =>
    intro a b fills
    have hfills {i : Instr} {pattern : Word} {f : Env → Act} (hx : ∀ s, exec i s = runSeq i s f)
        (hf : f e = e.issueRange i a b pattern) : fills i pattern := by
      refine fun hheld hroom => ⟨fun h => ?misaligned, fun ha hb h => ?outside, fun ha hb h => ?queued⟩
      case misaligned =>
        exact Env.traps_of_runSeq hx (hf.trans (Env.issueRange_trap hheld hroom (Env.spRange_misaligned h)))
      case outside =>
        exact Env.traps_of_runSeq hx (hf.trans (Env.issueRange_trap hheld hroom (Env.spRange_outside ha hb h)))
      case queued =>
        exact Env.does_of_runSeq hx (hf.trans (Env.issueRange_queues hheld hroom (Env.spRange_inside ha hb h)))
    exact ⟨hfills (exec_spinv · o) rfl, hfills (exec_spfill · o) rfl⟩
  case counts => exact Env.sets_spstat_counts
  case health => exact Env.sets_spstat_health
  case word => exact fun hmod hsp hal hin => Env.sets_spstat_word hmod hsp (Env.spRange_inside hal rfl hin)

end Sys2Proof.Machine
end

section
/-!
SUPPORT. The engines of a core: the lane port and the parity rows of its scratchpad (R174, R175), its arrays (R148,
R166, R167) and its copy channels (R208, R213).
-/

namespace Sys2Proof.Machine

/-! ## The lane port -/

theorem execScratchpadAccessComplete_of_waiting {s u : State} {core : Nat} (h : s.spWaiting core = some u) :
    execScratchpadAccessComplete core s = .next u := by
  simp only [execScratchpadAccessComplete, h]

theorem execScratchpadAccessComplete_of_portHead {s : State} {core : Nat} {p : Nat × Nat} {x : SpOp} {t : Team}
    (hnone : s.spWaiting core = none) (hp : s.portHead core = some (p, some x)) (ht : s.team? x.key.team = some t)
    (hroom : s.fqRoom x.key.ctx = true) : execScratchpadAccessComplete core s =
      .next (((s.modCore core fun c => { c with port := c.port.erase p }).servePart t core p.1 x).tryFinishSp p.1 p.2) := by
  simp [execScratchpadAccessComplete, hnone, hp, ht, hroom]

theorem execParityUpdate_of_stale {s : State} {core group : Nat} {p : ParityRow}
    (h : (s.core core).parity.find? (·.group == group) = some p) :
    execParityUpdate core group s = .next (s.modCore core fun c =>
      { c with parity := (c.parity.erase p).map fun q =>
          if q.group == group then { q with age := q.age + (3 - p.age) } else q }) := by
  simp only [execParityUpdate, h]

/-! ## The arrays -/

/-- An operation of another instruction is no `mma`. -/
theorem MxOp.isMma_eq_false {x : MxOp} (h : ∀ o, x.instr ≠ .mma o) : x.isMma = false := by
  unfold MxOp.isMma
  split
  case h_1 o hx => exact absurd hx (h o)
  case h_2 => rfl

section

variable {s : State} {core arr : Nat} {x : MxOp} {rest : List MxOp} (hq : (s.core core).mmaQueue (arr == 1) = x :: rest)
include hq

theorem execMmaStart_of_ready (hidle : x.started = false) (hready : (s.core core).mxReady x = true) :
    execMmaStart core arr s = .next (s.modCore core fun c =>
      { c with mxOps := updIf (·.id == x.id) (fun y => { y with started := true }) c.mxOps }) := by
  simp [execMmaStart, hq, hidle, hready]

variable {t : Team} {o : Ops MX} (ht : s.team? x.key.team = some t) (hx : x.instr = .mma o) (hrun : x.started = true)
  (hroom : s.fqRoom x.key.ctx = true)
include ht hx hrun hroom

theorem execMmaComplete_of_poison (hclr : o.mod.sub.getLsbD 0 = false) (hpoison : (t.tile x.half x.tile).poison ≠ []) :
    execMmaComplete core arr s = .next (s.failMx core x (x.fault s
      (if (t.tile x.half x.tile).poison.all (t.tile x.half x.tile).recon.contains then 0x1B else 0x19))) := by
  have hpoison' : (t.tile x.half x.tile).poison.isEmpty = false := by simpa using hpoison
  simp only [execMmaComplete, hq, ht, hx, hrun, hroom, hclr, hpoison']
  rfl

theorem execMmaComplete_of_clean (hclean : o.mod.sub.getLsbD 0 = true ∨ (t.tile x.half x.tile).poison = [])
    (hnone : s.arrayUpset core arr = none) : execMmaComplete core arr s = .next (s.endMx core x fun t =>
      t.setTile (mmaTile o.mod.fmt (o.mod.sub.getLsbD 0) x.regs (t.tile x.half x.tile))) := by
  have hpass : (!o.mod.sub.getLsbD 0 && !(t.tile x.half x.tile).poison.isEmpty) = false := by
    rcases hclean with h | h
    · rw [h, Bool.not_true, Bool.false_and]
    · rw [h, List.isEmpty_nil, Bool.not_true, Bool.and_false]
  simp only [execMmaComplete, hq, ht, hx, hrun, hroom, hpass, hnone]
  rfl

end

/-! ## The copy channels -/

section

variable {s : State} {core ch : Nat} {x : CopyCmd} {rest : List CopyCmd} (hch : (s.core core).channel ch = x :: rest)
include hch

theorem execCopyCommandStart_of_first (h : x.running = false) : execCopyCommandStart core ch s =
    .next ((s.landChannel core ch x.key).modChannel core ch (updIf (·.id == x.id) fun c => { c with running := true })) := by
  simp [execCopyCommandStart, hch, h]

variable (hrun : x.running = true) (hheld : x.held = none) (hroom : s.fqRoom x.key.ctx = true)
include hrun hheld hroom

theorem State.runningCopy_of_first : s.runningCopy core ch = some x := by
  simp [State.runningCopy, hch, hrun, hheld, hroom]

variable {t : Team} (ht : s.team? x.key.team = some t)
include ht

theorem execCopyDataReturn_of_running (h : x.moved < x.len) :
    execCopyDataReturn core ch s = .next (s.moveBurst t core ch x) := by
  simp only [execCopyDataReturn, State.runningCopy_of_first hch hrun hheld hroom, ht, if_neg (Nat.not_le.2 h)]

theorem execCopyCommandComplete_of_moved (h : x.len ≤ x.moved) :
    execCopyCommandComplete core ch s = .next (s.endCopy t core ch x) := by
  simp only [execCopyCommandComplete, State.runningCopy_of_first hch hrun hheld hroom, ht, if_neg (Nat.not_lt.2 h)]

end

/-- Settles O49: each event is due when its clause holds, and answers the state that the clause gives. -/
theorem coreEnginesProceed : Obligations.CoreEnginesProceed := by
  intro s core c
  refine ⟨fun u h => ?waiting, fun p x t hnone hp ht hroom => ?arrival, fun g p h => ?parity,
    fun arr x rest hq => ⟨fun hidle hready => ?start, fun t o ht hx hrun hroom =>
      ⟨fun hclr hpoison => ?poison, fun hclean hnone => ?update⟩⟩,
    fun id x t hx ht hmma hready hroom => ?complete,
    fun ch x rest hch => ⟨fun h => ?copyStart, fun t hrun hheld hroom ht => ⟨fun h => ?burst, fun h => ?copyEnd⟩⟩⟩
  case waiting => exact execScratchpadAccessComplete_of_waiting h
  case arrival => exact execScratchpadAccessComplete_of_portHead hnone hp ht hroom
  case parity => exact execParityUpdate_of_stale h
  case start => exact execMmaStart_of_ready hq hidle hready
  case poison => exact execMmaComplete_of_poison hq ht hx hrun hroom hclr hpoison
  case update => exact execMmaComplete_of_clean hq ht hx hrun hroom hclean hnone
  case complete => exact execMxOpComplete_ready hx ht (MxOp.isMma_eq_false hmma) hready hroom
  case copyStart => exact execCopyCommandStart_of_first hch h
  case burst => exact execCopyDataReturn_of_running hch hrun hheld hroom ht h
  case copyEnd => exact execCopyCommandComplete_of_moved hch hrun hheld hroom ht h

end Sys2Proof.Machine
end

section
/-!
SUPPORT. Writes that reach memory, L2 and the tags (R194, R218, R219, R258, R345): the bytes they name take the data's,
every other byte is as it was.
-/

namespace Sys2Proof.Machine

/-! ## Bytes of a sector under a mask -/

@[simp] theorem mergeBytes_length (old new : List Byte) (mask : BitVec 128) :
    (mergeBytes old new mask).length = old.length := by simp [mergeBytes]

theorem mergeBytes_getElem? (old new : List Byte) (mask : BitVec 128) (b : Nat) : (mergeBytes old new mask)[b]? =
    if b < old.length then some (if mask.getLsbD b then new.getD b 0 else old.getD b 0) else none := by
  by_cases h : b < old.length
  · simp [mergeBytes, h]
  · rw [if_neg h, List.getElem?_eq_none (by simpa using h)]

theorem mergeBytes_getD {old new : List Byte} {mask : BitVec 128} {b : Nat} (h : b < old.length) :
    (mergeBytes old new mask).getD b 0 = if mask.getLsbD b then new.getD b 0 else old.getD b 0 := by
  rw [List.getD_eq_getElem?_getD, mergeBytes_getElem?, if_pos h, Option.getD_some]

/-! ## The tags in the carve-out (R258) -/

/-- The tag that a byte of the carve-out holds for a granule: the even one's in the low nibble. -/
def tagIn (b : Byte) (g : Nat) : BitVec 4 := if g % 2 = 0 then b.setWidth 4 else b.extractLsb' 4 4

theorem tagIn_append (b : Byte) (c : Nat) : tagIn b (2 * c + 1) ++ tagIn b (2 * c) = b := by
  rw [tagIn, tagIn, if_neg (by omega), if_pos (by omega)]
  ext i hi
  simp only [BitVec.getElem_append, BitVec.getElem_setWidth, BitVec.getElem_extractLsb']
  split
  · exact BitVec.getLsbD_eq_getElem _
  · rw [show 4 + (i - 4) = i by omega, BitVec.getLsbD_eq_getElem]

/-- Tags written as bytes of the carve-out are read back, and every other tag is as it was. -/
theorem sget_tagPut (m : List (Nat × BitVec 4)) (c g : Nat) (bs : List Byte) (h : swf (0 : BitVec 4) 0 m = true) :
    sget 0 (tagPut m c bs) g =
      if c ≤ g / 2 ∧ g / 2 < c + bs.length then tagIn (bs.getD (g / 2 - c) 0) g else sget 0 m g := by
  induction bs generalizing m c with
  | nil => rw [if_neg (by simp)]; rfl
  | cons b bs ih =>
    have h1 := swf_sset 0 (a := 2 * c) (b.setWidth 4) h (Nat.zero_le _)
    have h2 := swf_sset 0 (a := 2 * c + 1) (b.extractLsb' 4 4) h1 (Nat.zero_le _)
    rw [tagPut, ih _ _ h2, sget_sset _ _ _ _ h1, sget_sset _ _ _ _ h]
    have hlen : (b :: bs).length = bs.length + 1 := rfl
    by_cases hg : g / 2 = c
    · have hrest : ¬ (c + 1 ≤ g / 2 ∧ g / 2 < c + 1 + bs.length) := by omega
      have hin : c ≤ g / 2 ∧ g / 2 < c + (b :: bs).length := by omega
      rw [if_neg hrest, if_pos hin, hg, Nat.sub_self, List.getD_cons_zero, tagIn]
      by_cases he : g % 2 = 0
      · rw [if_neg (show ¬ g = 2 * c + 1 by omega), if_pos (show g = 2 * c by omega), if_pos he]
      · rw [if_pos (show g = 2 * c + 1 by omega), if_neg he]
    · rw [if_neg (show ¬ g = 2 * c + 1 by omega), if_neg (show ¬ g = 2 * c by omega)]
      by_cases hrest : c + 1 ≤ g / 2 ∧ g / 2 < c + 1 + bs.length
      · have hin : c ≤ g / 2 ∧ g / 2 < c + (b :: bs).length := by omega
        rw [if_pos hrest, if_pos hin, show g / 2 - c = g / 2 - (c + 1) + 1 by omega, List.getD_cons_succ]
      · have hout : ¬ (c ≤ g / 2 ∧ g / 2 < c + (b :: bs).length) := by omega
        rw [if_neg hrest, if_neg hout]

/-! ## A write packet at a base die (R218, R219) -/

@[simp] theorem State.physData_bytes_length (s : State) (ps : Nat) : (s.physData ps).1.length = 128 := by
  simp [State.physData, State.memBytes]

/-- A byte of a sector that a packet has been applied to. -/
theorem State.applyWrite_getD (s : State) (p : Packet) {b : Nat} (h : b < 128) :
    (applyWrite (s.physData p.pa) p).1.getD b 0 =
      if p.mask.getLsbD b then p.data.getD b 0 else s.memByte (128 * p.pa + b) := by
  have hold : (s.physData p.pa).1.getD b 0 = s.memByte (128 * p.pa + b) := by
    simp [State.physData, State.memBytes, List.getD_eq_getElem?_getD, h]
  rw [applyWrite, mergeBytes_getD (by simpa using h), hold]

/-- A byte that memory holds after a packet: the packet's sector is replaced by what the packet makes of it. -/
theorem State.physWrite_memByte (s : State) (p : Packet) (a : Nat) (h : s.MemoryCanonical) :
    (s.physWrite p).memByte a =
      if a / 128 = p.pa then (applyWrite (s.physData p.pa) p).1.getD (a % 128) 0 else s.memByte a := by
  obtain ⟨hmem, htags, -⟩ := h
  have hlen : (applyWrite (s.physData p.pa) p).1.length = 128 := by simp [applyWrite]
  have htop : Config.memTop = 128 * 6341787648 := rfl
  rw [State.memByte, State.physWrite_mem, State.memByte]
  by_cases ha : a < Config.memTop
  · rw [if_pos ha, if_pos ha]
    by_cases hp : 128 * p.pa < Config.memTop
    · rw [if_pos hp, sget_memPut _ _ _ _ hmem, hlen]
      by_cases hs : a / 128 = p.pa
      · rw [if_pos hs, if_pos (by omega), show a - 128 * p.pa = a % 128 by omega]
      · rw [if_neg hs, if_neg (by omega)]
    · rw [if_neg hp, if_neg (by omega)]
  · rw [if_neg ha, if_neg ha, State.tagByte, State.tagOf, State.tagOf, State.physWrite_tags]
    by_cases hp : 128 * p.pa < Config.memTop
    · rw [if_pos hp, if_neg (by omega)]; rfl
    · rw [if_neg hp, sget_tagPut _ _ _ _ htags, sget_tagPut _ _ _ _ htags, hlen,
        show (2 * (a - Config.memTop) + 1) / 2 = a - Config.memTop by omega,
        show 2 * (a - Config.memTop) / 2 = a - Config.memTop by omega]
      by_cases hs : a / 128 = p.pa
      · rw [if_pos hs, if_pos (by omega), if_pos (by omega), tagIn_append,
          show a - Config.memTop - (128 * p.pa - Config.memTop) = a % 128 by omega]
      · rw [if_neg hs, if_neg (by omega), if_neg (by omega)]; rfl

/-! ## A write at L2 of a sector that it holds (R194, R220) -/

theorem State.noteCode_l2 (s : State) (sec : Nat) : (s.noteCode sec).l2 = s.l2 := by
  unfold State.noteCode
  repeat' split
  all_goals rfl

theorem State.l2Touch_l2? (s : State) (x : L2Sector) (ph : Bool) (q : Nat) : (s.l2Touch x).l2? ph q =
    if x.phys = ph ∧ x.sector = q then some x else s.l2? ph q := by
  by_cases h : x.phys = ph ∧ x.sector = q
  · rw [if_pos h]
    exact List.find?_cons_of_pos (by simpa using h)
  · rw [if_neg h]
    refine (List.find?_cons_of_neg (by simpa using h)).trans ?_
    rw [List.find?_filter]
    refine congrArg (List.find? · s.l2) (funext fun y => ?_)
    by_cases hy : y.phys = ph ∧ y.sector = q
    · obtain ⟨rfl, rfl⟩ := hy
      have hne : (y.phys == x.phys && y.sector == x.sector) = false := by
        simpa [@eq_comm _ x.phys, @eq_comm _ x.sector] using h
      simp [hne]
    · have hno : (y.phys == ph && y.sector == q) = false := by simpa using hy
      simp [hno]

/-- A change that keeps what is looked for is made to what is found. -/
theorem find?_updIf_of_keeps {α : Type} {p : α → Bool} {f : α → α} (h : ∀ x, p (f x) = p x) (q : α → Bool) (l : List α) :
    (updIf q f l).find? p = (l.find? p).map fun x => if q x then f x else x := by
  have hp : (p ∘ fun x => if q x then f x else x) = p := by
    funext x
    rw [Function.comp_apply, apply_ite p, h, ite_self]
  rw [updIf, List.find?_map, hp]

/-- What L2 finds after a write of a sector that it holds: the sector with the written bytes, and its data in the
sectors of the same location under other addresses (R220). -/
theorem State.l2Store_l2? (s : State) (x : L2Sector) (data : List Byte) (mask : BitVec 128) (poison : Bool)
    (owner : Option TKey) (cause : BitVec 20) (ph : Bool) (q : Nat) :
    let y := x.write data mask poison owner cause
    (s.l2Store x data mask poison owner cause).l2? ph q =
      if x.phys = ph ∧ x.sector = q then some y else (s.l2? ph q).map fun z =>
        if z.phys == x.phys && z.pa == x.pa then { z with data := y.data, poison := y.poison } else z := by
  intro y
  rw [State.l2Store, State.l2Touch_l2?]
  exact ite_congr rfl (fun _ => rfl) fun _ => find?_updIf_of_keeps
    (p := fun z : L2Sector => z.phys == ph && z.sector == q)
    (f := fun z : L2Sector => { z with data := y.data, poison := y.poison }) (fun _ => rfl) _ _

theorem State.l2?_names {s : State} {ph : Bool} {q : Nat} {z : L2Sector} (h : s.l2? ph q = some z) :
    z.phys = ph ∧ z.sector = q := by
  simpa using List.find?_some h

/-- A write at L2 of a sector that L2 holds. -/
theorem State.l2Write_of_held {s : State} {phys : Bool} {sec : Nat} {x : L2Sector} (h : s.l2? phys sec = some x)
    (data : List Byte) (mask : BitVec 128) (poison : Bool) (owner : Option TKey) (cause : BitVec 20) :
    (s.l2Write phys sec data mask poison owner cause).2 =
      ((if phys then s else s.noteCode sec).l2Touch x).l2Store x data mask poison owner cause := by
  have hheld : (if phys then s else s.noteCode sec).l2? phys sec = some x := by
    cases phys
    · exact (congrArg (List.find? _) (s.noteCode_l2 sec)).trans h
    · exact h
  simp only [State.l2Write, State.l2Bring, hheld]

theorem State.l2Write_l2?_of_held {s : State} {phys : Bool} {sec : Nat} {x : L2Sector} (h : s.l2? phys sec = some x)
    (data : List Byte) (mask : BitVec 128) (poison : Bool) (owner : Option TKey) (cause : BitVec 20) (ph : Bool) (q : Nat) :
    let y := x.write data mask poison owner cause
    (s.l2Write phys sec data mask poison owner cause).2.l2? ph q =
      if phys = ph ∧ sec = q then some y else (s.l2? ph q).map fun z =>
        if z.phys == phys && z.pa == x.pa then { z with data := y.data, poison := y.poison } else z := by
  obtain ⟨rfl, rfl⟩ := State.l2?_names h
  have hl2 : (if x.phys then s else s.noteCode x.sector).l2? ph q = s.l2? ph q := by
    split
    · rfl
    · exact congrArg (List.find? _) (s.noteCode_l2 x.sector)
  rw [State.l2Write_of_held h, State.l2Store_l2?]
  refine ite_congr rfl (fun _ => rfl) fun hne => ?_
  rw [State.l2Touch_l2?, if_neg hne, hl2]

/-- Settles O13: a byte is looked up in the sector that the packet makes, a sector in the L2 that the write leaves, a tag
in the canonical form. -/
theorem writesChangeNamedBytesOnly : Obligations.WritesChangeNamedBytesOnly := by
  refine fun s => ⟨fun p a _ hs => ⟨s.physWrite_canonical p hs, ?byte⟩,
    fun phys sec x data mask poison owner hx hlen => ?sector,
    fun g h v hs => ⟨s.setTag_canonical g v hs, sget_sset _ _ _ _ hs.2.1⟩⟩
  case byte =>
    rw [s.physWrite_memByte p a hs]
    by_cases hsec : a / 128 = p.pa
    · rw [if_pos hsec, s.applyWrite_getD p (Nat.mod_lt _ (by decide)), ← hsec, Nat.div_add_mod]
      simp [hsec]
    · rw [if_neg hsec, if_neg fun h => hsec h.1]
  case sector =>
    intro t
    have hfind := State.l2Write_l2?_of_held hx data mask poison owner 0
    have hkept : t.besidesL2 = s.besidesL2 := s.l2Write_besidesL2 ..
    refine ⟨⟨x.write data mask poison owner, ?_, rfl, fun b hb => mergeBytes_getD (hlen ▸ hb), fun ph q hne => ?_⟩,
      (congrArg State.mem hkept :), (congrArg State.tags hkept :), (congrArg State.teams hkept :)⟩
    · exact (hfind phys sec).trans (if_pos ⟨rfl, rfl⟩)
    · refine ((hfind ph q).trans (if_neg fun h => hne ⟨h.1.symm, h.2.symm⟩)).trans ?_
      cases hz : s.l2? ph q with
      | none => rfl
      | some z =>
        rw [Option.map_some, Option.map_some, (State.l2?_names hz).1]
        simp only [Bool.and_eq_true, beq_iff_eq]

end Sys2Proof.Machine
end

section
/-!
SUPPORT. The L1 of a core (R192 to R195): what a write-back and an eviction change, where a sector is found after them,
and a store in write-back form.
-/

namespace Sys2Proof.Machine

/-! ## Changes of one core -/

/-- One core and the next number may differ; the rest of the state is the same. -/
def State.OnlyCore (core : Nat) (s t : State) : Prop :=
  (∃ n cs, t = { s with nextId := n, cores := cs }) ∧ ∀ c, c ≠ core → t.core c = s.core c

namespace State.OnlyCore

variable {core : Nat} {s t u : State}

theorem refl (core : Nat) (s : State) : OnlyCore core s s := ⟨⟨_, _, rfl⟩, fun _ _ => rfl⟩

theorem trans (h : OnlyCore core s t) (h' : OnlyCore core t u) : OnlyCore core s u := by
  obtain ⟨⟨n, cs, rfl⟩, hc⟩ := h
  obtain ⟨⟨n', cs', rfl⟩, hc'⟩ := h'
  exact ⟨⟨n', cs', rfl⟩, fun c hne => (hc' c hne).trans (hc c hne)⟩

theorem modCore (s : State) (core : Nat) (f : Core → Core) : OnlyCore core s (s.modCore core f) :=
  ⟨⟨_, _, rfl⟩, fun c hne => s.modCore_core_other core f c hne.symm⟩

theorem sendWriteBack (s : State) (core : Nat) (x : L1Sector) : OnlyCore core s (s.sendWriteBack core x).2 := by
  have hid : OnlyCore core s s.takeId.2 := ⟨⟨_, _, rfl⟩, fun _ _ => rfl⟩
  simp only [State.sendWriteBack]
  exact hid.trans (modCore ..)

theorem cleanSector (s : State) (core : Nat) (x : L1Sector) : OnlyCore core s (s.cleanSector core x).2 := by
  simp only [State.cleanSector]
  exact (sendWriteBack s core x).trans (modCore ..)

theorem cleanAll (s : State) (core : Nat) (p : L1Sector → Bool) : OnlyCore core s (s.cleanAll core p).2 :=
  List.foldlRecOn _ _ (motive := fun acc : List Nat × State => OnlyCore core s acc.2) (refl core s)
    fun _ h x _ => h.trans (cleanSector _ core x)

theorem l1Room (s : State) (core line : Nat) : OnlyCore core s (s.l1Room core line) := by
  simp only [State.l1Room]
  repeat' split
  all_goals first | exact refl core s | exact (cleanAll s core _).trans (modCore ..)

theorem l1Store (s : State) (core : Nat) (owner : TKey) (sec : Nat) (data : List Byte) (mask : BitVec 128)
    (poison last : Bool) : OnlyCore core s (s.l1Store core owner sec data mask poison last) := by
  have hroom := l1Room s core (sec / 4)
  unfold State.l1Store
  dsimp only
  split
  · exact hroom.trans (modCore ..)
  · split
    · exact (hroom.trans (sendWriteBack ..)).trans (modCore ..)
    · exact hroom.trans (modCore ..)

end State.OnlyCore

/-! ## Where a sector is found -/

theorem find?_filter_all {α : Type} {p r : α → Bool} (h : ∀ x, p x = true → r x = true) {l : List α} :
    (l.filter r).find? p = l.find? p := by
  rw [List.find?_filter]
  refine congrArg (List.find? · l) (funext fun x => ?_)
  simpa using h x

theorem find?_filter_none {α : Type} {p r : α → Bool} (h : ∀ x, p x = true → r x = false) {l : List α} :
    (l.filter r).find? p = none := by
  rw [List.find?_filter]
  refine List.find?_eq_none.2 fun x _ hx => ?_
  obtain ⟨hr, hp⟩ := of_decide_eq_true hx
  exact absurd hr (by simp [h x hp])

/-- Cleaning a sector keeps its address. -/
theorem L1Sector.cleaned_sector {x y : L1Sector} (h : x.cleaned = some y) : y.sector = x.sector := by
  unfold L1Sector.cleaned at h
  split at h
  · obtain rfl := Option.some.inj h; rfl
  · cases h

theorem State.sendWriteBack_l1 (s : State) (core : Nat) (x : L1Sector) :
    ((s.sendWriteBack core x).2.core core).l1 = (s.core core).l1 := by
  simp only [State.sendWriteBack, State.modCore_core_same]
  rfl

/-- Cleaning a sector leaves the sectors of the other lines. -/
theorem State.cleanSector_other_lines (s : State) (core : Nat) {x : L1Sector} {line : Nat} (h : x.sector / 4 = line) :
    ((s.cleanSector core x).2.core core).l1.filter (·.sector / 4 != line) =
      (s.core core).l1.filter (·.sector / 4 != line) := by
  simp only [State.cleanSector, State.modCore_core_same, State.sendWriteBack_l1]
  induction (s.core core).l1 with
  | nil => rfl
  | cons y l ih =>
    rw [List.filterMap_cons]
    by_cases hy : y.sector = x.sector
    · have hline : (y.sector / 4 != line) = false := by simp [hy, h]
      rw [if_pos (beq_iff_eq.2 hy), List.filter_cons_of_neg (by simp [hline])]
      cases hz : y.cleaned with
      | none => exact ih
      | some z => exact (List.filter_cons_of_neg (by simp [L1Sector.cleaned_sector hz, hline])).trans ih
    · rw [if_neg (by simpa using hy)]
      simp only [List.filter_cons, ih]

theorem State.cleanAll_other_lines (s : State) (core line : Nat) :
    ((s.cleanAll core fun x => x.sector / 4 == line).2.core core).l1.filter (·.sector / 4 != line) =
      (s.core core).l1.filter (·.sector / 4 != line) := by
  refine List.foldlRecOn _ _ (motive := fun acc : List Nat × State =>
    (acc.2.core core).l1.filter (·.sector / 4 != line) = (s.core core).l1.filter (·.sector / 4 != line)) rfl
    fun acc h x hx => (acc.2.cleanSector_other_lines core ?_).trans h
  simp only [List.mem_filter, Bool.and_eq_true, beq_iff_eq] at hx
  exact hx.2.2

/-- Room for a line: nothing changes, or one other line leaves. -/
theorem State.l1Room_l1 (s : State) (core line : Nat) : s.l1Room core line = s ∨
    ∃ old, old ≠ line ∧ ((s.l1Room core line).core core).l1 = (s.core core).l1.filter (·.sector / 4 != old) := by
  unfold State.l1Room
  dsimp only
  split
  · exact .inl rfl
  next hfull =>
    split
    · exact .inl rfl
    · split
      · exact .inl rfl
      next old hold =>
        refine .inr ⟨old, ?_, ?_⟩
        · rintro rfl
          have hmem := (List.mem_filter.1 (List.mem_of_getLast? hold)).1
          exact hfull (.inr (List.contains_iff_mem.2 hmem))
        · rw [State.modCore_core_same]
          exact s.cleanAll_other_lines core old

/-- A sector found after room was made was there before; one of the line that room was made for is found still. -/
theorem State.l1Room_l1? (s : State) (core line q : Nat) :
    ((s.l1Room core line).core core).l1? q = (s.core core).l1? q ∨
      (q / 4 ≠ line ∧ ((s.l1Room core line).core core).l1? q = none) := by
  obtain h | ⟨old, hold, h⟩ := s.l1Room_l1 core line
  · exact .inl (by rw [h])
  · simp only [Core.l1?, h]
    by_cases hq : q / 4 = old
    · refine .inr ⟨hq ▸ hold, find?_filter_none fun y hy => ?_⟩
      simpa [beq_iff_eq.1 hy] using hq
    · refine .inl (find?_filter_all fun y hy => ?_)
      simpa [beq_iff_eq.1 hy] using hq

/-- A sector put into its line is found; the place it takes hides no other. -/
theorem Core.l1Put_l1? (c : Core) (x : L1Sector) (last : Bool) (q : Nat) :
    (c.l1Put x last).l1? q = if x.sector = q then some x else c.l1? q := by
  simp only [Core.l1Put, Core.l1?]
  by_cases hq : x.sector = q
  · have hnone (r : L1Sector → Bool) : ((c.l1.filter (·.sector != x.sector)).filter r).find? (·.sector == q) = none := by
      rw [List.filter_filter]
      exact find?_filter_none (fun y hy => by simp [beq_iff_eq.1 hy, hq])
    rw [if_pos hq]
    cases last
    · exact List.find?_cons_of_pos (beq_iff_eq.2 hq)
    · rw [if_pos rfl, List.find?_append, hnone, Option.none_or]
      exact List.find?_cons_of_pos (beq_iff_eq.2 hq)
  · have hrest : (c.l1.filter (·.sector != x.sector)).find? (·.sector == q) = c.l1.find? (·.sector == q) :=
      find?_filter_all (fun y hy => by simpa [beq_iff_eq.1 hy] using Ne.symm hq)
    have hcons (l : List L1Sector) : (x :: l).find? (·.sector == q) = l.find? (·.sector == q) :=
      List.find?_cons_of_neg (by simpa using hq)
    rw [if_neg hq]
    cases last
    · exact (hcons _).trans hrest
    · rw [if_pos rfl, List.find?_append, hcons]
      by_cases hline : q / 4 = x.sector / 4
      · rw [find?_filter_none fun y hy => by simpa [beq_iff_eq.1 hy] using hline, Option.none_or,
          find?_filter_all fun y hy => by simpa [beq_iff_eq.1 hy] using hline, hrest]
      · rw [find?_filter_all fun y hy => by simpa [beq_iff_eq.1 hy] using hline, hrest,
          find?_filter_none fun y hy => by simpa [beq_iff_eq.1 hy] using hline, Option.or_none]

/-! ## A store in write-back form (R194) -/

/-- The sector that a store leaves in the L1: the bytes it names are the data's, the others those of the sector that was
there, in the core after room was made. -/
theorem State.l1Store_puts (s : State) (core : Nat) (owner : TKey) (sec : Nat) (data : List Byte) (mask : BitVec 128)
    (poison last : Bool) : ∃ u y, State.OnlyCore core (s.l1Room core (sec / 4)) u ∧
      (u.core core).l1 = ((s.l1Room core (sec / 4)).core core).l1 ∧
      s.l1Store core owner sec data mask poison last = u.modCore core (·.l1Put y last) ∧
      y.sector = sec ∧ y.owner = some owner ∧
      y.data = mergeBytes ((((s.l1Room core (sec / 4)).core core).l1? sec).elim (List.replicate 128 0) (·.data)) data mask := by
  unfold State.l1Store
  dsimp only
  cases hx : ((s.l1Room core (sec / 4)).core core).l1? sec with
  | none => exact ⟨s.l1Room core (sec / 4), _, .refl .., rfl, rfl, rfl, rfl, by simp only [Option.elim]⟩
  | some x =>
    have hsec : x.sector = sec := by simpa using List.find?_some hx
    dsimp only
    split
    · exact ⟨_, _, .sendWriteBack .., State.sendWriteBack_l1 .., rfl, hsec, rfl, rfl⟩
    · exact ⟨s.l1Room core (sec / 4), _, .refl .., rfl, rfl, hsec, rfl, rfl⟩

/-- Settles O36: the sector that the store puts is found, every other one where it was; the rest of the state is that of a
change of one core. -/
theorem writeBackStoreWritesItsBytes : Obligations.WriteBackStoreWritesItsBytes := by
  intro s core owner sec data mask poison last hdata hlen t
  obtain ⟨⟨n, cs, ht⟩, hothers⟩ := State.OnlyCore.l1Store s core owner sec data mask poison last
  obtain ⟨u, y, hu, hl1, hstore, hsec, howner, hy⟩ := s.l1Store_puts core owner sec data mask poison last
  have hfind (q : Nat) : (t.core core).l1? q =
      if sec = q then some y else ((s.l1Room core (sec / 4)).core core).l1? q := by
    refine (congrArg (fun v : State => (v.core core).l1? q) hstore).trans ?_
    rw [State.modCore_core_same]
    refine ((u.core core).l1Put_l1? y last q).trans ?_
    rw [hsec, Core.l1?, hl1]; rfl
  have hroom : ((s.l1Room core (sec / 4)).core core).l1? sec = (s.core core).l1? sec :=
    (s.l1Room_l1? core (sec / 4) sec).resolve_right fun h => h.1 rfl
  rw [hroom] at hy
  have hold : (((s.core core).l1? sec).elim (List.replicate 128 0) (·.data)).length = 128 := by
    cases hx : (s.core core).l1? sec with
    | none => rfl
    | some x => exact hlen x hx
  have hbyte {b : Nat} (hb : b < 128) : y.data[b]? = some (if mask.getLsbD b then data.getD b 0 else
      (((s.core core).l1? sec).elim (List.replicate 128 0) (·.data)).getD b 0) := by
    rw [hy, mergeBytes_getElem?, hold, if_pos hb]
  refine ⟨⟨y, (hfind sec).trans (if_pos rfl), howner, fun b hb hm => ?named, fun x hx b hb hm => ?kept⟩, hothers,
    fun q z hq hz => ?other, ?_⟩
  case named =>
    rw [hbyte hb, if_pos hm]
    simp [List.getD_eq_getElem?_getD, hdata, hb]
  case kept =>
    rw [hbyte hb, hm, hx]
    simp [List.getD_eq_getElem?_getD, hlen x hx, hb]
  case other =>
    rw [hfind, if_neg hq.symm] at hz
    obtain h | ⟨-, h⟩ := s.l1Room_l1? core (sec / 4) q
    · rw [← h, hz]
    · rw [h] at hz; cases hz
  · have hrest {α : Type} (f : State → α) (hf : ∀ n cs, f { s with nextId := n, cores := cs } = f s) : f t = f s :=
      (congrArg f ht).trans (hf n cs)
    exact ⟨hrest _ fun _ _ => rfl, hrest _ fun _ _ => rfl, hrest _ fun _ _ => rfl, hrest _ fun _ _ => rfl,
      hrest _ fun _ _ => rfl, hrest _ fun _ _ => rfl⟩

end Sys2Proof.Machine
end

section
/-!
SUPPORT. The packets between hub and base die (R216 to R219), and the links: accesses of peers, flits, retrains (R207,
R303).
-/

namespace Sys2Proof.Machine

/-! ## Packets (R216 to R219) -/

section

variable {s : State} {q : Stream} {p : Packet} {rest : List Packet} {n : Nat}
  (hq : (s.stream q).requests = p :: rest) (htag : p.tag = some n)
include hq htag

/-- The stream after its first request has been taken and its reply is on the way. -/
def State.answered (s : State) (q : Stream) (rest : List Packet) (r : Reply) : State :=
  s.setStream { s.stream q with requests := rest, replies := (s.stream q).replies ++ [r] }

/-- A request that has its tag is taken by the event of its kind. -/
theorem State.takePacket_of_sent (name : String) : s.takePacket q p.kind name = .next (match p.kind with
    | .rd => s.answered q rest (p.reply (s.physData p.pa).1 (s.physData p.pa).2)
    | .wr => (s.physWrite p).answered q rest (p.reply [] false)
    | .mwr => (s.physWrite p).answered q rest (p.reply [] (!wholeGranules p.mask))) := by
  have hsent : (p.kind != p.kind || p.tag.isNone) = false := by simp [htag]
  simp only [State.takePacket, hq, hsent]
  cases p.kind <;> rfl

end

/-- Settles O48: a request that was sent is taken by the event of its kind, a reply by the event that its tag names. -/
theorem packetsAreTaken : Obligations.PacketsAreTaken := by
  refine fun s q => ⟨fun p rest n hq htag => ?requests, fun n r hr => ⟨fun hfill => ?plain, fun ph sec hfill =>
    ⟨fun habsent => ?fills, fun x hheld => ?held⟩⟩, fun n r hr => ?ack⟩
  case requests =>
    have htake := State.takePacket_of_sent hq htag
    refine ⟨fun hkind => ?_, fun hkind => ?_, fun hkind => ?_⟩
    · rw [hkind] at htake; exact htake "RD"
    · rw [hkind] at htake; exact htake "WR"
    · rw [hkind] at htake; exact htake "MWR"
  case plain => simp only [exec_rdata, execRdata, hr, hfill]
  case fills => simp [execRdata, hr, hfill, habsent]
  case held => simp [execRdata, hr, hfill, hheld]
  case ack => simp only [exec_wack, execWack, hr]

/-! ## Accesses of peers (R207) -/

/-- A walk that fails for a peer answers that the page does not translate, or that the walk met poison. -/
theorem State.remoteWalk_code {s s1 : State} {r : RemoteAccess} {c : Nat} (h : s.remoteWalk r = (some c, s1)) :
    c = 0x18 ∨ c = 0x19 := by
  suffices hcode : ∀ c ∈ (s.remoteWalk r).1, c = 0x18 ∨ c = 0x19 from hcode c (by rw [h]; rfl)
  refine List.foldlRecOn _ _ (motive := fun acc : Option Nat × State => ∀ c ∈ acc.1, c = 0x18 ∨ c = 0x19)
    (fun c hc => by cases hc) fun acc hacc x _ => ?_
  intro c hc
  split at hc
  next hfailed => exact hacc c (by rw [hfailed]; exact hc)
  next =>
    split at hc
    · cases hc
    · exact .inr (Option.some.inj hc).symm
    · exact .inl (Option.some.inj hc).symm

/-- Settles O51: a peer's access by what its walk answers, a flit by its check. -/
theorem linkEvents : Obligations.LinkEvents := by
  refine fun s => ⟨fun r => ⟨fun c s1 h => ⟨State.remoteWalk_code h, ?failed⟩, fun s1 h => ?served⟩,
    fun port m => ⟨rfl, rfl⟩, fun port => rfl⟩
  case failed => simp only [exec_remoteAccessServe, execRemoteAccessServe, h]
  case served => simp only [exec_remoteAccessServe, execRemoteAccessServe, h]

end Sys2Proof.Machine
end

section
/-!
SUPPORT. What happens to memory operations in flight: the walk of a page, a request that is ready, the verdict of a store
in write-back form, the landing of a write-back (R191, R194, R195, R249).
-/

namespace Sys2Proof.Machine

section

variable {s : State} {id : Nat} {o : MemOp} (ho : s.ops.find? (·.id == id) = some o) (hroom : s.fqRoom o.key.ctx = true)
include ho hroom

/-! ## Walks and requests (R191, R249) -/

theorem execPageWalk_of_needed {a : LaneAccess} (ha : s.needsWalk o = some a) : execPageWalk id s =
    .next ((s.translate a.ia).2.walked o a (s.translate a.ia).1
      (!(o.kind.isTag || (o.cache == .nt && (o.kind == .load || o.kind == .store))))) := by
  simp [execPageWalk, ho, ha, State.roomFor, hroom]

theorem execRequestComplete_one {l : List LaneAccess} (hl : s.readyRequests o = [l]) :
    execRequestComplete id s = .next ((s.perform o l).tryFinish id) := by
  simp [execRequestComplete, ho, hl, State.roomFor, hroom]

/-- Of several requests that are ready, a free number names the one that is performed (assumption 5). -/
theorem execRequestComplete_several (hl : 2 ≤ (s.readyRequests o).length) : ∃ l ∈ s.readyRequests o,
    execRequestComplete id s = .next ((s.draw.2.perform o l).tryFinish id) := by
  have hne : s.readyRequests o ≠ [] := List.ne_nil_of_length_pos (by omega)
  refine ⟨_, getD_mod_length_mem hne s.draw.1 [], ?_⟩
  match hready : s.readyRequests o, hl with
  | l :: m :: rest, _ => simp [execRequestComplete, ho, hready, State.roomFor, hroom]

/-! ## Verdicts (R194) -/

variable (hprobed : o.probed ≠ []) (hparked : o.parked = [])
include hprobed hparked

theorem execTagProbeVerdict_walks {a : LaneAccess} (ha : o.probed.find? (fun a => !o.walked.contains (pageOf a.ia)) = some a) :
    execTagProbeVerdict id s = .next ((s.translate a.ia).2.walked o a (s.translate a.ia).1 false) := by
  simp only [execTagProbeVerdict, ho, ha]
  simp [hprobed, hparked, State.roomFor, hroom]

theorem execTagProbeVerdict_known (hknown : ∀ a ∈ o.probed, pageOf a.ia ∈ o.walked ∧ a.stored = true) :
    execTagProbeVerdict id s = .next ((s.verdict o).tryFinish id) := by
  have hwalked : o.probed.find? (fun a => !o.walked.contains (pageOf a.ia)) = none := by
    simpa using fun a ha => (hknown a ha).1
  have hstored : o.probed.any (fun a => !a.stored) = false := by
    simpa using fun a ha => (hknown a ha).2
  simp only [execTagProbeVerdict, ho, hwalked]
  simp [hprobed, hparked, State.roomFor, hroom, hstored]

end

/-! ## Write-backs (R195) -/

/-- What L2 takes, and reports as lost where the page does not translate (R386). -/
theorem State.landWrite_eq (s : State) (core : Nat) (b : WriteBack) : s.landWrite core b =
    let r := (s.modCore core fun c => { c with wbs := c.wbs.filter (·.id != b.id) }).l2Write false b.sector b.data b.mask
      b.poison (some b.owner) (s.ownerTag core b.owner)
    if r.1 = none then r.2 else r.2.lostWrite (128 * b.sector) b.mask (some b.owner) := by
  simp only [State.landWrite]
  split
  next h => rw [h, if_pos rfl]
  next h => rw [h, if_neg (by simp)]

theorem execWriteBackAcknowledge_of_oldest {s : State} {core id : Nat} {b : WriteBack}
    (hb : (s.core core).wbs.find? (·.id == id) = some b)
    (holdest : ∀ x ∈ (s.core core).wbs, s.sameSector x.sector b.sector = true → b.id ≤ x.id)
    (hroom : ∀ o ∈ s.ops, o.writeBacks.contains id = true → (∀ a ∈ o.lanes, a.code = 0) ∨ s.fqRoom o.key.ctx = true) :
    let s3 := ((s.ops.filter fun o => o.writeBacks.contains id).map (·.id)).foldl State.tryFinish (s.landWrite core b)
    let keys := s3.teams.flatMap fun t => if t.cores.contains core then t.warps.map t.wkey else []
    execWriteBackAcknowledge core id s = .next ((keys.foldl State.settleArrivals s3).settleComplete b.owner) := by
  have hfirst : (s.core core).wbs.any (fun x => decide (x.id < b.id) && s.sameSector x.sector b.sector) = false := by
    simp only [List.any_eq_false, Bool.and_eq_true, decide_eq_true_eq, not_and]
    exact fun x hx hlt hsame => absurd (holdest x hx hsame) (by omega)
  have hheld : (s.ops.filter fun o => o.writeBacks.contains id).any
      (fun o => o.lanes.any (fun a => a.code != 0) && !s.roomFor o) = false := by
    simp only [List.any_eq_false, List.mem_filter, Bool.and_eq_true, not_and]
    rintro o ⟨ho, hwaits⟩ hcode
    obtain hclean | hfree := hroom o ho hwaits
    · obtain ⟨a, ha, hne⟩ := List.any_eq_true.1 hcode
      exact absurd (hclean a ha) (by simpa using hne)
    · simp [State.roomFor, hfree]
  simp only [execWriteBackAcknowledge, hb, hfirst, hheld]
  rfl

/-- Settles O46: each event is due when its clause holds, and answers the state that the clause gives. -/
theorem memoryOperationsProceed : Obligations.MemoryOperationsProceed := by
  refine fun s => ⟨fun id o ho hroom => ⟨fun a ha => ?walk, fun l hl => ?one, fun hl => ?several,
    fun hprobed hparked => ⟨fun a ha => ?verdictWalk, fun hknown => ?verdict⟩⟩, fun core id b hb holdest hroom => ?landed⟩
  case walk => exact execPageWalk_of_needed ho hroom ha
  case one => exact execRequestComplete_one ho hroom hl
  case several => exact execRequestComplete_several ho hroom hl
  case verdictWalk => exact execTagProbeVerdict_walks ho hroom hprobed hparked ha
  case verdict => exact execTagProbeVerdict_known ho hroom hprobed hparked hknown
  case landed =>
    have hack := execWriteBackAcknowledge_of_oldest hb holdest hroom
    rw [State.landWrite_eq] at hack
    exact hack

end Sys2Proof.Machine
end

section
/-!
SUPPORT. The copy instructions (R208 to R213): their checks in order, and the command that enters its channel.
-/

namespace Sys2Proof.Machine

/-! ## Issuing a copy (R208) -/

section

variable {e : Env} {i : Instr} {o : Ops MY}

theorem Env.issueCopy_refused {c : Nat} (h : e.checkCopy i o = .error c) : e.issueCopy i o = e.trap c := by
  simp only [Env.issueCopy, h]

variable {len : Nat} (hlen : e.checkCopy i o = .ok len)
include hlen

theorem Env.issueCopy_bad_record {c : Nat} (h : e.checkRecord o.mod (e.copyRecord o) = some c) :
    e.issueCopy i o = e.trap c := by
  simp only [Env.issueCopy, hlen, h]

variable (hrecord : e.checkRecord o.mod (e.copyRecord o) = none)
include hrecord

theorem Env.issueCopy_full
    (h : 16 ≤ ((e.s.core e.w.core).channel o.mod.ch.toNat).length ∨ e.w.roomOn .cp = false) :
    e.issueCopy i o = .wait e.s := by
  have hfull : ((e.s.core e.w.core).channel o.mod.ch.toNat).length ≥ 16 ∨ (!e.w.roomOn .cp) = true := by simpa using h
  simp only [Env.issueCopy, hlen, hrecord, if_pos hfull]

/-- The command of an issuing copy: its number, its own causal id, its entry of the cause map, its operands. -/
def Env.copyCommand (e : Env) (i : Instr) (o : Ops MY) (len id : Nat) (cause own : Word) : CopyCmd :=
  { id := id, key := e.k, instr := i, pc := e.w.pc, cause := cause, minted := own, serial := e.w.serial
    d := e.scalar o.d, a := e.scalar o.a, b := e.scalar o.b, record := e.copyRecord o, len := len
    nth := e.w.issued + 1 }

theorem Env.issueCopy_enters (hspace : ((e.s.core e.w.core).channel o.mod.ch.toNat).length < 16)
    (hroom : e.w.roomOn .cp = true) :
    let m := e.s.mint (hubOfCore e.w.core)
    let x := { m.2 with nextId := m.2.nextId + 1 }.takeCause (hubOfCore e.w.core) m.2.nextId m.1 e.w.cause
    e.issueCopy i o = .next ((x.2.modChannel e.w.core o.mod.ch.toNat
      (· ++ [e.copyCommand i o len m.2.nextId x.1 m.1])).modWarp e.k fun w => w.countUp .cp m.2.nextId) := by
  have hspare : ¬ (((e.s.core e.w.core).channel o.mod.ch.toNat).length ≥ 16 ∨ (!e.w.roomOn .cp) = true) := by
    simp [hspace, hroom]
  simp only [Env.issueCopy, hlen, hrecord, if_neg hspare]
  rfl

end

/-! ## The checks of length and alignment (R209) -/

/-- What a copy that is no gather checks before its sides: its length (R209). -/
theorem Env.checkCopy_bad_length {e : Env} {i : Instr} {o : Ops MY} (hi : ∀ o', i ≠ .cpygat o')
    (h : (e.scalar o.b).toNat % 16 ≠ 0 ∨ 2 ^ 24 < (e.scalar o.b).toNat) : e.checkCopy i o = .error 0x02 := by
  unfold Env.checkCopy
  split
  · exact absurd rfl (hi _)
  · dsimp only
    rw [if_pos h]

/-- A source in global memory is checked first: it must be a multiple of 16 (R210). -/
theorem Env.checkCopy_bad_source {e : Env} {i : Instr} {o : Ops MY} (hi : ∀ o', i ≠ .cpygat o')
    (hlen : ¬ ((e.scalar o.b).toNat % 16 ≠ 0 ∨ 2 ^ 24 < (e.scalar o.b).toNat))
    (hsrc : (copySides i (e.scalar o.d) (e.scalar o.a)).1 = .global (e.scalar o.a)) (h : (e.scalar o.a).toNat % 16 ≠ 0) :
    e.checkCopy i o = .error 0x06 := by
  have hside (n : Nat) : e.checkSide o.mod n (·.prd) (.global (e.scalar o.a)) = .error 0x06 := if_pos h
  unfold Env.checkCopy
  split
  · exact absurd rfl (hi _)
  · dsimp only
    rw [if_neg hlen]
    generalize copySides i (e.scalar o.d) (e.scalar o.a) = sides at hsrc ⊢
    obtain ⟨src, dst⟩ := sides
    obtain rfl : src = _ := hsrc
    simp only [hside]

/-- Settles O41: the four commands share their checks and their place in the channel. -/
theorem copyInstructionsIssue : Obligations.CopyInstructionsIssue := by
  intro g e o ch q n badLength issues
  have hissues {i : Instr} (hx : ∀ s, exec i s = runSeq i s fun e => e.issueCopy i o) : issues i := by
    refine ⟨fun c h => ?refused, fun len hlen => ⟨fun c h => ?record, fun h => ⟨fun hfull => ?held, fun hspace hroom => ?enters⟩⟩⟩
    case refused => exact Env.traps_of_runSeq hx (Env.issueCopy_refused h)
    case record => exact Env.traps_of_runSeq hx (Env.issueCopy_bad_record hlen h)
    case held => exact Env.holds_of_runSeq hx (Env.issueCopy_full hlen h hfull)
    case enters => exact Env.does_of_runSeq hx (Env.issueCopy_enters hlen h hspace hroom)
  have hcpy := hissues (exec_cpy · o)
  have hcpys := hissues (exec_cpys · o)
  have hcpyg := hissues (exec_cpyg · o)
  refine ⟨hcpy, hcpys, hcpyg, hissues (exec_cpygat · o), fun hbad => ?length, fun hok hsrc => ?source, ?status⟩
  case length =>
    exact ⟨hcpy.1 _ (Env.checkCopy_bad_length (by simp) hbad), hcpys.1 _ (Env.checkCopy_bad_length (by simp) hbad),
      hcpyg.1 _ (Env.checkCopy_bad_length (by simp) hbad)⟩
  case source =>
    exact ⟨hcpy.1 _ (Env.checkCopy_bad_source (by simp) hok rfl hsrc), hcpyg.1 _ (Env.checkCopy_bad_source (by simp) hok rfl hsrc)⟩
  case status =>
    refine Env.does_of_runSeq (exec_cpyq · o) (congrArg (fun v => Act.next (e.setS o.d v)) ?_)
    change copyStatus q e.k = _
    cases q <;> rfl

end Sys2Proof.Machine
end

section
/-!
SUPPORT. The signal instructions (R197, R294): the time that a page walk and a fill leave, the checks in their order, and
the update or read of the word.
-/

namespace Sys2Proof.Machine

/-! ## The time that bringing a sector into L2 leaves (R249, R362) -/

/-- The time of each stamping point. -/
def State.times (s : State) : Nat → Word := s.timeAt

/-- Folding changes that keep the time keeps the time. -/
theorem foldl_times {α : Type} {f : State → α → State} (h : ∀ s a, (f s a).times = s.times) (l : List α) (s : State) :
    (l.foldl f s).times = s.times :=
  List.foldlRecOn l f (motive := fun t => t.times = s.times) rfl fun t ht a _ => (h t a).trans ht

@[simp] theorem State.emit_times (s : State) (src : Src) (kind aux : Nat) (cid parent : Word) (payload : List Word) :
    (s.emit src kind aux cid parent payload).times = s.times := by
  obtain ⟨⟨em, hb, h⟩, -, hunits⟩ := emit_recorder s src kind aux cid parent payload
  funext n
  have hcounter := congrArg (fun m : Emitter => m.counter s.clock) (hunits n)
  have hclock : (s.emit src kind aux cid parent payload).clock = s.clock := by rw [h]
  rw [State.times, State.times, State.timeAt, State.timeAt, hclock]
  exact congrArg (BitVec.ofNat 64) hcounter

@[simp] theorem State.tlbPut_times (s : State) (e : TlbEntry) : (s.tlbPut e).times = s.times := by
  unfold State.tlbPut; split <;> rfl

@[simp] theorem State.walkStart_times (s : State) (ia level table : Nat) :
    (s.walkStart ia level table).2.times = s.times := by
  have htables := foldl_times State.tlbPut_times (s.walkTables ia (4 - level) level table) s
  unfold State.walkStart
  split
  · exact (State.tlbPut_times ..).trans htables
  · exact htables

@[simp] theorem State.draw_times (s : State) : s.draw.2.times = s.times := rfl
@[simp] theorem State.spoiltEntry_times (s : State) (t : TlbEntry) : (s.spoiltEntry t).2.times = s.times := rfl
@[simp] theorem State.cancelFills_times (s : State) (ps : Nat) : (s.cancelFills ps).times = s.times := rfl
@[simp] theorem State.send_times (s : State) (p : Packet) : (s.send p).times = s.times := rfl
@[simp] theorem State.l2Touch_times (s : State) (x : L2Sector) : (s.l2Touch x).times = s.times := rfl

@[simp] theorem State.walkCached_times (s : State) (ia : Nat) : (s.walkCached ia).2.times = s.times := by
  simp only [State.walkCached]
  repeat' split
  all_goals simp

@[simp] theorem State.translate_times (s : State) (ia : Nat) : (s.translate ia).2.times = s.times := by
  simp only [State.translate]
  repeat' split
  all_goals simp

@[simp] theorem State.lostWrite_times (s : State) (ia : Nat) (mask : BitVec 128) (owner : Option TKey) :
    (s.lostWrite ia mask owner).times = s.times := by
  unfold State.lostWrite
  split
  · rfl
  · exact State.emit_times ..

@[simp] theorem State.l2WriteBack_times (s : State) (x : L2Sector) : (s.l2WriteBack x).times = s.times := by
  simp only [State.l2WriteBack]
  repeat' split
  all_goals simp

@[simp] theorem State.l2Evict_times (s : State) (l : Bool × Nat) : (s.l2Evict l).times = s.times :=
  foldl_times State.l2WriteBack_times ..

@[simp] theorem State.l2Room_times (s : State) (phys : Bool) (line : Nat) : (s.l2Room phys line).times = s.times := by
  simp only [State.l2Room]
  repeat' split
  all_goals simp

@[simp] theorem State.l2Install_times (s : State) (phys : Bool) (sec ps : Nat) (data : List Byte) (poison : Bool) :
    (s.l2Install phys sec ps data poison).times = s.times := by simp [State.l2Install]

@[simp] theorem State.l2Bring_times (s : State) (phys : Bool) (sec : Nat) : (s.l2Bring phys sec).2.times = s.times := by
  have hwalk : (if phys then (Walk.leaf (128 * sec) 3, s) else s.translate (128 * sec)).2.times = s.times := by
    cases phys
    · exact s.translate_times _
    · rfl
  unfold State.l2Bring
  split
  · rfl
  · dsimp only
    split
    all_goals simp [hwalk]

@[simp] theorem State.tagCheck_times (s : State) (a : LaneAccess) (size : Nat) : (s.tagCheck a size).2.times = s.times := by
  have hwalk := s.translate_times a.ia
  unfold State.tagCheck
  split
  · rfl
  · split
    all_goals rename_i heq; rw [heq] at hwalk; exact hwalk

/-- A signal word whose page, tag and poison let it be accessed is reached at the time of its instruction. -/
theorem State.signalPage_ready_times {s t : State} {k : WKey} {w : Warp} {i : Instr} {va : Word} {r : Range} {kind : OpKind}
    (h : s.signalPage k w i va r kind = .ready t) : t.times = s.times := by
  have hwalk := s.translate_times (r.target va)
  unfold State.signalPage at h
  dsimp only at h
  split at h
  next s1 heq =>
    rw [heq] at hwalk
    split at h
    · cases h
    next =>
      have hbring := (s1.tagCheck { lane := 255, va := va, ia := r.target va, tc := r.tc } 8).2.l2Bring_times false
        (r.target va / 128)
      split at h
      next x s3 hs3 =>
        rw [hs3] at hbring
        split at h
        · cases h
        · obtain rfl := SigPage.ready.inj h
          exact hbring.trans ((State.tagCheck_times ..).trans hwalk)
      · cases h
  · split at h <;> cases h
  · cases h
  · cases h

/-- A scalar operand reads the same in a state of the same time. -/
theorem Env.scalar_of_times {e : Env} {t : State} (h : t.times = e.s.times) (o : Operand) :
    ({ e with s := t } : Env).scalar o = e.scalar o := by
  cases o with
  | special r =>
    cases r
    case clk => exact congrFun h e.w.core
    all_goals rfl
  | _ => rfl

/-! ## The checks of a signal instruction (R294) -/

/-- The access of a signal instruction to its word. -/
def sigAccess (va : Word) (r : Range) : LaneAccess := { lane := 255, va := va, ia := r.target va, rkind := r.kind }

/-- The word of a signal instruction, in range `r`, may be accessed in state `t`: its lease is held, the range permits it,
no watch slot and no older access meets it; outside the host the L1 holds nothing that must leave first, and the page,
the tag and the poison allow it. -/
def Env.SignalOpen (e : Env) (i : Instr) (va : Word) (r : Range) (kind : OpKind) (t : State) : Prop :=
  (r.kind = 0 → e.t.leases.getLsbD r.idx = true) ∧ r.kind ≠ 2 ∧ r.permits kind = true ∧
  e.watchHit kind.watchKind 8 [sigAccess va r] = none ∧ e.heldByAcquire = false ∧
  e.olderAccess 8 [sigAccess va r] = false ∧ (r.kind = 3 → t = e.s) ∧
  (r.kind ≠ 3 →
    (∀ x ∈ (e.s.core e.w.core).l1, e.stray (r.target va) x = false) ∧
    e.s.wbPending e.w.core (r.target va / 128) = false ∧ e.s.signalPage e.k e.w i va r kind = .ready t)

theorem Env.SignalOpen.times {e : Env} {i : Instr} {va : Word} {r : Range} {kind : OpKind} {t : State}
    (h : e.SignalOpen i va r kind t) : t.times = e.s.times := by
  obtain ⟨-, -, -, -, -, -, hhost, hlocal⟩ := h
  by_cases hk : r.kind = 3
  · rw [hhost hk]
  · exact State.signalPage_ready_times (hlocal hk).2.2

section

variable {e : Env} {i : Instr} {a : Operand} {kind : OpKind} {f : Env → Word → Range → Act} {count : Word}

theorem Env.signal_misaligned (h : (e.scalar a).toNat % 8 ≠ 0) : e.signal i a kind f count = e.trap 0x06 255 (e.scalar a) :=
  if_pos h

variable (haligned : (e.scalar a).toNat % 8 = 0)
include haligned

theorem Env.signal_outside (h : e.ctx.findRange (e.scalar a) 8 = none) :
    e.signal i a kind f count = e.trap 0x10 255 (e.scalar a) := by
  simp [Env.signal, haligned, h]

variable {r : Range} (hr : e.ctx.findRange (e.scalar a) 8 = some r)
include hr

theorem Env.signal_unleased (hk : r.kind = 0) (h : e.t.leases.getLsbD r.idx = false) :
    e.signal i a kind f count = e.trap 0x11 255 (e.scalar a) := by
  simp [Env.signal, haligned, hr, hk, h]

theorem Env.signal_not_permitted (hlease : r.kind = 0 → e.t.leases.getLsbD r.idx = true)
    (h : r.kind = 2 ∨ r.permits kind = false) : e.signal i a kind f count = e.trap 0x12 255 (e.scalar a) := by
  have hleased : ¬ (r.kind = 0 ∧ (!e.t.leases.getLsbD r.idx) = true) := fun hk => by simp [hlease hk.1] at hk
  have hrefused : r.kind = 2 ∨ (!r.permits kind) = true := by simpa using h
  simp only [Env.signal, hr, haligned]
  rw [if_neg hleased, if_pos hrefused]
  rfl

theorem Env.signal_of_open {t : State} (h : e.SignalOpen i (e.scalar a) r kind t) :
    e.signal i a kind f count = f { e with s := t } (e.scalar a) r := by
  obtain ⟨hlease, hpeer, hpermits, hwatch, hacquire, holder, hhost, hlocal⟩ := h
  rw [sigAccess] at hwatch holder
  have hleased : ¬ (r.kind = 0 ∧ (!e.t.leases.getLsbD r.idx) = true) := fun hk => by simp [hlease hk.1] at hk
  have hallowed : ¬ (r.kind = 2 ∨ (!r.permits kind) = true) := by simp [hpeer, hpermits]
  simp only [Env.signal, hr, haligned, hwatch, hacquire, holder, if_neg hleased, if_neg hallowed]
  by_cases hk : r.kind = 3
  · simp [hk, hhost hk]
  · obtain ⟨hl1, hwb, hpage⟩ := hlocal hk
    have hstray : (e.s.core e.w.core).l1.filter (e.stray (r.target (e.scalar a))) = [] := by
      simpa using hl1
    simp [hk, hstray, hwb, hpage]

end

/-! ## The update and the read of a signal word -/

/-- ORD of a signal instruction is `.rel` at code 2 (R28). -/
theorem sigOrd_rel_iff (m : BitVec 16) : (sigOrd m == .rel) = true ↔ m.extractLsb' 3 2 = 2#2 := by
  have hord : m.toNat / 8 % 4 = (m.extractLsb' 3 2).toNat := by
    simp [BitVec.extractLsb'_toNat, Nat.shiftRight_eq_div_pow]
  rw [sigOrd, hord]
  generalize m.extractLsb' 3 2 = x
  revert x
  decide

/-- The effect of a `sigwait` on a word that may be read. -/
def sigRead (o : Ops (BitVec 16)) (e : Env) (va : Word) (r : Range) : Act :=
  let x := e.s.signalValue r va (e.s.warpParty e.k e.w)
  if branchCond (sigCond o.mod) x.1 (e.scalar o.b) then
    .next ((e.sigDone x.2 o (wordPlace r.kind r.peer (r.target va)) x.1).advance e.k)
  else .enter (x.2.enterWait e.k (.sigWait o) (sigEntry va x.1 (e.scalar o.b) (sigCond o.mod)))

section

variable {e : Env} {i : Instr} {o : Ops (BitVec 16)} {x count : Word}

/-- What stops the signal access of an update stops the update. -/
theorem Env.signalUpdate_of_trap {a : Act} (h : ∀ f, e.signal i o.a .atomic f count = a) : e.signalUpdate i o x count = a := by
  unfold Env.signalUpdate
  exact h _

/-- After its checks, and its release action with `.rel`, an update adds to the word and waits for the reply (R363). -/
theorem Env.signalUpdate_enters {r : Range} {t t1 : State} (haligned : (e.scalar o.a).toNat % 8 = 0)
    (hr : e.ctx.findRange (e.scalar o.a) 8 = some r) (hopen : e.SignalOpen i (e.scalar o.a) r .atomic t)
    (ht1 : (o.mod.extractLsb' 3 2 ≠ 2#2 ∧ t1 = t) ∨
      (o.mod.extractLsb' 3 2 = 2#2 ∧ ({ e with s := t } : Env).release (sigScope o.mod) = .ok t1)) :
    e.signalUpdate i o x count = .enter ((({ e with s := t1 } : Env).signalAdd (e.scalar o.a) r x).enterWait e.k .sigTrip
      (roundTrip i.opcode (e.scalar o.a) count)) := by
  unfold Env.signalUpdate
  refine (Env.signal_of_open haligned hr hopen).trans ?_
  obtain ⟨hord, rfl⟩ | ⟨hord, hdone⟩ := ht1
  · exact if_neg (mt (sigOrd_rel_iff o.mod).1 hord)
  · rw [if_pos ((sigOrd_rel_iff o.mod).2 hord), Env.afterRelease, hdone]

end

/-- Settles O32: the checks are shared; a word that may be accessed is updated or read at the time of the instruction. -/
theorem signalInstructionResults : Obligations.SignalInstructionResults := by
  intro g e o va all
  have htraps {code : Nat} (h : ∀ i kind f count, e.signal i o.a kind f count = e.trap code 255 va) :
      all fun i _ => e.Traps i g code 255 va :=
    ⟨Env.traps_of_runRaw (exec_sigdec · o) (Env.signalUpdate_of_trap fun _ => h ..),
      Env.traps_of_runRaw (exec_sigadd · o) (Env.signalUpdate_of_trap fun _ => h ..),
      Env.traps_of_runRaw (exec_sigwait · o) (h ..)⟩
  refine ⟨fun h => htraps fun _ _ _ _ => Env.signal_misaligned h,
    fun hal h => htraps fun _ _ _ _ => Env.signal_outside hal h,
    fun hal r hr => ⟨fun hk h => htraps fun _ _ _ _ => Env.signal_unleased hal hr hk h, fun hlease => ?refused, ?opened⟩⟩
  case refused =>
    have hrefused {i : Instr} {kind : OpKind} {f : Env → Word → Range → Act} {count : Word}
        (h : r.kind = 2 ∨ r.permits kind = false) : e.signal i o.a kind f count = e.trap 0x12 255 va :=
      Env.signal_not_permitted hal hr hlease h
    exact ⟨fun h => Env.traps_of_runRaw (exec_sigdec · o) (Env.signalUpdate_of_trap fun _ => hrefused h),
      fun h => Env.traps_of_runRaw (exec_sigadd · o) (Env.signalUpdate_of_trap fun _ => hrefused h),
      fun h => Env.traps_of_runRaw (exec_sigwait · o) (hrefused h)⟩
  case opened =>
    intro open? adds
    have hadds {i : Instr} {x count : Word} {f : Env → Act} (hx : ∀ s, exec i s = runRaw i s f)
        (hf : f e = e.signalUpdate i o x count) : adds i x count := fun t hopen =>
      ⟨fun hord => Env.enters_of_runRaw hx (hf.trans (Env.signalUpdate_enters hal hr hopen (.inl ⟨hord, rfl⟩))),
        fun hord t1 ht1 => Env.enters_of_runRaw hx (hf.trans (Env.signalUpdate_enters hal hr hopen (.inr ⟨hord, ht1⟩)))⟩
    refine ⟨hadds (exec_sigdec · o) rfl, hadds (exec_sigadd · o) rfl, fun t hopen => ?_⟩
    intro v t1 cond
    have hb : ({ e with s := t } : Env).scalar o.b = e.scalar o.b := Env.scalar_of_times (Env.SignalOpen.times hopen) o.b
    have hread := Env.signal_of_open (f := sigRead o) (count := 0) hal hr hopen
    refine ⟨fun h => Env.doesRaw_of_runRaw (exec_sigwait · o) (hread.trans ?_),
      fun h => Env.enters_of_runRaw (exec_sigwait · o) (hread.trans ?_)⟩
    · exact (if_pos (by rw [hb]; exact h)).trans rfl
    · refine (if_neg (ne_true_of_eq_false (by rw [hb]; exact h))).trans ?_
      rw [hb]; rfl

end Sys2Proof.Machine
end

section
/-!
SUPPORT. Prefetch, the fences and the L1 instructions, `tagset` and the watch slots (R199 to R201, R205, R265 to R267).
-/

namespace Sys2Proof.Machine

section

variable {e : Env} {g : Sig}

/-! ## Prefetch (R205) and `tagset` (R265) -/

/-- The form of a prefetch. -/
abbrev prefForm (o : Ops MM) : MemForm := memForm .prefetch o

/-- The accesses of a prefetch that pass every check. -/
def Env.prefLanes (e : Env) (o : Ops MM) : List LaneAccess :=
  ((e.accesses (prefForm o)).filter fun a => (e.w.indexFault e.t.kernel.n [o.b] [a.lane]).isNone &&
    !e.w.poisonAt o.b a.lane && !e.w.poisonAt o.a a.lane).filterMap fun a => (e.checkAccess (prefForm o) a).toOption

/-- What a prefetch does. -/
def Env.prefetch (e : Env) (o : Ops MM) : Act :=
  if (e.prefLanes o).isEmpty || !e.slotsFree (requestsOf (e.prefLanes o)).length then .next e.s
  else .next (e.queueOp (.pref o) (prefForm o) e.s (e.prefLanes o) false)

theorem exec_pref_prefetch (o : Ops MM) (s : State) : exec (.pref o) s = runSeq (.pref o) s (·.prefetch o) := rfl

theorem Env.does_pref_none {o : Ops MM}
    (h : e.prefLanes o = [] ∨ e.slotsFree (requestsOf (e.prefLanes o)).length = false) : e.Does (.pref o) g e.s :=
  Env.does_of_runSeq (exec_pref_prefetch o) (if_pos (by simpa using h))

theorem Env.does_pref_queues {o : Ops MM} (h : e.prefLanes o ≠ [])
    (hslots : e.slotsFree (requestsOf (e.prefLanes o)).length = true) :
    e.Does (.pref o) g (e.queueOp (.pref o) (prefForm o) e.s (e.prefLanes o) false) :=
  Env.does_of_runSeq (exec_pref_prefetch o) (if_neg (by simp [h, hslots]))

/-! ## Fences (R199) -/

/-- An effect after a release action that is done. -/
theorem Env.afterRelease_done {sc : Scope} {t : State} (h : e.release sc = .ok t) (f : Env → Act) :
    e.afterRelease sc f = f { e with s := t } := by
  simp only [Env.afterRelease, h]

theorem Env.does_fence_rel {o : Ops MM} (hord : o.mod.ord = .rel) {t : State} (h : e.release o.mod.scope = .ok t) :
    e.Does (.fence o) g t :=
  Env.does_of_runSeq (exec_fence · o) (by simp only [hord, Env.afterRelease_done h])

theorem Env.does_fence_ar {o : Ops MM} (hord : o.mod.ord = .ar) {t : State} (h : e.release o.mod.scope = .ok t) :
    e.Does (.fence o) g (t.acquire e.w.core e.t.kernel.paired o.mod.scope) :=
  Env.does_of_runSeq (exec_fence · o) (by simp only [hord, Env.afterRelease_done h])

theorem Env.does_fence_acq {o : Ops MM} (hord : o.mod.ord = .acq) (h : o.mod.scope = .wp ∨ (e.w.ldq = [] ∧ e.w.spq = [])) :
    e.Does (.fence o) g (e.s.acquire e.w.core e.t.kernel.paired o.mod.scope) := by
  have hready : (o.mod.scope != .wp && !(e.w.ldq.isEmpty && e.w.spq.isEmpty)) = false := by
    obtain h | ⟨hld, hsp⟩ := h
    · simp [h]
    · simp [hld, hsp]
  exact Env.does_of_runSeq (exec_fence · o) (by simp only [hord, Env.acquireFence, hready]; rfl)

/-! ## `fencex` (R200) -/

/-- A push that is done, in state `t`, goes on from `t`. -/
theorem Env.pushDirty_done {t : State} (h : e.pushDirty (fun s => .next s) = .next t) (f : State → Act) :
    e.pushDirty f = f t := by
  unfold Env.pushDirty at h ⊢
  split at h
  · exact congrArg f (Act.next.inj h)
  · exact congrArg f (Act.next.inj h)
  · split at h
    · cases h
    next hdone => exact (if_neg hdone).trans (congrArg f (Act.next.inj h))
  · split at h
    · exact congrArg f (Act.next.inj h)
    · cases h

/-- Does a `fencex` push the team's dirty sectors (R200 step 2)? -/
def Env.fencexPushes (e : Env) (m : MF) : Bool :=
  MF.has m .st && (m.dst == .cp || m.dst == .rm || (m.scope != .wp && m.scope != .tm) || e.t.kernel.paired)

theorem Env.fencexPushes_iff {m : MF} : e.fencexPushes m = true ↔ MF.has m .st = true ∧ (m.dst = .cp ∨ m.dst = .rm ∨
    (m.scope != .wp && m.scope != .tm) = true ∨ e.t.kernel.paired = true) := by
  simp [Env.fencexPushes, or_assoc]

/-- The last steps of a `fencex`: the writes become visible, then comes the host-link read, if it asks for it. -/
def Env.fencexLast (e : Env) (m : MF) (s : State) : Act :=
  e.hostRead (m.scope == .sy && MF.has m .st) (e.fencexVisible m (m.scope != .wp && m.scope != .tm) s)

theorem Env.fencexLast_plain {m : MF} (h : ¬ (m.scope = .sy ∧ MF.has m .st = true)) (s : State) : e.fencexLast m s =
    .next ((e.fencexVisible m (m.scope != .wp && m.scope != .tm) s).setRelease e.k .idle) :=
  if_neg (by simpa using h)

theorem Env.fencexLast_host {m : MF} (h : m.scope = .sy ∧ MF.has m .st = true) (s : State) : e.fencexLast m s =
    .wait ((e.fencexVisible m (m.scope != .wp && m.scope != .tm) s).hostFence e.k) :=
  if_pos (by simpa using h)

/-- What a `fencex` does. -/
def Env.fenceAcross (e : Env) (m : MF) : Act :=
  let outstanding := [Path.ld, .st, .sp].filter fun p => MF.has m p && e.w.counter p != 0
  if e.w.release == .reading then .next (e.s.setRelease e.k .idle)
  else if !outstanding.isEmpty then
    .wait (e.s.waitScope e.k (outstanding.foldl (fun (x : Word) p => x ||| atBit 1 (Path.code p)) 0))
  else if e.fencexPushes m then e.pushDirty (e.fencexLast m)
  else e.fencexLast m e.s

theorem exec_fencex_fenceAcross (o : Ops MF) (s : State) :
    exec (.fencex o) s = runSeq (.fencex o) s (·.fenceAcross o.mod) := rfl

theorem Env.fenceAcross_reading {m : MF} (h : e.w.release = .reading) :
    e.fenceAcross m = .next (e.s.setRelease e.k .idle) := if_pos (beq_iff_eq.2 h)

/-- With no access of a named path outstanding and its push done, a `fencex` comes to its last steps. -/
theorem Env.fenceAcross_last {m : MF} {t : State} (hrelease : e.w.release ≠ .reading)
    (hcounters : ∀ p, p = Path.ld ∨ p = Path.st ∨ p = Path.sp → MF.has m p = true → e.w.counter p = 0)
    (ht : (e.fencexPushes m = false ∧ t = e.s) ∨
      (e.fencexPushes m = true ∧ e.pushDirty (fun s => .next s) = .next t)) : e.fenceAcross m = e.fencexLast m t := by
  have hnone : ([Path.ld, .st, .sp].filter fun p => MF.has m p && e.w.counter p != 0) = [] := by
    simpa using ⟨hcounters _ (.inl rfl), hcounters _ (.inr (.inl rfl)), hcounters _ (.inr (.inr rfl))⟩
  have hrel : (e.w.release == .reading) = false := beq_eq_false_iff_ne.2 hrelease
  simp only [Env.fenceAcross, hnone, hrel]
  obtain ⟨hpush, rfl⟩ | ⟨hpush, hdone⟩ := ht
  · rw [hpush]; rfl
  · rw [hpush]; exact Env.pushDirty_done hdone _

/-! ## The L1 instructions (R201) and the watch slots (R267) -/

theorem Env.does_l1wb {o : Ops (BitVec 16)} (hroom : e.w.roomOn .st = true) :
    let l := (e.s.cleanAll e.w.core (ownedBy e.k.team)).1
    let t := (e.s.cleanAll e.w.core (ownedBy e.k.team)).2
    ∃ op : MemOp, op.id = t.nextId ∧ op.key = e.k ∧ op.kind = .writeBackAll ∧ op.writeBacks = l ∧
      e.Does (.l1wb o) g ({ t with nextId := t.nextId + 1, ops := t.ops ++ [op] }.modWarp e.k fun w => w.countUp .st t.nextId) :=
  ⟨_, rfl, rfl, rfl, rfl, Env.does_of_runSeq (exec_l1wb · o) (if_neg (by simp [hroom]))⟩

/-- The slot that a `watch` arms. -/
def Env.armed (e : Env) (o : Ops (BitVec 16)) (r : Range) : WatchSlot :=
  { lo := r.target (e.scalar o.a), hi := r.target (e.scalar o.a) + (e.scalar o.b).toNat, kinds := o.mod.extractLsb' 2 3
    scope := o.mod.toNat / 32 % 4, lanes := e.w.preg (o.imm.setWidth 4) &&& fullMask e.width, hits := 0
    armedAt := e.s.nextId, armedOn := e.s.clock }

/-- The state in which a `watch` has emptied its slot. -/
def Env.disarmed (e : Env) (o : Ops (BitVec 16)) : State :=
  e.s.modWarp e.k fun w => { w with watch := w.watch.set (o.mod.toNat % 4) none }

/-- What a `watch` does. -/
def Env.watchSet (e : Env) (o : Ops (BitVec 16)) : Act :=
  if (e.scalar o.b).toNat = 0 then e.trap 0x02
  else match e.watchRange (e.scalar o.a) (e.scalar o.b).toNat with
    | .error c => e.trap c 255 (e.scalar o.a)
    | .ok r =>
      if o.mod.toNat / 32 % 4 = 2 ∧ (e.disarmed o).dvSlots ≥ 256 then .next ((e.disarmed o).modWarp e.k (·.setS o.d 1))
      else .next ((e.disarmed o).modWarp e.k fun w =>
        Warp.setS { w with watch := w.watch.set (o.mod.toNat % 4) (some (e.armed o r)) } o.d 0)

theorem exec_watch_watchSet (o : Ops (BitVec 16)) (s : State) : exec (.watch o) s = runSeq (.watch o) s (·.watchSet o) := rfl

theorem Env.watchSet_empty {o : Ops (BitVec 16)} (h : (e.scalar o.b).toNat = 0) : e.watchSet o = e.trap 0x02 := if_pos h

section

variable {o : Ops (BitVec 16)} (hn : (e.scalar o.b).toNat ≠ 0)
include hn

theorem Env.watchSet_refused {c : Nat} (h : e.watchRange (e.scalar o.a) (e.scalar o.b).toNat = .error c) :
    e.watchSet o = e.trap c 255 (e.scalar o.a) := by
  simp only [Env.watchSet, if_neg hn, h]

variable {r : Range} (hr : e.watchRange (e.scalar o.a) (e.scalar o.b).toNat = .ok r)
include hr

theorem Env.watchSet_full (hscope : o.mod.toNat / 32 % 4 = 2) (h : 256 ≤ (e.disarmed o).dvSlots) :
    e.watchSet o = .next ((e.disarmed o).modWarp e.k (·.setS o.d 1)) := by
  simp only [Env.watchSet, if_neg hn, hr]
  exact if_pos ⟨hscope, h⟩

theorem Env.watchSet_arms (h : o.mod.toNat / 32 % 4 ≠ 2 ∨ (e.disarmed o).dvSlots < 256) :
    e.watchSet o = .next ((e.disarmed o).modWarp e.k fun w =>
      Warp.setS { w with watch := w.watch.set (o.mod.toNat % 4) (some (e.armed o r)) } o.d 0) := by
  simp only [Env.watchSet, if_neg hn, hr]
  exact if_neg fun hfull => h.elim (absurd hfull.1) (Nat.not_lt.2 hfull.2)

end

end

/-- Settles O37: each instruction by its own checks; a `fencex` by its five steps in order. -/
theorem fenceAndWatchResults : Obligations.FenceAndWatchResults := by
  refine fun g e => ⟨fun o => ⟨?pref, ?fence, ?tagset⟩, fun o => ?fencex, fun o => ⟨?l1inv, ?l1wb, ?watch, ?unwatch, ?watchq⟩⟩
  case pref =>
    intro f sound lanes
    have hlanes : lanes = e.prefLanes o := by
      refine congrArg (List.filterMap · _) (funext fun a => ?_)
      change _ = (e.checkAccess f a).toOption
      cases e.checkAccess f a <;> rfl
    rw [hlanes]
    exact ⟨Env.does_pref_none, Env.does_pref_queues⟩
  case fence =>
    exact ⟨fun hord t h => Env.does_fence_rel hord h, fun hord t h => Env.does_fence_ar hord h, Env.does_fence_acq⟩
  case tagset => exact Env.gives_of_put (exec_tagset · o) rfl
  case fencex =>
    intro m wide pushes drops hostRead visible
    have hwide : wide = (m.scope != .wp && m.scope != .tm) := by
      cases hs : m.scope <;> simp [wide, hs]
    have hpushes : pushes ↔ e.fencexPushes m = true := by
      rw [Env.fencexPushes_iff, ← hwide]
    have hvisible (s : State) : visible s = e.fencexVisible m (m.scope != .wp && m.scope != .tm) s := by
      rw [← hwide]; rfl
    refine ⟨fun h => Env.does_of_runSeq (exec_fencex_fenceAcross o) (Env.fenceAcross_reading h),
      fun hrelease hcounters t ht => ?_⟩
    rw [hvisible]
    rw [hpushes, Bool.not_eq_true] at ht
    have hlast := Env.fenceAcross_last hrelease hcounters ht
    exact ⟨fun h => Env.does_of_runSeq (exec_fencex_fenceAcross o) (hlast.trans (Env.fencexLast_plain h t)),
      fun h => Env.holds_of_runSeq (exec_fencex_fenceAcross o) (hlast.trans (Env.fencexLast_host h t))⟩
  case l1inv => exact Env.does_of_runSeq (exec_l1inv · o) rfl
  case l1wb => exact Env.does_l1wb
  case watch =>
    exact ⟨fun h => Env.traps_of_runSeq (exec_watch_watchSet o) (Env.watchSet_empty h),
      fun hn c h => Env.traps_of_runSeq (exec_watch_watchSet o) (Env.watchSet_refused hn h), fun hn r hr =>
      ⟨fun hscope h => Env.does_of_runSeq (exec_watch_watchSet o) (Env.watchSet_full hn hr hscope h),
        fun h => Env.does_of_runSeq (exec_watch_watchSet o) (Env.watchSet_arms hn hr h)⟩⟩
  case unwatch => exact Env.does_of_runSeq (exec_unwatch · o) rfl
  case watchq =>
    refine Env.does_of_runSeq (exec_watchq · o) (congrArg (fun v => Act.next (e.setS o.d v)) ?_)
    cases e.w.watch.getD (o.mod.toNat % 4) none <;> rfl

end Sys2Proof.Machine
end

section
/-!
SUPPORT. The store: memory, memory tags and poison marks. Almost every function of the model leaves it as it was.
-/
namespace Sys2Proof.Machine

/-- Memory, memory tags and poison marks of one state are those of another. -/
@[simp] abbrev State.SameStore (t s : State) : Prop := t.mem = s.mem ∧ t.tags = s.tags ∧ t.poisoned = s.poisoned

/-- Wherever a step leads, the store is that of `s`. -/
def KeepsStore (s : State) : Host.Outcome State Fault Refusal → Prop
  | .next t => t.SameStore s
  | _ => True

/-- Wherever an act leads, the store is that of `s`. -/
def Act.KeepsStore (s : State) : Act → Prop
  | .next t => t.SameStore s
  | .enter t => t.SameStore s
  | .trap _ _ => True
  | .trapAfter t _ _ => t.SameStore s
  | .wait t => t.SameStore s

/-- Both what goes on and what does not have the store of `s`. -/
def ExceptKeepsStore (s : State) : Except State State → Prop
  | .ok t => t.SameStore s
  | .error t => t.SameStore s

section
variable {s : State}

@[simp] theorem exceptKeepsStore_ok {t : State} : ExceptKeepsStore s (.ok t) ↔ t.SameStore s := Iff.rfl
@[simp] theorem exceptKeepsStore_error {t : State} : ExceptKeepsStore s (.error t) ↔ t.SameStore s := Iff.rfl

@[simp] theorem keepsStore_next {t : State} : KeepsStore s (.next t) ↔ t.SameStore s := Iff.rfl
@[simp] theorem keepsStore_fault {f : Fault} : KeepsStore s (.fault f) ↔ True := Iff.rfl
@[simp] theorem keepsStore_refused {r : Refusal} : KeepsStore s (.refused r) ↔ True := Iff.rfl
@[simp] theorem keepsStore_ite {p : Prop} [Decidable p] {a b : Host.Outcome State Fault Refusal} :
    KeepsStore s (if p then a else b) ↔ (p → KeepsStore s a) ∧ (¬p → KeepsStore s b) := by
  split <;> simp [*]

@[simp] theorem Act.keepsStore_next {t : State} : (Act.next t).KeepsStore s ↔ t.SameStore s := Iff.rfl
@[simp] theorem Act.keepsStore_enter {t : State} : (Act.enter t).KeepsStore s ↔ t.SameStore s := Iff.rfl
@[simp] theorem Act.keepsStore_trap {f : FaultInfo} {a : Option Nat} : (Act.trap f a).KeepsStore s ↔ True := Iff.rfl
@[simp] theorem Act.keepsStore_trapAfter {t : State} {f : FaultInfo} {a : Option Nat} :
    (Act.trapAfter t f a).KeepsStore s ↔ t.SameStore s := Iff.rfl
@[simp] theorem Act.keepsStore_wait {t : State} : (Act.wait t).KeepsStore s ↔ t.SameStore s := Iff.rfl
@[simp] theorem Act.keepsStore_ite {p : Prop} [Decidable p] {a b : Act} :
    (if p then a else b).KeepsStore s ↔ (p → a.KeepsStore s) ∧ (¬p → b.KeepsStore s) := by
  split <;> simp [*]

end

/-- An act that keeps the store of a state keeps that of any state with the same store. -/
theorem Act.KeepsStore.trans {s t : State} {a : Act} (h : a.KeepsStore t) (ht : t.SameStore s) : a.KeepsStore s := by
  cases a <;> simp_all

section
variable {p : Prop} [Decidable p] {t u : State}

@[simp] theorem State.mem_ite : (if p then t else u).mem = if p then t.mem else u.mem := apply_ite ..
@[simp] theorem State.tags_ite : (if p then t else u).tags = if p then t.tags else u.tags := apply_ite ..
@[simp] theorem State.poisoned_ite : (if p then t else u).poisoned = if p then t.poisoned else u.poisoned := apply_ite ..
@[simp] theorem State.snd_ite {α : Type} {x y : α × State} : (if p then x else y).2 = if p then x.2 else y.2 :=
  apply_ite ..

end

theorem State.sameStore_trans {s t u : State} (h : u.SameStore t) (ht : t.SameStore s) : u.SameStore s :=
  ⟨h.1.trans ht.1, h.2.1.trans ht.2.1, h.2.2.trans ht.2.2⟩

/-- The second of a pair that is known by an equation. -/
theorem eq_snd_of_eq {α β : Type} {x : α × β} {a : α} {b : β} (h : x = (a, b)) : b = x.2 := by rw [h]

/-- A state that is found by mapping has the store of `s` when each state mapped to has it. -/
theorem State.sameStore_of_map {α : Type} {o : Option α} {g : α → State} {s u : State} (hg : ∀ a, (g a).SameStore s)
    (h : o.map g = some u) : u.SameStore s := by
  obtain ⟨a, _, rfl⟩ := Option.map_eq_some_iff.mp h
  exact hg a

/-- A fold keeps the store of the state that its accumulator holds when each of its steps does. -/
theorem State.foldl_sameStore_of {α β : Type} (st : β → State) (f : β → α → β) (l : List α) (b : β)
    (h : ∀ b a, (st (f b a)).SameStore (st b)) : (st (l.foldl f b)).SameStore (st b) := by
  induction l generalizing b with
  | nil => exact ⟨rfl, rfl, rfl⟩
  | cons a l ih => exact State.sameStore_trans (ih (f b a)) (h b a)

@[simp] theorem State.foldl_sameStore {α : Type} (f : State → α → State) (l : List α) (s : State)
    (h : ∀ t a, (f t a).SameStore t) : (l.foldl f s).SameStore s :=
  State.foldl_sameStore_of id f l s h

@[simp] theorem State.foldl_snd_sameStore {α β : Type} (f : β × State → α → β × State) (l : List α) (x : β × State)
    (h : ∀ t a, (f t a).2.SameStore t.2) : (l.foldl f x).2.SameStore x.2 :=
  State.foldl_sameStore_of Prod.snd f l x h

end Sys2Proof.Machine
end

section
/-!
SUPPORT. The store under State updates, the recorder, L2, waits and faults.
-/
namespace Sys2Proof.Machine

/-! ## Lookups and updates -/

@[simp] theorem State.modOp_sameStore (s : State) (id f) : (s.modOp id f).SameStore s := ⟨rfl, rfl, rfl⟩
@[simp] theorem State.takeId_sameStore (s : State) : s.takeId.2.SameStore s := ⟨rfl, rfl, rfl⟩
@[simp] theorem State.draw_sameStore (s : State) : s.draw.2.SameStore s := ⟨rfl, rfl, rfl⟩

@[simp] theorem State.showBusy_sameStore (s : State) (c) : (s.showBusy c).SameStore s := by
  unfold State.showBusy
  split <;> simp

@[simp] theorem State.awaitRoom_sameStore (s : State) (c) : (s.awaitRoom c).SameStore s := by simp [State.awaitRoom]

@[simp] theorem State.holdCommand_sameStore (s : State) (c) : (s.holdCommand c).SameStore s := by
  unfold State.holdCommand
  split <;> simp

@[simp] theorem State.command_keepsStore {s₀ : State} (s : State) (c : HostCommand)
    (go : Host.Outcome State Fault Refusal) (h : s.SameStore s₀) (hg : KeepsStore s₀ go) :
    KeepsStore s₀ (s.command c go) := by
  unfold State.command
  split
  · split
    · simp [h]
    · exact hg
  · simp [h]

@[simp] theorem State.newWrite_sameStore (s : State) (core b) : (s.newWrite core b).SameStore s := ⟨rfl, rfl, rfl⟩

@[simp] theorem State.sendWriteBack_sameStore (s : State) (core x) : (s.sendWriteBack core x).2.SameStore s :=
  ⟨rfl, rfl, rfl⟩

@[simp] theorem State.cleanSector_sameStore (s : State) (core x) : (s.cleanSector core x).2.SameStore s :=
  ⟨rfl, rfl, rfl⟩

@[simp] theorem State.cleanAll_sameStore (s : State) (core p) : (s.cleanAll core p).2.SameStore s := by
  simp [State.cleanAll]

/-! ## The recorder -/

@[simp] theorem State.toStele_sameStore (s : State) (h r) : (s.toStele h r).SameStore s := ⟨rfl, rfl, rfl⟩

@[simp] theorem State.writeOldest_sameStore (s : State) (e) : (s.writeOldest e).SameStore s := by
  simp only [State.writeOldest]
  split <;> simp

@[simp] theorem State.countDrop_sameStore (s : State) (e r) : (s.countDrop e r).SameStore s := ⟨rfl, rfl, rfl⟩

@[simp] theorem State.makeRoom_sameStore (s : State) (e n) : (s.makeRoom e n).SameStore s := by
  induction n generalizing s with
  | zero => exact ⟨rfl, rfl, rfl⟩
  | succ n ih =>
    unfold State.makeRoom
    split
    · simp
    · simpa using ih (s.writeOldest e)

@[simp] theorem State.pushKeep_sameStore (s : State) (e r) : (s.pushKeep e r).SameStore s := by simp [State.pushKeep]
@[simp] theorem State.pushDrop_sameStore (s : State) (e) : (s.pushDrop e).SameStore s := by simp [State.pushDrop]
@[simp] theorem State.push_sameStore (s : State) (e r) : (s.push e r).SameStore s := by simp [State.push]

@[simp] theorem State.emit_sameStore (s : State) (src kind aux cid parent payload) :
    (s.emit src kind aux cid parent payload).SameStore s := by simp [State.emit]

@[simp] theorem State.mint_sameStore (s : State) (h) : (s.mint h).2.SameStore s := ⟨rfl, rfl, rfl⟩

@[simp] theorem State.emitWaitBegin_sameStore (s : State) (src ctx cid parent w) :
    (s.emitWaitBegin src ctx cid parent w).SameStore s := by simp [State.emitWaitBegin]

@[simp] theorem State.emitWaitEnd_sameStore (s : State) (src ctx cid parent serial w) :
    (s.emitWaitEnd src ctx cid parent serial w).SameStore s := by simp [State.emitWaitEnd]

/-! ## The base dies and L2 -/

@[simp] theorem State.send_sameStore (s : State) (p) : (s.send p).SameStore s := ⟨rfl, rfl, rfl⟩
@[simp] theorem State.cancelFills_sameStore (s : State) (ps) : (s.cancelFills ps).SameStore s := ⟨rfl, rfl, rfl⟩

@[simp] theorem State.l2Store_sameStore (s : State) (x data mask poison owner cause) :
    (s.l2Store x data mask poison owner cause).SameStore s := ⟨rfl, rfl, rfl⟩

@[simp] theorem State.tlbPut_sameStore (s : State) (e) : (s.tlbPut e).SameStore s := by
  unfold State.tlbPut
  split <;> simp

@[simp] theorem State.tlbAdd_sameStore (s : State) (ia pa level) : (s.tlbAdd ia pa level).SameStore s := by
  simp [State.tlbAdd]

@[simp] theorem State.spoiltEntry_sameStore (s : State) (t) : (s.spoiltEntry t).2.SameStore s := ⟨rfl, rfl, rfl⟩

@[simp] theorem State.walkStart_sameStore (s : State) (ia level table) : (s.walkStart ia level table).2.SameStore s := by
  unfold State.walkStart
  split <;> simp

@[simp] theorem State.walkCached_sameStore (s : State) (ia) : (s.walkCached ia).2.SameStore s := by
  simp only [State.walkCached]
  repeat' split
  all_goals simp

@[simp] theorem State.translate_sameStore (s : State) (ia) : (s.translate ia).2.SameStore s := by
  unfold State.translate
  split <;> simp

@[simp] theorem State.lostWrite_sameStore (s : State) (ia mask owner) : (s.lostWrite ia mask owner).SameStore s := by
  unfold State.lostWrite
  split <;> simp

@[simp] theorem State.l2WriteBack_sameStore (s : State) (x) : (s.l2WriteBack x).SameStore s := by
  unfold State.l2WriteBack
  split <;> simp <;> split <;> simp

@[simp] theorem State.l2Evict_sameStore (s : State) (l) : (s.l2Evict l).SameStore s := by simp [State.l2Evict]

@[simp] theorem State.l2Room_sameStore (s : State) (phys line) : (s.l2Room phys line).SameStore s := by
  unfold State.l2Room
  simp
  split <;> simp

@[simp] theorem State.l2Install_sameStore (s : State) (phys sec ps data poison) :
    (s.l2Install phys sec ps data poison).SameStore s := by simp [State.l2Install]

@[simp] theorem State.noteCode_sameStore (s : State) (sec) : (s.noteCode sec).SameStore s := by
  unfold State.noteCode
  split
  · simp
  · split <;> simp

@[simp] theorem State.l2Bring_sameStore (s : State) (phys sec) : (s.l2Bring phys sec).2.SameStore s := by
  simp only [State.l2Bring]
  repeat' split
  all_goals simp

@[simp] theorem State.l2ReadParts_sameStore (s : State) (phys l) : (s.l2ReadParts phys l).2.SameStore s := by
  induction l generalizing s with
  | nil => exact ⟨rfl, rfl, rfl⟩
  | cons x l ih =>
    have hb := State.l2Bring_sameStore s phys x.1
    unfold State.l2ReadParts
    split <;> rename_i h <;> rw [h] at hb
    · exact hb
    · have hr := ih ‹State›
      split <;> simp_all

@[simp] theorem State.l2Read_sameStore (s : State) (phys a n) : (s.l2Read phys a n).2.SameStore s := by
  simp [State.l2Read]

@[simp] theorem State.l2Write_sameStore (s : State) (phys sec data mask poison owner cause) :
    (s.l2Write phys sec data mask poison owner cause).2.SameStore s := by
  have hb : ((if phys then s else s.noteCode sec).l2Bring phys sec).2.SameStore s := by simp
  unfold State.l2Write
  split <;> rename_i h <;> rw [h] at hb
  · exact hb
  · simpa using hb

@[simp] theorem State.l2WriteParts_sameStore (s : State) (phys bs l) : (s.l2WriteParts phys bs l).2.SameStore s := by
  induction l generalizing s bs with
  | nil => exact ⟨rfl, rfl, rfl⟩
  | cons x l ih =>
    have hw := State.l2Write_sameStore s phys x.1 (sectorImage x.2.1 (bs.take x.2.2)) (byteMask x.2.1 x.2.2) false none 0
    unfold State.l2WriteParts
    split <;> rename_i h <;> rw [h] at hw
    · exact hw
    · have hr := ih ‹State› (bs.drop x.2.2)
      simp_all

@[simp] theorem State.l2Put_sameStore (s : State) (phys a bs) : (s.l2Put phys a bs).2.SameStore s :=
  State.l2WriteParts_sameStore s phys bs _

@[simp] theorem State.l2PutMarked_sameStore (s : State) (a bs) : (s.l2PutMarked a bs).SameStore s := by
  simp [State.l2PutMarked]

@[simp] theorem State.l2GetMarked_sameStore (s : State) (a n) : (s.l2GetMarked a n).2.SameStore s := by
  unfold State.l2GetMarked
  refine State.foldl_snd_sameStore _ _ ([], s) fun acc x => ?_
  have hb := State.l2Bring_sameStore acc.2 false x.1
  split <;> rename_i h <;> rw [h] at hb <;> exact hb

@[simp] theorem State.l2Word_sameStore (s : State) (ia) : (s.l2Word ia).2.SameStore s := by
  have hr := State.l2Read_sameStore s false ia 8
  unfold State.l2Word
  split <;> rename_i h <;> rw [h] at hr <;> exact hr

/-! ## The watch filter -/

@[simp] theorem State.watchEvent_sameStore (s : State) (t w k p kind at_) :
    (s.watchEvent t w k p kind at_).SameStore s := by simp [State.watchEvent]

@[simp] theorem State.watchL2_sameStore (s : State) (p kind ia n lane) : (s.watchL2 p kind ia n lane).2.SameStore s := by
  unfold State.watchL2
  refine State.foldl_snd_sameStore _ _ (false, s) fun acc t => ?_
  dsimp only
  split
  · simp
  · refine State.foldl_snd_sameStore _ _ acc fun acc w => ?_
    refine State.foldl_snd_sameStore _ _ acc fun acc x => ?_
    repeat' split
    all_goals simp

@[simp] theorem State.foundrySaw_sameStore (s : State) (kind ia n cause parent) :
    (s.foundrySaw kind ia n cause parent).SameStore s := by simp [State.foundrySaw]

/-! ## Waits, faults and the fault queue -/

@[simp] theorem State.beginWait_sameStore (s : State) (k e) : (s.beginWait k e).SameStore s := by
  unfold State.beginWait
  split <;> simp <;> split <;> simp

@[simp] theorem State.dropWait_sameStore (s : State) (k) : (s.dropWait k).SameStore s := by
  unfold State.dropWait
  split
  · split <;> simp
  · simp

@[simp] theorem State.endWait_sameStore (s : State) (k) : (s.endWait k).SameStore s := by
  unfold State.endWait
  split <;> simp

@[simp] theorem State.suspendWait_sameStore (s : State) (k) : (s.suspendWait k).SameStore s := by
  unfold State.suspendWait
  split <;> simp

@[simp] theorem State.resumeWait_sameStore (s : State) (k) : (s.resumeWait k).SameStore s := by
  simp only [State.resumeWait]
  repeat' split
  all_goals simp

@[simp] theorem State.refreshParked_sameStore (s : State) (k) : (s.refreshParked k).SameStore s := by
  unfold State.refreshParked
  split <;> simp

@[simp] theorem State.raiseCtx_sameStore (s : State) (ctx) : (s.raiseCtx ctx).SameStore s := by
  unfold State.raiseCtx
  split <;> simp

@[simp] theorem State.countNoRing_sameStore (s : State) (ctx) : (s.countNoRing ctx).SameStore s := ⟨rfl, rfl, rfl⟩

@[simp] theorem State.ringFailed_sameStore (s : State) (ctx) : (s.ringFailed ctx).SameStore s := by
  simp [State.ringFailed]

@[simp] theorem State.ringWrite_sameStore (s : State) (ctx ws) : (s.ringWrite ctx ws).SameStore s := by
  have hb := State.l2Bring_sameStore s false ((((s.ctx ctx).fqBase &&& ~~~(0xFFF#64)).toNat +
    64 * ((s.ctx ctx).fqWrite.toNat % (s.ctx ctx).fqSlots)) / 128)
  unfold State.ringWrite
  dsimp only
  split <;> rename_i h <;> rw [h] at hb
  · simpa using hb
  · split <;> simpa using hb

@[simp] theorem State.postRecord_sameStore (s : State) (ctx hub ws cid parent) :
    (s.postRecord ctx hub ws cid parent).SameStore s := by simp [State.postRecord]

@[simp] theorem State.recordFault_sameStore (s : State) (t f g) : (s.recordFault t f g).SameStore s := by
  simp [State.recordFault]

@[simp] theorem State.writeHeld_sameStore (s : State) (t) : (s.writeHeld t).SameStore s := by simp [State.writeHeld]
@[simp] theorem State.modScope_sameStore (s : State) (ctx h f) : (s.modScope ctx h f).SameStore s := ⟨rfl, rfl, rfl⟩

@[simp] theorem State.scopeFault_sameStore (s : State) (ctx h serial) : (s.scopeFault ctx h serial).SameStore s :=
  ⟨rfl, rfl, rfl⟩

@[simp] theorem State.teamFaulted_sameStore (s : State) (k serial) : (s.teamFaulted k serial).SameStore s := by
  unfold State.teamFaulted
  split <;> simp

@[simp] theorem State.cleanCtx_sameStore (s : State) (ctx) : (s.cleanCtx ctx).SameStore s := by simp [State.cleanCtx]

@[simp] theorem State.forgetStore_sameStore (s : State) (o) : (s.forgetStore o).SameStore s := by
  unfold State.forgetStore
  split <;> simp

@[simp] theorem State.dropWork_sameStore (s0 : State) (ctx) : (s0.dropWork ctx).SameStore s0 := by
  simp [State.dropWork]

@[simp] theorem State.riskEvent_sameStore (s : State) (e) : (s.riskEvent e).SameStore s := ⟨rfl, rfl, rfl⟩

@[simp] theorem State.eccCorrected_sameStore (s : State) (src code at_) : (s.eccCorrected src code at_).SameStore s := by
  simp [State.eccCorrected]

@[simp] theorem State.dropFrame_sameStore (s : State) (frame) : (s.dropFrame frame).SameStore s := by
  simp [State.dropFrame]

@[simp] theorem State.retireFrame_sameStore (s0 : State) (ps) : (s0.retireFrame ps).SameStore s0 := by
  simp [State.retireFrame]

@[simp] theorem State.poisonOrigins_sameStore (s : State) (ia) : (s.poisonOrigins ia).2.SameStore s := by
  unfold State.poisonOrigins
  split <;> simp

@[simp] theorem State.retireConsumed_sameStore (s : State) (ias) : (s.retireConsumed ias).SameStore s := by
  simp [State.retireConsumed]

@[simp] theorem State.loseContext_sameStore (s : State) (t f ia) : (s.loseContext t f ia).SameStore s := by
  simp [State.loseContext]

@[simp] theorem State.stepDone_sameStore (s : State) (ctx) : (s.stepDone ctx).SameStore s := ⟨rfl, rfl, rfl⟩

@[simp] theorem State.haltRelays_sameStore (s : State) (t) : (s.haltRelays t).SameStore s := by
  unfold State.haltRelays
  split <;> simp

@[simp] theorem State.takeFault_sameStore (s : State) (k f ia tile) : (s.takeFault k f ia tile).SameStore s := by
  unfold State.takeFault
  split <;> simp <;> split <;> simp

@[simp] theorem State.deferFault_sameStore (s : State) (k f ia tile) : (s.deferFault k f ia tile).SameStore s := by
  simp [State.deferFault]

end Sys2Proof.Machine
end

section
/-!
SUPPORT. The store under operands, the issue of an instruction and the L1.
-/
namespace Sys2Proof.Machine

/-! ## Operands -/

@[simp] theorem State.writeSlot_sameStore (s : State) (k v lanes poison) :
    (s.writeSlot k v lanes poison).SameStore s := by
  unfold State.writeSlot
  split <;> simp

@[simp] theorem State.readSlot_sameStore (s : State) (k v r) : (s.readSlot k v r).2.SameStore s := by
  unfold State.readSlot
  split <;> simp

@[simp] theorem State.spill_sameStore (s : State) (k v) : (s.spill k v).SameStore s := by
  unfold State.spill
  split <;> simp

theorem State.takeRow_sameStore (s : State) (k g named) {x} (h : s.takeRow k g named = some x) : x.2.SameStore s := by
  unfold State.takeRow at h
  split at h
  · cases h
  · split at h
    · cases h; simp
    · split at h <;> cases h; simp

theorem State.makeG_sameStore (s : State) (k t named n) {s' : State} (h : s.makeG k t named n = some s') :
    s'.SameStore s := by
  unfold State.makeG at h
  split at h
  · cases h
  · dsimp only at h
    split at h <;> cases h
    rename_i h
    split at h
    · cases h; simp
    · simpa using State.takeRow_sameStore s k _ named h

@[simp] theorem State.makeUA_sameStore (s : State) (k shape n) : (s.makeUA k shape n).SameStore s := ⟨rfl, rfl, rfl⟩

@[simp] theorem State.reloadInto_sameStore (s : State) (k t n row) : (s.reloadInto k t n row).SameStore s := by
  unfold State.reloadInto
  split <;> simp

theorem State.keepOld_sameStore (s : State) (k t named n) {s' : State} (h : s.keepOld k t named n = some s') :
    s'.SameStore s := by
  unfold State.keepOld at h
  split at h
  · cases h
  · split at h
    · obtain ⟨x, hx, rfl⟩ := Option.map_eq_some_iff.mp h
      simpa using State.takeRow_sameStore s k _ named hx
    · cases h; simp

theorem State.prepReg_sameStore (s : State) (k t named full shape n) {s' : State}
    (h : s.prepReg k t named full shape n = some s') : s'.SameStore s := by
  unfold State.prepReg at h
  split at h
  · split at h
    · exact State.makeG_sameStore s k t named n h
    · cases h; simp
  · obtain ⟨u, hu, hg⟩ := Option.bind_eq_some_iff.mp h
    simpa [State.keepOld_sameStore s k t named n hu] using State.makeG_sameStore u k t named n hg

/-- A fold that goes on while a state is found keeps the store when each of its steps does. -/
theorem State.foldl_bind_sameStore {α : Type} (f : State → α → Option State)
    (hf : ∀ t a u, f t a = some u → u.SameStore t) {s' : State} (l : List α) (s : State)
    (h : l.foldl (fun acc a => acc.bind fun t => f t a) (some s) = some s') : s'.SameStore s := by
  induction l generalizing s with
  | nil => cases h; exact ⟨rfl, rfl, rfl⟩
  | cons a l ih =>
    rw [List.foldl_cons, Option.bind_some] at h
    cases hs : f s a with
    | none =>
      have hn : ∀ l : List α, l.foldl (fun acc a => acc.bind fun t => f t a) none = none := fun l => by
        induction l <;> simp_all
      simp [hs, hn] at h
    | some t => simpa [hf s a t hs] using ih t (hs ▸ h)

theorem State.prepDest_sameStore (s : State) (k) (t) (w) (named) (d) (m) (shape) {s' : State}
    (h : State.prepDest s k t w named d m shape = some s') : s'.SameStore s :=
  State.foldl_bind_sameStore _ (fun t _ _ h => State.prepReg_sameStore t _ _ _ _ _ _ h) _ s h

@[simp] theorem State.fillOne_sameStore (s : State) (k t w d m x n) : (s.fillOne k t w d m x n).SameStore s :=
  ⟨rfl, rfl, rfl⟩

theorem Env.write_sameStore (e : Env) (named d x) {s' : State} (h : e.write named d x = some s') : s'.SameStore e.s := by
  unfold Env.write at h
  refine State.foldl_bind_sameStore _ (fun t n u hu => ?_) _ e.s h
  obtain ⟨v, hv, rfl⟩ := Option.map_eq_some_iff.mp hu
  simpa using State.prepReg_sameStore t _ _ _ _ _ _ hv

theorem State.settleWrite_sameStore (s : State) (k t m n) {s' : State} (h : s.settleWrite k t m n = some s') :
    s'.SameStore s := by
  unfold State.settleWrite at h
  split at h
  · cases h
  · dsimp only at h
    split at h
    · exact State.makeG_sameStore s k t [n] n h
    · split at h
      · cases h; simp
      · obtain ⟨x, hx, rfl⟩ := Option.map_eq_some_iff.mp h
        have hs := State.takeRow_sameStore s k _ [n] hx
        split <;> simpa using hs

@[simp] theorem Env.setS_sameStore (e : Env) (d x) : (e.setS d x).SameStore e.s := ⟨rfl, rfl, rfl⟩

/-! ## The issue of an instruction -/

@[simp] theorem State.doBackEdge_sameStore (s : State) (k) : (s.doBackEdge k).SameStore s := by
  unfold State.doBackEdge
  split
  · simp
  · split <;> simp

@[simp] theorem State.advance_sameStore (s : State) (k) : (s.advance k).SameStore s := by
  unfold State.advance
  split <;> simp

@[simp] theorem State.countIssue_sameStore (s : State) (k) : (s.countIssue k).SameStore s := ⟨rfl, rfl, rfl⟩

@[simp] theorem State.endStep_sameStore (s : State) (k) : (s.endStep k).SameStore s := by
  unfold State.endStep
  split <;> simp

@[simp] theorem State.startReload_sameStore (s : State) (k w spilled named) :
    (s.startReload k w spilled named).SameStore s := by
  unfold State.startReload
  split <;> simp

/-- What the checks leave is the store of the state they check; the state that runs is that state. -/
def Gate.KeepsStore (s : State) : Gate → Prop
  | .trap t _ => t.SameStore s
  | .wait t => t.SameStore s
  | .skip => True
  | .run t _ => t = s

theorem gate_keepsStore (i : Instr) (g : Sig) (s : State) (k : WKey) (t : Team) (w : Warp) :
    (gate i g s k t w).KeepsStore s := by
  unfold gate
  dsimp only
  repeat' split
  all_goals simp [Gate.KeepsStore]

@[simp] theorem Env.trap_keepsStore {s₀ : State} (e : Env) (code lane addr aux) :
    Act.KeepsStore s₀ (e.trap code lane addr aux) := by simp [Env.trap]

@[simp] theorem State.issued_sameStore (s : State) (k) : (s.issued k).SameStore s := by simp [State.issued]

@[simp] theorem State.trapped_sameStore (s : State) (k f ia) : (s.trapped k f ia).SameStore s := by
  unfold State.trapped
  split <;> simp

@[simp] theorem State.voted_sameStore (s : State) (e : Env) (u phys) : (s.voted e u phys).SameStore s := by
  simp [State.voted]

/-- The state that an act leaves, issued or not, has the store of the state it acts on. -/
theorem Act.close_keepsStore (a : Act) (move : State → WKey → State) (s : State) (k : WKey)
    (hm : ∀ t, (move t k).SameStore t) (h : a.KeepsStore s) : ExceptKeepsStore s (a.close move s k) := by
  cases a with
  | next t => simpa [close, hm t] using h
  | enter t => simpa [close] using h
  | trap x ia => simp only [close]; split <;> simp
  | trapAfter t x ia => simp only [close]; split <;> [simpa using h; simp]
  | wait t => exact h

/-- Verified issue keeps the store when the act does. -/
theorem Env.verified_sameStore (e : Env) (i : Instr) (g : Sig) (move : State → WKey → State) (a : Act)
    (hm : ∀ t, (move t e.k).SameStore t) (h : a.KeepsStore e.s) : (e.verified i g move a).SameStore e.s := by
  have hs := a.close_keepsStore move e.s e.k hm h
  unfold Env.verified
  split <;> rename_i hu <;> rw [hu] at hs
  · exact hs
  · dsimp only
    split
    · exact hs
    · simpa using hs
    · split <;> simp

/-- An instruction keeps the store when its act does. -/
theorem runWith_keepsStore {s₀ : State} (move : State → WKey → State) (i : Instr) (s : State) (f : Env → Act)
    (h : s.SameStore s₀) (hm : ∀ t k, (move t k).SameStore t) (hf : ∀ e : Env, (f e).KeepsStore e.s) :
    KeepsStore s₀ (runWith move i s f) := by
  unfold runWith
  split
  · trivial
  · next k _ =>
    split
    · next g t w _ _ _ =>
      have hg := gate_keepsStore i g s k t w
      split <;> rename_i hgate <;> rw [hgate] at hg
      · simpa [h] using (show State.SameStore _ s from hg)
      · simpa [h] using (show State.SameStore _ s from hg)
      · simpa using h
      · next s1 m =>
        obtain rfl : s1 = s := hg
        simpa [h] using Env.verified_sameStore ⟨s1, k, t, w, m⟩ i g move _ (hm · k) (hf _)
    · trivial

@[simp] theorem runSeq_keepsStore {s₀ : State} (i : Instr) (s : State) (f : Env → Act) (h : s.SameStore s₀)
    (hf : ∀ e : Env, (f e).KeepsStore e.s) : KeepsStore s₀ (runSeq i s f) :=
  runWith_keepsStore State.advance i s f h (by simp) hf

@[simp] theorem runRaw_keepsStore {s₀ : State} (i : Instr) (s : State) (f : Env → Act) (h : s.SameStore s₀)
    (hf : ∀ e : Env, (f e).KeepsStore e.s) : KeepsStore s₀ (runRaw i s f) :=
  runWith_keepsStore (fun s _ => s) i s f h (by simp) hf

@[simp] theorem Env.orWait_keepsStore {s₀ : State} (e : Env) (o : Option State) (h : e.s.SameStore s₀)
    (ho : ∀ t, o = some t → t.SameStore s₀) : (e.orWait o).KeepsStore s₀ := by
  cases o with
  | none => exact h
  | some t => exact ho t rfl

@[simp] theorem Env.put_keepsStore {s₀ : State} (e : Env) (i : Instr) (d : Operand) (x : VRes)
    (h : e.s.SameStore s₀) : (e.put i d x).KeepsStore s₀ :=
  e.orWait_keepsStore _ h fun t ht => by simpa [h] using e.write_sameStore _ d x ht

@[simp] theorem Act.andThen_keepsStore {s₀ : State} (a : Act) (f : State → State) (h : a.KeepsStore s₀)
    (hf : ∀ t, (f t).SameStore t) : (a.andThen f).KeepsStore s₀ := by
  cases a <;> simp_all [Act.andThen]

@[simp] theorem Env.raise_sameStore (e : Env) (nf f) (s : State) : (e.raise nf f s).SameStore s := by
  unfold Env.raise
  split <;> simp

/-! ## The L1 -/

@[simp] theorem State.flashInvalidate_sameStore (s : State) (core) : (s.flashInvalidate core).SameStore s :=
  ⟨rfl, rfl, rfl⟩

@[simp] theorem State.l1Room_sameStore (s : State) (core line) : (s.l1Room core line).SameStore s := by
  unfold State.l1Room
  simp
  split <;> simp

@[simp] theorem State.l1Store_sameStore (s : State) (core owner sec data mask poison last) :
    (s.l1Store core owner sec data mask poison last).SameStore s := by
  simp only [State.l1Store]
  split <;> simp

@[simp] theorem State.l1Update_sameStore (s : State) (core sec data mask poison) :
    (s.l1Update core sec data mask poison).SameStore s := ⟨rfl, rfl, rfl⟩

@[simp] theorem State.l1Fill_sameStore (s : State) (core sec data poison last tags) :
    (s.l1Fill core sec data poison last tags).SameStore s := by
  simp only [State.l1Fill]
  split <;> simp

@[simp] theorem State.waitScope_sameStore (s : State) (k paths) : (s.waitScope k paths).SameStore s := by
  simp [State.waitScope]

@[simp] theorem State.setRelease_sameStore (s : State) (k r) : (s.setRelease k r).SameStore s := ⟨rfl, rfl, rfl⟩

@[simp] theorem State.pushTeam_sameStore (s : State) (core k) : (s.pushTeam core k).2.SameStore s := by
  simp [State.pushTeam]

@[simp] theorem State.hostFence_sameStore (s : State) (k) : (s.hostFence k).SameStore s := by simp [State.hostFence]

theorem Env.releaseEnd_keepsStore {s₀ : State} (e : Env) (s : State) (sy : Bool) (h : s.SameStore s₀) :
    ExceptKeepsStore s₀ (e.releaseEnd s sy) := by
  unfold Env.releaseEnd
  split <;> simpa using h

theorem Env.release_keepsStore (e : Env) (sc : Scope) : ExceptKeepsStore e.s (e.release sc) := by
  unfold Env.release
  split
  · simp
  split
  · simp
  split
  · simp
  split
  · simp
  · simp
  · split
    · simp
    · exact e.releaseEnd_keepsStore e.s _ ⟨rfl, rfl, rfl⟩
  · split <;> (rename_i hp; obtain rfl := eq_snd_of_eq hp)
    · exact e.releaseEnd_keepsStore _ _ (by simp)
    · simp

@[simp] theorem Env.afterRelease_keepsStore {s₀ : State} (e : Env) (sc : Scope) (f : Env → Act)
    (h : e.s.SameStore s₀) (hf : ∀ s, (f { e with s := s }).KeepsStore s) : (e.afterRelease sc f).KeepsStore s₀ := by
  have hr := e.release_keepsStore sc
  unfold Env.afterRelease
  split <;> rename_i ht <;> rw [ht] at hr
  · simpa [h] using hr
  · exact Act.KeepsStore.trans (hf _) (by simpa [h] using hr)

@[simp] theorem State.acquire_sameStore (s : State) (core paired sc) : (s.acquire core paired sc).SameStore s := by
  unfold State.acquire
  split <;> simp

@[simp] theorem State.enterWait_sameStore (s : State) (k act x) : (s.enterWait k act x).SameStore s := by
  simp [State.enterWait]

@[simp] theorem State.leaveWait_sameStore (s : State) (k) : (s.leaveWait k).SameStore s := by simp [State.leaveWait]

end Sys2Proof.Machine
end

section
/-!
SUPPORT. The store under the scalar, vector and control instructions.
-/
namespace Sys2Proof.Machine

/-! ## Register moves -/

@[simp] theorem execMov_keepsStore {s₀ : State} (o) (s : State) (h : s.SameStore s₀) : KeepsStore s₀ (execMov o s) := by
  simp [execMov, h]

@[simp] theorem execMovi_keepsStore {s₀ : State} (o) (s : State) (h : s.SameStore s₀) :
    KeepsStore s₀ (execMovi o s) := by simp [execMovi, h]

@[simp] theorem execShape_keepsStore {s₀ : State} (o) (s : State) (h : s.SameStore s₀) :
    KeepsStore s₀ (execShape o s) := by simp [execShape, h]

@[simp] theorem execMkaff_keepsStore {s₀ : State} (o) (s : State) (h : s.SameStore s₀) :
    KeepsStore s₀ (execMkaff o s) := by simp [execMkaff, h]

@[simp] theorem execExpand_keepsStore {s₀ : State} (o) (s : State) (h : s.SameStore s₀) :
    KeepsStore s₀ (execExpand o s) := by
  refine runSeq_keepsStore _ s _ h fun e => ?_
  split
  · simp
  · exact e.orWait_keepsStore _ (by simp) fun t ht => State.makeG_sameStore _ _ _ _ _ ht

@[simp] theorem execXset_keepsStore {s₀ : State} (o) (s : State) (h : s.SameStore s₀) :
    KeepsStore s₀ (execXset o s) := by simp [execXset, h]

@[simp] theorem execXmov_keepsStore {s₀ : State} (o) (s : State) (h : s.SameStore s₀) :
    KeepsStore s₀ (execXmov o s) := by
  unfold execXmov
  split <;> simp [h]

/-! ## Scalar instructions -/

@[simp] theorem scalarOp_keepsStore {s₀ : State} (i o) (s : State) (f) (h : s.SameStore s₀) :
    KeepsStore s₀ (scalarOp i o s f) := by simp [scalarOp, h]

@[simp] theorem scalarInt_keepsStore {s₀ : State} (i o) (s : State) (f) (h : s.SameStore s₀) :
    KeepsStore s₀ (scalarInt i o s f) := by simp [scalarInt, h]

@[simp] theorem execLi_keepsStore {s₀ : State} (o) (s : State) (h : s.SameStore s₀) : KeepsStore s₀ (execLi o s) := by
  simp [execLi, h]

@[simp] theorem execLih_keepsStore {s₀ : State} (o) (s : State) (h : s.SameStore s₀) : KeepsStore s₀ (execLih o s) := by
  simp [execLih, h]

@[simp] theorem execSadd_keepsStore {s₀ : State} (o) (s : State) (h : s.SameStore s₀) :
    KeepsStore s₀ (execSadd o s) := by simp [execSadd, h]

@[simp] theorem execSsub_keepsStore {s₀ : State} (o) (s : State) (h : s.SameStore s₀) :
    KeepsStore s₀ (execSsub o s) := by simp [execSsub, h]

@[simp] theorem execSmul_keepsStore {s₀ : State} (o) (s : State) (h : s.SameStore s₀) :
    KeepsStore s₀ (execSmul o s) := by simp [execSmul, h]

@[simp] theorem execSmulh_keepsStore {s₀ : State} (o) (s : State) (h : s.SameStore s₀) :
    KeepsStore s₀ (execSmulh o s) := by simp [execSmulh, h]

@[simp] theorem execSand_keepsStore {s₀ : State} (o) (s : State) (h : s.SameStore s₀) :
    KeepsStore s₀ (execSand o s) := by simp [execSand, h]

@[simp] theorem execSor_keepsStore {s₀ : State} (o) (s : State) (h : s.SameStore s₀) : KeepsStore s₀ (execSor o s) := by
  simp [execSor, h]

@[simp] theorem execSxor_keepsStore {s₀ : State} (o) (s : State) (h : s.SameStore s₀) :
    KeepsStore s₀ (execSxor o s) := by simp [execSxor, h]

@[simp] theorem execSnot_keepsStore {s₀ : State} (o) (s : State) (h : s.SameStore s₀) :
    KeepsStore s₀ (execSnot o s) := by simp [execSnot, h]

@[simp] theorem execSshl_keepsStore {s₀ : State} (o) (s : State) (h : s.SameStore s₀) :
    KeepsStore s₀ (execSshl o s) := by simp [execSshl, h]

@[simp] theorem execSshr_keepsStore {s₀ : State} (o) (s : State) (h : s.SameStore s₀) :
    KeepsStore s₀ (execSshr o s) := by simp [execSshr, h]

@[simp] theorem execSsra_keepsStore {s₀ : State} (o) (s : State) (h : s.SameStore s₀) :
    KeepsStore s₀ (execSsra o s) := by simp [execSsra, h]

@[simp] theorem execSmin_keepsStore {s₀ : State} (o) (s : State) (h : s.SameStore s₀) :
    KeepsStore s₀ (execSmin o s) := by simp [execSmin, h]

@[simp] theorem execSmax_keepsStore {s₀ : State} (o) (s : State) (h : s.SameStore s₀) :
    KeepsStore s₀ (execSmax o s) := by simp [execSmax, h]

@[simp] theorem execSclz_keepsStore {s₀ : State} (o) (s : State) (h : s.SameStore s₀) :
    KeepsStore s₀ (execSclz o s) := by simp [execSclz, h]

@[simp] theorem execSpopc_keepsStore {s₀ : State} (o) (s : State) (h : s.SameStore s₀) :
    KeepsStore s₀ (execSpopc o s) := by simp [execSpopc, h]

@[simp] theorem execScmp_keepsStore {s₀ : State} (o) (s : State) (h : s.SameStore s₀) :
    KeepsStore s₀ (execScmp o s) := by
  unfold execScmp
  split <;> simp [h]

@[simp] theorem execSsel_keepsStore {s₀ : State} (o) (s : State) (h : s.SameStore s₀) :
    KeepsStore s₀ (execSsel o s) := by simp [execSsel, h]

@[simp] theorem execSmov_keepsStore {s₀ : State} (o) (s : State) (h : s.SameStore s₀) :
    KeepsStore s₀ (execSmov o s) := by simp [execSmov, h]

@[simp] theorem execSext_keepsStore {s₀ : State} (o) (s : State) (h : s.SameStore s₀) :
    KeepsStore s₀ (execSext o s) := by simp [execSext, h]

@[simp] theorem execSbfe_keepsStore {s₀ : State} (o) (s : State) (h : s.SameStore s₀) :
    KeepsStore s₀ (execSbfe o s) := by simp [execSbfe, h]

/-! ## Vector integer instructions -/

@[simp] theorem vec1_keepsStore {s₀ : State} (i o) (s : State) (f) (h : s.SameStore s₀) :
    KeepsStore s₀ (vec1 i o s f) := by simp [vec1, h]

@[simp] theorem vec2Aff_keepsStore {s₀ : State} (i o) (s : State) (aff f) (h : s.SameStore s₀) :
    KeepsStore s₀ (vec2Aff i o s aff f) := by simp [vec2Aff, h]

@[simp] theorem vec2_keepsStore {s₀ : State} (i o) (s : State) (f) (h : s.SameStore s₀) :
    KeepsStore s₀ (vec2 i o s f) := by simp [vec2, h]

@[simp] theorem vec2D_keepsStore {s₀ : State} (i o) (s : State) (f) (h : s.SameStore s₀) :
    KeepsStore s₀ (vec2D i o s f) := by simp [vec2D, h]

@[simp] theorem execIadd_keepsStore {s₀ : State} (o) (s : State) (h : s.SameStore s₀) :
    KeepsStore s₀ (execIadd o s) := by simp [execIadd, h]

@[simp] theorem execIsub_keepsStore {s₀ : State} (o) (s : State) (h : s.SameStore s₀) :
    KeepsStore s₀ (execIsub o s) := by simp [execIsub, h]

@[simp] theorem execImul24_keepsStore {s₀ : State} (o) (s : State) (h : s.SameStore s₀) :
    KeepsStore s₀ (execImul24 o s) := by simp [execImul24, h]

@[simp] theorem execImul_keepsStore {s₀ : State} (o) (s : State) (h : s.SameStore s₀) :
    KeepsStore s₀ (execImul o s) := by simp [execImul, h]

@[simp] theorem execImulh_keepsStore {s₀ : State} (o) (s : State) (h : s.SameStore s₀) :
    KeepsStore s₀ (execImulh o s) := by simp [execImulh, h]

@[simp] theorem execImad24_keepsStore {s₀ : State} (o) (s : State) (h : s.SameStore s₀) :
    KeepsStore s₀ (execImad24 o s) := by simp [execImad24, h]

@[simp] theorem execIabs_keepsStore {s₀ : State} (o) (s : State) (h : s.SameStore s₀) :
    KeepsStore s₀ (execIabs o s) := by simp [execIabs, h]

@[simp] theorem execIneg_keepsStore {s₀ : State} (o) (s : State) (h : s.SameStore s₀) :
    KeepsStore s₀ (execIneg o s) := by simp [execIneg, h]

@[simp] theorem execImin_keepsStore {s₀ : State} (o) (s : State) (h : s.SameStore s₀) :
    KeepsStore s₀ (execImin o s) := by simp [execImin, h]

@[simp] theorem execImax_keepsStore {s₀ : State} (o) (s : State) (h : s.SameStore s₀) :
    KeepsStore s₀ (execImax o s) := by simp [execImax, h]

@[simp] theorem execIand_keepsStore {s₀ : State} (o) (s : State) (h : s.SameStore s₀) :
    KeepsStore s₀ (execIand o s) := by simp [execIand, h]

@[simp] theorem execIor_keepsStore {s₀ : State} (o) (s : State) (h : s.SameStore s₀) : KeepsStore s₀ (execIor o s) := by
  simp [execIor, h]

@[simp] theorem execIxor_keepsStore {s₀ : State} (o) (s : State) (h : s.SameStore s₀) :
    KeepsStore s₀ (execIxor o s) := by simp [execIxor, h]

@[simp] theorem execInot_keepsStore {s₀ : State} (o) (s : State) (h : s.SameStore s₀) :
    KeepsStore s₀ (execInot o s) := by simp [execInot, h]

@[simp] theorem execIshl_keepsStore {s₀ : State} (o) (s : State) (h : s.SameStore s₀) :
    KeepsStore s₀ (execIshl o s) := by simp [execIshl, h]

@[simp] theorem execIshr_keepsStore {s₀ : State} (o) (s : State) (h : s.SameStore s₀) :
    KeepsStore s₀ (execIshr o s) := by simp [execIshr, h]

@[simp] theorem execIsra_keepsStore {s₀ : State} (o) (s : State) (h : s.SameStore s₀) :
    KeepsStore s₀ (execIsra o s) := by simp [execIsra, h]

@[simp] theorem execIrot_keepsStore {s₀ : State} (o) (s : State) (h : s.SameStore s₀) :
    KeepsStore s₀ (execIrot o s) := by simp [execIrot, h]

@[simp] theorem execIclz_keepsStore {s₀ : State} (o) (s : State) (h : s.SameStore s₀) :
    KeepsStore s₀ (execIclz o s) := by simp [execIclz, h]

@[simp] theorem execIpopc_keepsStore {s₀ : State} (o) (s : State) (h : s.SameStore s₀) :
    KeepsStore s₀ (execIpopc o s) := by simp [execIpopc, h]

@[simp] theorem execIbrev_keepsStore {s₀ : State} (o) (s : State) (h : s.SameStore s₀) :
    KeepsStore s₀ (execIbrev o s) := by simp [execIbrev, h]

@[simp] theorem execIbfe_keepsStore {s₀ : State} (o) (s : State) (h : s.SameStore s₀) :
    KeepsStore s₀ (execIbfe o s) := by simp [execIbfe, h]

@[simp] theorem execIbfi_keepsStore {s₀ : State} (o) (s : State) (h : s.SameStore s₀) :
    KeepsStore s₀ (execIbfi o s) := by simp [execIbfi, h]

@[simp] theorem execIsel_keepsStore {s₀ : State} (o) (s : State) (h : s.SameStore s₀) :
    KeepsStore s₀ (execIsel o s) := by simp [execIsel, h]

@[simp] theorem Env.setLanes_sameStore (e : Env) (s : State) (n f) : (e.setLanes s n f).SameStore s := ⟨rfl, rfl, rfl⟩

@[simp] theorem Env.compare_keepsStore {s₀ : State} (e : Env) (i o f) (h : e.s.SameStore s₀) :
    Act.KeepsStore s₀ (e.compare i o f) := by
  unfold Env.compare
  split <;> simp [h]

@[simp] theorem execIcmp_keepsStore {s₀ : State} (o) (s : State) (h : s.SameStore s₀) :
    KeepsStore s₀ (execIcmp o s) := by simp [execIcmp, h]

@[simp] theorem execIaddc_keepsStore {s₀ : State} (o) (s : State) (h : s.SameStore s₀) :
    KeepsStore s₀ (execIaddc o s) := runSeq_keepsStore _ s _ h fun e => by simp

@[simp] theorem execIsad_keepsStore {s₀ : State} (o) (s : State) (h : s.SameStore s₀) :
    KeepsStore s₀ (execIsad o s) := by simp [execIsad, h]

@[simp] theorem execIavg_keepsStore {s₀ : State} (o) (s : State) (h : s.SameStore s₀) :
    KeepsStore s₀ (execIavg o s) := by simp [execIavg, h]

@[simp] theorem execIdp4_keepsStore {s₀ : State} (o) (s : State) (h : s.SameStore s₀) :
    KeepsStore s₀ (execIdp4 o s) := by simp [execIdp4, h]

@[simp] theorem execIext_keepsStore {s₀ : State} (o) (s : State) (h : s.SameStore s₀) :
    KeepsStore s₀ (execIext o s) := by simp [execIext, h]

@[simp] theorem execIlop3_keepsStore {s₀ : State} (o) (s : State) (h : s.SameStore s₀) :
    KeepsStore s₀ (execIlop3 o s) := by simp [execIlop3, h]

@[simp] theorem execIshfd_keepsStore {s₀ : State} (o) (s : State) (h : s.SameStore s₀) :
    KeepsStore s₀ (execIshfd o s) := by simp [execIshfd, h]

/-! ## Vector floating-point instructions -/

@[simp] theorem Env.fpWrite_keepsStore {s₀ : State} (e : Env) (i d nf t pk srcs f) (h : e.s.SameStore s₀) :
    Act.KeepsStore s₀ (e.fpWrite i d nf t pk srcs f) := by simp [Env.fpWrite, h]

@[simp] theorem flt1_keepsStore {s₀ : State} (i o) (s : State) (g) (h : s.SameStore s₀) :
    KeepsStore s₀ (flt1 i o s g) := by simp [flt1, h]

@[simp] theorem flt2_keepsStore {s₀ : State} (i o) (s : State) (g) (h : s.SameStore s₀) :
    KeepsStore s₀ (flt2 i o s g) := by simp [flt2, h]

@[simp] theorem fltFma_keepsStore {s₀ : State} (i o) (s : State) (negP negC) (h : s.SameStore s₀) :
    KeepsStore s₀ (fltFma i o s negP negC) := by simp [fltFma, h]

@[simp] theorem execFadd_keepsStore {s₀ : State} (o) (s : State) (h : s.SameStore s₀) :
    KeepsStore s₀ (execFadd o s) := by simp [execFadd, h]

@[simp] theorem execFsub_keepsStore {s₀ : State} (o) (s : State) (h : s.SameStore s₀) :
    KeepsStore s₀ (execFsub o s) := by simp [execFsub, h]

@[simp] theorem execFmul_keepsStore {s₀ : State} (o) (s : State) (h : s.SameStore s₀) :
    KeepsStore s₀ (execFmul o s) := by simp [execFmul, h]

@[simp] theorem execFma_keepsStore {s₀ : State} (o) (s : State) (h : s.SameStore s₀) : KeepsStore s₀ (execFma o s) := by
  simp [execFma, h]

@[simp] theorem execFnma_keepsStore {s₀ : State} (o) (s : State) (h : s.SameStore s₀) :
    KeepsStore s₀ (execFnma o s) := by simp [execFnma, h]

@[simp] theorem execFms_keepsStore {s₀ : State} (o) (s : State) (h : s.SameStore s₀) : KeepsStore s₀ (execFms o s) := by
  simp [execFms, h]

@[simp] theorem execFnms_keepsStore {s₀ : State} (o) (s : State) (h : s.SameStore s₀) :
    KeepsStore s₀ (execFnms o s) := by simp [execFnms, h]

@[simp] theorem execFmin_keepsStore {s₀ : State} (o) (s : State) (h : s.SameStore s₀) :
    KeepsStore s₀ (execFmin o s) := by simp [execFmin, h]

@[simp] theorem execFmax_keepsStore {s₀ : State} (o) (s : State) (h : s.SameStore s₀) :
    KeepsStore s₀ (execFmax o s) := by simp [execFmax, h]

@[simp] theorem execFabs_keepsStore {s₀ : State} (o) (s : State) (h : s.SameStore s₀) :
    KeepsStore s₀ (execFabs o s) := by simp [execFabs, h]

@[simp] theorem execFneg_keepsStore {s₀ : State} (o) (s : State) (h : s.SameStore s₀) :
    KeepsStore s₀ (execFneg o s) := by simp [execFneg, h]

@[simp] theorem execFcpsgn_keepsStore {s₀ : State} (o) (s : State) (h : s.SameStore s₀) :
    KeepsStore s₀ (execFcpsgn o s) := by simp [execFcpsgn, h]

@[simp] theorem execFcmp_keepsStore {s₀ : State} (o) (s : State) (h : s.SameStore s₀) :
    KeepsStore s₀ (execFcmp o s) := runSeq_keepsStore _ s _ h fun e => by simp

@[simp] theorem execFclass_keepsStore {s₀ : State} (o) (s : State) (h : s.SameStore s₀) :
    KeepsStore s₀ (execFclass o s) := by simp [execFclass, h]

@[simp] theorem execFrcp_keepsStore {s₀ : State} (o) (s : State) (h : s.SameStore s₀) :
    KeepsStore s₀ (execFrcp o s) := by simp [execFrcp, h]

@[simp] theorem execFrnd_keepsStore {s₀ : State} (o) (s : State) (h : s.SameStore s₀) :
    KeepsStore s₀ (execFrnd o s) := by simp [execFrnd, h]

@[simp] theorem execFscale_keepsStore {s₀ : State} (o) (s : State) (h : s.SameStore s₀) :
    KeepsStore s₀ (execFscale o s) := by simp [execFscale, h]

@[simp] theorem execFexpt_keepsStore {s₀ : State} (o) (s : State) (h : s.SameStore s₀) :
    KeepsStore s₀ (execFexpt o s) := by simp [execFexpt, h]

@[simp] theorem execFmant_keepsStore {s₀ : State} (o) (s : State) (h : s.SameStore s₀) :
    KeepsStore s₀ (execFmant o s) := by simp [execFmant, h]

@[simp] theorem execFsat_keepsStore {s₀ : State} (o) (s : State) (h : s.SameStore s₀) :
    KeepsStore s₀ (execFsat o s) := by simp [execFsat, h]

@[simp] theorem execFdot2_keepsStore {s₀ : State} (o) (s : State) (h : s.SameStore s₀) :
    KeepsStore s₀ (execFdot2 o s) := by simp [execFdot2, h]

@[simp] theorem execCvt_keepsStore {s₀ : State} (o) (s : State) (h : s.SameStore s₀) : KeepsStore s₀ (execCvt o s) := by
  simp [execCvt, h]

@[simp] theorem Env.putMany_keepsStore {s₀ : State} (e : Env) (i l) (h : e.s.SameStore s₀) :
    Act.KeepsStore s₀ (e.putMany i l) := e.orWait_keepsStore _ h fun t ht => by
  simpa [h] using State.foldl_bind_sameStore _ (fun u x v hv => by
    simpa using Env.write_sameStore { e with s := u } _ x.1 x.2 hv) _ e.s ht

@[simp] theorem execCvtmx_keepsStore {s₀ : State} (o) (s : State) (h : s.SameStore s₀) :
    KeepsStore s₀ (execCvtmx o s) := runSeq_keepsStore _ s _ h fun e => by simp

@[simp] theorem execCvtsc_keepsStore {s₀ : State} (o) (s : State) (h : s.SameStore s₀) :
    KeepsStore s₀ (execCvtsc o s) := by simp [execCvtsc, h]

@[simp] theorem Env.setFlags_sameStore (e : Env) (f) (s : State) : (e.setFlags f s).SameStore s := ⟨rfl, rfl, rfl⟩

@[simp] theorem execFlgr_keepsStore {s₀ : State} (o) (s : State) (h : s.SameStore s₀) :
    KeepsStore s₀ (execFlgr o s) := runSeq_keepsStore _ s _ h fun e => by simp

@[simp] theorem execFlgc_keepsStore {s₀ : State} (o) (s : State) (h : s.SameStore s₀) :
    KeepsStore s₀ (execFlgc o s) := by simp [execFlgc, h]

/-! ## Control instructions -/

@[simp] theorem Env.branch_keepsStore {s₀ : State} (e : Env) (target link) (h : e.s.SameStore s₀) :
    Act.KeepsStore s₀ (e.branch target link) := by
  unfold Env.branch
  repeat' split
  all_goals simp [h]

@[simp] theorem Env.fall_keepsStore {s₀ : State} (e : Env) (h : e.s.SameStore s₀) : Act.KeepsStore s₀ e.fall := by
  simp [Env.fall, h]

@[simp] theorem Env.branchIf_keepsStore {s₀ : State} (e : Env) (taken imm) (h : e.s.SameStore s₀) :
    Act.KeepsStore s₀ (e.branchIf taken imm) := by simp [Env.branchIf, h]

@[simp] theorem execBra_keepsStore {s₀ : State} (o) (s : State) (h : s.SameStore s₀) : KeepsStore s₀ (execBra o s) := by
  simp [execBra, h]

@[simp] theorem execBrx_keepsStore {s₀ : State} (o) (s : State) (h : s.SameStore s₀) : KeepsStore s₀ (execBrx o s) := by
  simp [execBrx, h]

@[simp] theorem execCall_keepsStore {s₀ : State} (o) (s : State) (h : s.SameStore s₀) :
    KeepsStore s₀ (execCall o s) := by simp [execCall, h]

@[simp] theorem execCallx_keepsStore {s₀ : State} (o) (s : State) (h : s.SameStore s₀) :
    KeepsStore s₀ (execCallx o s) := by simp [execCallx, h]

@[simp] theorem execRet_keepsStore {s₀ : State} (o) (s : State) (h : s.SameStore s₀) : KeepsStore s₀ (execRet o s) := by
  simp [execRet, h]

@[simp] theorem execBc_keepsStore {s₀ : State} (o) (s : State) (h : s.SameStore s₀) : KeepsStore s₀ (execBc o s) := by
  simp [execBc, h]

@[simp] theorem execBany_keepsStore {s₀ : State} (o) (s : State) (h : s.SameStore s₀) :
    KeepsStore s₀ (execBany o s) := by simp [execBany, h]

@[simp] theorem execBall_keepsStore {s₀ : State} (o) (s : State) (h : s.SameStore s₀) :
    KeepsStore s₀ (execBall o s) := by simp [execBall, h]

@[simp] theorem Env.setWarp_sameStore (e : Env) (w) : (e.setWarp w).SameStore e.s := ⟨rfl, rfl, rfl⟩

@[simp] theorem execVif_keepsStore {s₀ : State} (o) (s : State) (h : s.SameStore s₀) : KeepsStore s₀ (execVif o s) := by
  simp [execVif, h]

@[simp] theorem execVelse_keepsStore {s₀ : State} (o) (s : State) (h : s.SameStore s₀) :
    KeepsStore s₀ (execVelse o s) := by
  refine runSeq_keepsStore _ s _ h fun e => ?_
  repeat' split
  all_goals simp

@[simp] theorem execVend_keepsStore {s₀ : State} (o) (s : State) (h : s.SameStore s₀) :
    KeepsStore s₀ (execVend o s) := by
  refine runSeq_keepsStore _ s _ h fun e => ?_
  repeat' split
  all_goals simp

@[simp] theorem Env.openLoop_keepsStore {s₀ : State} (e : Env) (len count) (h : e.s.SameStore s₀) :
    Act.KeepsStore s₀ (e.openLoop len count) := by simp [Env.openLoop, h]

@[simp] theorem execLoop_keepsStore {s₀ : State} (o) (s : State) (h : s.SameStore s₀) :
    KeepsStore s₀ (execLoop o s) := by simp [execLoop, h]

@[simp] theorem execLoopx_keepsStore {s₀ : State} (o) (s : State) (h : s.SameStore s₀) :
    KeepsStore s₀ (execLoopx o s) := by simp [execLoopx, h]

@[simp] theorem Env.leaveLoop_keepsStore {s₀ : State} (e : Env) (p pn cont) (h : e.s.SameStore s₀) :
    Act.KeepsStore s₀ (e.leaveLoop p pn cont) := by
  unfold Env.leaveLoop
  split <;> simp [h]

@[simp] theorem execVbrk_keepsStore {s₀ : State} (o) (s : State) (h : s.SameStore s₀) :
    KeepsStore s₀ (execVbrk o s) := by simp [execVbrk, h]

@[simp] theorem execVcont_keepsStore {s₀ : State} (o) (s : State) (h : s.SameStore s₀) :
    KeepsStore s₀ (execVcont o s) := by simp [execVcont, h]

@[simp] theorem execLbrk_keepsStore {s₀ : State} (o) (s : State) (h : s.SameStore s₀) :
    KeepsStore s₀ (execLbrk o s) := by
  refine runRaw_keepsStore _ s _ h fun e => ?_
  repeat' split
  all_goals simp

@[simp] theorem execNop_keepsStore {s₀ : State} (o) (s : State) (h : s.SameStore s₀) : KeepsStore s₀ (execNop o s) := by
  simp [execNop, h]

@[simp] theorem execYield_keepsStore {s₀ : State} (o) (s : State) (h : s.SameStore s₀) :
    KeepsStore s₀ (execYield o s) := by simp [execYield, h]

@[simp] theorem execSleep_keepsStore {s₀ : State} (o) (s : State) (h : s.SameStore s₀) :
    KeepsStore s₀ (execSleep o s) := by simp [execSleep, h]

@[simp] theorem Env.waitCounters_keepsStore {s₀ : State} (e : Env) (l) (h : e.s.SameStore s₀) :
    Act.KeepsStore s₀ (e.waitCounters l) := by
  unfold Env.waitCounters
  split <;> simp [h]

@[simp] theorem execWaitc_keepsStore {s₀ : State} (o) (s : State) (h : s.SameStore s₀) :
    KeepsStore s₀ (execWaitc o s) := by simp [execWaitc, h]

@[simp] theorem execWaitp_keepsStore {s₀ : State} (o) (s : State) (h : s.SameStore s₀) :
    KeepsStore s₀ (execWaitp o s) := by simp [execWaitp, h]

@[simp] theorem State.arrive_sameStore (s : State) (k b) : (s.arrive k b).SameStore s := ⟨rfl, rfl, rfl⟩

@[simp] theorem State.settleArrival_sameStore (k) (s : State) (a) : (State.settleArrival k s a).SameStore s := by
  unfold State.settleArrival
  split
  · dsimp only
    split
    · split <;> simp
    · split
      · simp
      · split
        · simp
        · split <;> (rename_i hp; obtain rfl := eq_snd_of_eq hp; simp)
  · simp

@[simp] theorem State.settleArrivals_sameStore (s : State) (k) : (s.settleArrivals k).SameStore s := by
  unfold State.settleArrivals
  split <;> simp

@[simp] theorem Env.startArrival_sameStore (e : Env) (b) : (e.startArrival b).SameStore e.s := by
  simp [Env.startArrival]

@[simp] theorem State.leaveBarrier_sameStore (s : State) (k b) : (s.leaveBarrier k b).SameStore s := by
  unfold State.leaveBarrier
  split <;> simp

@[simp] theorem Env.waitBarrier_keepsStore {s₀ : State} (e : Env) (s : State) (b) (h : s.SameStore s₀) :
    Act.KeepsStore s₀ (e.waitBarrier s b) := by
  unfold Env.waitBarrier
  split <;> simp [h]

@[simp] theorem execBara_keepsStore {s₀ : State} (o) (s : State) (h : s.SameStore s₀) :
    KeepsStore s₀ (execBara o s) := by simp [execBara, h]

@[simp] theorem execBarw_keepsStore {s₀ : State} (o) (s : State) (h : s.SameStore s₀) :
    KeepsStore s₀ (execBarw o s) := by simp [execBarw, h]

@[simp] theorem execBar_keepsStore {s₀ : State} (o) (s : State) (h : s.SameStore s₀) : KeepsStore s₀ (execBar o s) := by
  simp [execBar, h]

end Sys2Proof.Machine
end

section
/-!
SUPPORT. The store under the foundry, the scratchpad and the matrix group.
-/
namespace Sys2Proof.Machine

/-! ## The foundry -/

theorem State.allocScope_sameStore (s : State) (ctx parent packet) {x} (h : s.allocScope ctx parent packet = some x) :
    x.2.SameStore s := by
  obtain ⟨i, _, rfl⟩ := Option.map_eq_some_iff.mp h
  simp

@[simp] theorem State.freeScope_sameStore (s : State) (ctx h) : (s.freeScope ctx h).SameStore s := ⟨rfl, rfl, rfl⟩
@[simp] theorem State.scopeUp_sameStore (s : State) (ctx h n) : (s.scopeUp ctx h n).SameStore s := ⟨rfl, rfl, rfl⟩

@[simp] theorem State.scopeFall_sameStore (ctx fuel) (s : State) (h n) :
    (State.scopeFall ctx fuel s h n).SameStore s := by
  induction fuel generalizing s h n with
  | zero => exact ⟨rfl, rfl, rfl⟩
  | succ n ih =>
    unfold State.scopeFall
    split
    · simp
    · dsimp only
      split
      · simp
      · have h := fun s h => ih s h 1
        simp [h]

@[simp] theorem State.scopeDown_sameStore (s : State) (ctx h) : (s.scopeDown ctx h).SameStore s := by
  simp [State.scopeDown]

@[simp] theorem State.scopeClose_sameStore (s : State) (ctx h) : (s.scopeClose ctx h).SameStore s := by
  simp [State.scopeClose]

@[simp] theorem State.modFiring_sameStore (s : State) (ctx id f) : (s.modFiring ctx id f).SameStore s :=
  ⟨rfl, rfl, rfl⟩

@[simp] theorem State.returnReservation_sameStore (s : State) (t) : (s.returnReservation t).SameStore s := by
  unfold State.returnReservation
  split <;> simp

@[simp] theorem State.returnLeases_sameStore (s : State) (t) : (s.returnLeases t).SameStore s := ⟨rfl, rfl, rfl⟩

theorem State.foundryUpdate_sameStore (s : State) (ctx va f atop arg cause parent) {s' : State}
    (h : s.foundryUpdate ctx va f atop arg cause parent = some s') : s'.SameStore s := by
  unfold State.foundryUpdate at h
  split at h
  · cases h
  · dsimp only at h
    split at h
    · cases h; simp
    · split at h
      · cases h
      · split at h
        · next hr =>
          obtain rfl := eq_snd_of_eq hr
          split at h
          · next hp =>
            obtain rfl := eq_snd_of_eq hp
            cases h
            simp
          · cases h
        · cases h

@[simp] theorem State.completePacket_sameStore (s : State) (p) : (s.completePacket p).SameStore s := by
  unfold State.completePacket
  dsimp only
  split
  · simp
  · next h =>
    split at h
    · cases h; simp
    · have hf := State.foundryUpdate_sameStore _ _ _ _ _ _ _ _ h
      simpa using hf

@[simp] theorem State.finishPacket_sameStore (s : State) (id) : (s.finishPacket id).SameStore s := by
  unfold State.finishPacket
  split <;> simp

@[simp] theorem State.settlePackets_sameStore (s : State) (ctx) : (s.settlePackets ctx).SameStore s := by
  simp [State.settlePackets]

@[simp] theorem State.settleCollective_sameStore (s : State) (tag) : (s.settleCollective tag).SameStore s := by
  unfold State.settleCollective
  split <;> simp

@[simp] theorem State.emitTeam_sameStore (s : State) (t kind) : (s.emitTeam t kind).SameStore s := by
  simp [State.emitTeam]

@[simp] theorem State.cleanTeam_sameStore (s : State) (t) : (s.cleanTeam t).SameStore s := by simp [State.cleanTeam]

@[simp] theorem State.settleComplete_sameStore (s : State) (k) : (s.settleComplete k).SameStore s := by
  simp only [State.settleComplete]
  repeat' split
  all_goals simp

@[simp] theorem State.retireTeam_sameStore (s : State) (t) : (s.retireTeam t).SameStore s := by
  simp [State.retireTeam]

@[simp] theorem State.settleTeam_sameStore (s : State) (k) : (s.settleTeam k).SameStore s := by
  unfold State.settleTeam
  split <;> simp

@[simp] theorem State.settle_sameStore (s : State) (k) : (s.settle k).SameStore s := by simp [State.settle]

@[simp] theorem State.exitWarp_sameStore (s : State) (k) : (s.exitWarp k).SameStore s := by
  unfold State.exitWarp
  split <;> simp

@[simp] theorem execExit_keepsStore {s₀ : State} (o) (s : State) (h : s.SameStore s₀) :
    KeepsStore s₀ (execExit o s) := by simp [execExit, h]

/-! ## The scratchpad -/

@[simp] theorem State.renewRelief_sameStore (s : State) (k core rows) : (s.renewRelief k core rows).SameStore s := by
  unfold State.renewRelief
  split <;> simp

@[simp] theorem State.noteWords_sameStore (s : State) (t words full) : (s.noteWords t words full).SameStore s := by
  simp [State.noteWords]

@[simp] theorem State.noteWrite_sameStore (s : State) (t off n) : (s.noteWrite t off n).SameStore s := by
  simp [State.noteWrite]

@[simp] theorem State.showError_sameStore (s : State) (k word relief fixable) :
    (s.showError k word relief fixable).SameStore s := by
  simp only [State.showError]
  split <;> simp

@[simp] theorem State.showErrors_sameStore (s : State) (t words rebuilt) :
    (s.showErrors t words rebuilt).SameStore s := by
  unfold State.showErrors
  refine State.foldl_sameStore _ _ s fun t u => ?_
  split
  · dsimp only; split <;> simp
  · simp

@[simp] theorem State.readPool_sameStore (s : State) (t) : (s.readPool t).2.SameStore s := by
  unfold State.readPool
  split <;> simp

@[simp] theorem State.spView_sameStore (s : State) (t p words) : (s.spView t p words).2.SameStore s := by
  unfold State.spView
  split <;> simp

@[simp] theorem State.warnUnwritten_sameStore (s : State) (src ctx cid parent pc serial lane off n) :
    (s.warnUnwritten src ctx cid parent pc serial lane off n).SameStore s := by simp [State.warnUnwritten]

@[simp] theorem State.warnMismatch_sameStore (s : State) (src ctx cid parent pc serial span stamp block) :
    (s.warnMismatch src ctx cid parent pc serial span stamp block).SameStore s := by simp [State.warnMismatch]

theorem State.spCheck_sameStore (s : State) (t) (src) (cid) (parent) (pc) (serial) (span) (lane) (offs) {s' : State}
    (h : State.spCheck s t src cid parent pc serial span lane offs = .ok s') : s'.SameStore s := by
  have hw : ∀ (o : Option Nat) (u : State), (match o with
      | some x => u.warnUnwritten src t.ctx cid parent pc serial (lane x) (x / 4 * 4) (t.unwrittenWords offs).length
      | none => u).SameStore u := by
    rintro (_ | x) u <;> simp
  unfold State.spCheck at h
  dsimp only at h
  split at h
  · split at h
    · cases h; simp
    · cases h
    · cases h
    · split at h <;> cases h
  · cases h
    refine State.sameStore_trans (hw _ _) ?_
    split <;> simp

/-! ## The matrix group -/

@[simp] theorem State.setBaton_sameStore (s : State) (k n b) : (s.setBaton k n b).SameStore s := ⟨rfl, rfl, rfl⟩

@[simp] theorem execBton_keepsStore {s₀ : State} (o) (s : State) (h : s.SameStore s₀) :
    KeepsStore s₀ (execBton o s) := by simp [execBton, h]

@[simp] theorem execBatonHandoff_keepsStore {s₀ : State} (k) (s : State) (h : s.SameStore s₀) :
    KeepsStore s₀ (execBatonHandoff k s) := by
  unfold execBatonHandoff
  repeat' split
  all_goals simp [h]

@[simp] theorem execBtpass_keepsStore {s₀ : State} (o) (s : State) (h : s.SameStore s₀) :
    KeepsStore s₀ (execBtpass o s) := by simp [execBtpass, h]

@[simp] theorem execBtq_keepsStore {s₀ : State} (o) (s : State) (h : s.SameStore s₀) : KeepsStore s₀ (execBtq o s) := by
  simp [execBtq, h]

@[simp] theorem Env.acceptMx_sameStore {s₀ : State} (e : Env) (i : Instr) (s : State) (f : MxOp → MxOp)
    (h : s.SameStore s₀) (he : e.s.SameStore s₀) : (e.acceptMx i s f).SameStore s₀ := by
  unfold Env.acceptMx
  dsimp only
  split
  · simpa using he
  · simpa using h

@[simp] theorem Env.accept_keepsStore {s₀ : State} (e : Env) (i : Instr) (s : State) (f : MxOp → MxOp)
    (h : s.SameStore s₀) (he : e.s.SameStore s₀) : (e.accept i s f).KeepsStore s₀ := by
  unfold Env.accept
  split
  · exact e.acceptMx_sameStore i s f h he
  · exact he

theorem Env.prepGroup_sameStore (e : Env) (regs) {s' : State} (h : e.prepGroup regs = some s') : s'.SameStore e.s := by
  obtain ⟨t, ht, rfl⟩ := Option.map_eq_some_iff.mp h
  simpa using State.foldl_bind_sameStore _ (fun t _ _ h => State.makeG_sameStore t _ _ _ _ h) _ e.s ht

@[simp] theorem Env.issueFrag_keepsStore {s₀ : State} (e : Env) (i o regs rows cols esz) (h : e.s.SameStore s₀) :
    Act.KeepsStore s₀ (e.issueFrag i o regs rows cols esz) := by
  unfold Env.issueFrag
  split
  · trivial
  · split
    · trivial
    · split
      · exact h
      · next hp => exact e.accept_keepsStore i _ _ (by simpa [h] using e.prepGroup_sameStore _ hp) h

@[simp] theorem execFld_keepsStore {s₀ : State} (o) (s : State) (h : s.SameStore s₀) : KeepsStore s₀ (execFld o s) := by
  simp [execFld, h]

@[simp] theorem execFldsc_keepsStore {s₀ : State} (o) (s : State) (h : s.SameStore s₀) :
    KeepsStore s₀ (execFldsc o s) := by simp [execFldsc, h]

@[simp] theorem execMma_keepsStore {s₀ : State} (o) (s : State) (h : s.SameStore s₀) : KeepsStore s₀ (execMma o s) := by
  refine runSeq_keepsStore _ s _ h fun e => ?_
  repeat' split
  all_goals simp

@[simp] theorem execAccz_keepsStore {s₀ : State} (o) (s : State) (h : s.SameStore s₀) :
    KeepsStore s₀ (execAccz o s) := by
  refine runSeq_keepsStore _ s _ h fun e => ?_
  repeat' split
  all_goals simp

@[simp] theorem execAcccp_keepsStore {s₀ : State} (o) (s : State) (h : s.SameStore s₀) :
    KeepsStore s₀ (execAcccp o s) := by
  refine runSeq_keepsStore _ s _ h fun e => ?_
  repeat' split
  all_goals simp

@[simp] theorem Env.issueTile_keepsStore {s₀ : State} (e : Env) (i o) (h : e.s.SameStore s₀) :
    Act.KeepsStore s₀ (e.issueTile i o) := by
  unfold Env.issueTile
  repeat' split
  all_goals simp [h]

@[simp] theorem execAccld_keepsStore {s₀ : State} (o) (s : State) (h : s.SameStore s₀) :
    KeepsStore s₀ (execAccld o s) := by simp [execAccld, h]

@[simp] theorem execAccst_keepsStore {s₀ : State} (o) (s : State) (h : s.SameStore s₀) :
    KeepsStore s₀ (execAccst o s) := by simp [execAccst, h]

@[simp] theorem execAccrd_keepsStore {s₀ : State} (o) (s : State) (h : s.SameStore s₀) :
    KeepsStore s₀ (execAccrd o s) := by
  refine runSeq_keepsStore _ s _ h fun e => ?_
  split
  · trivial
  · split
    · simp
    · next hp =>
      have ht := e.prepGroup_sameStore _ hp
      exact e.accept_keepsStore _ _ _ ht ⟨rfl, rfl, rfl⟩

@[simp] theorem execAccwr_keepsStore {s₀ : State} (o) (s : State) (h : s.SameStore s₀) :
    KeepsStore s₀ (execAccwr o s) := by
  refine runSeq_keepsStore _ s _ h fun e => ?_
  repeat' split
  all_goals simp

@[simp] theorem State.dropMx_sameStore (s : State) (core x) : (s.dropMx core x).SameStore s := ⟨rfl, rfl, rfl⟩
@[simp] theorem State.endMx_sameStore (s : State) (core x f) : (s.endMx core x f).SameStore s := by simp [State.endMx]

@[simp] theorem State.failMx_sameStore (s : State) (core x f tile) : (s.failMx core x f tile).SameStore s := by
  simp [State.failMx]

@[simp] theorem State.readMx_sameStore (s : State) (core t x l rows cols f) :
    (s.readMx core t x l rows cols f).SameStore s := by
  unfold State.readMx
  dsimp only
  split
  · simp
  · next hc => simpa using State.spCheck_sameStore s t _ _ _ _ _ _ _ _ hc

@[simp] theorem State.finishMx_sameStore (s : State) (core t x) : (s.finishMx core t x).SameStore s := by
  simp only [State.finishMx]
  split <;> simp

@[simp] theorem execMxOpComplete_keepsStore {s₀ : State} (core id) (s : State) (h : s.SameStore s₀) :
    KeepsStore s₀ (execMxOpComplete core id s) := by
  simp only [execMxOpComplete]
  repeat' split
  all_goals simp [h]

@[simp] theorem execMmaStart_keepsStore {s₀ : State} (core arr) (s : State) (h : s.SameStore s₀) :
    KeepsStore s₀ (execMmaStart core arr s) := by
  simp only [execMmaStart]
  split <;> simp [h]

@[simp] theorem State.miscompareMx_sameStore (s : State) (core x) : (s.miscompareMx core x).SameStore s := by
  simp [State.miscompareMx]

@[simp] theorem execMmaComplete_keepsStore {s₀ : State} (core arr) (s : State) (h : s.SameStore s₀) :
    KeepsStore s₀ (execMmaComplete core arr s) := by
  simp only [execMmaComplete]
  repeat' split
  all_goals simp [h]

end Sys2Proof.Machine
end

section
/-!
SUPPORT. The store under memory instructions and the operations they queue.
-/
namespace Sys2Proof.Machine

/-! ## Loads into registers -/

@[simp] theorem State.holdLater_sameStore (s : State) (k id) : (s.holdLater k id).SameStore s := ⟨rfl, rfl, rfl⟩

@[simp] theorem State.countAccess_sameStore (s : State) (k id acquire) : (s.countAccess k id acquire).SameStore s :=
  ⟨rfl, rfl, rfl⟩

@[simp] theorem State.endAcquire_sameStore (s : State) (k id core paired sc) :
    (s.endAcquire k id core paired sc).SameStore s := by
  unfold State.endAcquire
  split <;> simp

theorem Env.prepLoad_sameStore (e : Env) (i) (s : State) (d) (uniform) {s' : State}
    (h : Env.prepLoad e i s d uniform = some s') : s'.SameStore s := by
  obtain ⟨t, ht, rfl⟩ := Option.map_eq_some_iff.mp h
  split at ht
  · cases ht; simp
  · simpa using State.prepDest_sameStore s _ _ _ _ _ _ _ ht

theorem State.writeReg_sameStore (s : State) (k t uniform l n) {s' : State} (h : s.writeReg k t uniform l n = some s')
    : s'.SameStore s := by
  obtain ⟨t, ht, rfl⟩ := Option.map_eq_some_iff.mp h
  split at ht
  · cases ht; simp
  · simpa using State.settleWrite_sameStore s _ _ _ _ ht

theorem State.writeLanes_sameStore (s : State) (k t uniform l) {s' : State} (h : s.writeLanes k t uniform l = some s')
    : s'.SameStore s := State.foldl_bind_sameStore _ (fun t _ _ h => State.writeReg_sameStore t _ _ _ _ _ h) _ s h

@[simp] theorem State.cancelLoad_sameStore (s : State) (k l) : (s.cancelLoad k l).SameStore s := ⟨rfl, rfl, rfl⟩

/-! ## Watch slots -/

@[simp] theorem execWatch_keepsStore {s₀ : State} (o) (s : State) (h : s.SameStore s₀) :
    KeepsStore s₀ (execWatch o s) := by
  refine runSeq_keepsStore _ s _ h fun e => ?_
  dsimp only
  repeat' split
  all_goals simp

@[simp] theorem execUnwatch_keepsStore {s₀ : State} (o) (s : State) (h : s.SameStore s₀) :
    KeepsStore s₀ (execUnwatch o s) := by simp [execUnwatch, h]

@[simp] theorem execWatchq_keepsStore {s₀ : State} (o) (s : State) (h : s.SameStore s₀) :
    KeepsStore s₀ (execWatchq o s) := by simp [execWatchq, h]

/-! ## Memory instructions -/

@[simp] theorem State.surrender_sameStore (s : State) (core sec) : (s.surrender core sec).SameStore s := by
  unfold State.surrender
  split <;> simp

@[simp] theorem State.cleanFor_sameStore (s : State) (core sec) : (s.cleanFor core sec).SameStore s := by
  unfold State.cleanFor
  split <;> simp

@[simp] theorem Env.queueOp_sameStore (e : Env) (i f) (s : State) (lanes through) :
    (e.queueOp i f s lanes through).SameStore s := by
  unfold Env.queueOp
  simp
  split <;> simp

@[simp] theorem Env.sendOp_keepsStore {s₀ : State} (e : Env) (i f lanes) (h : e.s.SameStore s₀) :
    Act.KeepsStore s₀ (e.sendOp i f lanes) := by
  unfold Env.sendOp
  dsimp only
  split
  · exact h
  · next hd =>
    split at hd
    · simpa [h] using e.prepLoad_sameStore _ _ _ _ hd
    · cases hd; simpa using h

@[simp] theorem Env.issueMem_keepsStore {s₀ : State} (e : Env) (i f) (h : e.s.SameStore s₀) :
    Act.KeepsStore s₀ (e.issueMem i f) := by
  simp only [Env.issueMem]
  repeat' split
  all_goals simp [h]

@[simp] theorem execLd_keepsStore {s₀ : State} (o) (s : State) (h : s.SameStore s₀) : KeepsStore s₀ (execLd o s) := by
  simp [execLd, h]

@[simp] theorem execSt_keepsStore {s₀ : State} (o) (s : State) (h : s.SameStore s₀) : KeepsStore s₀ (execSt o s) := by
  simp [execSt, h]

@[simp] theorem execAtom_keepsStore {s₀ : State} (o) (s : State) (h : s.SameStore s₀) :
    KeepsStore s₀ (execAtom o s) := by simp [execAtom, h]

@[simp] theorem execRed_keepsStore {s₀ : State} (o) (s : State) (h : s.SameStore s₀) : KeepsStore s₀ (execRed o s) := by
  simp [execRed, h]

@[simp] theorem execLdr_keepsStore {s₀ : State} (o) (s : State) (h : s.SameStore s₀) : KeepsStore s₀ (execLdr o s) := by
  simp [execLdr, h]

@[simp] theorem execStr_keepsStore {s₀ : State} (o) (s : State) (h : s.SameStore s₀) : KeepsStore s₀ (execStr o s) := by
  simp [execStr, h]

@[simp] theorem execRedr_keepsStore {s₀ : State} (o) (s : State) (h : s.SameStore s₀) :
    KeepsStore s₀ (execRedr o s) := by simp [execRedr, h]

@[simp] theorem execSld_keepsStore {s₀ : State} (o) (s : State) (h : s.SameStore s₀) : KeepsStore s₀ (execSld o s) := by
  simp [execSld, h]

@[simp] theorem execSst_keepsStore {s₀ : State} (o) (s : State) (h : s.SameStore s₀) : KeepsStore s₀ (execSst o s) := by
  simp [execSst, h]

@[simp] theorem execSatom_keepsStore {s₀ : State} (o) (s : State) (h : s.SameStore s₀) :
    KeepsStore s₀ (execSatom o s) := by simp [execSatom, h]

@[simp] theorem execPref_keepsStore {s₀ : State} (o) (s : State) (h : s.SameStore s₀) :
    KeepsStore s₀ (execPref o s) := by simp [execPref, h]

@[simp] theorem execTagst_keepsStore {s₀ : State} (o) (s : State) (h : s.SameStore s₀) :
    KeepsStore s₀ (execTagst o s) := by simp [execTagst, h]

@[simp] theorem execTagld_keepsStore {s₀ : State} (o) (s : State) (h : s.SameStore s₀) :
    KeepsStore s₀ (execTagld o s) := by simp [execTagld, h]

@[simp] theorem execTagset_keepsStore {s₀ : State} (o) (s : State) (h : s.SameStore s₀) :
    KeepsStore s₀ (execTagset o s) := by simp [execTagset, h]

@[simp] theorem State.takeCause_sameStore (s : State) (hub op own warp) :
    (s.takeCause hub op own warp).2.SameStore s := by
  simp only [State.takeCause]
  split <;> simp

@[simp] theorem Env.acquireFence_keepsStore {s₀ : State} (e : Env) (sc) (h : e.s.SameStore s₀) :
    Act.KeepsStore s₀ (e.acquireFence sc) := by simp [Env.acquireFence, h]

@[simp] theorem execFence_keepsStore {s₀ : State} (o) (s : State) (h : s.SameStore s₀) :
    KeepsStore s₀ (execFence o s) := by
  unfold execFence
  split <;> simp [h]

@[simp] theorem State.landWrite_sameStore (s : State) (core b) : (s.landWrite core b).SameStore s := by
  unfold State.landWrite
  dsimp only
  split <;> (rename_i hp; obtain rfl := eq_snd_of_eq hp; simp)

@[simp] theorem State.landCopies_sameStore (s : State) (t) : (s.landCopies t).SameStore s := by
  simp [State.landCopies]

@[simp] theorem Env.pushDirty_keepsStore {s₀ : State} (e : Env) (f : State → Act) (h : e.s.SameStore s₀)
    (hf : ∀ s, s.SameStore s₀ → (f s).KeepsStore s₀) : (e.pushDirty f).KeepsStore s₀ := by
  unfold Env.pushDirty
  split
  · exact hf _ h
  · exact hf _ h
  · split
    · exact h
    · exact hf _ h
  · split <;> (rename_i hp; obtain rfl := eq_snd_of_eq hp)
    · exact hf _ (by simpa using h)
    · simpa using h

@[simp] theorem Env.hostRead_keepsStore {s₀ : State} (e : Env) (need) (s : State) (h : s.SameStore s₀) :
    Act.KeepsStore s₀ (e.hostRead need s) := by simp [Env.hostRead, h]

@[simp] theorem Env.fencexVisible_sameStore (e : Env) (m wide) (s : State) : (e.fencexVisible m wide s).SameStore s := by
  simp [Env.fencexVisible]

@[simp] theorem execFencex_keepsStore {s₀ : State} (o) (s : State) (h : s.SameStore s₀) :
    KeepsStore s₀ (execFencex o s) := by
  refine runSeq_keepsStore _ s _ h fun e => ?_
  dsimp only
  split
  · simp
  · split
    · simp
    · split
      · exact e.pushDirty_keepsStore _ ⟨rfl, rfl, rfl⟩ fun s hs => by simp [hs]
      · simp

@[simp] theorem execL1inv_keepsStore {s₀ : State} (o) (s : State) (h : s.SameStore s₀) :
    KeepsStore s₀ (execL1inv o s) := by simp [execL1inv, h]

@[simp] theorem execL1wb_keepsStore {s₀ : State} (o) (s : State) (h : s.SameStore s₀) :
    KeepsStore s₀ (execL1wb o s) := by simp [execL1wb, h]

/-! ## Memory operations in flight -/

@[simp] theorem State.pushSectors_sameStore (s : State) (o a) : (s.pushSectors o a).SameStore s := by
  simp [State.pushSectors]

@[simp] theorem State.lateFault_sameStore (s : State) (k f flushed ia) : (s.lateFault k f flushed ia).SameStore s :=
  ⟨rfl, rfl, rfl⟩

@[simp] theorem State.orphanPoison_sameStore (s : State) (o f ia) : (s.orphanPoison o f ia).SameStore s := by
  unfold State.orphanPoison
  split <;> simp

@[simp] theorem State.reportOp_sameStore (s : State) (o a) : (s.reportOp o a).SameStore s := by simp [State.reportOp]

@[simp] theorem State.unparkWarp_sameStore (s : State) (k) : (s.unparkWarp k).SameStore s := by
  unfold State.unparkWarp
  repeat' split
  all_goals simp

@[simp] theorem State.unparkRestored_sameStore (s : State) (o) : (s.unparkRestored o).SameStore s := by
  unfold State.unparkRestored
  split <;> simp

@[simp] theorem State.dropOp_sameStore (s : State) (o) : (s.dropOp o).SameStore s := by
  unfold State.dropOp
  split
  · simp
  · split <;> simp

@[simp] theorem State.joinAt_sameStore (s : State) (k sc at_) : (s.joinAt k sc at_).SameStore s := by
  unfold State.joinAt
  split <;> simp

@[simp] theorem State.finishAcquire_sameStore (s : State) (o) : (s.finishAcquire o).SameStore s := by
  unfold State.finishAcquire
  split <;> simp

theorem State.writeResults_sameStore (s : State) (o) {s' : State} (h : s.writeResults o = some s') : s'.SameStore s := by
  unfold State.writeResults at h
  split at h
  · cases h; simp
  · split at h
    · cases h; simp
    · exact State.writeLanes_sameStore s _ _ _ _ h
    · cases h; simp

theorem State.finishOp_sameStore (s : State) (id) {s' : State} (h : s.finishOp id = some s') : s'.SameStore s := by
  unfold State.finishOp at h
  split at h
  · cases h; simp
  · next o _ =>
    split at h
    · cases h; simp
    · obtain ⟨t, ht, rfl⟩ := Option.map_eq_some_iff.mp h
      have hs : ∀ p : Prop, ∀ [Decidable p],
          (if p then some (if o.dropped then s else s.cancelLoad o.key o.lanes) else s.writeResults o) = some t →
          t.SameStore s := by
        intro p _ ht
        split at ht
        · cases ht; simp
        · exact State.writeResults_sameStore s o ht
      have hr : ∀ (x : Option LaneAccess) (u : State),
          (match x with | some a => u.reportOp o a | none => u).SameStore u := by
        rintro (_ | a) u <;> simp
      refine State.sameStore_trans (State.unparkRestored_sameStore _ _) (State.sameStore_trans
        (State.settle_sameStore _ _) (State.sameStore_trans (hr _ _) ?_))
      simpa using hs _ ht

@[simp] theorem State.tryFinish_sameStore (s : State) (id) : (s.tryFinish id).SameStore s := by
  unfold State.tryFinish
  cases h : s.finishOp id with
  | none => simp
  | some t => exact State.finishOp_sameStore s id h

@[simp] theorem State.parkWarp_sameStore (s : State) (k) : (s.parkWarp k).SameStore s := by
  unfold State.parkWarp
  split <;> simp

@[simp] theorem State.filterPage_sameStore (s : State) (core r) : (s.filterPage core r).SameStore s := ⟨rfl, rfl, rfl⟩

@[simp] theorem State.park_sameStore (s : State) (o a) : (s.park o a).SameStore s := by
  unfold State.park
  split <;> simp

@[simp] theorem State.sendFill_sameStore (s : State) (o sec pa) : (s.sendFill o sec pa).SameStore s := ⟨rfl, rfl, rfl⟩
@[simp] theorem State.endAgain_sameStore (s : State) (o) : (s.endAgain o).SameStore s := by simp [State.endAgain]

@[simp] theorem State.walked_sameStore (s : State) (o a w fill) : (s.walked o a w fill).SameStore s := by
  simp only [State.walked]
  split <;> simp

@[simp] theorem execPageWalk_keepsStore {s₀ : State} (id) (s : State) (h : s.SameStore s₀) :
    KeepsStore s₀ (execPageWalk id s) := by
  simp only [execPageWalk]
  repeat' split
  all_goals simp [h]

@[simp] theorem State.sectorTags_sameStore (s : State) (sec) : (s.sectorTags sec).2.SameStore s := by
  unfold State.sectorTags
  split <;> (rename_i hp; obtain rfl := eq_snd_of_eq hp; simp)

@[simp] theorem State.tagCheck_sameStore (s : State) (a size) : (s.tagCheck a size).2.SameStore s := by
  unfold State.tagCheck
  split
  · simp
  · split <;> (rename_i hp; obtain rfl := eq_snd_of_eq hp; simp)

@[simp] theorem State.tagCheckL1_sameStore (s : State) (x a size) : (s.tagCheckL1 x a size).2.SameStore s := by
  unfold State.tagCheckL1
  split <;> simp

@[simp] theorem State.setLane_sameStore (s : State) (id a) : (s.setLane id a).SameStore s := ⟨rfl, rfl, rfl⟩

@[simp] theorem State.watchOp_sameStore (s : State) (o a) : (s.watchOp o a).SameStore s := by
  unfold State.watchOp
  split <;> simp

@[simp] theorem State.loadLane_sameStore (s : State) (o data poison tags a) :
    (s.loadLane o data poison tags a).SameStore s := ⟨rfl, rfl, rfl⟩

@[simp] theorem State.sectorNow_sameStore (s : State) (sec) : (s.sectorNow sec).2.SameStore s := by
  unfold State.sectorNow
  split
  · simp
  · split <;> (rename_i hp; obtain rfl := eq_snd_of_eq hp; simp)

@[simp] theorem State.performLoad_sameStore (s : State) (o lanes sec) : (s.performLoad o lanes sec).SameStore s := by
  simp only [State.performLoad]
  split <;> simp

@[simp] theorem State.writeSector_sameStore (s0 : State) (sec data mask poison owner cause) :
    (s0.writeSector sec data mask poison owner cause).SameStore s0 := by
  unfold State.writeSector
  dsimp only
  split
  · simp
  · split <;> (rename_i hp; obtain rfl := eq_snd_of_eq hp)
    · split <;> simp
    · simp

@[simp] theorem State.breakWords_sameStore (s : State) (o lanes) : (s.breakWords o lanes).SameStore s :=
  ⟨rfl, rfl, rfl⟩

@[simp] theorem State.performStore_sameStore (s : State) (o lanes sec) : (s.performStore o lanes sec).SameStore s := by
  simp [State.performStore]

@[simp] theorem State.performBack_sameStore (s : State) (o lanes sec) : (s.performBack o lanes sec).SameStore s := by
  simp [State.performBack]

@[simp] theorem State.l1Atomic_sameStore (s : State) (core sec data mask) :
    (s.l1Atomic core sec data mask).SameStore s := by
  unfold State.l1Atomic
  split <;> simp

@[simp] theorem State.performAtomic_sameStore (s : State) (o lanes sec) : (s.performAtomic o lanes sec).SameStore s := by
  simp [State.performAtomic]

@[simp] theorem State.dropTagCopies_sameStore (s : State) (sec) : (s.dropTagCopies sec).2.SameStore s := by
  simp [State.dropTagCopies]

@[simp] theorem State.performHost_sameStore (s : State) (o lanes) : (s.performHost o lanes).SameStore s := by
  simp [State.performHost]

@[simp] theorem State.remoteLane_sameStore (s1 : State) (o n a) : (s1.remoteLane o n a).SameStore s1 :=
  ⟨rfl, rfl, rfl⟩

@[simp] theorem State.performRemote_sameStore (s : State) (o lanes) : (s.performRemote o lanes).SameStore s := by
  simp [State.performRemote]

@[simp] theorem State.performPref_sameStore (s : State) (o lanes sec) : (s.performPref o lanes sec).SameStore s := by
  unfold State.performPref
  split <;> simp

@[simp] theorem State.copyTags_sameStore (s : State) (core sec) : (s.copyTags core sec).SameStore s := by
  simp [State.copyTags]

@[simp] theorem State.verdict_sameStore (s : State) (o) : (s.verdict o).SameStore s := by simp [State.verdict]

@[simp] theorem execTagProbeVerdict_keepsStore {s₀ : State} (id) (s : State) (h : s.SameStore s₀) :
    KeepsStore s₀ (execTagProbeVerdict id s) := by
  simp only [execTagProbeVerdict]
  repeat' split
  all_goals simp [h]

@[simp] theorem execWriteBackAcknowledge_keepsStore {s₀ : State} (core id) (s : State) (h : s.SameStore s₀) :
    KeepsStore s₀ (execWriteBackAcknowledge core id s) := by
  simp only [execWriteBackAcknowledge]
  split <;> simp [h]

@[simp] theorem State.takeReply_sameStore (s : State) (q r) : (s.takeReply q r).SameStore s := ⟨rfl, rfl, rfl⟩

@[simp] theorem execRdata_keepsStore {s₀ : State} (q tag) (s : State) (h : s.SameStore s₀) :
    KeepsStore s₀ (execRdata q tag s) := by
  unfold execRdata
  repeat' split
  all_goals simp [h]

@[simp] theorem execWack_keepsStore {s₀ : State} (q tag) (s : State) (h : s.SameStore s₀) :
    KeepsStore s₀ (execWack q tag s) := by
  unfold execWack
  split <;> simp [h]

end Sys2Proof.Machine
end

section
/-!
SUPPORT. The store under copies and page faults.
-/
namespace Sys2Proof.Machine

/-! ## Copies -/

@[simp] theorem State.modChannel_sameStore (s : State) (core ch f) : (s.modChannel core ch f).SameStore s :=
  ⟨rfl, rfl, rfl⟩

@[simp] theorem Env.issueCopy_keepsStore {s₀ : State} (e : Env) (i o) (h : e.s.SameStore s₀) :
    Act.KeepsStore s₀ (e.issueCopy i o) := by
  simp only [Env.issueCopy]
  repeat' split
  all_goals simp [h]

@[simp] theorem execCpy_keepsStore {s₀ : State} (o) (s : State) (h : s.SameStore s₀) : KeepsStore s₀ (execCpy o s) := by
  simp [execCpy, h]

@[simp] theorem execCpys_keepsStore {s₀ : State} (o) (s : State) (h : s.SameStore s₀) :
    KeepsStore s₀ (execCpys o s) := by simp [execCpys, h]

@[simp] theorem execCpyg_keepsStore {s₀ : State} (o) (s : State) (h : s.SameStore s₀) :
    KeepsStore s₀ (execCpyg o s) := by simp [execCpyg, h]

@[simp] theorem execCpygat_keepsStore {s₀ : State} (o) (s : State) (h : s.SameStore s₀) :
    KeepsStore s₀ (execCpygat o s) := by simp [execCpygat, h]

@[simp] theorem execCpyq_keepsStore {s₀ : State} (o) (s : State) (h : s.SameStore s₀) :
    KeepsStore s₀ (execCpyq o s) := by simp [execCpyq, h]

@[simp] theorem Moved.bind_sameStore {α β : Type} (m : Moved α × State) (f : α → State → Moved β × State)
    (h : ∀ x t, (f x t).2.SameStore t) : (Moved.bind m f).2.SameStore m.2 := by
  obtain ⟨x | x | x, s⟩ := m
  · exact h x s
  · exact ⟨rfl, rfl, rfl⟩
  · exact ⟨rfl, rfl, rfl⟩

@[simp] theorem Moved.whole_sameStore {α : Type} (m : Moved α × State) : (Moved.whole m).2.SameStore m.2 := by
  obtain ⟨x | x | x, s⟩ := m <;> exact ⟨rfl, rfl, rfl⟩

@[simp] theorem State.engineTag_sameStore (s : State) (r va n) : (s.engineTag r va n).2.SameStore s := by
  simp [State.engineTag]

@[simp] theorem State.modCopy_sameStore (s : State) (core c f) : (s.modCopy core c f).SameStore s := ⟨rfl, rfl, rfl⟩

@[simp] theorem State.sendPeer_sameStore (s : State) (c r va n kind) : (s.sendPeer c r va n kind).SameStore s :=
  ⟨rfl, rfl, rfl⟩

@[simp] theorem State.enginePeer_sameStore (s : State) (c r va n kind) : (s.enginePeer c r va n kind).2.SameStore s := by
  simp only [State.enginePeer]
  split <;> simp

@[simp] theorem State.engineRead_sameStore (s : State) (c r va n) : (s.engineRead c r va n).2.SameStore s := by
  unfold State.engineRead
  dsimp only
  split
  · simp
  · split
    · exact State.sameStore_trans (Moved.bind_sameStore _ _ fun _ _ => ⟨rfl, rfl, rfl⟩) (by simp)
    · split <;> (rename_i hp; obtain rfl := eq_snd_of_eq hp)
      · simp
      · split <;> simp

@[simp] theorem State.engineStore_sameStore (s : State) (core c x off bs poison) :
    (s.engineStore core c x off bs poison).SameStore s := by
  unfold State.engineStore
  split
  · simp
  · split <;> simp

@[simp] theorem State.engineWrite_sameStore (s0 : State) (core c r va u) :
    (s0.engineWrite core c r va u).2.SameStore s0 := by
  unfold State.engineWrite
  dsimp only
  split
  · simp
  · split
    · exact State.sameStore_trans (Moved.bind_sameStore _ _ fun _ _ => ⟨rfl, rfl, rfl⟩) (by simp)
    · split <;> (rename_i hp; obtain rfl := eq_snd_of_eq hp)
      · simp
      · split <;> simp

@[simp] theorem State.engineCheck_sameStore (s : State) (t core c off n span) :
    (s.engineCheck t core c off n span).2.SameStore s := by
  unfold State.engineCheck
  dsimp only
  split
  · simp
  · split
    · simp
    · split
      · simp
      · next hc => exact State.spCheck_sameStore s t _ _ _ _ _ _ _ _ hc

@[simp] theorem State.engineSp_sameStore (s : State) (t core c off n span) :
    (s.engineSp t core c off n span).2.SameStore s := by simp [State.engineSp]

@[simp] theorem State.copyEvents_sameStore (s : State) (core c) : (s.copyEvents core c).SameStore s := by
  unfold State.copyEvents
  split <;> simp <;> split <;> simp

@[simp] theorem State.gatherRow_begin_sameStore (s : State) (t) (core) (c) (g) (i) (n) :
    (State.gatherRow.begin_ s t core c g i n).2.SameStore s := by
  refine State.sameStore_trans (Moved.bind_sameStore _ _ fun u s => ?_) (by simp)
  dsimp only
  split
  · simp
  · split
    · simp
    · split
      · simp
      · split <;> simp

@[simp] theorem State.gatherRow_sameStore (s : State) (t) (core) (c) (o) : (s.gatherRow t core c o).2.SameStore s := by
  unfold State.gatherRow
  dsimp only
  split <;> simp

@[simp] theorem State.gatherRead_sameStore (s : State) (t core c o n) : (s.gatherRead t core c o n).2.SameStore s := by
  refine State.sameStore_trans (Moved.bind_sameStore _ _ fun u s => ?_) (by simp)
  split <;> simp

@[simp] theorem State.copyRead_sameStore (s : State) (t core c o n) : (s.copyRead t core c o n).2.SameStore s := by
  unfold State.copyRead
  split <;> simp <;> split <;> simp

@[simp] theorem State.engineSpWrite_sameStore (s : State) (k id off u stamp) :
    (s.engineSpWrite k id off u stamp).SameStore s := ⟨rfl, rfl, rfl⟩

@[simp] theorem State.copyWrite_sameStore (s : State) (core c o u) : (s.copyWrite core c o u).2.SameStore s := by
  unfold State.copyWrite
  split <;> simp <;> split <;> simp

@[simp] theorem State.dropCopy_sameStore (s : State) (core ch c) : (s.dropCopy core ch c).SameStore s := by
  simp [State.dropCopy]

@[simp] theorem State.failCopy_sameStore (s : State) (core ch c off code ia) :
    (s.failCopy core ch c off code ia).SameStore s := by simp [State.failCopy]

@[simp] theorem State.holdCopy_sameStore (s : State) (core c m) : (s.holdCopy core c m).SameStore s := ⟨rfl, rfl, rfl⟩

@[simp] theorem Moved.then_sameStore {α : Type} (m : Moved α × State) (core) (ch) (c) (off) (f : α → State → State)
    (h : ∀ x t, (f x t).SameStore t) : (Moved.then m core ch c off f).SameStore m.2 := by
  obtain ⟨x | x | x, s⟩ := m
  · exact h x s
  · simp [Moved.then]
  · simp [Moved.then]

@[simp] theorem State.landChannel_sameStore (s : State) (core ch k) : (s.landChannel core ch k).SameStore s := by
  simp [State.landChannel]

@[simp] theorem execCopyCommandStart_keepsStore {s₀ : State} (core ch) (s : State) (h : s.SameStore s₀) :
    KeepsStore s₀ (execCopyCommandStart core ch s) := by
  unfold execCopyCommandStart
  split <;> simp [h]

@[simp] theorem State.copyPart_sameStore (s : State) (t core c o n) : (s.copyPart t core c o n).2.SameStore s := by
  simp [State.copyPart]

@[simp] theorem State.copyUnit_sameStore (s : State) (t core c o) : (s.copyUnit t core c o).2.SameStore s := by
  unfold State.copyUnit
  split
  · rename_i hp
    obtain rfl := eq_snd_of_eq hp
    split
    · rename_i hp
      obtain rfl := eq_snd_of_eq hp
      simp
    · simp
  · simp

@[simp] theorem State.copyBurst_sameStore (k : TKey) (core) (c) (n : Nat) (s : State) (o) (bs) :
    (State.copyBurst k core c n s o bs).2.SameStore s := by
  induction n generalizing s o bs with
  | zero => exact ⟨rfl, rfl, rfl⟩
  | succ n ih =>
    unfold State.copyBurst
    split
    · simp
    · split <;> (rename_i hp; obtain rfl := eq_snd_of_eq hp; simp [ih])

@[simp] theorem State.moveBurst_sameStore (s : State) (t core ch c) : (s.moveBurst t core ch c).SameStore s := by
  simp [State.moveBurst]

@[simp] theorem execCopyDataReturn_keepsStore {s₀ : State} (core ch) (s : State) (h : s.SameStore s₀) :
    KeepsStore s₀ (execCopyDataReturn core ch s) := by
  unfold execCopyDataReturn
  repeat' split
  all_goals simp [h]

@[simp] theorem State.writeDigest_sameStore (s : State) (t core c) : (s.writeDigest t core c).2.SameStore s := by
  unfold State.writeDigest
  split
  · split <;> simp
  · simp

@[simp] theorem State.sendAdd_sameStore (s : State) (c r va) : (s.sendAdd c r va).SameStore s := ⟨rfl, rfl, rfl⟩

@[simp] theorem State.addCheck_sameStore (s : State) (c r va) : (s.addCheck c r va).2.SameStore s := by
  unfold State.addCheck
  dsimp only
  split
  · simp
  · split
    · split <;> simp
    · split <;> (rename_i hp; obtain rfl := eq_snd_of_eq hp)
      · simp
      · split
        · simp
        · split <;> simp

@[simp] theorem State.engineAdd_sameStore (s : State) (c r va) : (s.engineAdd c r va).2.SameStore s := by
  unfold State.engineAdd
  dsimp only
  split
  · simp
  · split
    · simp
    · split <;> (rename_i hp; obtain rfl := eq_snd_of_eq hp; simp)

@[simp] theorem State.engineAddSp_sameStore (s : State) (c off) : (s.engineAddSp c off).SameStore s := by
  unfold State.engineAddSp
  split <;> simp

@[simp] theorem State.addCheckSp_sameStore (s : State) (t core c off) : (s.addCheckSp t core c off).2.SameStore s := by
  refine State.sameStore_trans (Moved.bind_sameStore _ _ fun u s => ?_) (by simp)
  dsimp only
  split <;> simp

@[simp] theorem State.checkAdd_sameStore (s : State) (t core c) : (s.checkAdd t core c).2.SameStore s := by
  unfold State.checkAdd
  split <;> simp <;> split <;> simp

@[simp] theorem State.writeAdd_sameStore (s : State) (c) : (s.writeAdd c).2.SameStore s := by
  unfold State.writeAdd
  split <;> simp <;> split <;> simp

@[simp] theorem State.endCopy_sameStore (s : State) (t core ch c) : (s.endCopy t core ch c).SameStore s := by
  unfold State.endCopy
  dsimp only
  refine State.sameStore_trans (Moved.then_sameStore _ _ _ _ _ _ fun _ _ => by simp) ?_
  refine State.sameStore_trans (Moved.whole_sameStore _) ?_
  refine State.sameStore_trans (Moved.bind_sameStore _ _ fun _ u => ?_) (by simp)
  refine State.sameStore_trans (Moved.bind_sameStore _ _ fun hit v => ?_) (by split <;> simp)
  split
  · simp
  · exact State.sameStore_trans (Moved.bind_sameStore _ _ fun _ _ => by split <;> simp) (by simp)

@[simp] theorem execCopyCommandComplete_keepsStore {s₀ : State} (core ch) (s : State) (h : s.SameStore s₀) :
    KeepsStore s₀ (execCopyCommandComplete core ch s) := by
  unfold execCopyCommandComplete
  repeat' split
  all_goals simp [h]

/-! ## Page faults -/

@[simp] theorem State.modFault_sameStore (s : State) (p f) : (s.modFault p f).SameStore s := ⟨rfl, rfl, rfl⟩

@[simp] theorem execHubStageReport_keepsStore {s₀ : State} (core p) (s : State) (h : s.SameStore s₀) :
    KeepsStore s₀ (execHubStageReport core p s) := by
  unfold execHubStageReport
  repeat' split
  all_goals simp [h]

@[simp] theorem State.pageFaultRecord_sameStore (s : State) (f) : (s.pageFaultRecord f).SameStore s := by
  simp [State.pageFaultRecord]

@[simp] theorem execFaultWindowClose_keepsStore {s₀ : State} (p) (s : State) (h : s.SameStore s₀) :
    KeepsStore s₀ (execFaultWindowClose p s) := by
  unfold execFaultWindowClose
  split <;> simp [h]

@[simp] theorem replayPage_keepsStore {s₀ : State} (p) (s : State) (h : s.SameStore s₀) :
    KeepsStore s₀ (replayPage p s) := by simp [replayPage, h]

@[simp] theorem execReplayPage_keepsStore {s₀ : State} (p) (s : State) (h : s.SameStore s₀) :
    KeepsStore s₀ (execReplayPage p s) := by simp [execReplayPage, h]

@[simp] theorem replayAll_keepsStore {s₀ : State} (ctx) (s : State) (h : s.SameStore s₀) :
    KeepsStore s₀ (replayAll ctx s) := by simp [replayAll, h]

@[simp] theorem execReplayAll_keepsStore {s₀ : State} (ctx) (s : State) (h : s.SameStore s₀) :
    KeepsStore s₀ (execReplayAll ctx s) := by simp [execReplayAll, h]

@[simp] theorem State.unpark_sameStore (s : State) (p) : (s.unpark p).SameStore s := by simp [State.unpark]

@[simp] theorem execReplayWalkResult_keepsStore {s₀ : State} (p) (s : State) (h : s.SameStore s₀) :
    KeepsStore s₀ (execReplayWalkResult p s) := by
  unfold execReplayWalkResult
  repeat' split
  all_goals simp [h]

end Sys2Proof.Machine
end

section
/-!
SUPPORT. The store under graphs, scopes, signals and system instructions.
-/
namespace Sys2Proof.Machine

/-! ## Graphs, scopes and signals -/

@[simp] theorem State.unflush_sameStore (s : State) (k) : (s.unflush k).SameStore s := ⟨rfl, rfl, rfl⟩

@[simp] theorem Env.emitRecords_keepsStore {s₀ : State} (e : Env) (i k m insts) (h : e.s.SameStore s₀) :
    Act.KeepsStore s₀ (e.emitRecords i k m insts) := by
  simp only [Env.emitRecords]
  repeat' split
  all_goals simp [h]

@[simp] theorem execEmit_keepsStore {s₀ : State} (o) (s : State) (h : s.SameStore s₀) :
    KeepsStore s₀ (execEmit o s) := by simp [execEmit, h]

@[simp] theorem execEmitn_keepsStore {s₀ : State} (o) (s : State) (h : s.SameStore s₀) :
    KeepsStore s₀ (execEmitn o s) := by simp [execEmitn, h]

@[simp] theorem execEmitq_keepsStore {s₀ : State} (o) (s : State) (h : s.SameStore s₀) :
    KeepsStore s₀ (execEmitq o s) := by simp [execEmitq, h]

@[simp] theorem State.formLaunch_sameStore (s : State) (ctx f n x m) : (s.formLaunch ctx f n x m).SameStore s := by
  simp [State.formLaunch]

@[simp] theorem State.gather_sameStore (ctx fid n fuel) (s : State) : (State.gather ctx fid n fuel s).SameStore s := by
  induction fuel generalizing s with
  | zero => exact ⟨rfl, rfl, rfl⟩
  | succ fuel ih =>
    unfold State.gather
    repeat' split
    all_goals simp [ih]

@[simp] theorem State.arriveRecords_sameStore (s : State) (ctx fid l) : (s.arriveRecords ctx fid l).SameStore s := by
  unfold State.arriveRecords
  split <;> simp

@[simp] theorem execEmitRecordArrival_keepsStore {s₀ : State} (k) (s : State) (h : s.SameStore s₀) :
    KeepsStore s₀ (execEmitRecordArrival k s) := by
  unfold execEmitRecordArrival
  repeat' split
  all_goals simp [h]

@[simp] theorem execGatherTimeout_keepsStore {s₀ : State} (ctx firing node) (s : State) (h : s.SameStore s₀) :
    KeepsStore s₀ (execGatherTimeout ctx firing node s) := by
  unfold execGatherTimeout
  repeat' split
  all_goals simp [h]

@[simp] theorem Env.scopeTrip_keepsStore {s₀ : State} (e : Env) (i) (s : State) (what r) (h : s.SameStore s₀) :
    Act.KeepsStore s₀ (e.scopeTrip i s what r) := by simp [Env.scopeTrip, h]

@[simp] theorem execFsopen_keepsStore {s₀ : State} (o) (s : State) (h : s.SameStore s₀) :
    KeepsStore s₀ (execFsopen o s) := by
  refine runRaw_keepsStore _ s _ h fun e => ?_
  dsimp only
  split
  · trivial
  · split
    · next t ha =>
      have ht : t.SameStore _ := State.allocScope_sameStore _ _ _ _ ha
      simp [ht]
    · simp

@[simp] theorem State.discardRecords_sameStore (s : State) (ctx h) : (s.discardRecords ctx h).2.SameStore s :=
  ⟨rfl, rfl, rfl⟩

@[simp] theorem State.closeScope_sameStore (s : State) (ctx h cancel detach) :
    (s.closeScope ctx h cancel detach).SameStore s := by
  unfold State.closeScope
  split <;> simp

@[simp] theorem execFsclose_keepsStore {s₀ : State} (o) (s : State) (h : s.SameStore s₀) :
    KeepsStore s₀ (execFsclose o s) := by
  refine runRaw_keepsStore _ s _ h fun e => ?_
  dsimp only
  repeat' split
  all_goals simp

@[simp] theorem execFsjoin_keepsStore {s₀ : State} (o) (s : State) (h : s.SameStore s₀) :
    KeepsStore s₀ (execFsjoin o s) := by simp [execFsjoin, h]

@[simp] theorem execFsstat_keepsStore {s₀ : State} (o) (s : State) (h : s.SameStore s₀) :
    KeepsStore s₀ (execFsstat o s) := by
  refine runRaw_keepsStore _ s _ h fun e => ?_
  dsimp only
  repeat' split
  all_goals simp

@[simp] theorem execFswait_keepsStore {s₀ : State} (o) (s : State) (h : s.SameStore s₀) :
    KeepsStore s₀ (execFswait o s) := by
  refine runRaw_keepsStore _ s _ h fun e => ?_
  dsimp only
  repeat' split
  all_goals simp

@[simp] theorem execScopeReply_keepsStore {s₀ : State} (k) (s : State) (h : s.SameStore s₀) :
    KeepsStore s₀ (execScopeReply k s) := by
  unfold execScopeReply
  repeat' split
  all_goals simp [h]

@[simp] theorem State.parkSignal_sameStore (s : State) (k w i va r kind) :
    (s.parkSignal k w i va r kind).SameStore s := by simp [State.parkSignal]

/-- However the page of a signal word is found, the store is that of `s`. -/
def SigPage.KeepsStore (s : State) : SigPage → Prop
  | .ready t => t.SameStore s
  | .park t => t.SameStore s
  | .trap t _ _ => t.SameStore s

theorem State.signalPage_keepsStore (s : State) (k : WKey) (w : Warp) (i : Instr) (va : Word) (r : Range)
    (kind : OpKind) : (s.signalPage k w i va r kind).KeepsStore s := by
  unfold State.signalPage
  dsimp only
  split <;> (rename_i hp; obtain rfl := eq_snd_of_eq hp)
  · split
    · simp [SigPage.KeepsStore]
    · split <;> (rename_i hp; obtain rfl := eq_snd_of_eq hp)
      · split <;> simp [SigPage.KeepsStore]
      · simp [SigPage.KeepsStore]
  · split <;> simp [SigPage.KeepsStore]
  · simp [SigPage.KeepsStore]
  · simp [SigPage.KeepsStore]

@[simp] theorem Env.signal_keepsStore {s₀ : State} (e : Env) (i : Instr) (a : Operand) (kind : OpKind)
    (f : Env → Word → Range → Act) (count : Word) (h : e.s.SameStore s₀)
    (hf : ∀ t va r, (f { e with s := t } va r).KeepsStore t) : (e.signal i a kind f count).KeepsStore s₀ := by
  unfold Env.signal
  dsimp only
  split
  · trivial
  split
  · trivial
  next r _ =>
  split
  · trivial
  split
  · trivial
  split
  · trivial
  split
  · exact h
  split
  · exact Act.KeepsStore.trans (hf e.s _ _) h
  split
  · refine State.sameStore_trans (State.beginWait_sameStore _ _ _) (State.sameStore_trans
      (State.foldl_sameStore _ _ _ fun t x => ?_) h)
    split <;> simp
  split
  · exact h
  have hp := e.s.signalPage_keepsStore e.k e.w i (e.scalar a) r kind
  split <;> rename_i hs <;> rw [hs] at hp
  · exact Act.KeepsStore.trans (hf _ _ _) (State.sameStore_trans hp h)
  · exact State.sameStore_trans hp h
  · exact State.sameStore_trans hp h

@[simp] theorem Env.signalAdd_sameStore (e : Env) (va r x) : (e.signalAdd va r x).SameStore e.s := by
  unfold Env.signalAdd
  split <;> simp <;> split <;> simp

@[simp] theorem Env.signalUpdate_keepsStore {s₀ : State} (e : Env) (i o x count) (h : e.s.SameStore s₀) :
    Act.KeepsStore s₀ (e.signalUpdate i o x count) := by simp [Env.signalUpdate, h]

@[simp] theorem execSigdec_keepsStore {s₀ : State} (o) (s : State) (h : s.SameStore s₀) :
    KeepsStore s₀ (execSigdec o s) := by simp [execSigdec, h]

@[simp] theorem execSigadd_keepsStore {s₀ : State} (o) (s : State) (h : s.SameStore s₀) :
    KeepsStore s₀ (execSigadd o s) := by simp [execSigadd, h]

@[simp] theorem State.signalReply_keepsStore {s₀ : State} (k) (s : State) (h : s.SameStore s₀) :
    KeepsStore s₀ (State.signalReply k s) := by
  unfold State.signalReply
  split <;> simp [h]

@[simp] theorem State.signalValue_sameStore (s : State) (r va p) : (s.signalValue r va p).2.SameStore s := by
  unfold State.signalValue
  split <;> simp <;> split <;> simp

@[simp] theorem Env.sigDone_sameStore (e : Env) (s : State) (o at_ v) : (e.sigDone s o at_ v).SameStore s := by
  unfold Env.sigDone
  split <;> simp

@[simp] theorem execSigwait_keepsStore {s₀ : State} (o) (s : State) (h : s.SameStore s₀) :
    KeepsStore s₀ (execSigwait o s) := by simp [execSigwait, h]

@[simp] theorem Env.reread_sameStore (e : Env) (o) : (e.reread o).SameStore e.s := by
  unfold Env.reread
  dsimp only
  split
  · simp
  · next r _ =>
    split
    · split <;> simp
    · have hp := e.s.signalPage_keepsStore e.k e.w (.sigwait o) (e.scalar o.a) r .load
      split <;> rename_i hs <;> rw [hs] at hp
      · split <;> simpa using (show State.SameStore _ _ from hp)
      · exact hp
      · simpa using (show State.SameStore _ _ from hp)

@[simp] theorem execSigwaitReread_keepsStore {s₀ : State} (k) (s : State) (h : s.SameStore s₀) :
    KeepsStore s₀ (execSigwaitReread k s) := by
  unfold execSigwaitReread
  repeat' split
  all_goals simp [h]

@[simp] theorem execBarrierWake_keepsStore {s₀ : State} (k) (s : State) (h : s.SameStore s₀) :
    KeepsStore s₀ (execBarrierWake k s) := by
  unfold execBarrierWake
  repeat' split
  all_goals simp [h]

@[simp] theorem execSleepExpiry_keepsStore {s₀ : State} (k) (s : State) (h : s.SameStore s₀) :
    KeepsStore s₀ (execSleepExpiry k s) := by
  unfold execSleepExpiry
  split <;> simp [h]

@[simp] theorem execRegReload_keepsStore {s₀ : State} (k v) (s : State) (h : s.SameStore s₀) :
    KeepsStore s₀ (execRegReload k v s) := by
  unfold execRegReload
  split
  · split
    · dsimp only
      split
      · trivial
      · split
        · simp [h]
        · split
          · trivial
          · next hr => simpa [h] using State.takeRow_sameStore s _ _ _ hr
    · trivial
  · trivial

/-! ## System instructions -/

@[simp] theorem Env.stopHere_keepsStore {s₀ : State} (e : Env) (code aux) (h : e.s.SameStore s₀) :
    Act.KeepsStore s₀ (e.stopHere code aux) := by simp [Env.stopHere, h]

@[simp] theorem execTrap_keepsStore {s₀ : State} (o) (s : State) (h : s.SameStore s₀) :
    KeepsStore s₀ (execTrap o s) := by simp [execTrap, h]

@[simp] theorem execBkpt_keepsStore {s₀ : State} (o) (s : State) (h : s.SameStore s₀) :
    KeepsStore s₀ (execBkpt o s) := by simp [execBkpt, h]

@[simp] theorem execDbgh_keepsStore {s₀ : State} (o) (s : State) (h : s.SameStore s₀) :
    KeepsStore s₀ (execDbgh o s) := by simp [execDbgh, h]

@[simp] theorem execSysr_keepsStore {s₀ : State} (o) (s : State) (h : s.SameStore s₀) :
    KeepsStore s₀ (execSysr o s) := by simp [execSysr, h]

@[simp] theorem execSysw_keepsStore {s₀ : State} (o) (s : State) (h : s.SameStore s₀) :
    KeepsStore s₀ (execSysw o s) := by simp [execSysw, h]

@[simp] theorem State.dropCode_sameStore (s : State) (ia n) : (s.dropCode ia n).SameStore s := ⟨rfl, rfl, rfl⟩

@[simp] theorem execIcinv_keepsStore {s₀ : State} (o) (s : State) (h : s.SameStore s₀) :
    KeepsStore s₀ (execIcinv o s) := by
  refine runRaw_keepsStore _ s _ h fun e => ?_
  dsimp only
  split
  · simp
  · refine e.afterRelease_keepsStore _ _ ⟨rfl, rfl, rfl⟩ fun t => ?_
    split <;> simp

@[simp] theorem execIcinvAcknowledge_keepsStore {s₀ : State} (k) (s : State) (h : s.SameStore s₀) :
    KeepsStore s₀ (execIcinvAcknowledge k s) := by
  unfold execIcinvAcknowledge
  repeat' split
  all_goals simp [h]

@[simp] theorem execPwrq_keepsStore {s₀ : State} (o) (s : State) (h : s.SameStore s₀) :
    KeepsStore s₀ (execPwrq o s) := by simp [execPwrq, h]

@[simp] theorem execEvt_keepsStore {s₀ : State} (o) (s : State) (h : s.SameStore s₀) : KeepsStore s₀ (execEvt o s) := by
  simp [execEvt, h]

@[simp] theorem execEvtp_keepsStore {s₀ : State} (o) (s : State) (h : s.SameStore s₀) :
    KeepsStore s₀ (execEvtp o s) := by simp [execEvtp, h]

@[simp] theorem execClkr_keepsStore {s₀ : State} (o) (s : State) (h : s.SameStore s₀) :
    KeepsStore s₀ (execClkr o s) := by simp [execClkr, h]

@[simp] theorem execCauser_keepsStore {s₀ : State} (o) (s : State) (h : s.SameStore s₀) :
    KeepsStore s₀ (execCauser o s) := by simp [execCauser, h]

end Sys2Proof.Machine
end

section
/-!
SUPPORT. The store under frames, halts and admission.
-/
namespace Sys2Proof.Machine

/-! ## Frames -/

@[simp] theorem State.writeBlock_sameStore (s : State) (t w) : (s.writeBlock t w).SameStore s := by
  simp [State.writeBlock]

@[simp] theorem State.writeSpBlock_sameStore (s : State) (t b) : (s.writeSpBlock t b).SameStore s := by
  simp [State.writeSpBlock]

@[simp] theorem State.writeTile_sameStore (s : State) (t half num) : (s.writeTile t half num).SameStore s := by
  simp [State.writeTile]

@[simp] theorem State.writeFrame_sameStore (s : State) (t saved halted) : (s.writeFrame t saved halted).SameStore s := by
  simp [State.writeFrame]

@[simp] theorem State.readBlock_sameStore (s : State) (t w) : (s.readBlock t w).2.2.SameStore s := by
  simp [State.readBlock]

@[simp] theorem State.readSpBlock_sameStore (s : State) (t b) : (s.readSpBlock t b).2.SameStore s := by
  simp [State.readSpBlock]

@[simp] theorem State.readTile_sameStore (s : State) (t half num) : (s.readTile t half num).2.SameStore s := by
  have hs := s.l2GetMarked_sameStore (t.tileAt + (half * t.kernel.tiles + num) * 36864) 36864
  rw [State.readTile]
  split
  next hp =>
    rw [hp] at hs
    split <;> exact hs

@[simp] theorem State.readFrame_sameStore (s : State) (t) : (s.readFrame t).2.2.SameStore s := by
  unfold State.readFrame
  dsimp only
  have hw := fun (t : Team) (u : State) => State.foldl_sameStore_of (fun x : List Warp × Bool × State => x.2.2)
    (fun acc w => (acc.1 ++ [(State.readBlock acc.2.2 t w).1], acc.2.1 || (State.readBlock acc.2.2 t w).2.1,
      (State.readBlock acc.2.2 t w).2.2)) t.warps ([], false, u) fun b a => by simp
  refine State.sameStore_trans (State.foldl_snd_sameStore _ _ _ fun x h => ?_) (State.sameStore_trans
    (State.foldl_snd_sameStore _ _ _ fun x b => by simp) (State.sameStore_trans (hw _ _) (by simp)))
  exact State.foldl_snd_sameStore _ _ _ fun x n => by simp

/-! ## Fetch -/

@[simp] theorem State.cacheWord_sameStore (s : State) (core ia w) : (s.cacheWord core ia w).SameStore s :=
  ⟨rfl, rfl, rfl⟩

@[simp] theorem State.keepWord_sameStore (s : State) (k w ia x) : (s.keepWord k w ia x).SameStore s := by
  unfold State.keepWord
  split <;> simp

@[simp] theorem execSequentialFetchPastCode_keepsStore {s₀ : State} (s : State) (h : s.SameStore s₀) :
    KeepsStore s₀ (execSequentialFetchPastCode s) := by
  unfold execSequentialFetchPastCode
  repeat' split
  all_goals simp [h]

@[simp] theorem trapDecode_keepsStore {s₀ : State} (code) (s : State) (h : s.SameStore s₀) :
    KeepsStore s₀ (trapDecode code s) := by
  unfold trapDecode
  repeat' split
  all_goals simp [h]

@[simp] theorem execIllegalOpcode_keepsStore {s₀ : State} (w) (s : State) (h : s.SameStore s₀) :
    KeepsStore s₀ (execIllegalOpcode w s) := by simp [execIllegalOpcode, h]

@[simp] theorem illegalOperand_keepsStore {s₀ : State} (w) (s : State) (h : s.SameStore s₀) :
    KeepsStore s₀ (illegalOperand w s) := by simp [illegalOperand, h]

/-! ## Halts and quarantine -/

theorem State.readBurst_sameStore (t) (core) (c) (n : Nat) (s : State) (o) (bs) {x}
    (h : State.readBurst t core c n s o bs = some x) : x.2.SameStore s := by
  induction n generalizing s o bs with
  | zero => cases h; exact ⟨rfl, rfl, rfl⟩
  | succ n ih =>
    unfold State.readBurst at h
    split at h
    · next hp =>
      obtain rfl := eq_snd_of_eq hp
      split at h
      · cases h
      · simpa using ih _ _ _ h
    · cases h

@[simp] theorem State.readAhead_sameStore (t) (core) (n : Nat) (s : State) (c) :
    (State.readAhead t core n s c).2.SameStore s := by
  induction n generalizing s c with
  | zero => exact ⟨rfl, rfl, rfl⟩
  | succ n ih =>
    unfold State.readAhead
    dsimp only
    split
    · simp
    · split
      · next hb => simpa [ih] using State.readBurst_sameStore _ _ _ _ _ _ _ hb
      · simp

@[simp] theorem State.stopCopy_sameStore (s : State) (t core ch c) : (s.stopCopy t core ch c).SameStore s := by
  simp [State.stopCopy]

@[simp] theorem State.stopCopies_sameStore (s : State) (t p) : (s.stopCopies t p).SameStore s :=
  State.foldl_sameStore _ _ s fun t core => State.foldl_sameStore _ _ t fun u ch =>
  State.foldl_sameStore _ _ u fun v c => by simp

@[simp] theorem State.returnCopies_sameStore (s : State) (t) : (s.returnCopies t).SameStore s :=
  State.foldl_sameStore _ _ _ fun t c => by simp

@[simp] theorem State.failStopped_sameStore (s : State) (c off code) : (s.failStopped c off code).SameStore s := by
  simp [State.failStopped]

@[simp] theorem State.drainPart_sameStore (s : State) (c q x) : (s.drainPart c q x).2.SameStore s := by
  simp [State.drainPart]

@[simp] theorem State.drainEntry_sameStore (s : State) (t q) : (s.drainEntry t q).SameStore s := by
  unfold State.drainEntry
  split
  · simp
  · split
    · simp
    · refine State.foldl_sameStore _ _ s fun t x => ?_
      split
      · simp
      · split <;> (rename_i hp; obtain rfl := eq_snd_of_eq hp; simp)

@[simp] theorem State.drainQuarantine_sameStore (s : State) (k) : (s.drainQuarantine k).SameStore s := by
  refine State.foldl_sameStore _ _ s fun t q => ?_
  split <;> simp

@[simp] theorem execQuarantineWrite_keepsStore {s₀ : State} (k) (s : State) (h : s.SameStore s₀) :
    KeepsStore s₀ (execQuarantineWrite k s) := by
  unfold execQuarantineWrite
  split <;> simp [h]

@[simp] theorem execSiblingHalt_keepsStore {s₀ : State} (k) (s : State) (h : s.SameStore s₀) :
    KeepsStore s₀ (execSiblingHalt k s) := by
  unfold execSiblingHalt
  split <;> simp [h]

@[simp] theorem State.orphanOps_sameStore (s : State) (k flush) : (s.orphanOps k flush).SameStore s := by
  simp [State.orphanOps]

@[simp] theorem State.endWaits_sameStore (s : State) (t) : (s.endWaits t).SameStore s := by simp [State.endWaits]

@[simp] theorem State.discardTeam_sameStore (s : State) (k) : (s.discardTeam k).SameStore s := by
  simp only [State.discardTeam]
  repeat' split
  all_goals simp

@[simp] theorem execTeamHaltComplete_keepsStore {s₀ : State} (k) (s : State) (h : s.SameStore s₀) :
    KeepsStore s₀ (execTeamHaltComplete k s) := by
  unfold execTeamHaltComplete
  split <;> simp [h]

@[simp] theorem State.resumeTeam_sameStore (s : State) (k) : (s.resumeTeam k).SameStore s := by
  unfold State.resumeTeam
  split <;> simp

@[simp] theorem State.lateOn_sameStore (s : State) (t f) : (s.lateOn t f).SameStore s := by
  unfold State.lateOn
  repeat' split
  all_goals simp

@[simp] theorem execLateFault_keepsStore {s₀ : State} (id) (s : State) (h : s.SameStore s₀) :
    KeepsStore s₀ (execLateFault id s) := by
  simp only [execLateFault]
  repeat' split
  all_goals simp [h]

@[simp] theorem execFaultRecordDrain_keepsStore {s₀ : State} (ctx) (s : State) (h : s.SameStore s₀) :
    KeepsStore s₀ (execFaultRecordDrain ctx s) := by
  simp only [execFaultRecordDrain]
  repeat' split
  all_goals simp [h]

@[simp] theorem execFqctlWrite_keepsStore {s₀ : State} (ctx v) (s : State) (h : s.SameStore s₀) :
    KeepsStore s₀ (execFqctlWrite ctx v s) := by simp [execFqctlWrite, h]

@[simp] theorem execFqreadWrite_keepsStore {s₀ : State} (ctx v) (s : State) (h : s.SameStore s₀) :
    KeepsStore s₀ (execFqreadWrite ctx v s) := by simp [execFqreadWrite, h]

@[simp] theorem State.dbgDone_sameStore (s : State) (ctx stat frame) : (s.dbgDone ctx stat frame).SameStore s :=
  ⟨rfl, rfl, rfl⟩

theorem State.debug_sameStore (s : State) (k : TKey) (f : Team → Option State)
    (h : ∀ t u, f t = some u → u.SameStore s) : (s.debug k f).SameStore s := by
  unfold State.debug
  split
  · simp
  · split
    · simp
    · split
      · next hf => simpa using h _ _ hf
      · simp

@[simp] theorem dbgHalt_keepsStore {s₀ : State} (k) (s : State) (h : s.SameStore s₀) : KeepsStore s₀ (dbgHalt k s) := by
  unfold dbgHalt
  split
  · simpa using State.sameStore_trans (s.debug_sameStore k _ fun t u hu => by cases hu; simp) h
  · split
    · trivial
    · refine State.sameStore_trans (s.debug_sameStore k _ fun t u hu => ?_) h
      split at hu
      · obtain rfl := Option.some.inj hu
        simp
      · cases hu

@[simp] theorem execDbgHalt_keepsStore {s₀ : State} (k) (s : State) (h : s.SameStore s₀) :
    KeepsStore s₀ (execDbgHalt k s) := by simp [execDbgHalt, h]

@[simp] theorem dbgResume_keepsStore {s₀ : State} (k) (s : State) (h : s.SameStore s₀) :
    KeepsStore s₀ (dbgResume k s) := by
  refine State.sameStore_trans (s.debug_sameStore k _ fun t u hu => ?_) h
  split at hu
  · obtain rfl := Option.some.inj hu
    simp
  · cases hu

@[simp] theorem execDbgResume_keepsStore {s₀ : State} (k) (s : State) (h : s.SameStore s₀) :
    KeepsStore s₀ (execDbgResume k s) := by simp [execDbgResume, h]

@[simp] theorem dbgStep_keepsStore {s₀ : State} (k w) (s : State) (h : s.SameStore s₀) :
    KeepsStore s₀ (dbgStep k w s) := by
  refine State.sameStore_trans (s.debug_sameStore k _ fun t u hu => ?_) h
  split at hu
  · obtain rfl := Option.some.inj hu
    simp
  · cases hu

@[simp] theorem execDbgStep_keepsStore {s₀ : State} (k w) (s : State) (h : s.SameStore s₀) :
    KeepsStore s₀ (execDbgStep k w s) := by simp [execDbgStep, h]

@[simp] theorem dbgSnap_keepsStore {s₀ : State} (k) (s : State) (h : s.SameStore s₀) : KeepsStore s₀ (dbgSnap k s) := by
  refine State.sameStore_trans (s.debug_sameStore k _ fun t u hu => ?_) h
  split at hu
  · obtain rfl := Option.some.inj hu
    simp
  · cases hu

@[simp] theorem execDbgSnap_keepsStore {s₀ : State} (k) (s : State) (h : s.SameStore s₀) :
    KeepsStore s₀ (execDbgSnap k s) := by simp [execDbgSnap, h]

@[simp] theorem dbgLoad_keepsStore {s₀ : State} (k) (s : State) (h : s.SameStore s₀) : KeepsStore s₀ (dbgLoad k s) := by
  refine State.sameStore_trans (s.debug_sameStore k _ fun t u hu => ?_) h
  dsimp only at hu
  split at hu
  · cases hu
  · split at hu
    · cases hu
    · obtain rfl := Option.some.inj hu
      simp

@[simp] theorem execDbgLoad_keepsStore {s₀ : State} (k) (s : State) (h : s.SameStore s₀) :
    KeepsStore s₀ (execDbgLoad k s) := by simp [execDbgLoad, h]

@[simp] theorem dbgDiscard_keepsStore {s₀ : State} (k) (s : State) (h : s.SameStore s₀) :
    KeepsStore s₀ (dbgDiscard k s) := by
  refine State.sameStore_trans (s.debug_sameStore k _ fun t u hu => ?_) h
  split at hu
  · obtain rfl := Option.some.inj hu
    simp
  · cases hu

@[simp] theorem execDbgDiscard_keepsStore {s₀ : State} (k) (s : State) (h : s.SameStore s₀) :
    KeepsStore s₀ (execDbgDiscard k s) := by simp [execDbgDiscard, h]

@[simp] theorem dbgcmdUndefinedOp_keepsStore {s₀ : State} (ctx v) (s : State) (h : s.SameStore s₀) :
    KeepsStore s₀ (dbgcmdUndefinedOp ctx v s) := by simp [dbgcmdUndefinedOp, h]

@[simp] theorem execDbgcmdUndefinedOp_keepsStore {s₀ : State} (ctx v) (s : State) (h : s.SameStore s₀) :
    KeepsStore s₀ (execDbgcmdUndefinedOp ctx v s) := by simp [execDbgcmdUndefinedOp, h]

@[simp] theorem execDbgctlWrite_keepsStore {s₀ : State} (ctx attach) (s : State) (h : s.SameStore s₀) :
    KeepsStore s₀ (execDbgctlWrite ctx attach s) := by simp [execDbgctlWrite, h]

/-! ## Admission -/

@[simp] theorem State.grantEntry_sameStore (s : State) (hub) : (s.grantEntry hub).SameStore s := by
  unfold State.grantEntry
  simp
  split <;> simp

@[simp] theorem State.modLaunch_sameStore (s : State) (id f) : (s.modLaunch id f).SameStore s := ⟨rfl, rfl, rfl⟩

@[simp] theorem State.endLaunchWait_sameStore (s : State) (l) : (s.endLaunchWait l).SameStore s := by
  unfold State.endLaunchWait
  split <;> simp

theorem State.launchWaits_sameStore (s : State) (l e) {s' : State} (h : s.launchWaits l e = some s') :
    s'.SameStore s := by
  unfold State.launchWaits at h
  dsimp only at h
  split at h
  · exact State.sameStore_of_map (fun i => by simp) h
  · split at h
    · split at h
      · cases h
      · obtain rfl := Option.some.inj h
        simp
    · exact State.sameStore_of_map (fun i => by simp) h

@[simp] theorem State.leaseNotice_sameStore (s : State) (l r) : (s.leaseNotice l r).SameStore s := by
  simp [State.leaseNotice]

@[simp] theorem State.nextSerial_sameStore (s : State) (ctx hub) : (s.nextSerial ctx hub).2.SameStore s :=
  ⟨rfl, rfl, rfl⟩

@[simp] theorem State.newWarps_sameStore (s : State) (ctx hub k c args wave) :
    (s.newWarps ctx hub k c args wave).2.SameStore s := by simp [State.newWarps]

@[simp] theorem State.takeLeases_sameStore (s : State) (l leases) : (s.takeLeases l leases).SameStore s := by
  unfold State.takeLeases
  split <;> simp

@[simp] theorem State.placeTeam_sameStore (s : State) (l c frame relay) : (s.placeTeam l c frame relay).SameStore s := by
  unfold State.placeTeam
  repeat' split
  all_goals simp

@[simp] theorem State.nextOfPacket_sameStore (s : State) (p) : (s.nextOfPacket p).SameStore s := by
  unfold State.nextOfPacket
  split <;> simp

@[simp] theorem State.countTeam_sameStore (s : State) (p) : (s.countTeam p).SameStore s := by
  unfold State.countTeam
  split <;> simp

@[simp] theorem State.launchStarted_sameStore (s : State) (l) : (s.launchStarted l).SameStore s := by
  simp only [State.launchStarted]
  repeat' split
  all_goals simp

@[simp] theorem State.flushTeam_sameStore (s : State) (t) : (s.flushTeam t).SameStore s := by simp [State.flushTeam]

@[simp] theorem State.beginSave_sameStore (s : State) (t forced) : (s.beginSave t forced).SameStore s :=
  ⟨rfl, rfl, rfl⟩

@[simp] theorem State.preempt_sameStore (s : State) (t forced) : (s.preempt t forced).SameStore s := by
  unfold State.preempt
  split <;> simp

@[simp] theorem execDrainExpiry_keepsStore {s₀ : State} (k) (s : State) (h : s.SameStore s₀) :
    KeepsStore s₀ (execDrainExpiry k s) := by
  unfold execDrainExpiry
  split <;> simp [h]

theorem State.makeWay_sameStore (s : State) (l) {s' : State} (h : s.makeWay l = some s') : s'.SameStore s := by
  unfold State.makeWay at h
  split at h
  · cases h
  · dsimp only at h
    split at h
    · cases h
    · obtain rfl := Option.some.inj h
      simp

@[simp] theorem State.admitLater_keepsStore {s₀ : State} (s : State) (l e way) (h : s.SameStore s₀) :
    KeepsStore s₀ (s.admitLater l e way) := by
  unfold State.admitLater
  split
  · next hl => simpa [h] using State.launchWaits_sameStore _ _ _ hl
  · next hw =>
    split at hw
    · simpa [h] using State.makeWay_sameStore _ _ hw
    · cases hw
  · trivial

@[simp] theorem execTeamAdmit_keepsStore {s₀ : State} (id) (s : State) (h : s.SameStore s₀) :
    KeepsStore s₀ (execTeamAdmit id s) := by
  simp only [execTeamAdmit]
  repeat' split
  all_goals simp [h]

@[simp] theorem execTeamStart_keepsStore {s₀ : State} (k) (s : State) (h : s.SameStore s₀) :
    KeepsStore s₀ (execTeamStart k s) := by
  unfold execTeamStart
  split <;> simp [h]

@[simp] theorem State.withdrawSave_sameStore (s : State) (t) : (s.withdrawSave t).SameStore s := by
  simp [State.withdrawSave]

@[simp] theorem State.finishSave_sameStore (s : State) (t) : (s.finishSave t).SameStore s := by
  simp [State.finishSave]

@[simp] theorem execTeamSave_keepsStore {s₀ : State} (k) (s : State) (h : s.SameStore s₀) :
    KeepsStore s₀ (execTeamSave k s) := by
  unfold execTeamSave
  split <;> simp [h]

@[simp] theorem State.restoreTeam_sameStore (s : State) (t c) : (s.restoreTeam t c).SameStore s := by
  simp [State.restoreTeam]

@[simp] theorem execTeamRestore_keepsStore {s₀ : State} (k) (s : State) (h : s.SameStore s₀) :
    KeepsStore s₀ (execTeamRestore k s) := by
  simp only [execTeamRestore]
  repeat' split
  all_goals simp [h]

@[simp] theorem execPoolCompactorMove_keepsStore {s₀ : State} (k) (s : State) (h : s.SameStore s₀) :
    KeepsStore s₀ (execPoolCompactorMove k s) := by
  unfold execPoolCompactorMove
  split <;> simp [h]

@[simp] theorem State.emitBank_sameStore (s : State) (core bank step) : (s.emitBank core bank step).SameStore s := by
  simp [State.emitBank]

@[simp] theorem State.removeGroup_sameStore (s : State) (core bank) : (s.removeGroup core bank).SameStore s := by
  simp [State.removeGroup]

@[simp] theorem State.saveAllOn_sameStore (s : State) (core) : (s.saveAllOn core).SameStore s := by
  simp [State.saveAllOn]

@[simp] theorem execBankRetire_keepsStore {s₀ : State} (core bank) (s : State) (h : s.SameStore s₀) :
    KeepsStore s₀ (execBankRetire core bank s) := by simp [execBankRetire, h]

end Sys2Proof.Machine
end

section
/-!
SUPPORT. The store under packets, casts and queues.
-/
namespace Sys2Proof.Machine

/-! ## The checks of packets -/

/-- Whatever a check answers, the store is that of the state it was made in. -/
def CheckKeepsStore {α : Type} (c : Check α) : Prop := ∀ s : State, (c.run.run s).2.SameStore s

namespace CheckKeepsStore
variable {α β : Type}

theorem pure (a : α) : CheckKeepsStore (Pure.pure a : Check α) := fun _ => ⟨rfl, rfl, rfl⟩
theorem throw (e : Nat) : CheckKeepsStore (MonadExcept.throw e : Check α) := fun _ => ⟨rfl, rfl, rfl⟩
theorem get : CheckKeepsStore (MonadState.get : Check State) := fun _ => ⟨rfl, rfl, rfl⟩

theorem bind {c : Check α} {f : α → Check β} (hc : CheckKeepsStore c) (hf : ∀ a, CheckKeepsStore (f a)) :
    CheckKeepsStore (c >>= f) := by
  intro s
  have hs := hc s
  change (ExceptT.bindCont f (c.run.run s).1 (c.run.run s).2).2.SameStore s
  generalize c.run.run s = x at hs ⊢
  obtain ⟨e | a, t⟩ := x
  · exact hs
  · exact State.sameStore_trans (hf a t) hs

theorem map {c : Check α} (f : α → β) (hc : CheckKeepsStore c) : CheckKeepsStore (f <$> c) :=
  bind hc fun a => pure (f a)

theorem ite {p : Prop} [Decidable p] {c d : Check α} (hc : CheckKeepsStore c) (hd : CheckKeepsStore d) :
    CheckKeepsStore (if p then c else d) := by
  split <;> assumption

theorem forIn {l : List α} {b : β} {f : α → β → Check (ForInStep β)} (hf : ∀ a b, CheckKeepsStore (f a b)) :
    CheckKeepsStore (ForIn.forIn l b f) := by
  induction l generalizing b with
  | nil => exact pure b
  | cons a l ih =>
    rw [List.forIn_cons]
    refine bind (hf a b) fun x => ?_
    cases x with
    | done b => exact pure b
    | yield b => exact ih

theorem mapM {l : List α} {f : α → Check β} (hf : ∀ a, CheckKeepsStore (f a)) : CheckKeepsStore (l.mapM f) := by
  induction l with
  | nil => exact pure []
  | cons a l ih =>
    rw [List.mapM_cons]
    exact bind (hf a) fun b => bind ih fun bs => pure (b :: bs)

end CheckKeepsStore

theorem need_keepsStore (ok : Bool) (status : Nat) : CheckKeepsStore (need ok status) := .ite (.pure ()) (.throw status)

@[simp] theorem State.hostBytes_sameStore (s : State) (a n) : (s.hostBytes a n).2.SameStore s := ⟨rfl, rfl, rfl⟩

theorem named_keepsStore (ctx : Nat) (va : Word) (n : Nat) (perm : Range → Bool) :
    CheckKeepsStore (named ctx va n perm) := by
  refine .bind .get fun s => ?_
  split
  · exact .throw _
  · exact .ite (.pure _) (.throw _)

theorem foundryRead_keepsStore (ctx : Nat) (va : Word) (n : Nat) : CheckKeepsStore (foundryRead ctx va n) := by
  refine .bind (named_keepsStore ctx va n _) fun r s => ?_
  change (ExceptT.run (m := StateM State) (if r.kind = 3 then _ else _) s).2.SameStore s
  split
  · exact State.hostBytes_sameStore s (r.target va) n
  · have hs := State.l2Read_sameStore s false (r.target va) n
    change (ExceptT.run (m := StateM State) (match (s.l2Read false (r.target va) n).1 with
      | .bytes bs none => _ | _ => _) (s.l2Read false (r.target va) n).2).2.SameStore s
    split
    · exact State.sameStore_trans (State.foundrySaw_sameStore _ _ _ _ _ _) hs
    · exact hs

theorem checkSignal_keepsStore (ctx : Nat) (va : Word) (perm : Range → Bool) :
    CheckKeepsStore (checkSignal ctx va perm) :=
  .bind (need_keepsStore _ _) fun _ => .bind (named_keepsStore _ _ _ _) fun _ => .pure ()

theorem checkKernel_keepsStore (ctx : Nat) (va : Word) (shape : Kernel → Bool) :
    CheckKeepsStore (checkKernel ctx va shape) :=
  .bind (foundryRead_keepsStore _ _ _) fun _ => .bind (need_keepsStore _ _) fun _ => .bind (need_keepsStore _ _)
    fun _ => .bind (need_keepsStore _ _) fun _ => .bind .get fun _ => .bind (need_keepsStore _ _) fun _ => .pure _

theorem checkGraph_keepsStore (ctx : Nat) (maquette rootList : Word) (count : Nat) :
    CheckKeepsStore (checkGraph ctx maquette rootList count) := by
  refine .bind (foundryRead_keepsStore _ _ _) fun m => .bind (need_keepsStore _ _) fun _ =>
    .bind (named_keepsStore _ _ _ _) fun _ => ?_
  extract_lets afterEdges
  have hafter : ∀ u, CheckKeepsStore (afterEdges u) := by
    intro u
    refine .bind (foundryRead_keepsStore _ _ _) fun nb => ?_
    extract_lets entries afterBytes
    refine .bind (need_keepsStore _ _) fun _ =>
      .bind (.forIn fun _ _ => .bind (named_keepsStore _ _ _ _) fun _ => .pure _) fun _ => ?_
    have hbytes : ∀ eb, CheckKeepsStore (afterBytes eb) := fun eb =>
      .bind (need_keepsStore _ _) fun _ => .bind (.forIn fun _ _ => .bind (named_keepsStore _ _ _ _) fun _ => .pure _)
        fun _ => .bind (foundryRead_keepsStore _ _ _) fun _ => .bind (need_keepsStore _ _) fun _ =>
        .bind (.mapM fun _ => .bind (checkKernel_keepsStore _ _ _) fun _ => .pure _) fun _ =>
        .bind (need_keepsStore _ _) fun _ => .pure _
    exact .ite (.bind (.pure _) hbytes) (.bind (foundryRead_keepsStore _ _ _) hbytes)
  exact .ite (.bind (named_keepsStore _ _ _ _) fun _ => hafter ()) (hafter ())

theorem checkCollective_keepsStore (ctx : Nat) (va : Word) : CheckKeepsStore (checkCollective ctx va) := by
  refine .bind (foundryRead_keepsStore _ _ _) fun bs => .bind (need_keepsStore _ _) fun _ =>
    .bind (foundryRead_keepsStore _ _ _) fun pb => .bind (need_keepsStore _ _) fun _ =>
    .bind (checkKernel_keepsStore _ _ _) fun prog => ?_
  extract_lets tag wdt afterIsr
  have hafter : ∀ k, CheckKeepsStore (afterIsr k) := fun k =>
    .bind .get fun _ => .bind (need_keepsStore _ _) fun _ => .bind (need_keepsStore _ _) fun _ =>
      .bind (need_keepsStore _ _) fun _ => .bind (need_keepsStore _ _) fun _ => .pure _
  exact .ite (.bind (.pure _) hafter) (.bind (.map _ (checkKernel_keepsStore _ _ _)) hafter)

theorem checkCast_keepsStore (ctx : Nat) (va : Word) : CheckKeepsStore (checkCast ctx va) := by
  refine .bind (foundryRead_keepsStore _ _ _) fun bs => .bind (need_keepsStore _ _) fun _ =>
    .bind (foundryRead_keepsStore _ _ _) fun tb => .bind (need_keepsStore _ _) fun _ =>
    .bind (named_keepsStore _ _ _ _) fun _ => ?_
  extract_lets finish afterExp afterPos
  have hexp : ∀ u, CheckKeepsStore (afterExp u) := fun u =>
    .bind (.forIn fun x _ => .ite (.bind (named_keepsStore _ _ _ _) fun _ => .pure _) (.pure _)) fun _ =>
      .ite (.bind (.pure _) fun _ => .pure _) (.bind (.map _ (checkCollective_keepsStore _ _)) fun _ => .pure _)
  have hpos : ∀ u, CheckKeepsStore (afterPos u) := fun u =>
    .ite (.bind (named_keepsStore _ _ _ _) fun _ => hexp ()) (hexp ())
  exact .ite (.bind (named_keepsStore _ _ _ _) fun _ => hpos ()) (hpos ())

theorem checkNamed_keepsStore (ctx : Nat) (bs : List Byte) : CheckKeepsStore (checkNamed ctx bs) := by
  unfold checkNamed
  extract_lets signal afterSignal
  have hafter : ∀ u, CheckKeepsStore (afterSignal u) := by
    intro u
    simp only [afterSignal]
    split
    · exact .bind (named_keepsStore _ _ _ _) fun _ => .ite (.bind (named_keepsStore _ _ _ _) fun _ => .pure _) (.pure _)
    · exact .bind (named_keepsStore _ _ _ _) fun _ => .bind (named_keepsStore _ _ _ _) fun _ => .pure _
    · exact .bind (.forIn fun _ _ => .bind (checkSignal_keepsStore _ _ _) fun _ => .pure _) fun _ => .pure _
    · exact checkSignal_keepsStore _ _ _
    · exact .bind (named_keepsStore _ _ _ _) fun _ => .pure _
  exact .ite (.bind (checkSignal_keepsStore _ _ _) hafter) (hafter ())

theorem checkParent_keepsStore (ctx : Nat) (bs : List Byte) : CheckKeepsStore (checkParent ctx bs) :=
  .ite (.bind .get fun _ => need_keepsStore _ _) (.pure _)

theorem checkWords_keepsStore (ctx : Nat) (bs : List Byte) : CheckKeepsStore (checkWords ctx bs) :=
  .bind (need_keepsStore _ _) fun _ => .bind (need_keepsStore _ _) fun _ => .bind .get fun _ =>
    .bind (need_keepsStore _ _) fun _ => .bind (checkNamed_keepsStore ctx bs) fun _ => checkParent_keepsStore ctx bs

/-! ## Casts -/

@[simp] theorem State.castGet_sameStore (s : State) (ctx va n) : (s.castGet ctx va n).2.SameStore s := by
  unfold State.castGet
  split
  · simp
  · split
    · simp
    · split <;> (rename_i hp; obtain rfl := eq_snd_of_eq hp; simp)

@[simp] theorem State.castPut_sameStore (s : State) (ctx va bs) : (s.castPut ctx va bs).SameStore s := by
  unfold State.castPut
  split <;> simp

@[simp] theorem State.emitReduced_sameStore (s : State) (p c shard dev) : (s.emitReduced p c shard dev).SameStore s := by
  simp [State.emitReduced]

@[simp] theorem State.castRemote_sameStore (s : State) (p x r a n kind) : (s.castRemote p x r a n kind).SameStore s :=
  ⟨rfl, rfl, rfl⟩

@[simp] theorem State.saveUnit_sameStore (s : State) (p x) : (s.saveUnit p x).2.SameStore s := by
  simp only [State.saveUnit]
  split <;> simp

@[simp] theorem State.restoreUnit_sameStore (s : State) (p x) : (s.restoreUnit p x).2.SameStore s := by
  unfold State.restoreUnit
  split <;> simp

@[simp] theorem State.modCast_sameStore (s : State) (p c) : (s.modCast p c).SameStore s := ⟨rfl, rfl, rfl⟩

@[simp] theorem State.castCopy_sameStore (s : State) (p c) : (s.castCopy p c).SameStore s := by
  unfold State.castCopy
  split <;> simp

@[simp] theorem State.castPlace_sameStore (s : State) (p c) : (s.castPlace p c).SameStore s := by
  simp [State.castPlace]

@[simp] theorem State.parityDigest_sameStore (s : State) (p c) : (s.parityDigest p c).2.SameStore s := by
  unfold State.parityDigest
  split
  · simp
  · dsimp only
    split
    · split <;> (rename_i hp; obtain rfl := eq_snd_of_eq hp; simp)
    · simp

@[simp] theorem State.castManifest_sameStore (s : State) (p c) : (s.castManifest p c).SameStore s := by
  simp [State.castManifest]

@[simp] theorem State.castRefuse_sameStore (s : State) (p c) : (s.castRefuse p c).SameStore s := by
  simp [State.castRefuse]

@[simp] theorem State.castCheck_sameStore (s : State) (p c) : (s.castCheck p c).2.SameStore s := by
  simp [State.castCheck]

@[simp] theorem State.castFinish_sameStore (s : State) (p c) : (s.castFinish p c).SameStore s := by
  simp [State.castFinish]

/-! ## Queues -/

@[simp] theorem State.ringSlot_sameStore (s : State) (q) : (s.ringSlot q).2.SameStore s := by
  unfold State.ringSlot
  split
  · simp
  · split <;> (rename_i hp; obtain rfl := eq_snd_of_eq hp; simp)

@[simp] theorem State.notice_sameStore (s : State) (k v) : (s.notice k v).SameStore s := by
  unfold State.notice
  split <;> simp

@[simp] theorem execQnotify_keepsStore {s₀ : State} (q v) (s : State) (h : s.SameStore s₀) :
    KeepsStore s₀ (execQnotify q v s) := by simp [execQnotify, h]

@[simp] theorem execNotifyWordRead_keepsStore {s₀ : State} (k) (s : State) (h : s.SameStore s₀) :
    KeepsStore s₀ (execNotifyWordRead k s) := by
  unfold execNotifyWordRead
  dsimp only
  split
  · trivial
  · split
    · next hp =>
      obtain rfl := eq_snd_of_eq hp
      split
      · trivial
      · simp [h]
    · trivial

@[simp] theorem execQctlWrite_keepsStore {s₀ : State} (k v) (s : State) (h : s.SameStore s₀) :
    KeepsStore s₀ (execQctlWrite k v s) := by simp [execQctlWrite, h]

@[simp] theorem execQstatErrClear_keepsStore {s₀ : State} (k) (s : State) (h : s.SameStore s₀) :
    KeepsStore s₀ (execQstatErrClear k s) := by simp [execQstatErrClear, h]

@[simp] theorem State.turned_sameStore (s : State) (k) : (s.turned k).SameStore s := ⟨rfl, rfl, rfl⟩
@[simp] theorem State.served_sameStore (s : State) (k) : (s.served k).SameStore s := by simp [State.served]

@[simp] theorem State.rejectPacket_sameStore (s : State) (k status parent) :
    (s.rejectPacket k status parent).SameStore s := by simp [State.rejectPacket]

@[simp] theorem State.endHeld_sameStore (s : State) (k parent) : (s.endHeld k parent).SameStore s := by
  unfold State.endHeld
  split <;> simp

@[simp] theorem State.beginHeld_sameStore (s : State) (k obj parent) : (s.beginHeld k obj parent).SameStore s := by
  simp [State.beginHeld]

theorem checkPacket_keepsStore (ctx : Nat) (bs : List Byte) : CheckKeepsStore (checkPacket ctx bs) := by
  refine .bind (checkWords_keepsStore ctx bs) fun _ => ?_
  split
  · exact .bind (checkKernel_keepsStore _ _ _) fun _ => .ite (.bind (.pure _) fun _ => .pure _)
      (.bind (.map _ (checkCollective_keepsStore _ _)) fun _ => .pure _)
  · exact .map _ (checkGraph_keepsStore _ _ _ _)
  · exact .map _ (checkCast_keepsStore _ _)
  · exact .pure _

@[simp] theorem State.attachColl_sameStore (s : State) (p c) : (s.attachColl p c).SameStore s := by
  unfold State.attachColl
  split <;> simp

@[simp] theorem State.openFiring_sameStore (s : State) (p g) : (s.openFiring p g).2.SameStore s := ⟨rfl, rfl, rfl⟩

@[simp] theorem State.openPacketScope_sameStore (s : State) (p parent) : (s.openPacketScope p parent).2.SameStore s := by
  unfold State.openPacketScope
  split
  · simp
  · next ha => simpa using State.allocScope_sameStore _ _ _ _ ha

@[simp] theorem State.admitPacket_sameStore (s : State) (p b bs) : (s.admitPacket p b bs).SameStore s := by
  unfold State.admitPacket
  split <;> simp

@[simp] theorem State.signalEffect_sameStore (s : State) (p) : (s.signalEffect p).SameStore s := by
  unfold State.signalEffect
  split
  · dsimp only
    split
    · next hf => simpa using State.foundryUpdate_sameStore _ _ _ _ _ _ _ _ hf
    · simp
  · simp

@[simp] theorem State.completeId_sameStore (s : State) (id) : (s.completeId id).SameStore s := by
  unfold State.completeId
  split <;> simp

@[simp] theorem State.runSignal_sameStore (s : State) (id) : (s.runSignal id).SameStore s := by
  unfold State.runSignal
  split <;> simp

@[simp] theorem State.runCast_sameStore (s : State) (id) : (s.runCast id).SameStore s := by
  simp only [State.runCast]
  repeat' split
  all_goals simp

@[simp] theorem State.beginPacket_sameStore (s : State) (p) : (s.beginPacket p).SameStore s := by
  unfold State.beginPacket
  split <;> simp

@[simp] theorem State.consume_sameStore (s : State) (k) : (s.consume k).SameStore s := by simp [State.consume]

@[simp] theorem State.emitPacket_sameStore (s : State) (p) : (s.emitPacket p).SameStore s := by
  simp [State.emitPacket]

@[simp] theorem State.packetCause_sameStore (s : State) (k) : (s.packetCause k).2.SameStore s := by
  unfold State.packetCause
  split <;> simp

theorem State.decodePacket_sameStore (s : State) (k bs) {s' : State} (h : s.decodePacket k bs = some s') :
    s'.SameStore s := by
  have hc := checkPacket_keepsStore k.ctx bs s
  unfold State.decodePacket at h
  dsimp only at h
  split at h <;> rename_i hp <;> rw [hp] at hc
  · split at h
    · obtain rfl := Option.some.inj h
      simpa using hc
    · cases h
  · split at h
    · obtain rfl := Option.some.inj h
      split <;> simpa using hc
    · split at h
      · obtain rfl := Option.some.inj h
        split <;> simpa using hc
      · obtain rfl := Option.some.inj h
        simpa using hc

@[simp] theorem State.packetEvent_keepsStore {s₀ : State} (s : State) (k kind name) (h : s.SameStore s₀) :
    KeepsStore s₀ (s.packetEvent k kind name) := by
  unfold State.packetEvent
  split
  · split
    · simp [h]
    · trivial
  · split
    · trivial
    · split
      · trivial
      · next hp =>
        obtain rfl := eq_snd_of_eq hp
        split
        · simp [h]
        · split
          · trivial
          · split
            · next hd => simpa [h] using State.decodePacket_sameStore _ _ _ hd
            · trivial

@[simp] theorem execLaunchPacket_keepsStore {s₀ : State} (q) (s : State) (h : s.SameStore s₀) :
    KeepsStore s₀ (execLaunchPacket q s) := by simp [execLaunchPacket, h]

@[simp] theorem execGraphPacket_keepsStore {s₀ : State} (q) (s : State) (h : s.SameStore s₀) :
    KeepsStore s₀ (execGraphPacket q s) := by simp [execGraphPacket, h]

@[simp] theorem execWaitPacket_keepsStore {s₀ : State} (q) (s : State) (h : s.SameStore s₀) :
    KeepsStore s₀ (execWaitPacket q s) := by simp [execWaitPacket, h]

@[simp] theorem execSignalPacket_keepsStore {s₀ : State} (q) (s : State) (h : s.SameStore s₀) :
    KeepsStore s₀ (execSignalPacket q s) := by
  unfold execSignalPacket
  split <;> simp [h]

@[simp] theorem execCastPacket_keepsStore {s₀ : State} (q) (s : State) (h : s.SameStore s₀) :
    KeepsStore s₀ (execCastPacket q s) := by
  unfold execCastPacket
  split <;> simp [h]

@[simp] theorem execBadKind_keepsStore {s₀ : State} (k) (s : State) (h : s.SameStore s₀) :
    KeepsStore s₀ (execBadKind k s) := by
  unfold execBadKind
  split
  · trivial
  · split <;> (rename_i hp; obtain rfl := eq_snd_of_eq hp)
    · simp [h]
    · split
      · trivial
      · split
        · next hd => simpa [h] using State.decodePacket_sameStore _ _ _ hd
        · trivial

@[simp] theorem State.readWaits_sameStore (s : State) (p) : (s.readWaits p).2.SameStore s := by simp [State.readWaits]

@[simp] theorem execWaitPacketSatisfied_keepsStore {s₀ : State} (id) (s : State) (h : s.SameStore s₀) :
    KeepsStore s₀ (execWaitPacketSatisfied id s) := by
  unfold execWaitPacketSatisfied
  split <;> simp [h]

end Sys2Proof.Machine
end

section
/-!
SUPPORT. The store under collectives and links.
-/
namespace Sys2Proof.Machine

/-! ## Collectives -/

@[simp] theorem State.slicePart_sameStore (s : State) (o) (r) (va) (kind) (n) :
    (s.slicePart o r va kind n).2.2.SameStore s := by
  simp [State.slicePart]

@[simp] theorem State.readSlice_sameStore (s : State) (o va) : (s.readSlice o va).2.SameStore s := by
  unfold State.readSlice
  split
  · simp
  · refine State.foldl_snd_sameStore _ _ (Except.ok [], s) fun acc x => ?_
    split
    · simp
    · dsimp only
      split <;> (rename_i hp; obtain rfl := eq_snd_of_eq hp)
      · simp
      · repeat' split
        all_goals simp

@[simp] theorem State.writeSlice_sameStore (s : State) (o va bs) : (s.writeSlice o va bs).2.SameStore s := by
  unfold State.writeSlice
  split
  · simp
  · refine State.foldl_snd_sameStore _ _ (Except.ok (), s) fun acc x => ?_
    split
    · simp
    · dsimp only
      split <;> (rename_i hp; obtain rfl := eq_snd_of_eq hp)
      · simp
      · repeat' split
        all_goals simp

@[simp] theorem State.progress_sameStore (s : State) (tag) : (s.progress tag).SameStore s := ⟨rfl, rfl, rfl⟩

@[simp] theorem State.heard_sameStore (s : State) (tag rank step) : (s.heard tag rank step).SameStore s :=
  ⟨rfl, rfl, rfl⟩

@[simp] theorem State.tell_sameStore (s : State) (c rank m) : (s.tell c rank m).SameStore s := ⟨rfl, rfl, rfl⟩

@[simp] theorem State.failRelay_sameStore (s : State) (id code sub ia) : (s.failRelay id code sub ia).SameStore s :=
  ⟨rfl, rfl, rfl⟩

@[simp] theorem State.matchRecv_sameStore (s : State) (c o m) : (s.matchRecv c o m).SameStore s := by
  unfold State.matchRecv
  split <;> simp

@[simp] theorem State.askSend_sameStore (s : State) (c o) : (s.askSend c o).SameStore s := by
  unfold State.askSend
  split <;> simp

@[simp] theorem State.postRelay_sameStore (s : State) (c o) : (s.postRelay c o).SameStore s := by
  unfold State.postRelay
  repeat' split
  all_goals simp

@[simp] theorem State.startRelay_sameStore (s : State) (k) : (s.startRelay k).SameStore s := by
  refine State.foldl_sameStore _ _ s fun t o => ?_
  split
  · simp
  · split <;> simp

@[simp] theorem Env.relayData_keepsStore {s₀ : State} (e : Env) (f : Collective → Act) (h : e.s.SameStore s₀)
    (hf : ∀ c, (f c).KeepsStore s₀) : (e.relayData f).KeepsStore s₀ := by
  unfold Env.relayData
  split
  · exact h
  · dsimp only
    split
    · simp [h]
    · simp [h]
    · exact hf _

@[simp] theorem Env.relayTrap_keepsStore {s₀ : State} (e : Env) (sub off) :
    Act.KeepsStore s₀ (e.relayTrap sub off) := by simp [Env.relayTrap]

@[simp] theorem State.raiseStep_sameStore (s : State) (k) : (s.raiseStep k).SameStore s := ⟨rfl, rfl, rfl⟩

@[simp] theorem Env.fork_keepsStore {s₀ : State} (e : Env) (c kind slot peer fwd off src dst len op ty offD)
    (h : e.s.SameStore s₀) : Act.KeepsStore s₀ (e.fork c kind slot peer fwd off src dst len op ty offD) := by
  simp [Env.fork, h]

@[simp] theorem execCsend_keepsStore {s₀ : State} (o) (s : State) (h : s.SameStore s₀) :
    KeepsStore s₀ (execCsend o s) := by
  refine runSeq_keepsStore _ s _ h fun e => ?_
  repeat' split
  all_goals simp

@[simp] theorem execCrecv_keepsStore {s₀ : State} (o) (s : State) (h : s.SameStore s₀) :
    KeepsStore s₀ (execCrecv o s) := by
  refine runSeq_keepsStore _ s _ h fun e => ?_
  repeat' split
  all_goals simp

@[simp] theorem execCrrs_keepsStore {s₀ : State} (o) (s : State) (h : s.SameStore s₀) :
    KeepsStore s₀ (execCrrs o s) := by
  refine runSeq_keepsStore _ s _ h fun e => ?_
  repeat' split
  all_goals simp

@[simp] theorem execCcopy_keepsStore {s₀ : State} (o) (s : State) (h : s.SameStore s₀) :
    KeepsStore s₀ (execCcopy o s) := by
  refine runSeq_keepsStore _ s _ h fun e => ?_
  repeat' split
  all_goals simp

theorem State.arrived_keepsStore {s₀ : State} (s : State) (tag : Word) (rank step : Nat) (x : LinkMsg) (name : String)
    (f : Collective → State → State) (h : s.SameStore s₀) (hf : ∀ c t, (f c t).SameStore t) :
    KeepsStore s₀ (s.arrived tag rank step x name f) := by
  unfold State.arrived
  split
  · exact h
  · dsimp only
    split
    · split <;> simp [h]
    · exact State.sameStore_trans (hf _ _) (by split <;> simp [h])

@[simp] theorem execRelaySendRequest_keepsStore {s₀ : State} (m) (s : State) (h : s.SameStore s₀) :
    KeepsStore s₀ (execRelaySendRequest m s) := by
  unfold execRelaySendRequest
  split
  · exact h
  · refine State.arrived_keepsStore s _ _ _ _ _ _ h fun c t => ?_
    split <;> simp

@[simp] theorem execRendezvousCredit_keepsStore {s₀ : State} (m) (s : State) (h : s.SameStore s₀) :
    KeepsStore s₀ (execRendezvousCredit m s) := by
  refine State.arrived_keepsStore s _ _ _ _ _ _ h fun c t => ?_
  split
  · simp
  · split
    · simp
    · split
      · simp
      · dsimp only
        split
        · simp
        · split <;> (rename_i hp; obtain rfl := eq_snd_of_eq hp; simp)

@[simp] theorem State.receive_sameStore (s : State) (o data) : (s.receive o data).2.SameStore s := by
  unfold State.receive
  split
  · simp
  · split
    · split <;> (rename_i hp; obtain rfl := eq_snd_of_eq hp; simp)
    · simp

@[simp] theorem execRelayPayload_keepsStore {s₀ : State} (m data) (s : State) (h : s.SameStore s₀) :
    KeepsStore s₀ (execRelayPayload m data s) := by
  refine State.arrived_keepsStore s _ _ _ _ _ _ h fun c t => ?_
  split
  · simp
  · split <;> (rename_i hp; obtain rfl := eq_snd_of_eq hp; simp)

@[simp] theorem execRelayAck_keepsStore {s₀ : State} (m) (s : State) (h : s.SameStore s₀) :
    KeepsStore s₀ (execRelayAck m s) := by
  refine State.arrived_keepsStore s _ _ _ _ _ _ h fun c t => ?_
  split <;> simp

@[simp] theorem State.endRelay_sameStore (s : State) (o) : (s.endRelay o).SameStore s := by simp [State.endRelay]

@[simp] theorem State.faultRelay_sameStore (s : State) (o code sub ia) : (s.faultRelay o code sub ia).SameStore s := by
  simp [State.faultRelay]

@[simp] theorem execRelayOpComplete_keepsStore {s₀ : State} (id) (s : State) (h : s.SameStore s₀) :
    KeepsStore s₀ (execRelayOpComplete id s) := by
  unfold execRelayOpComplete
  split
  · trivial
  · split
    · split <;> simp [h]
    · split
      · split <;> simp [h]
      · split
        · trivial
        · split
          · split <;> (rename_i hp; obtain rfl := eq_snd_of_eq hp)
            · simp [h]
            · split <;> (rename_i hp; obtain rfl := eq_snd_of_eq hp; simp [h])
          · simp [h]

@[simp] theorem Env.join_keepsStore {s₀ : State} (e : Env) (n : Nat) (sig : Word) (f : Env → Act)
    (h : e.s.SameStore s₀) (hf : ∀ t, (f { e with s := t }).KeepsStore t) : (e.join n sig f).KeepsStore s₀ := by
  unfold Env.join
  split
  · exact h
  · dsimp only
    split
    · simp [h]
    · exact Act.KeepsStore.trans (hf _) (by simp [h])

@[simp] theorem State.dropLines_sameStore (s : State) (c l) : (s.dropLines c l).SameStore s := by
  simp [State.dropLines]

@[simp] theorem execCwait_keepsStore {s₀ : State} (o) (s : State) (h : s.SameStore s₀) :
    KeepsStore s₀ (execCwait o s) := by
  refine runSeq_keepsStore _ s _ h fun e => ?_
  split
  · dsimp only
    split
    · trivial
    · refine e.join_keepsStore _ _ _ ⟨rfl, rfl, rfl⟩ fun t => ?_
      split
      · simp
      · refine Env.signal_keepsStore _ _ _ _ _ _ ⟨rfl, rfl, rfl⟩ fun u va r => ?_
        exact Env.afterRelease_keepsStore _ _ _ ⟨rfl, rfl, rfl⟩ fun v => by simp
  · exact e.join_keepsStore _ _ _ ⟨rfl, rfl, rfl⟩ fun t => ⟨rfl, rfl, rfl⟩

@[simp] theorem execCdone_keepsStore {s₀ : State} (o) (s : State) (h : s.SameStore s₀) :
    KeepsStore s₀ (execCdone o s) := by simp [execCdone, h]

@[simp] theorem execCpeer_keepsStore {s₀ : State} (o) (s : State) (h : s.SameStore s₀) :
    KeepsStore s₀ (execCpeer o s) := by
  refine runSeq_keepsStore _ s _ h fun e => ?_
  repeat' split
  all_goals simp

@[simp] theorem execCrank_keepsStore {s₀ : State} (o) (s : State) (h : s.SameStore s₀) :
    KeepsStore s₀ (execCrank o s) := by
  refine runSeq_keepsStore _ s _ h fun e => ?_
  repeat' split
  all_goals simp

@[simp] theorem State.wakeCbar_sameStore (s : State) (k) : (s.wakeCbar k).SameStore s := by
  unfold State.wakeCbar
  repeat' split
  all_goals simp

@[simp] theorem execCbar_keepsStore {s₀ : State} (o) (s : State) (h : s.SameStore s₀) :
    KeepsStore s₀ (execCbar o s) := by
  refine runRaw_keepsStore _ s _ h fun e => ?_
  repeat' split
  all_goals simp

@[simp] theorem execCbarArrival_keepsStore {s₀ : State} (tag rank chan) (s : State) (h : s.SameStore s₀) :
    KeepsStore s₀ (execCbarArrival tag rank chan s) := by
  unfold execCbarArrival
  split <;> simp [h]

@[simp] theorem State.evict_sameStore (s : State) (t) : (s.evict t).SameStore s := by simp [State.evict]

theorem State.placeRelay_sameStore (s : State) (p c chan) {s' : State} (h : s.placeRelay p c chan = some s') :
    s'.SameStore s := by
  rw [State.placeRelay] at h
  split at h
  · obtain rfl := Option.some.inj h
    simp
  · cases h

@[simp] theorem State.goLive_sameStore (s : State) (packet tag) : (s.goLive packet tag).SameStore s := ⟨rfl, rfl, rfl⟩

theorem State.collWaits_sameStore (s : State) (c) {s' : State} (h : s.collWaits c = some s') : s'.SameStore s := by
  obtain ⟨l, _, hl⟩ := Option.bind_eq_some_iff.mp h
  exact State.launchWaits_sameStore s l _ hl

@[simp] theorem execCollectiveStart_keepsStore {s₀ : State} (id) (s : State) (h : s.SameStore s₀) :
    KeepsStore s₀ (execCollectiveStart id s) := by
  unfold execCollectiveStart
  split
  · next p c _ _ =>
    refine keepsStore_ite.2 ⟨fun _ => trivial, fun _ => ?_⟩
    split
    · split
      · split <;> simp [h]
      · simp [h]
    · trivial
    · dsimp only
      split
      · exact State.sameStore_trans (State.foldl_sameStore _ _ s fun t x => by simp) h
      · split
        · next hp =>
          split at hp
          · have hs := State.foldl_bind_sameStore _ (fun t _ _ h => State.placeRelay_sameStore t p c _ h) _ s hp
            simpa [h] using hs
          · cases hp
        · next hw => simpa [h] using State.collWaits_sameStore s c hw
        · trivial
  · trivial

@[simp] theorem State.watchdogRecord_sameStore (s : State) (c x) : (s.watchdogRecord c x).SameStore s := by
  simp [State.watchdogRecord]

@[simp] theorem execCollWatchdog_keepsStore {s₀ : State} (tag) (s : State) (h : s.SameStore s₀) :
    KeepsStore s₀ (execCollWatchdog tag s) := by
  unfold execCollWatchdog
  repeat' split
  all_goals simp [h]

@[simp] theorem execCollectiveCancel_keepsStore {s₀ : State} (tag) (s : State) (h : s.SameStore s₀) :
    KeepsStore s₀ (execCollectiveCancel tag s) := by
  unfold execCollectiveCancel
  split <;> simp [h]

@[simp] theorem execRelayPartitionWrite_keepsStore {s₀ : State} (x) (s : State) (h : s.SameStore s₀) :
    KeepsStore s₀ (execRelayPartitionWrite x s) := by simp [execRelayPartitionWrite, h]

@[simp] theorem execRelayPartitionApply_keepsStore {s₀ : State} (s : State) (h : s.SameStore s₀) :
    KeepsStore s₀ (execRelayPartitionApply s) := by
  unfold execRelayPartitionApply
  split <;> simp [h]

/-! ## Links -/

@[simp] theorem State.recordRemote_sameStore (s : State) (r code) : (s.recordRemote r code).SameStore s := by
  simp [State.recordRemote]

@[simp] theorem State.replyRemote_sameStore (s : State) (r data code) : (s.replyRemote r data code).SameStore s := by
  unfold State.replyRemote
  split <;> simp

@[simp] theorem State.remoteWalk_sameStore (s : State) (r) : (s.remoteWalk r).2.SameStore s := by
  refine State.foldl_snd_sameStore _ _ (none, s) fun acc x => ?_
  split
  · simp
  · split <;> (rename_i hp; obtain rfl := eq_snd_of_eq hp; simp)

@[simp] theorem State.remoteTags_sameStore (s : State) (r) : (s.remoteTags r).2.SameStore s := by
  simp [State.remoteTags]

@[simp] theorem State.remoteBytes_sameStore (s : State) (r) : (s.remoteBytes r).2.2.SameStore s := by
  unfold State.remoteBytes
  split <;> (rename_i hp; obtain rfl := eq_snd_of_eq hp; simp)

@[simp] theorem State.retireAt_sameStore (s : State) (ia) : (s.retireAt ia).SameStore s := by simp [State.retireAt]

@[simp] theorem State.performPeer_sameStore (s : State) (r tags) : (s.performPeer r tags).SameStore s := by
  simp only [State.performPeer]
  repeat' split
  all_goals simp

@[simp] theorem execRemoteAccessServe_keepsStore {s₀ : State} (r) (s : State) (h : s.SameStore s₀) :
    KeepsStore s₀ (execRemoteAccessServe r s) := by
  unfold execRemoteAccessServe
  split <;> (rename_i hp; obtain rfl := eq_snd_of_eq hp; simp [h])

@[simp] theorem State.linkError_sameStore (s : State) (kind port count) : (s.linkError kind port count).SameStore s := by
  simp [State.linkError]

@[simp] theorem State.deliver_keepsStore {s₀ : State} (s : State) (m) (h : s.SameStore s₀) :
    KeepsStore s₀ (s.deliver m) := by
  unfold State.deliver
  split <;> simp [h]

@[simp] theorem execRalbexFlit_keepsStore {s₀ : State} (port intact m) (s : State) (h : s.SameStore s₀) :
    KeepsStore s₀ (execRalbexFlit port intact m s) := by simp [execRalbexFlit, h]

@[simp] theorem execLinkRetrain_keepsStore {s₀ : State} (port) (s : State) (h : s.SameStore s₀) :
    KeepsStore s₀ (execLinkRetrain port s) := by simp [execLinkRetrain, h]

end Sys2Proof.Machine
end

section
/-!
SUPPORT. The store under contexts, firmware and management.
-/
namespace Sys2Proof.Machine

/-! ## Contexts -/

@[simp] theorem execContextControlWrite_keepsStore {s₀ : State} (ctx v) (s : State) (h : s.SameStore s₀) :
    KeepsStore s₀ (execContextControlWrite ctx v s) := by simp [execContextControlWrite, h]

@[simp] theorem execCoreSetWrite_keepsStore {s₀ : State} (ctx j v) (s : State) (h : s.SameStore s₀) :
    KeepsStore s₀ (execCoreSetWrite ctx j v s) := by simp [execCoreSetWrite, h]

@[simp] theorem State.beginReset_sameStore (s : State) (ctx) : (s.beginReset ctx).SameStore s := by
  simp [State.beginReset]

@[simp] theorem ctxReset_keepsStore {s₀ : State} (ctx) (s : State) (h : s.SameStore s₀) :
    KeepsStore s₀ (ctxReset ctx s) := by
  unfold ctxReset
  split <;> simp [h]

@[simp] theorem execCtxReset_keepsStore {s₀ : State} (ctx) (s : State) (h : s.SameStore s₀) :
    KeepsStore s₀ (execCtxReset ctx s) := by simp [execCtxReset, h]

@[simp] theorem execContextResetComplete_keepsStore {s₀ : State} (ctx) (s : State) (h : s.SameStore s₀) :
    KeepsStore s₀ (execContextResetComplete ctx s) := by simp [execContextResetComplete, h]

@[simp] theorem State.runTranslation_sameStore (s : State) (v) : (s.runTranslation v).SameStore s := by
  unfold State.runTranslation
  split <;> simp

@[simp] theorem State.endTranslation_sameStore (s : State) : s.endTranslation.SameStore s := by
  unfold State.endTranslation
  split <;> simp

@[simp] theorem State.translation_sameStore (s : State) (v) : (s.translation v).SameStore s := by
  unfold State.translation
  split <;> simp

@[simp] theorem execTranslationDrop_keepsStore {s₀ : State} (v) (s : State) (h : s.SameStore s₀) :
    KeepsStore s₀ (execTranslationDrop v s) := by simp [execTranslationDrop, h]

@[simp] theorem execTranslationWritebackInvalidate_keepsStore {s₀ : State} (v) (s : State) (h : s.SameStore s₀) :
    KeepsStore s₀ (execTranslationWritebackInvalidate v s) := by simp [execTranslationWritebackInvalidate, h]

@[simp] theorem execTranslationOpReserved_keepsStore {s₀ : State} (v) (s : State) (h : s.SameStore s₀) :
    KeepsStore s₀ (execTranslationOpReserved v s) := by simp [execTranslationOpReserved, h]

@[simp] theorem execTranslationCommandComplete_keepsStore {s₀ : State} (s : State) (h : s.SameStore s₀) :
    KeepsStore s₀ (execTranslationCommandComplete s) := by simp [execTranslationCommandComplete, h]

@[simp] theorem execRangeRegisterCommit_keepsStore {s₀ : State} (ctx k v) (s : State) (h : s.SameStore s₀) :
    KeepsStore s₀ (execRangeRegisterCommit ctx k v s) := by simp [execRangeRegisterCommit, h]

@[simp] theorem State.stageWord_sameStore (s : State) (ctx k i v) : (s.stageWord ctx k i v).SameStore s :=
  ⟨rfl, rfl, rfl⟩

@[simp] theorem execFunctionBindingWrite_keepsStore {s₀ : State} (j v) (s : State) (h : s.SameStore s₀) :
    KeepsStore s₀ (execFunctionBindingWrite j v s) := by simp [execFunctionBindingWrite, h]

@[simp] theorem State.unsupported_sameStore (s : State) : s.unsupported.SameStore s := ⟨rfl, rfl, rfl⟩
@[simp] theorem State.logUnsupported_sameStore (s : State) (fn) : (s.logUnsupported fn).SameStore s := ⟨rfl, rfl, rfl⟩

@[simp] theorem State.hostRead_sameStore (s : State) (fn phys a n) : (s.hostRead fn phys a n).2.SameStore s := by
  unfold State.hostRead
  split <;> (rename_i hp; obtain rfl := eq_snd_of_eq hp; simp)

@[simp] theorem State.hostWrite_sameStore (s : State) (fn phys a bs) : (s.hostWrite fn phys a bs).2.SameStore s := by
  unfold State.hostWrite
  have hw := State.foldl_sameStore_of (fun r : Bool × Bool × State => r.2.2)
    (fun r x => match r.2.2.l2Write phys x.1 (sectorImage x.2.1 ((bs.drop (128 * x.1 + x.2.1 - a)).take x.2.2))
        (byteMask x.2.1 x.2.2) with
      | (none, s1) => (true, r.2.1, s1)
      | (some _, s1) => (r.1, true, s1)) (sectorsOf a bs.length) (false, false, s) fun r x => by
        split <;> (rename_i hp; obtain rfl := eq_snd_of_eq hp; simp)
  dsimp only
  split
  · exact State.sameStore_trans (State.logUnsupported_sameStore _ _) hw
  · exact hw

@[simp] theorem execHostWindowBAccess_keepsStore {s₀ : State} (a) (s : State) (h : s.SameStore s₀) :
    KeepsStore s₀ (execHostWindowBAccess a s) := by
  unfold execHostWindowBAccess
  split <;> simp [h]

/-! ## CORDIC instructions -/

@[simp] theorem cordicOp_keepsStore {s₀ : State} (i o) (s : State) (g) (h : s.SameStore s₀) :
    KeepsStore s₀ (cordicOp i o s g) := by simp [cordicOp, h]

@[simp] theorem execCsin_keepsStore {s₀ : State} (o) (s : State) (h : s.SameStore s₀) :
    KeepsStore s₀ (execCsin o s) := by simp [execCsin, h]

@[simp] theorem execCcos_keepsStore {s₀ : State} (o) (s : State) (h : s.SameStore s₀) :
    KeepsStore s₀ (execCcos o s) := by simp [execCcos, h]

@[simp] theorem execCatan_keepsStore {s₀ : State} (o) (s : State) (h : s.SameStore s₀) :
    KeepsStore s₀ (execCatan o s) := by simp [execCatan, h]

@[simp] theorem execCexp2_keepsStore {s₀ : State} (o) (s : State) (h : s.SameStore s₀) :
    KeepsStore s₀ (execCexp2 o s) := by simp [execCexp2, h]

@[simp] theorem execClog2_keepsStore {s₀ : State} (o) (s : State) (h : s.SameStore s₀) :
    KeepsStore s₀ (execClog2 o s) := by simp [execClog2, h]

@[simp] theorem execCtanh_keepsStore {s₀ : State} (o) (s : State) (h : s.SameStore s₀) :
    KeepsStore s₀ (execCtanh o s) := by simp [execCtanh, h]

@[simp] theorem execCrsq_keepsStore {s₀ : State} (o) (s : State) (h : s.SameStore s₀) :
    KeepsStore s₀ (execCrsq o s) := by simp [execCrsq, h]

@[simp] theorem execCsqrt_keepsStore {s₀ : State} (o) (s : State) (h : s.SameStore s₀) :
    KeepsStore s₀ (execCsqrt o s) := by simp [execCsqrt, h]

/-! ## Cross-lane instructions -/

theorem Env.afterStrays_sameStore (e : Env) (o : Operand) : (e.afterStrays o).s.SameStore e.s := by
  unfold Env.afterStrays
  split <;> simp

@[simp] theorem execShfl_keepsStore {s₀ : State} (o) (s : State) (h : s.SameStore s₀) : KeepsStore s₀ (execShfl o s) := by
  refine runSeq_keepsStore _ s _ h fun e => Env.put_keepsStore _ _ _ _ ?_
  exact e.afterStrays_sameStore _

@[simp] theorem execBcast_keepsStore {s₀ : State} (o) (s : State) (h : s.SameStore s₀) :
    KeepsStore s₀ (execBcast o s) := by
  refine runSeq_keepsStore _ s _ h fun e => Env.put_keepsStore _ _ _ _ ?_
  exact e.afterStrays_sameStore _

@[simp] theorem execVote_keepsStore {s₀ : State} (o) (s : State) (h : s.SameStore s₀) :
    KeepsStore s₀ (execVote o s) := by simp [execVote, h]

@[simp] theorem execMatchX_keepsStore {s₀ : State} (o) (s : State) (h : s.SameStore s₀) :
    KeepsStore s₀ (execMatchX o s) := by simp [execMatchX, h]

@[simp] theorem execRedx_keepsStore {s₀ : State} (o) (s : State) (h : s.SameStore s₀) :
    KeepsStore s₀ (execRedx o s) := by simp [execRedx, h]

@[simp] theorem execScanx_keepsStore {s₀ : State} (o) (s : State) (h : s.SameStore s₀) :
    KeepsStore s₀ (execScanx o s) := by simp [execScanx, h]

@[simp] theorem execPerm_keepsStore {s₀ : State} (o) (s : State) (h : s.SameStore s₀) :
    KeepsStore s₀ (execPerm o s) := by simp [execPerm, h]

@[simp] theorem execRng_keepsStore {s₀ : State} (o) (s : State) (h : s.SameStore s₀) : KeepsStore s₀ (execRng o s) := by
  simp [execRng, h]

/-! ## Firmware -/

@[simp] theorem State.perform1_keepsStore {s₀ : State} (s : State) (c) (h : s.SameStore s₀) :
    KeepsStore s₀ (s.perform1 c) := by
  unfold State.perform1
  split <;> simp [h]

@[simp] theorem State.performHeld_sameStore (l : List HostCommand) (s : State) :
    (State.performHeld l s).SameStore s := by
  induction l generalizing s with
  | nil => exact ⟨rfl, rfl, rfl⟩
  | cons c l ih =>
    have hc := s.perform1_keepsStore c (s₀ := s) ⟨rfl, rfl, rfl⟩
    unfold State.performHeld
    split
    · next hp =>
      rw [hp] at hc
      exact State.sameStore_trans (ih _) hc
    · exact State.foldl_sameStore _ _ s fun t c => by simp

@[simp] theorem State.gatherFiring_sameStore (s : State) (ctx f) : (s.gatherFiring ctx f).SameStore s := by
  simp [State.gatherFiring]

@[simp] theorem State.gatherAll_sameStore (s : State) : s.gatherAll.SameStore s := by simp [State.gatherAll]

@[simp] theorem State.resumeService_sameStore (s : State) (result) : (s.resumeService result).SameStore s := by
  simp [State.resumeService]

@[simp] theorem execFirmwareLiveUpdate_keepsStore {s₀ : State} (s : State) (h : s.SameStore s₀) :
    KeepsStore s₀ (execFirmwareLiveUpdate s) := by simp [execFirmwareLiveUpdate, h]

@[simp] theorem State.stagedImage_sameStore (s : State) : s.stagedImage.2.SameStore s := by
  unfold State.stagedImage
  split <;> (rename_i hp; obtain rfl := eq_snd_of_eq hp; simp)

@[simp] theorem State.freeSlot_sameStore (s : State) (image) : (s.freeSlot image).2.SameStore s := ⟨rfl, rfl, rfl⟩

@[simp] theorem execFirmwareSlotSelect_keepsStore {s₀ : State} (s : State) (h : s.SameStore s₀) :
    KeepsStore s₀ (execFirmwareSlotSelect s) := by simp [execFirmwareSlotSelect, h]

@[simp] theorem execFirmwareCmdIgnored_keepsStore {s₀ : State} (op) (s : State) (h : s.SameStore s₀) :
    KeepsStore s₀ (execFirmwareCmdIgnored op s) := by simp [execFirmwareCmdIgnored, h]

@[simp] theorem execFirmwareVerifyComplete_keepsStore {s₀ : State} (v) (s : State) (h : s.SameStore s₀) :
    KeepsStore s₀ (execFirmwareVerifyComplete v s) := by
  simp only [execFirmwareVerifyComplete]
  repeat' split
  all_goals simp [h]

@[simp] theorem execFirstHeartbeat_keepsStore {s₀ : State} (s : State) (h : s.SameStore s₀) :
    KeepsStore s₀ (execFirstHeartbeat s) := by simp [execFirstHeartbeat, h]

@[simp] theorem execHeartbeatTimeout_keepsStore {s₀ : State} (s : State) (h : s.SameStore s₀) :
    KeepsStore s₀ (execHeartbeatTimeout s) := by simp [execHeartbeatTimeout, h]

@[simp] theorem State.retryHeld_keepsStore {s₀ : State} (s : State) (h : s.SameStore s₀) :
    KeepsStore s₀ s.retryHeld := by
  unfold State.retryHeld
  split <;> simp [h]

@[simp] theorem State.retryHalt_keepsStore {s₀ : State} (c) (s : State) (h : s.SameStore s₀) :
    KeepsStore s₀ (State.retryHalt c s) := by simp [State.retryHalt, h]

/-! ## Storage errors -/

@[simp] theorem State.spoilRecord_sameStore (s : State) (h n) : (s.spoilRecord h n).SameStore s := by
  simp [State.spoilRecord]
@[simp] theorem State.l1Refetch_sameStore (s : State) (core p) : (s.l1Refetch core p).SameStore s := ⟨rfl, rfl, rfl⟩

@[simp] theorem State.refetch_sameStore (s : State) (x) : (s.refetch x).SameStore s := by
  unfold State.refetch
  split <;> simp

/-! ## Management -/

@[simp] theorem State.riskDecoded_sameStore (s : State) : s.riskDecoded.SameStore s := by
  unfold State.riskDecoded
  split <;> simp

theorem State.postRisk_sameStore (s : State) (k) {s' : State} (h : s.postRisk k = some s') : s'.SameStore s := by
  unfold State.postRisk at h
  dsimp only at h
  split at h
  · cases h
  · split at h
    · cases h
    · next hp =>
      obtain rfl := eq_snd_of_eq hp
      obtain rfl := Option.some.inj h
      simp

@[simp] theorem State.riskPost_sameStore (s : State) : s.riskPost.SameStore s := by
  unfold State.riskPost
  split
  · next k _ =>
    cases hp : s.postRisk k with
    | none => simp
    | some t => exact State.postRisk_sameStore s k hp
  · simp

@[simp] theorem State.crossing_sameStore (s : State) (terms risk) : (s.crossing terms risk).SameStore s := by
  simp [State.crossing]

@[simp] theorem execRiskSample_keepsStore {s₀ : State} (temp) (s : State) (h : s.SameStore s₀) :
    KeepsStore s₀ (execRiskSample temp s) := by simp [execRiskSample, h]

@[simp] theorem State.stepDie_sameStore (s : State) (die up cause) : (s.stepDie die up cause).SameStore s := by
  simp [State.stepDie]

@[simp] theorem execThrottle_keepsStore {s₀ : State} (r) (s : State) (h : s.SameStore s₀) :
    KeepsStore s₀ (execThrottle r s) := by
  simp only [execThrottle]
  repeat' split
  all_goals simp [h]

@[simp] theorem State.giveUpWays_sameStore (s : State) (hub) : (s.giveUpWays hub).SameStore s := by
  unfold State.giveUpWays
  dsimp only
  refine State.sameStore_trans (State.foldl_sameStore _ _ _ fun t l => ?_) (State.foldl_sameStore _ _ s fun t l => ?_)
  · split
    · split <;> simp
    · simp
  · split <;> simp

@[simp] theorem State.beginChange_sameStore (s : State) (hub toDecTed) : (s.beginChange hub toDecTed).SameStore s := by
  unfold State.beginChange
  split <;> simp

@[simp] theorem execL2Mode_keepsStore {s₀ : State} (hub millivolts) (s : State) (h : s.SameStore s₀) :
    KeepsStore s₀ (execL2Mode hub millivolts s) := by
  simp only [execL2Mode]
  repeat' split
  all_goals simp [h]

@[simp] theorem execL2ModeChangeComplete_keepsStore {s₀ : State} (hub) (s : State) (h : s.SameStore s₀) :
    KeepsStore s₀ (execL2ModeChangeComplete hub s) := by
  unfold execL2ModeChangeComplete
  split <;> simp [h]

@[simp] theorem State.emitSync_sameStore (s : State) (point lock offset) :
    (s.emitSync point lock offset).SameStore s := by simp [State.emitSync]

@[simp] theorem execTimeSync_keepsStore {s₀ : State} (point offset unc) (s : State) (h : s.SameStore s₀) :
    KeepsStore s₀ (execTimeSync point offset unc s) := by simp [execTimeSync, h]

@[simp] theorem execStampingPointLockLoss_keepsStore {s₀ : State} (point) (s : State) (h : s.SameStore s₀) :
    KeepsStore s₀ (execStampingPointLockLoss point s) := by simp [execStampingPointLockLoss, h]

@[simp] theorem execSteleRecordWrite_keepsStore {s₀ : State} (e) (s : State) (h : s.SameStore s₀) :
    KeepsStore s₀ (execSteleRecordWrite e s) := by simp [execSteleRecordWrite, h]

@[simp] theorem execSteleErase_keepsStore {s₀ : State} (s : State) (h : s.SameStore s₀) :
    KeepsStore s₀ (execSteleErase s) := by simp [execSteleErase, h]

@[simp] theorem execSteleEraseComplete_keepsStore {s₀ : State} (s : State) (h : s.SameStore s₀) :
    KeepsStore s₀ (execSteleEraseComplete s) := by simp [execSteleEraseComplete, h]

@[simp] theorem State.resetRecords_sameStore (s : State) (cause) : (s.resetRecords cause).SameStore s := by
  simp [State.resetRecords]

@[simp] theorem execPowerOn_keepsStore {s₀ : State} (s : State) (h : s.SameStore s₀) :
    KeepsStore s₀ (execPowerOn s) := by simp [execPowerOn, h]

end Sys2Proof.Machine
end

section
/-!
SUPPORT. The store under scratchpad accesses, SPDM and the windows of the host.
-/
namespace Sys2Proof.Machine

/-! ## Scratchpad accesses -/

@[simp] theorem Env.queueSp_sameStore (e : Env) (i) (s : State) (lanes size uniform acquire layout) :
    (e.queueSp i s lanes size uniform acquire layout).SameStore s := by simp [Env.queueSp]

@[simp] theorem Env.issueSp_keepsStore {s₀ : State} (e : Env) (i o atomic result off layout) (h : e.s.SameStore s₀) :
    Act.KeepsStore s₀ (e.issueSp i o atomic result off layout) := by
  unfold Env.issueSp
  have hgo : ∀ (u : Env) (b : Bool) (k : State → State), (∀ t, (k t).SameStore t) → Act.KeepsStore u.s
      (match (if result then u.prepLoad i u.s o.d b else some u.s) with
      | none => .wait u.s
      | some s => .next (k s)) := by
    intro u b k hk
    split
    · simp
    · next hp =>
      refine State.sameStore_trans (hk _) ?_
      split at hp
      · exact u.prepLoad_sameStore _ _ _ _ hp
      · cases hp; exact ⟨rfl, rfl, rfl⟩
  split
  · exact h
  · dsimp only
    split
    · trivial
    · split
      · exact e.afterRelease_keepsStore _ _ h fun s => hgo _ _ _ fun t => by simp
      · exact Act.KeepsStore.trans (hgo _ _ _ fun t => by simp) h

@[simp] theorem execLds_keepsStore {s₀ : State} (o) (s : State) (h : s.SameStore s₀) : KeepsStore s₀ (execLds o s) := by
  simp [execLds, h]

@[simp] theorem execSts_keepsStore {s₀ : State} (o) (s : State) (h : s.SameStore s₀) : KeepsStore s₀ (execSts o s) := by
  simp [execSts, h]

@[simp] theorem execAtoms_keepsStore {s₀ : State} (o) (s : State) (h : s.SameStore s₀) :
    KeepsStore s₀ (execAtoms o s) := by simp [execAtoms, h]

@[simp] theorem execReds_keepsStore {s₀ : State} (o) (s : State) (h : s.SameStore s₀) :
    KeepsStore s₀ (execReds o s) := by simp [execReds, h]

@[simp] theorem Env.issueSpx_keepsStore {s₀ : State} (e : Env) (i o result) (h : e.s.SameStore s₀) :
    Act.KeepsStore s₀ (e.issueSpx i o result) := by
  unfold Env.issueSpx
  split <;> simp [h]

@[simp] theorem execLdsx_keepsStore {s₀ : State} (o) (s : State) (h : s.SameStore s₀) :
    KeepsStore s₀ (execLdsx o s) := by simp [execLdsx, h]

@[simp] theorem execStsx_keepsStore {s₀ : State} (o) (s : State) (h : s.SameStore s₀) :
    KeepsStore s₀ (execStsx o s) := by simp [execStsx, h]

@[simp] theorem Env.issueRange_keepsStore {s₀ : State} (e : Env) (i a b pattern) (h : e.s.SameStore s₀) :
    Act.KeepsStore s₀ (e.issueRange i a b pattern) := by
  unfold Env.issueRange
  repeat' split
  all_goals simp [h]

@[simp] theorem execSpinv_keepsStore {s₀ : State} (o) (s : State) (h : s.SameStore s₀) :
    KeepsStore s₀ (execSpinv o s) := by simp [execSpinv, h]

@[simp] theorem execSpfill_keepsStore {s₀ : State} (o) (s : State) (h : s.SameStore s₀) :
    KeepsStore s₀ (execSpfill o s) := by simp [execSpfill, h]

@[simp] theorem execSpstat_keepsStore {s₀ : State} (o) (s : State) (h : s.SameStore s₀) :
    KeepsStore s₀ (execSpstat o s) := by
  refine runSeq_keepsStore _ s _ h fun e => ?_
  repeat' split
  all_goals simp

@[simp] theorem State.serve_sameStore (s : State) (t x core lanes) : (s.serve t x core lanes).2.2.SameStore s := by
  refine State.foldl_sameStore_of (fun x : Nat × List Nat × State => x.2.2) _ _ (0, [], s) fun x l => ?_
  split <;> simp

@[simp] theorem State.idlePort_sameStore (s : State) (core x) : (s.idlePort core x).SameStore s := ⟨rfl, rfl, rfl⟩
@[simp] theorem State.setSp_sameStore (s : State) (home x) : (s.setSp home x).SameStore s := ⟨rfl, rfl, rfl⟩

@[simp] theorem State.partLoad_sameStore (s : State) (t core home x o lanes) :
    (s.partLoad t core home x o lanes).SameStore s := by simp [State.partLoad]

@[simp] theorem State.partAtomic_sameStore (s : State) (t core home x o lanes) :
    (s.partAtomic t core home x o lanes).SameStore s := by simp [State.partAtomic]

@[simp] theorem State.partStore_sameStore (s : State) (t core home x stamp lanes) :
    (s.partStore t core home x stamp lanes).SameStore s := by simp [State.partStore]

@[simp] theorem State.partRange_sameStore (s : State) (t core home x fill lanes) :
    (s.partRange t core home x fill lanes).SameStore s := by
  unfold State.partRange
  split <;> simp

@[simp] theorem State.servePart_sameStore (s0 : State) (t core home x0) :
    (s0.servePart t core home x0).SameStore s0 := by
  simp only [State.servePart]
  repeat' split
  all_goals simp

@[simp] theorem State.dropSp_sameStore (s : State) (core x) : (s.dropSp core x).SameStore s := by
  unfold State.dropSp
  split <;> simp

@[simp] theorem State.joinSp_sameStore (s : State) (x) : (s.joinSp x).SameStore s := by
  unfold State.joinSp
  split <;> simp

@[simp] theorem State.afterSp_sameStore (s : State) (core t x) : (s.afterSp core t x).SameStore s := by
  simp [State.afterSp]

@[simp] theorem State.failSp_sameStore (s : State) (core t x f ia) : (s.failSp core t x f ia).SameStore s := by
  simp [State.failSp]

@[simp] theorem State.spEvents_sameStore (s : State) (core t x) : (s.spEvents core t x).SameStore s := by
  unfold State.spEvents
  repeat' split
  all_goals simp

theorem State.spResults_sameStore (s : State) (t x) {s' : State} (h : s.spResults t x = some s') : s'.SameStore s := by
  have hw : ∀ l, s.writeLanes x.key t x.uniform l = some s' → s'.SameStore s :=
    fun l hl => State.writeLanes_sameStore s _ _ _ l hl
  unfold State.spResults at h
  dsimp only at h
  split at h
  · split at h
    · cases h; simp
    · exact hw _ h
  · split at h
    · cases h; simp
    · exact hw _ h
  · split at h
    · cases h; simp
    · exact hw _ h
  · cases h; simp

theorem State.finishSp_sameStore (s : State) (core t x) {s' : State} (h : s.finishSp core t x = some s') :
    s'.SameStore s := by
  unfold State.finishSp at h
  dsimp only at h
  split at h
  · exact State.sameStore_of_map (fun f => by simp) h
  · split at h
    · obtain rfl := Option.some.inj h
      simp
    · obtain ⟨u, hu, rfl⟩ := Option.map_eq_some_iff.mp h
      simpa using State.spResults_sameStore _ _ _ hu

@[simp] theorem State.tryFinishSp_sameStore (s : State) (home id) : (s.tryFinishSp home id).SameStore s := by
  unfold State.tryFinishSp
  split
  · simp
  · split
    · simp
    · split
      · next t _ _ =>
        cases hf : s.finishSp home t _ with
        | none => simp
        | some u => exact State.finishSp_sameStore s _ _ _ hf
      · simp

theorem State.spWaiting_sameStore (s : State) (core) {s' : State} (h : s.spWaiting core = some s') : s'.SameStore s := by
  obtain ⟨x, _, hx⟩ := List.exists_of_findSome?_eq_some h
  obtain ⟨t, _, ht⟩ := Option.bind_eq_some_iff.mp hx
  split at ht
  · exact State.finishSp_sameStore s _ _ _ ht
  · cases ht

@[simp] theorem execScratchpadAccessComplete_keepsStore {s₀ : State} (core) (s : State) (h : s.SameStore s₀) :
    KeepsStore s₀ (execScratchpadAccessComplete core s) := by
  unfold execScratchpadAccessComplete
  split
  · next hw => simpa [h] using State.spWaiting_sameStore s _ hw
  · split
    · trivial
    · simp [h]
    · dsimp only
      split
      · simp [h]
      · split
        · trivial
        · simp [h]

@[simp] theorem execParityUpdate_keepsStore {s₀ : State} (core group) (s : State) (h : s.SameStore s₀) :
    KeepsStore s₀ (execParityUpdate core group s) := by
  unfold execParityUpdate
  split <;> simp [h]

/-! ## SPDM -/

@[simp] theorem State.answer_sameStore (s : State) (req body) : (s.answer req body).SameStore s := ⟨rfl, rfl, rfl⟩

@[simp] theorem State.spdmError_sameStore (s : State) (req code) : (s.spdmError req code).SameStore s :=
  ⟨rfl, rfl, rfl⟩

@[simp] theorem execGetVersion_keepsStore {s₀ : State} (s : State) (h : s.SameStore s₀) :
    KeepsStore s₀ (execGetVersion s) := by simp [execGetVersion, h]

@[simp] theorem execGetCapabilities_keepsStore {s₀ : State} (s : State) (h : s.SameStore s₀) :
    KeepsStore s₀ (execGetCapabilities s) := by simp [execGetCapabilities, h]

@[simp] theorem execNegotiateAlgorithms_keepsStore {s₀ : State} (offer) (s : State) (h : s.SameStore s₀) :
    KeepsStore s₀ (execNegotiateAlgorithms offer s) := by simp [execNegotiateAlgorithms, h]

@[simp] theorem execGetDigests_keepsStore {s₀ : State} (s : State) (h : s.SameStore s₀) :
    KeepsStore s₀ (execGetDigests s) := by simp [execGetDigests, h]

@[simp] theorem execGetCertificate_keepsStore {s₀ : State} (offset len) (s : State) (h : s.SameStore s₀) :
    KeepsStore s₀ (execGetCertificate offset len s) := by simp [execGetCertificate, h]

@[simp] theorem State.signed_sameStore (s : State) (req body nonce) : (s.signed req body nonce).SameStore s := by
  simp [State.signed]

@[simp] theorem State.releaseSigned_keepsStore {s₀ : State} (s : State) (h : s.SameStore s₀) :
    KeepsStore s₀ s.releaseSigned := by
  unfold State.releaseSigned
  split <;> simp [h]

@[simp] theorem execChallenge_keepsStore {s₀ : State} (nonce) (s : State) (h : s.SameStore s₀) :
    KeepsStore s₀ (execChallenge nonce s) := by simp [execChallenge, h]

@[simp] theorem execGetMeasurements_keepsStore {s₀ : State} (index sign nonce) (s : State) (h : s.SameStore s₀) :
    KeepsStore s₀ (execGetMeasurements index sign nonce s) := by
  unfold execGetMeasurements
  split <;> simp [h]

@[simp] theorem execKeyExchange_keepsStore {s₀ : State} (session exchange) (s : State) (h : s.SameStore s₀) :
    KeepsStore s₀ (execKeyExchange session exchange s) := by simp [execKeyExchange, h]

@[simp] theorem execSpdmFinish_keepsStore {s₀ : State} (session _verify) (s : State) (h : s.SameStore s₀) :
    KeepsStore s₀ (execSpdmFinish session _verify s) := by simp [execSpdmFinish, h]

@[simp] theorem execEndSession_keepsStore {s₀ : State} (session) (s : State) (h : s.SameStore s₀) :
    KeepsStore s₀ (execEndSession session s) := by simp [execEndSession, h]

@[simp] theorem State.takeKeyMessage_keepsStore {s₀ : State} (s : State) (h : s.SameStore s₀) :
    KeepsStore s₀ s.takeKeyMessage := by
  unfold State.takeKeyMessage
  split <;> simp [h]

/-! ## Windows of the host -/

@[simp] theorem State.setMgmt_keepsStore {s₀ : State} (s : State) (f) (h : s.SameStore s₀) :
    KeepsStore s₀ (s.setMgmt f) := by simp [State.setMgmt, h]

@[simp] theorem State.writeTranslation_keepsStore {s₀ : State} (s : State) (v) (h : s.SameStore s₀) :
    KeepsStore s₀ (s.writeTranslation v) := by simp [State.writeTranslation, h]

@[simp] theorem State.writeFwcmd_keepsStore {s₀ : State} (s : State) (v) (h : s.SameStore s₀) :
    KeepsStore s₀ (s.writeFwcmd v) := by
  unfold State.writeFwcmd
  split <;> simp [h]

@[simp] theorem State.writeDeviceArray_keepsStore {s₀ : State} (s : State) (off v) (h : s.SameStore s₀) :
    KeepsStore s₀ (s.writeDeviceArray off v) := by
  unfold State.writeDeviceArray
  split <;> simp [h]

@[simp] theorem State.writeDevice_keepsStore {s₀ : State} (s : State) (off v) (h : s.SameStore s₀) :
    KeepsStore s₀ (s.writeDevice off v) := by
  unfold State.writeDevice
  split <;> simp [h]

@[simp] theorem State.writeDbgcmd_keepsStore {s₀ : State} (s : State) (ctx v) (h : s.SameStore s₀) :
    KeepsStore s₀ (s.writeDbgcmd ctx v) := by
  unfold State.writeDbgcmd
  split <;> simp [h]

@[simp] theorem State.writeQueue_keepsStore {s₀ : State} (s : State) (k reg v) (h : s.SameStore s₀) :
    KeepsStore s₀ (s.writeQueue k reg v) := by
  unfold State.writeQueue
  split <;> simp [h]

@[simp] theorem State.writeRange_keepsStore {s₀ : State} (s : State) (ctx k i v) (h : s.SameStore s₀) :
    KeepsStore s₀ (s.writeRange ctx k i v) := by simp [State.writeRange, h]

@[simp] theorem State.writePageArray_keepsStore {s₀ : State} (s : State) (ctx off v) (h : s.SameStore s₀) :
    KeepsStore s₀ (s.writePageArray ctx off v) := by
  unfold State.writePageArray
  split <;> simp [h]

@[simp] theorem State.writePage_keepsStore {s₀ : State} (s : State) (ctx off v) (h : s.SameStore s₀) :
    KeepsStore s₀ (s.writePage ctx off v) := by
  unfold State.writePage
  split <;> simp [h]

@[simp] theorem execRegisterWrite_keepsStore {s₀ : State} (fn off data) (s : State) (h : s.SameStore s₀) :
    KeepsStore s₀ (execRegisterWrite fn off data s) := by
  unfold execRegisterWrite
  repeat' split
  all_goals simp [h]

/-! ## The schedule -/

@[simp] theorem State.readyNow_sameStore (s : State) (l) : (s.readyNow l).2.SameStore s := by
  unfold State.readyNow
  split <;> simp

@[simp] theorem State.pass_sameStore (s : State) : s.pass.SameStore s := ⟨rfl, rfl, rfl⟩

end Sys2Proof.Machine
end

section
/-!
SUPPORT. The instructions and events that write to the store keep it in canonical form (R194, R218, R219, R258, R345).
-/
namespace Sys2Proof.Machine

/-- Wherever an outcome leads, memory is canonical. -/
def LeadsCanonical : Host.Outcome State Fault Refusal → Prop
  | .next t => t.MemoryCanonical
  | _ => True

section
variable {s t : State}

@[simp] theorem leadsCanonical_next : LeadsCanonical (.next t) ↔ t.MemoryCanonical := Iff.rfl

theorem State.MemoryCanonical.of_sameStore (hs : s.MemoryCanonical) (h : t.SameStore s) : t.MemoryCanonical :=
  hs.of_eq h.1 h.2.1 h.2.2

theorem KeepsStore.leadsCanonical {o : Host.Outcome State Fault Refusal} (h : KeepsStore s o)
    (hs : s.MemoryCanonical) : LeadsCanonical o := by
  cases o with
  | next t => exact hs.of_sameStore h
  | fault => trivial
  | refused => trivial

end

/-! ## The states that write -/

theorem State.foldl_canonical {α : Type} (f : State → α → State)
    (hf : ∀ t a, t.MemoryCanonical → (f t a).MemoryCanonical) (l : List α) {s : State} (h : s.MemoryCanonical) :
    (l.foldl f s).MemoryCanonical := by
  induction l generalizing s with
  | nil => exact h
  | cons a l ih => exact ih (hf s a h)

theorem State.poisonGranule_canonical {s : State} (pa : Nat) (h : s.MemoryCanonical) :
    (s.poisonGranule pa).MemoryCanonical := by
  obtain ⟨hm, ht, hp⟩ := h
  refine ⟨hm, ht, ?_⟩
  have hfold : ∀ l m : List Nat, m.Pairwise (· < ·) → (l.foldl setInsert m).Pairwise (· < ·) := by
    intro l
    induction l with
    | nil => exact fun m hm => hm
    | cons a l ih => exact fun m hm => ih _ (pairwise_setInsert _ hm)
  exact hfold _ _ hp

/-- What the base die does with a packet of its stream (R216 to R219). -/
theorem State.takePacket_leadsCanonical (q : Stream) (kind : PacketKind) (name : String) {s : State}
    (h : s.MemoryCanonical) : LeadsCanonical (s.takePacket q kind name) := by
  unfold State.takePacket
  dsimp only
  split
  · trivial
  · split
    · trivial
    · split
      · exact h
      · exact s.physWrite_canonical _ h
      · exact s.physWrite_canonical _ h

theorem State.performTag_canonical {s : State} (o : MemOp) (lanes : List LaneAccess) (sec : Nat)
    (h : s.MemoryCanonical) : (s.performTag o lanes sec).MemoryCanonical := by
  unfold State.performTag
  split <;> (rename_i hp; obtain rfl := eq_snd_of_eq hp)
  · dsimp only
    have ht := h.of_sameStore (s.translate_sameStore (128 * sec))
    split
    · refine State.MemoryCanonical.of_sameStore (State.MemoryCanonical.of_sameStore (State.MemoryCanonical.of_sameStore
        ?_ (State.dropTagCopies_sameStore _ sec)) (State.modOp_sameStore _ _ _)) (State.modOp_sameStore _ _ _)
      exact State.foldl_canonical _ (fun t a => t.setTag_canonical _ _) lanes ht
    · exact ht.of_sameStore (by simp)
  · exact h.of_sameStore (by simp)

theorem State.perform_canonical {s : State} (o : MemOp) (lanes : List LaneAccess) (h : s.MemoryCanonical) :
    (s.perform o lanes).MemoryCanonical := by
  unfold State.perform
  split
  · exact h
  · dsimp only
    split
    · exact h.of_sameStore (by simp)
    · split
      · exact h.of_sameStore (by simp)
      · split
        · exact h.of_sameStore (by simp)
        · split
          · exact h.of_sameStore (by simp)
          · exact h.of_sameStore (by simp)
          · exact h.of_sameStore (by simp)
          · exact h.of_sameStore (by simp)
          · exact State.performTag_canonical o _ _ h
          · exact State.performTag_canonical o _ _ h
          · exact h.of_sameStore (by simp)

theorem execRequestComplete_leadsCanonical (id : Nat) {s : State} (h : s.MemoryCanonical) :
    LeadsCanonical (execRequestComplete id s) := by
  have hd (o : MemOp) (l : List LaneAccess) {t : State} (ht : t.MemoryCanonical) :
      ((t.perform o l).tryFinish id).MemoryCanonical :=
    (State.perform_canonical o l ht).of_sameStore (State.tryFinish_sameStore _ id)
  unfold execRequestComplete
  split
  · trivial
  · split
    · trivial
    · split
      · split
        · trivial
        · split
          · next hf =>
            split
            · trivial
            · exact h.of_sameStore (s.finishOp_sameStore id hf)
          · trivial
      · exact hd _ _ h
      · exact hd _ _ (h.of_sameStore s.draw_sameStore)

theorem execScrub_leadsCanonical (pa : Nat) (e : EccResult) {s : State} (h : s.MemoryCanonical) :
    LeadsCanonical (execScrub pa e s) := by
  unfold execScrub
  split
  · exact h
  · exact h.of_sameStore (by simp)
  · exact (State.poisonGranule_canonical pa h).of_sameStore (by simp)

theorem State.poisonStored_canonical {s t : State} (x : Stored) (h : s.MemoryCanonical) (ht : s.poisonStored x = some t) :
    t.MemoryCanonical := by
  unfold State.poisonStored at ht
  split at ht
  · split at ht
    · split at ht
      · cases ht; exact h
      · obtain ⟨u, hu, rfl⟩ := Option.map_eq_some_iff.mp ht
        exact h.of_sameStore (by simpa using State.makeG_sameStore s _ _ _ _ hu)
    · cases ht; exact h
  all_goals obtain rfl := Option.some.inj ht
  case h_11 => exact State.poisonGranule_canonical _ h
  case h_12 => exact State.poisonGranule_canonical _ h
  all_goals exact h.of_sameStore (by simp)

theorem storageError_leadsCanonical (u : Upset) {s : State} (h : s.MemoryCanonical) :
    LeadsCanonical (storageError u s) := by
  unfold storageError
  split
  · next x fixable =>
    have hs : State.MemoryCanonical { s with upsets := s.upsets.erase (.storage x fixable) } := h.of_sameStore (by simp)
    dsimp only
    split
    · exact hs.of_sameStore (by simp)
    · split
      · next hp => exact (State.poisonStored_canonical x hs hp).of_sameStore (by simp)
      · trivial
  · trivial

/-! ## Reset and start -/

/-- Right after reset nothing is listed. -/
theorem State.MemoryCanonical.of_empty {s : State} (hm : s.mem = []) (ht : s.tags = []) (hp : s.poisoned = []) :
    s.MemoryCanonical := by
  unfold State.MemoryCanonical
  rw [hm, ht, hp]
  exact ⟨rfl, rfl, List.Pairwise.nil⟩

theorem State.restart_canonical (s : State) (cause : Nat) (hold : Bool) : (s.restart cause hold).MemoryCanonical :=
  (State.MemoryCanonical.of_empty rfl rfl rfl).of_sameStore (State.resetRecords_sameStore _ cause)

theorem execDeviceReset_leadsCanonical (cause : Nat) (s : State) : LeadsCanonical (execDeviceReset cause s) := by
  unfold execDeviceReset
  split
  · exact s.restart_canonical _ _
  · trivial

theorem execThermalReset_leadsCanonical (temp : Nat) {s : State} (h : s.MemoryCanonical) :
    LeadsCanonical (execThermalReset temp s) := by
  unfold execThermalReset
  split
  · trivial
  · split
    · exact h
    · exact s.restart_canonical _ _

theorem execPowerLoss_leadsCanonical (s : State) : LeadsCanonical (execPowerLoss s) :=
  State.MemoryCanonical.of_empty rfl rfl rfl

theorem State.startStep_leadsCanonical {s : State} (h : s.MemoryCanonical) : LeadsCanonical s.startStep := by
  unfold State.startStep
  dsimp only
  split
  · obtain ⟨hm, _, hp⟩ := h
    exact ⟨hm, rfl, hp⟩
  · split <;> exact h.of_sameStore (by simp)

/-! ## Instructions -/

/-- The instructions that a base die performs on the store, those that write tags, poison or nothing of it, and those
that reset it. -/
def touchesStore : Instr → Bool
  | .rd _ | .wr _ | .mwr _ | .requestComplete _ | .scrub _ _ | .deviceReset _ | .thermalReset _ | .powerLoss => true
  | _ => false

/-- Every other instruction leaves the store as it was. -/
theorem exec_keepsStore (i : Instr) (s : State) (h : touchesStore i = false) : KeepsStore s (exec i s) := by
  cases i with
  | rd => cases h
  | wr => cases h
  | mwr => cases h
  | requestComplete => cases h
  | scrub => cases h
  | deviceReset => cases h
  | thermalReset => cases h
  | powerLoss => cases h
  | _ => simp

theorem exec_leadsCanonical (i : Instr) {s : State} (h : s.MemoryCanonical) : LeadsCanonical (exec i s) := by
  cases hi : touchesStore i with
  | false => exact (exec_keepsStore i s hi).leadsCanonical h
  | true =>
    cases i with
    | rd q => exact s.takePacket_leadsCanonical q _ _ h
    | wr q => exact s.takePacket_leadsCanonical q _ _ h
    | mwr q => exact s.takePacket_leadsCanonical q _ _ h
    | requestComplete id => exact execRequestComplete_leadsCanonical id h
    | scrub pa e => exact execScrub_leadsCanonical pa e h
    | deviceReset cause => exact execDeviceReset_leadsCanonical cause s
    | thermalReset temp => exact execThermalReset_leadsCanonical temp h
    | powerLoss => exact execPowerLoss_leadsCanonical s
    | _ => cases hi

end Sys2Proof.Machine
end

section
/-!
SUPPORT. Fetching leaves the store as it was; the events that may be due, and what the schedule chooses, keep memory
canonical.
-/
namespace Sys2Proof.Machine

/-! ## Fetching -/

/-- Whatever a fetch finds, the store is that of `s`. -/
def Fetch.KeepsStore (s : State) : Fetch → Prop
  | .word t _ => t.SameStore s
  | .failed t _ _ => t.SameStore s

theorem State.fetchNow_keepsStore (s : State) (w : Warp) (ia : Nat) : (s.fetchNow w ia).KeepsStore s := by
  unfold State.fetchNow
  split <;> (rename_i hp; obtain rfl := eq_snd_of_eq hp; simp [Fetch.KeepsStore])

theorem State.spoiltCode_keepsStore (s : State) (k : WKey) (w : Warp) (ia : Nat) :
    (s.spoiltCode k w ia).KeepsStore s := by
  simp [State.spoiltCode, Fetch.KeepsStore]

theorem State.fetch_keepsStore (s : State) (t : Team) (w : Warp) : (s.fetch t w).KeepsStore s := by
  have hkeep : ∀ (f : Fetch) (u : State) (ia : Nat), u.SameStore s → f.KeepsStore u → Fetch.KeepsStore s
      (match f with
      | .word s x => .word (s.keepWord (t.wkey w) w ia x) x
      | f => f) := by
    intro f u ia hu hf
    cases f with
    | word v x => exact State.sameStore_trans (State.keepWord_sameStore v _ w ia x) (State.sameStore_trans hf hu)
    | failed v x a => exact State.sameStore_trans hf hu
  unfold State.fetch
  dsimp only
  split
  · exact ⟨rfl, rfl, rfl⟩
  · next r _ =>
    split
    · exact ⟨rfl, rfl, rfl⟩
    · split
      · split
        · exact s.spoiltCode_keepsStore _ _ _
        · exact ⟨rfl, rfl, rfl⟩
      · split
        · exact s.spoiltCode_keepsStore _ _ _
        · split
          · exact hkeep _ s _ ⟨rfl, rfl, rfl⟩ (s.fetchNow_keepsStore w _)
          · split
            · exact hkeep _ _ _ s.draw_sameStore (State.fetchNow_keepsStore _ w _)
            · exact hkeep (.word s.draw.2 _) _ _ s.draw_sameStore ⟨rfl, rfl, rfl⟩

/-! ## Events -/

/-- Events none of which changes the store. -/
def EventsKeepStore (l : List Event) : Prop := ∀ f ∈ l, ∀ u, KeepsStore u (f u)

/-- Events that lead from a canonical state to canonical ones only. -/
def EventsKeepCanonical (l : List Event) : Prop := ∀ f ∈ l, ∀ u : State, u.MemoryCanonical → LeadsCanonical (f u)

section
variable {α : Type} {l m : List Event} {f : Event} {g : α → Event} {h : α → List Event} {as : List α}

@[simp] theorem eventsKeepStore_nil : EventsKeepStore [] := by simp [EventsKeepStore]
@[simp] theorem eventsKeepStore_cons : EventsKeepStore (f :: l) ↔ (∀ u, KeepsStore u (f u)) ∧ EventsKeepStore l :=
  List.forall_mem_cons
@[simp] theorem eventsKeepStore_append : EventsKeepStore (l ++ m) ↔ EventsKeepStore l ∧ EventsKeepStore m :=
  List.forall_mem_append
@[simp] theorem eventsKeepStore_map : EventsKeepStore (as.map g) ↔ ∀ a ∈ as, ∀ u, KeepsStore u (g a u) :=
  List.forall_mem_map
@[simp] theorem eventsKeepStore_flatMap : EventsKeepStore (as.flatMap h) ↔ ∀ a ∈ as, EventsKeepStore (h a) :=
  List.forall_mem_flatMap
@[simp] theorem eventsKeepStore_ite {p : Prop} [Decidable p] :
    EventsKeepStore (if p then l else m) ↔ (p → EventsKeepStore l) ∧ (¬p → EventsKeepStore m) := by
  split <;> simp [*]

theorem EventsKeepStore.keepCanonical (hl : EventsKeepStore l) : EventsKeepCanonical l :=
  fun f hf u hu => (hl f hf u).leadsCanonical hu

theorem eventsKeepCanonical_append :
    EventsKeepCanonical (l ++ m) ↔ EventsKeepCanonical l ∧ EventsKeepCanonical m :=
  List.forall_mem_append

theorem EventsKeepCanonical.flatMap (hh : ∀ a, EventsKeepCanonical (h a)) : EventsKeepCanonical (as.flatMap h) :=
  List.forall_mem_flatMap.mpr fun a _ => hh a

theorem EventsKeepCanonical.map (hg : ∀ a (u : State), u.MemoryCanonical → LeadsCanonical (g a u)) :
    EventsKeepCanonical (as.map g) :=
  List.forall_mem_map.mpr fun a _ => hg a

end

theorem Team.warpEvents_keepStore (s : State) (t : Team) (w : Warp) : EventsKeepStore (t.warpEvents s w) := by
  unfold Team.warpEvents
  simp only [eventsKeepStore_append]
  refine ⟨⟨?_, ?_⟩, by simp⟩
  · split
    case h_10 => split <;> simp
    all_goals simp
  · split <;> simp

theorem Team.events_keepStore (s : State) (t : Team) : EventsKeepStore (t.events s) := by
  unfold Team.events
  simp only [eventsKeepStore_append, eventsKeepStore_flatMap]
  refine ⟨?_, fun w _ => t.warpEvents_keepStore s w⟩
  split <;> simp

theorem Core.events_keepStore (c : Core) : EventsKeepStore c.events := by
  simp [Core.events]

theorem Context.events_keepStore (c : Context) : EventsKeepStore c.events := by
  simp [Context.events, Queue.events]

theorem PageFault.events_keepStore (p : PageFault) : EventsKeepStore p.events := by
  simp [PageFault.events]

theorem Collective.events_keepStore (c : Collective) : EventsKeepStore c.events := by
  simp [Collective.events]

theorem MemOp.events_keepCanonical (o : MemOp) : EventsKeepCanonical o.events := by
  intro f hf u hu
  obtain rfl | rfl : f = execTagProbeVerdict o.id ∨ f = execRequestComplete o.id := by simpa [MemOp.events] using hf
  · exact KeepsStore.leadsCanonical (by simp) hu
  · exact execRequestComplete_leadsCanonical o.id hu

theorem StreamState.events_keepCanonical (x : StreamState) : EventsKeepCanonical x.events := by
  refine eventsKeepCanonical_append.mpr ⟨fun f hf u hu => ?_, EventsKeepStore.keepCanonical ?_⟩
  · split at hf
    · cases hf
    · obtain rfl | rfl | rfl : f = execRd x.key ∨ f = execWr x.key ∨ f = execMwr x.key := by simpa using hf
      all_goals exact u.takePacket_leadsCanonical _ _ _ hu
  · rw [eventsKeepStore_map]
    intro r _ u
    split <;> simp

theorem Mgmt.events_keepCanonical (m : Mgmt) : EventsKeepCanonical m.events := by
  refine eventsKeepCanonical_append.mpr ⟨eventsKeepCanonical_append.mpr ⟨EventsKeepStore.keepCanonical (by simp),
    fun f hf u hu => ?_⟩, EventsKeepStore.keepCanonical (by simp)⟩
  split at hf
  · obtain rfl := List.mem_singleton.mp hf
    exact State.startStep_leadsCanonical hu
  · cases hf

theorem State.events_keepCanonical (s : State) : EventsKeepCanonical s.events := by
  unfold State.events
  simp only [eventsKeepCanonical_append]
  refine ⟨⟨⟨⟨⟨⟨⟨⟨⟨⟨⟨⟨⟨⟨?_, ?_⟩, ?_⟩, ?ops⟩, ?streams⟩, ?_⟩, ?_⟩, ?_⟩, ?_⟩, ?_⟩, ?_⟩, ?_⟩, ?_⟩, ?errors⟩, ?mgmt⟩
  case ops => exact .flatMap MemOp.events_keepCanonical
  case streams => exact .flatMap StreamState.events_keepCanonical
  case errors => exact .map fun x u hu => storageError_leadsCanonical x hu
  case mgmt => exact s.mgmt.events_keepCanonical
  all_goals exact EventsKeepStore.keepCanonical (by simp [Team.events_keepStore, Core.events_keepStore,
    PageFault.events_keepStore, Context.events_keepStore, Collective.events_keepStore])

theorem State.walks_keepCanonical (s : State) : EventsKeepCanonical s.walks :=
  EventsKeepStore.keepCanonical (by simp [State.walks])

theorem State.recordWrites_keepCanonical (s : State) : EventsKeepCanonical s.recordWrites :=
  EventsKeepStore.keepCanonical (by simp [State.recordWrites])

/-! ## The issue of a warp -/

theorem State.runWord_leadsCanonical {s : State} (x : BitVec 96) (h : s.MemoryCanonical) :
    LeadsCanonical (s.runWord x) := by
  unfold State.runWord
  split
  · exact exec_leadsCanonical _ h
  · exact exec_leadsCanonical _ h
  · exact (illegalOperand_keepsStore x s ⟨rfl, rfl, rfl⟩).leadsCanonical h

theorem State.issue_leadsCanonical {s : State} (k : WKey) (h : s.MemoryCanonical) : LeadsCanonical (s.issue k) := by
  unfold State.issue
  split
  · next t w _ _ =>
    split
    · exact h.of_sameStore (s.doBackEdge_sameStore k)
    · split
      · exact exec_leadsCanonical _ h
      · have hf := s.fetch_keepsStore t w
        split <;> rename_i hs <;> rw [hs] at hf
        · exact (h.of_sameStore hf).of_sameStore (State.trapped_sameStore _ _ _ _)
        · exact State.runWord_leadsCanonical _ (h.of_sameStore hf)
  · trivial

theorem State.issueNext_leadsCanonical {s : State} (k : WKey) (h : s.MemoryCanonical) :
    LeadsCanonical (s.issueNext k) := by
  have hi := State.issue_leadsCanonical (s := { s with cur := some k }) k (h.of_sameStore (by simp))
  unfold State.issueNext
  split
  · next t ht =>
    rw [ht] at hi
    have hc : t.MemoryCanonical := hi
    rw [leadsCanonical_next]
    split
    · exact hc.of_sameStore (by simp)
    · exact h.of_sameStore (by simp)
  · next hne =>
    cases ho : State.issue { s with cur := some k } k with
    | next t => exact absurd ho (hne t)
    | fault f => trivial
    | refused r => trivial

theorem State.attempt_canonical {s t : State} (k : WKey) (h : s.MemoryCanonical) (ha : s.attempt k = .error t) :
    t.MemoryCanonical := by
  have hi := State.issueNext_leadsCanonical k h
  unfold State.attempt at ha
  split at ha
  · next u hu =>
    rw [hu] at hi
    split at ha
    · cases ha; exact hi
    · cases ha
  · cases ha

theorem State.settleReady_canonical {s : State} (l : List WKey) (h : s.MemoryCanonical) :
    (s.settleReady l).2.MemoryCanonical := by
  unfold State.settleReady
  generalize hx : (([], s) : List WKey × State) = x
  have hx2 : x.2.MemoryCanonical := by rw [← hx]; exact h
  clear hx h
  induction l generalizing x with
  | nil => exact hx2
  | cons k l ih =>
    refine ih _ ?_
    dsimp only
    split
    · exact hx2
    · next ha => exact State.attempt_canonical k hx2 ha

theorem State.issueQuad_leadsCanonical {s : State} (core n : Nat) (h : s.MemoryCanonical) :
    LeadsCanonical (s.issueQuad core n) := by
  have hs := State.settleReady_canonical (s.mayIssue.filter fun k => s.quadOfWarp k == (core, n)) h
  unfold State.issueQuad
  generalize s.settleReady _ = able at hs ⊢
  have hr := hs.of_sameStore (able.2.readyNow_sameStore able.1)
  dsimp only
  split
  · exact hr
  · next k _ =>
    have hi := State.issueNext_leadsCanonical k hr
    generalize State.issueNext _ k = o at hi ⊢
    cases o with
    | next t =>
      simp only [mapNext, leadsCanonical_next]
      split
      · exact hi
      · exact State.MemoryCanonical.of_sameStore hi (by simp)
    | fault f => trivial
    | refused r => trivial

/-! ## One step -/

theorem State.takeInput_leadsCanonical {s : State} (before l : List Instr) (h : s.MemoryCanonical) :
    LeadsCanonical (s.takeInput before l) := by
  induction l generalizing before with
  | nil => exact h
  | cons i rest ih =>
    have he := exec_leadsCanonical i (s := { s with inputs := before ++ rest }) (h.of_sameStore (by simp))
    unfold State.takeInput
    dsimp only
    split
    · exact ih _
    · split
      · exact h.of_sameStore (by simp)
      · split
        · exact ih _
        · next ht =>
          rw [ht] at he
          split
          · exact he
          · exact ih _
        · exact he

/-- What may happen in a step keeps memory canonical. -/
theorem State.due_keepsCanonical (s : State) {d : Due} (hd : d ∈ s.due) {u : State} (hu : u.MemoryCanonical) :
    LeadsCanonical (u.run d) := by
  cases d with
  | event n f =>
    have hf : f ∈ s.walks ∨ f ∈ s.events ∨ f ∈ s.recordWrites := by
      have hq : ∀ l : List (Nat × Nat), Due.event n f ∉ l.map fun x => Due.quad x.1 x.2 := by simp
      have hi : Due.event n f ∉ (if s.inputs.isEmpty then [] else [Due.input]) := by split <;> simp
      simp only [State.due, List.mem_append, hq, hi, or_false, List.mem_map, List.mem_filter, Due.event.injEq] at hd
      aesop
    obtain hf | hf | hf := hf
    · exact s.walks_keepCanonical f hf u hu
    · exact s.events_keepCanonical f hf u hu
    · exact s.recordWrites_keepCanonical f hf u hu
  | input => exact State.takeInput_leadsCanonical _ _ hu
  | quad core n => exact State.issueQuad_leadsCanonical core n hu

theorem State.choose_mem_due {s : State} {d : Due} (h : s.choose = some d) : d ∈ s.due := by
  unfold State.choose at h
  split at h
  · cases h
  · next x hx =>
    obtain rfl := Option.some.inj h
    rw [hx]
    exact List.mem_singleton_self _
  · dsimp only at h
    obtain ⟨x, hx, rfl⟩ := Option.map_eq_some_iff.mp h
    generalize hf : List.find? _ _ = o
    cases o with
    | none => exact List.mem_of_getElem? hx
    | some y =>
      obtain ⟨z, hz, hzy⟩ := List.mem_filterMap.mp (List.mem_of_find?_eq_some hf)
      split at hzy
      · obtain rfl := Option.some.inj hzy
        exact List.fst_mem_of_mem_zipIdx hz
      · cases hzy

theorem State.next_leadsCanonical {s : State} (h : s.MemoryCanonical) : LeadsCanonical s.next := by
  have hp := h.of_sameStore s.pass_sameStore
  unfold State.next
  dsimp only
  split
  · exact State.issueNext_leadsCanonical _ hp
  · split
    · next hd => exact State.due_keepsCanonical _ (State.choose_mem_due hd) hp
    · exact hp

/-- Settles O3: only the writers of memory, tags and poison marks (and a reset) change the store, and each of them
keeps the canonical form; every other part of a step leaves the store as it was. -/
theorem stepKeepsMemoryCanonical : Obligations.StepKeepsMemoryCanonical := by
  unfold Obligations.StepKeepsMemoryCanonical
  intro s t hs ht
  have hn : LeadsCanonical (step s) := State.next_leadsCanonical hs
  rwa [ht] at hn

end Sys2Proof.Machine
end

section
/-!
SUPPORT. Recoverable page faults (R249, R254 to R257): what a core reports, the window of an entry, replays; and host
commands that no update holds back (R372).
-/

namespace Sys2Proof.Machine

/-! ## Host commands (R372) -/

/-- With no update under way and no command held, a command that answers a state is performed. -/
theorem State.command_of_idle {s : State} (hphase : s.mgmt.fwPhase = .idle) (hheld : s.mgmt.heldCommands = [])
    (c : HostCommand) (t : State) : s.command c (.next t) = .next t := by
  simp [State.command, hphase, hheld]

/-! ## Reports (R255, R256) -/

section

variable {s : State} {core : Nat} {p : PageKey} {r : PageReport} (hr : (s.core core).filter.find? (·.page == p) = some r)
include hr

/-- A page that has its entry takes the accesses of the report. -/
theorem execHubStageReport_joins {x : PageFault} (hx : s.pageFault? p = some x) : execHubStageReport core p s =
    .next ((s.modCore core fun c => { c with filter := c.filter.filter (·.page != p) }).modFault p fun x =>
      { x with acc := x.acc ||| (s.report r).acc }) := by
  simp only [execHubStageReport, hr, hx]

/-- A page without an entry gets one, while its hub has one free. -/
theorem execHubStageReport_opens (hnone : s.pageFault? p = none)
    (hfree : (s.pageFaults.filter (·.hub == (s.report r).hub)).length < 512) :
    let s1 := s.modCore core fun c => { c with filter := c.filter.filter (·.page != p) }
    execHubStageReport core p s = .next { s1 with pageFaults := s1.pageFaults ++ [s.report r] } := by
  simp only [execHubStageReport, hr, hnone]
  exact if_neg (Nat.not_le.2 hfree)

end

/-! ## Windows and re-walks (R255, R257) -/

section

variable {s : State} {p : PageKey} {f : PageFault} (hf : s.pageFault? p = some f)
include hf

theorem execFaultWindowClose_of_ended (hopen : f.windowOpen = true) (hended : f.since + 1000 ≤ s.clock)
    (hroom : s.fqRoom p.ctx = true) : execFaultWindowClose p s =
    .next ((s.pageFaultRecord f).modFault p fun f => { f with windowOpen := false, recorded := true }) := by
  have hpast : decide (s.clock < f.since + faultWindow) = false := decide_eq_false (Nat.not_lt.2 hended)
  simp [execFaultWindowClose, hf, hopen, hpast, hroom]

variable (hreplay : f.replay = true)
include hreplay

/-- A re-walk that finds anything but a missing page closes the entry. -/
theorem execReplayWalkResult_found (hwalk : s.walk (p.page * 65536) ≠ .missing) :
    execReplayWalkResult p s = .next (s.unpark p) := by
  -- `hwalk` rules out the first branch of the walk's answers.
  simp only [execReplayWalkResult, hf, hreplay, Bool.not_true, Bool.false_eq_true, if_false]

variable (hwalk : s.walk (p.page * 65536) = .missing)
include hwalk

/-- While the window is open a page that is missing again only loses its mark: its first record is still to come. -/
theorem execReplayWalkResult_window (hopen : f.windowOpen = true) :
    execReplayWalkResult p s = .next (s.modFault p fun f => { f with replay := false }) := by
  simp [execReplayWalkResult, hf, hreplay, hwalk, hopen]

/-- After the window a page that is missing again writes a record that counts it. -/
theorem execReplayWalkResult_again (hclosed : f.windowOpen = false) (hroom : s.fqRoom p.ctx = true) :
    let g := { f with replay := false, repeats := satAdd 16 f.repeats 1 }
    execReplayWalkResult p s = .next
      ((((s.parkedOps p).map (·.key)).eraseDups.foldl State.refreshParked (s.modFault p fun _ => g)).pageFaultRecord g) := by
  simp [execReplayWalkResult, hf, hreplay, hwalk, hclosed, hroom]

end

/-- Settles O47: each event is due when its clause holds, and answers the state that the clause gives. -/
theorem pageFaultsAreReportedAndReplayed : Obligations.PageFaultsAreReportedAndReplayed := by
  refine fun s p => ⟨fun core r hr => ⟨fun x hx => ?joins, fun hnone hfree => ?opens⟩,
    fun hphase hheld => ⟨?page, ?all⟩, fun f hf => ⟨fun hopen hended hroom => ?window, fun hreplay =>
      ⟨fun hwalk => ?found, fun hwalk hopen => ?still, fun hwalk hclosed hroom => ?again⟩⟩⟩
  case joins => exact execHubStageReport_joins hr hx
  case opens => exact execHubStageReport_opens hr hnone hfree
  case page => exact State.command_of_idle hphase hheld ..
  case all => exact State.command_of_idle hphase hheld ..
  case window => exact execFaultWindowClose_of_ended hf hopen hended hroom
  case found => exact execReplayWalkResult_found hf hreplay hwalk
  case still => exact execReplayWalkResult_window hf hreplay hwalk hopen
  case again => exact execReplayWalkResult_again hf hreplay hwalk hclosed hroom

end Sys2Proof.Machine
end

section
/-!
SUPPORT. What the driver writes about contexts: context control and core sets (R268), resets (R334), the fault ring (R318),
range registers (R369), the function binding (R367), translation commands (R250).
-/

namespace Sys2Proof.Machine

/-- A field of a word is a slice of its bits. -/
theorem fieldOf_eq_extractLsb' (w : Word) (hi lo : Nat) : fieldOf w hi lo = (w.extractLsb' lo (hi + 1 - lo)).toNat :=
  (BitVec.extractLsb'_toNat ..).symm

section

variable {s : State} {ctx : Nat}

/-! ## Contexts and their resets (R268, R334) -/

theorem execContextControlWrite_resident (v : Word) (h : s.hasResident ctx = true) :
    execContextControlWrite ctx v s = .next s := if_pos (by simp [h])

theorem execCoreSetWrite_resident (j : Nat) (v : Word) (h : s.hasResident ctx = true) :
    execCoreSetWrite ctx j v s = .next s := if_pos (by simp [h])

theorem execContextControlWrite_free (v : Word) (hctx : ctx < 64) (h : s.hasResident ctx = false) :
    execContextControlWrite ctx v s = .next (s.modCtx ctx fun c => { c with control := v &&& controlMask }) :=
  if_neg (by simp [contexts, hctx, h])

theorem execCoreSetWrite_free {j : Nat} (v : Word) (hctx : ctx < 64) (hj : j < 9) (h : s.hasResident ctx = false) :
    execCoreSetWrite ctx j v s = .next (s.modCtx ctx fun c => { c with coreSet := putCoreSet c.coreSet j v }) :=
  if_neg (by simp [contexts, hctx, hj, h])

theorem ctxReset_begins (s : State) (hctx : ctx < 64) : ctxReset ctx s = .next (s.beginReset ctx) := by
  simp [ctxReset, contexts, hctx]

theorem State.requestsOpen_eq_false (hops : ∀ o ∈ s.ops, o.key.ctx ≠ ctx)
    (hwrites : ∀ c ∈ s.cores, ∀ b ∈ c.wbs, b.owner.ctx ≠ ctx) : s.requestsOpen ctx = false := by
  simpa [State.requestsOpen] using ⟨hops, hwrites⟩

theorem execContextResetComplete_of_rest (hreset : (s.ctx ctx).resetting = true) (hopen : s.requestsOpen ctx = false) :
    execContextResetComplete ctx s = .next (s.modCtx ctx Context.cleared) := if_neg (by simp [hreset, hopen])

/-! ## The fault ring (R318) -/

theorem execFqctlWrite_large {v : Word} (h : 12 < fieldOf v 15 12) : execFqctlWrite ctx v s = .next s := if_pos h

theorem execFqctlWrite_enable {v : Word} (h : fieldOf v 15 12 ≤ 12) (hen : v.getLsbD 8 = true) :
    execFqctlWrite ctx v s = .next (s.modCtx ctx fun c => { c with fqCtl := v, rfail := false, noring := 0 }) := by
  simp only [execFqctlWrite, if_neg (Nat.not_lt.2 h), hen, Bool.not_true, Bool.and_false, if_true]

theorem execFqctlWrite_disable {v : Word} (h : fieldOf v 15 12 ≤ 12) (hen : v.getLsbD 8 = false) :
    execFqctlWrite ctx v s = .next (s.modCtx ctx fun c => { c with fqCtl := v }) := by
  simp only [execFqctlWrite, if_neg (Nat.not_lt.2 h), hen, Bool.not_false, Bool.and_true, Bool.false_eq_true, if_false]

/-! ## Range registers (R369) -/

theorem execRangeRegisterCommit_of_lt {k : Nat} (v : Word) (hctx : ctx < 64) (hk : k < 16) :
    execRangeRegisterCommit ctx k v s = .next (s.modCtx ctx fun c =>
      let st := c.staged.getD k [0, 0, 0]
      { c with ranges := c.ranges.set k (rangeWords (st.getD 0 0) v (st.getD 1 0) (st.getD 2 0)) }) :=
  if_neg (by simp [contexts, hctx, hk])

end

/-! ## The function binding (R367) -/

/-- The bindings after the first `m` bytes of word `j` have been written: a context is bound anew if it may be. -/
def State.bindBytes (s : State) (j : Nat) (v : Word) (m : Nat) : List (BitVec 8) :=
  (List.range m).foldl (fun l b =>
    if s.idleAfterReset (8 * j + b) then l.set (8 * j + b) (v.extractLsb' (8 * b) 8 &&& 0xBF#8) else l) s.mgmt.binding

theorem execFunctionBindingWrite_of_lt {j : Nat} (hj : j < 8) (v : Word) (s : State) : execFunctionBindingWrite j v s =
    .next { s with mgmt := { s.mgmt with binding := s.bindBytes j v 8 } } := if_neg (Nat.not_le.2 hj)

theorem State.bindBytes_succ (s : State) (j : Nat) (v : Word) (m : Nat) : s.bindBytes j v (m + 1) =
    if s.idleAfterReset (8 * j + m) then (s.bindBytes j v m).set (8 * j + m) (v.extractLsb' (8 * m) 8 &&& 0xBF#8)
    else s.bindBytes j v m := by
  simp only [State.bindBytes, List.range_succ, List.foldl_append, List.foldl_cons, List.foldl_nil]

@[simp] theorem State.bindBytes_length (s : State) (j : Nat) (v : Word) (m : Nat) :
    (s.bindBytes j v m).length = s.mgmt.binding.length := by
  induction m with
  | zero => rfl
  | succ m ih => rw [State.bindBytes_succ]; split <;> simp [ih]

/-- The first `m` contexts of word `j` have their byte of the word if they may be bound; every other binding stays. -/
theorem State.bindBytes_getElem? (s : State) (j : Nat) (v : Word) (m : Nat) {n : Nat} (hn : n < s.mgmt.binding.length) :
    (s.bindBytes j v m)[n]? = if (8 * j ≤ n ∧ n < 8 * j + m) ∧ s.idleAfterReset n = true then
      some (v.extractLsb' (8 * (n - 8 * j)) 8 &&& 0xBF#8) else s.mgmt.binding[n]? := by
  induction m with
  | zero => rw [if_neg (by omega)]; rfl
  | succ m ih =>
    rw [State.bindBytes_succ]
    by_cases hm : n = 8 * j + m
    · subst hm
      by_cases hidle : s.idleAfterReset (8 * j + m) = true
      · simp [hidle, hn]
      · rw [if_neg hidle, ih, if_neg (fun h => hidle h.2), if_neg (fun h => hidle h.2)]
    · have hrest : (if s.idleAfterReset (8 * j + m) then
          (s.bindBytes j v m).set (8 * j + m) (v.extractLsb' (8 * m) 8 &&& 0xBF#8) else s.bindBytes j v m)[n]? =
          (s.bindBytes j v m)[n]? := by
        split
        · exact List.getElem?_set_ne (Ne.symm hm)
        · rfl
      have hsame : (8 * j ≤ n ∧ n < 8 * j + (m + 1)) ↔ (8 * j ≤ n ∧ n < 8 * j + m) := by omega
      rw [hrest, ih]
      simp only [hsame]

/-- The contexts of word `j` are those that 8 divides `j` times. -/
theorem State.bindBytes_word (s : State) (j : Nat) (v : Word) {n : Nat} (hn : n < s.mgmt.binding.length) :
    (s.bindBytes j v 8)[n]? = if n / 8 = j ∧ s.idleAfterReset n = true then
      some (v.extractLsb' (8 * (n % 8)) 8 &&& 0xBF#8) else s.mgmt.binding[n]? := by
  have hword : (8 * j ≤ n ∧ n < 8 * j + 8) ↔ n / 8 = j := by omega
  rw [s.bindBytes_getElem? j v 8 hn]
  simp only [hword]
  split
  next h =>
    have hmod : n - 8 * j = n % 8 := by omega
    rw [hmod]
  next => rfl

/-! ## Translation commands (R250) -/

section

variable {s : State} {v : Word}

theorem State.translation_rejected (h : 2 ≤ fieldOf v 63 62 ∨ translationBad v = true) : s.translation v =
    let s1 := s.endTranslation
    { s1 with mgmt := { s1.mgmt with transStatus := true, transRej := true } } := if_pos (by simpa using h)

theorem State.translation_taken (hop : fieldOf v 63 62 < 2) (h : translationBad v = false) : s.translation v =
    let s1 := s.endTranslation
    { s1 with mgmt := { s1.mgmt with transBusy := some v, transStatus := false, transRej := false } } :=
  if_neg (by simpa [h] using hop)

theorem execTranslationCommandComplete_of_busy (h : s.mgmt.transBusy = some v) : execTranslationCommandComplete s =
    let t := s.runTranslation v
    .next { t with mgmt := { t.mgmt with
      transBusy := none, transStatus := !s.mgmt.heldCommands.any HostCommand.isTranslation } } := by
  simp [execTranslationCommandComplete, State.endTranslation, h]

variable (hphase : s.mgmt.fwPhase = .idle) (hheld : s.mgmt.heldCommands = [])
include hphase hheld

theorem execTranslationOpReserved_of_idle (h : 2 ≤ fieldOf v 63 62) :
    execTranslationOpReserved v s = .next (s.translation v) :=
  (if_pos h).trans (State.command_of_idle hphase hheld ..)

theorem execTranslationDrop_of_idle (h : fieldOf v 63 62 = 0) : execTranslationDrop v s = .next (s.translation v) :=
  (if_pos h).trans (State.command_of_idle hphase hheld ..)

theorem execTranslationWritebackInvalidate_of_idle (h : fieldOf v 63 62 = 1) :
    execTranslationWritebackInvalidate v s = .next (s.translation v) :=
  (if_pos h).trans (State.command_of_idle hphase hheld ..)

end

/-- Settles O54: a write by whether its context may take it, a command by whether it is good; the bindings are written
byte by byte. -/
theorem driverWrites : Obligations.DriverWrites := by
  intro s ctx v
  have hlogsz : (v.extractLsb' 12 4).toNat = fieldOf v 15 12 := (fieldOf_eq_extractLsb' v 15 12).symm
  have hop : (v.extractLsb' 62 2).toNat = fieldOf v 63 62 := (fieldOf_eq_extractLsb' v 63 62).symm
  rw [hlogsz, hop]
  refine ⟨fun _ hres => ⟨?controlKept, fun j => ?setKept⟩, fun hctx hfree => ⟨?control, fun j hj => ?set⟩,
    fun hctx hphase hheld => ?reset, fun hreset hops hwrites => ?complete, fun hbig => ?ignored,
    fun hfit => ⟨fun hen => ?enable, fun hen => ?disable⟩, fun r => ?read, fun k hk hctx => ?range,
    fun j hj => ?binding, fun hphase hheld => ⟨fun h => ?reserved, fun hgood => ⟨fun h => ?drop, fun h => ?writeBack⟩,
      fun hbad => ⟨fun h => ?dropBad, fun h => ?writeBackBad⟩⟩, fun hbusy => ?completes⟩
  case controlKept => exact execContextControlWrite_resident v hres
  case setKept => exact execCoreSetWrite_resident j v hres
  case control => exact execContextControlWrite_free v hctx hfree
  case set => exact execCoreSetWrite_free v hctx hj hfree
  case reset =>
    rw [exec_ctxReset, execCtxReset, ctxReset_begins s hctx]
    exact State.command_of_idle hphase hheld ..
  case complete => exact execContextResetComplete_of_rest hreset (State.requestsOpen_eq_false hops hwrites)
  case ignored => exact execFqctlWrite_large hbig
  case enable => exact execFqctlWrite_enable hfit hen
  case disable => exact execFqctlWrite_disable hfit hen
  case read => rfl
  case range => exact execRangeRegisterCommit_of_lt v hctx hk
  case binding =>
    exact ⟨_, execFunctionBindingWrite_of_lt hj v s, rfl, s.bindBytes_length j v 8, fun n hn => s.bindBytes_word j v hn⟩
  case reserved =>
    exact (execTranslationOpReserved_of_idle hphase hheld h).trans (congrArg _ (State.translation_rejected (.inl h)))
  case drop =>
    exact (execTranslationDrop_of_idle hphase hheld h).trans (congrArg _ (State.translation_taken (by omega) hgood))
  case writeBack =>
    exact (execTranslationWritebackInvalidate_of_idle hphase hheld h).trans
      (congrArg _ (State.translation_taken (by omega) hgood))
  case dropBad =>
    exact (execTranslationDrop_of_idle hphase hheld h).trans (congrArg _ (State.translation_rejected (.inr hbad)))
  case writeBackBad =>
    exact (execTranslationWritebackInvalidate_of_idle hphase hheld h).trans
      (congrArg _ (State.translation_rejected (.inr hbad)))
  case completes => exact execTranslationCommandComplete_of_busy hbusy

end Sys2Proof.Machine
end

section
/-!
SUPPORT. Emitting records (R281, R285, R286, R292).
-/

namespace Sys2Proof.Machine

/-- The records that an emission of lanes and instances `l` over an edge sends. -/
def Env.emitted (e : Env) (f : Firing) (n : Nat) (x : Edge) (l : List (Nat × Nat)) : List Record :=
  l.map fun y => { node := f.id * 256 + x.consumer, inst := y.2, scope := (e.currentScope y.1).getD 0
                   cause := e.w.cause, edge := some n }

/-- The state in which those records have left the warp: the reservation of their slot has fallen, the edge's count and
the counts of their scopes have risen. -/
def Env.emittedState (e : Env) (slot : Nat) (f : Firing) (n : Nat) (x : Edge) (l : List (Nat × Nat)) : State :=
  (e.emitted f n x l).foldl (fun s r => s.scopeUp e.k.ctx r.scope 1)
    (((e.s.unflush e.k).modTeam e.k.team fun t =>
      { t with reserved := t.reserved.set slot (t.reserved.getD slot 0 - l.length) }).modFiring e.k.ctx f.id fun f =>
        f.modEdge n fun x => { x with accepted := x.accepted + l.length })

section

variable {e : Env} {i : Instr} {slot : Nat} {l : List (Nat × Nat)} (hl : l ≠ [])
include hl

theorem Env.emitRecords_unreserved (h : e.reservation slot < l.length) :
    e.emitRecords i slot l.length (fun _ => l) = e.trap 0x1C :=
  (if_neg (by simpa using hl)).trans (if_pos h)

variable (hres : l.length ≤ e.reservation slot) {f : Firing} {n : Nat} {x : Edge} (hedge : e.emitEdge slot = some (f, n, x))
include hres hedge

theorem Env.emitRecords_bound_met (hb : x.bound ≠ 0) (h : x.bound < x.accepted + l.length) :
    e.emitRecords i slot l.length (fun _ => l) = e.trap 0x1C := by
  have hfull : x.bound ≠ 0 ∧ x.accepted + l.length > x.bound := ⟨hb, h⟩
  simp [Env.emitRecords, hl, Nat.not_lt.2 hres, hedge, hfull]

variable (hroom : x.bound = 0 ∨ x.accepted + l.length ≤ x.bound)
include hroom

theorem Env.emitRecords_no_scope {y : Nat × Nat} (h : l.find? (fun y => (e.currentScope y.1).isNone) = some y) :
    e.emitRecords i slot l.length (fun _ => l) = e.trap 0x1F y.1 := by
  have hfree : ¬ (x.bound ≠ 0 ∧ x.accepted + l.length > x.bound) := by omega
  simp only [Env.emitRecords, List.length_eq_zero_iff, if_neg hl, if_neg (Nat.not_lt.2 hres), hedge, if_neg hfree, h]

variable (hscoped : ∀ y ∈ l, (e.currentScope y.1).isSome = true)
include hscoped

/-- With a scope for every lane, the scopes decide whether the records are sent. -/
theorem Env.emitRecords_scoped : e.emitRecords i slot l.length (fun _ => l) =
    if l.any fun y => !e.ctx.accepts ((e.currentScope y.1).getD 0) e.t.counted then e.trap 0x1F
    else e.afterRelease .dv fun e => .enter ((e.emittedState slot f n x l).enterWait e.k
      (.emitTrip f.id (e.emitted f n x l)) (roundTrip i.opcode 0 (BitVec.ofNat 64 l.length))) := by
  have hfree : ¬ (x.bound ≠ 0 ∧ x.accepted + l.length > x.bound) := by omega
  have hall : l.find? (fun y => (e.currentScope y.1).isNone) = none := by
    rw [List.find?_eq_none]
    intro y hy hnone
    have hsome := hscoped y hy
    simp_all
  simp only [Env.emitRecords, List.length_eq_zero_iff, if_neg hl, if_neg (Nat.not_lt.2 hres), hedge, if_neg hfree, hall]
  rfl

theorem Env.emitRecords_scope_refused (h : ∃ y ∈ l, ∃ h, e.currentScope y.1 = some h ∧ e.ctx.accepts h e.t.counted = false) :
    e.emitRecords i slot l.length (fun _ => l) = e.trap 0x1F := by
  obtain ⟨y, hy, c, hc, hrefused⟩ := h
  refine (emitRecords_scoped hl hres hedge hroom hscoped).trans (if_pos (List.any_eq_true.2 ⟨y, hy, ?_⟩))
  rw [hc, Option.getD_some, hrefused, Bool.not_false]

end

theorem Env.emitRecords_sends {e : Env} {i : Instr} {slot : Nat} {l : List (Nat × Nat)} (hl : l ≠ [])
    (hres : l.length ≤ e.reservation slot) {f : Firing} {n : Nat} {x : Edge} (hedge : e.emitEdge slot = some (f, n, x))
    (hroom : x.bound = 0 ∨ x.accepted + l.length ≤ x.bound)
    (h : ∀ y ∈ l, ∃ h, e.currentScope y.1 = some h ∧ e.ctx.accepts h e.t.counted = true) {t : State}
    (ht : e.release .dv = .ok t) : e.emitRecords i slot l.length (fun _ => l) =
      .enter ((({ e with s := t } : Env).emittedState slot f n x l).enterWait e.k (.emitTrip f.id (e.emitted f n x l))
        (roundTrip i.opcode 0 (BitVec.ofNat 64 l.length))) := by
  have hscoped : ∀ y ∈ l, (e.currentScope y.1).isSome = true := fun y hy => by
    obtain ⟨c, hc, -⟩ := h y hy
    rw [hc, Option.isSome_some]
  have haccepted : ¬ (l.any fun y => !e.ctx.accepts ((e.currentScope y.1).getD 0) e.t.counted) = true := by
    simp only [List.any_eq_true, not_exists, not_and]
    intro y hy
    obtain ⟨c, hc, hok⟩ := h y hy
    simp [hc, hok]
  exact (emitRecords_scoped hl hres hedge hroom hscoped).trans ((if_neg haccepted).trans (afterRelease_done ht _))

/-- Settles O30: an emission by its checks, in the order of `Env.emitRecords`; both forms share it. -/
theorem emitResults : Obligations.EmitResults := by
  intro g e o slot emits
  have hemits {i : Instr} {l : List (Nat × Nat)} {f : Env → Act} (hx : ∀ s, exec i s = runRaw i s f)
      (hf : f e = e.emitRecords i slot l.length fun _ => l) : emits i l := by
    refine ⟨fun h => ?none, fun hl h => ?unreserved, fun hl hres f n x hedge => ⟨fun hb h => ?full, fun hroom =>
      ⟨fun y h => ?scopeless, fun hscoped h => ?refused, fun h t ht => ?sent⟩⟩⟩
    case none => exact Env.doesRaw_of_runRaw hx (by rw [hf, h]; rfl)
    case unreserved => exact Env.traps_of_runRaw hx (hf.trans (Env.emitRecords_unreserved hl h))
    case full => exact Env.traps_of_runRaw hx (hf.trans (Env.emitRecords_bound_met hl hres hedge hb h))
    case scopeless => exact Env.traps_of_runRaw hx (hf.trans (Env.emitRecords_no_scope hl hres hedge hroom h))
    case refused => exact Env.traps_of_runRaw hx (hf.trans (Env.emitRecords_scope_refused hl hres hedge hroom hscoped h))
    case sent => exact Env.enters_of_runRaw hx (hf.trans (Env.emitRecords_sends hl hres hedge hroom h ht))
  exact ⟨hemits (exec_emit · o) (by rw [List.length_map]; rfl),
    hemits (exec_emitn · o) (by rw [List.length_map, List.length_range]), Env.does_of_runSeq (exec_emitq · o) rfl⟩

end Sys2Proof.Machine
end

section
/-!
SUPPORT. The finish-scope instructions (R284 to R286, R293).
-/

namespace Sys2Proof.Machine

section

variable {e : Env} {g : Sig} {o : Ops (BitVec 16)}

/-- A ready scope instruction whose effect leaves `t` waits for the foundry's reply `r`. -/
abbrev Env.Trips (e : Env) (i : Instr) (g : Sig) (h : Word) (t : State) (r : ScopeReply) : Prop :=
  e.Enters i g (t.enterWait e.k (.scopeTrip r) (roundTrip i.opcode h 0))

/-- The reply that says only that an effect is made. -/
abbrev ScopeReply.plain : ScopeReply := ⟨.special .zero, 0, none⟩

theorem Env.traps_fsopen (h0 : e.scalar o.a ≠ 0) (h : e.ctx.accepts (e.scalar o.a) e.t.counted = false) :
    e.Traps (.fsopen o) g 0x1F :=
  Env.traps_of_runRaw (exec_fsopen · o) (if_pos (Bool.and_eq_true_iff.2 ⟨decide_eq_true h0, by rw [h, Bool.not_false]⟩))

section

variable (h : e.scalar o.a = 0 ∨ e.ctx.accepts (e.scalar o.a) e.t.counted = true)
include h

theorem Env.not_refused_of_accepts : ¬ (e.scalar o.a ≠ 0 && !e.ctx.accepts (e.scalar o.a) e.t.counted) = true := by
  obtain h | h := h <;> simp [h]

theorem Env.trips_fsopen_none (hnone : (e.s.unflush e.k).allocScope e.k.ctx (e.scalar o.a) none = none) :
    e.Trips (.fsopen o) g (e.scalar o.a) (e.s.unflush e.k) ⟨o.d, 0, some (o.imm.setWidth 4, false)⟩ :=
  Env.enters_of_runRaw (exec_fsopen · o) ((if_neg (Env.not_refused_of_accepts h)).trans (by simp only [hnone]; rfl))

theorem Env.trips_fsopen_some {new : Word} {t : State}
    (hnew : (e.s.unflush e.k).allocScope e.k.ctx (e.scalar o.a) none = some (new, t)) :
    e.Trips (.fsopen o) g (e.scalar o.a) (t.scopeUp e.k.ctx (e.scalar o.a) 1) ⟨o.d, new, some (o.imm.setWidth 4, true)⟩ :=
  Env.enters_of_runRaw (exec_fsopen · o) ((if_neg (Env.not_refused_of_accepts h)).trans (by simp only [hnew]; rfl))

end

section

variable (h : e.ctx.scope? (e.scalar o.a) = none)
include h

theorem Env.traps_dead_scope : e.Traps (.fsclose o) g 0x1F ∧ e.Traps (.fswait o) g 0x1F ∧ e.Traps (.fsstat o) g 0x1F :=
  ⟨Env.traps_of_runRaw (exec_fsclose · o) (by simp only [h]), Env.traps_of_runRaw (exec_fswait · o) (by simp only [h]),
    Env.traps_of_runRaw (exec_fsstat · o) (by simp only [h])⟩

theorem Env.traps_fsjoin (h0 : e.scalar o.a ≠ 0) : e.Traps (.fsjoin o) g 0x1F :=
  Env.traps_of_runRaw (exec_fsjoin · o) (if_pos (Bool.and_eq_true_iff.2 ⟨decide_eq_true h0, by rw [h, Option.isNone_none]⟩))

end

/-- A handle that is 0 or live becomes the joined scope of the warp. -/
theorem Env.trips_fsjoin (h : e.scalar o.a = 0 ∨ (e.ctx.scope? (e.scalar o.a)).isSome = true) :
    e.Trips (.fsjoin o) g (e.scalar o.a) (e.s.modWarp e.k fun w =>
      { w with joined := if e.scalar o.a = 0 then none else some (e.scalar o.a) }) .plain := by
  refine Env.enters_of_runRaw (exec_fsjoin · o) (if_neg ?_)
  obtain h | h := h
  · simp [h]
  · simp [Option.isSome_iff_ne_none.1 h]

section

variable {x : ScopeEntry} (hx : e.ctx.scope? (e.scalar o.a) = some x)
include hx

theorem Env.traps_fsclose (h : x.closed = true) : e.Traps (.fsclose o) g 0x1F :=
  Env.traps_of_runRaw (exec_fsclose · o) (by simp only [hx, if_pos h])

theorem Env.trips_fsclose (h : x.closed = false) : e.Trips (.fsclose o) g (e.scalar o.a)
    (e.s.closeScope e.k.ctx (e.scalar o.a) (o.mod.getLsbD 0) (o.mod.getLsbD 1)) .plain :=
  Env.enters_of_runRaw (exec_fsclose · o) (by simp only [hx, if_neg (ne_true_of_eq_false h)]; rfl)

theorem Env.trips_fsstat : e.Trips (.fsstat o) g (e.scalar o.a) e.s ⟨o.d, x.statWord, none⟩ :=
  Env.enters_of_runRaw (exec_fsstat · o) (by simp only [hx]; rfl)

theorem Env.traps_fswait (h : x.closed = false ∨ x.detach = true ∨
    e.t.counted.any (fun c => e.ctx.under 257 c (e.scalar o.a)) = true) : e.Traps (.fswait o) g 0x1F := by
  have hnever : (!x.closed || x.detach || e.t.counted.any fun c => e.ctx.under 257 c (e.scalar o.a)) = true := by
    rwa [Bool.or_eq_true, Bool.or_eq_true, Bool.not_eq_true', or_assoc]
  exact Env.traps_of_runRaw (exec_fswait · o) (by simp only [hx]; exact if_pos hnever)

theorem Env.enters_fswait (hclosed : x.closed = true) (hdetach : x.detach = false)
    (hown : (e.t.counted.any fun c => e.ctx.under 257 c (e.scalar o.a)) = false) :
    e.Enters (.fswait o) g (e.s.enterWait e.k (.scopeWait o.d (e.scalar o.a))
      { kind := 2, obj := e.scalar o.a, a0 := BitVec.ofNat 64 x.count }) := by
  have hends : (!x.closed || x.detach || e.t.counted.any fun c => e.ctx.under 257 c (e.scalar o.a)) = false := by
    rw [hclosed, hdetach, hown]; rfl
  exact Env.enters_of_runRaw (exec_fswait · o) (by simp only [hx]; exact if_neg (ne_true_of_eq_false hends))

end

end

/-- Settles O31: each instruction by its handle: dead or live, closed or open. -/
theorem scopeInstructionResults : Obligations.ScopeInstructionResults := by
  intro g e o h trips none'
  refine ⟨Env.traps_fsopen, fun hopen => ⟨Env.trips_fsopen_none hopen, fun new t => Env.trips_fsopen_some hopen⟩,
    fun hdead => ?dead, fun x hx => ⟨Env.traps_fsclose hx, Env.trips_fsclose hx, Env.trips_fsstat hx, Env.traps_fswait hx,
      Env.enters_fswait hx⟩, fun h0 => ?leaves, fun h0 hlive => ?joins⟩
  case dead =>
    obtain ⟨hclose, hwait, hstat⟩ := Env.traps_dead_scope (g := g) hdead
    exact ⟨hclose, hwait, hstat, Env.traps_fsjoin hdead⟩
  case leaves =>
    have hleft := Env.trips_fsjoin (g := g) (.inl h0)
    rwa [if_pos h0] at hleft
  case joins =>
    have hjoined := Env.trips_fsjoin (g := g) (.inr hlive)
    rwa [if_neg h0] at hjoined

end Sys2Proof.Machine
end

section
/-!
SUPPORT. The queues (R269 to R271, R273, R287), casts in their parts (R353, R355) and partial waves (R282).
-/

namespace Sys2Proof.Machine

/-! ## The writes of the queue registers (R269, R270) -/

/-- A QCTL value that R269 rejects, field by field. -/
theorem qctlBad_iff {v : Word} : qctlBad v = true ↔ 12 < (v.extractLsb' 12 4).toNat ∨ v.extractLsb' 16 48 ≠ 0 ∨
    v.getLsbD 11 = true ∨ v.extractLsb' 0 8 ≠ 0 ∨ (v.getLsbD 10 = true ∧ v.getLsbD 9 = true) := by
  simp [qctlBad, fieldOf_eq_extractLsb', or_assoc, BitVec.toNat_eq]

section

variable {s : State} {k : QKey}

theorem State.notice_lowered {v : BitVec 32} (h : lowers (s.queue k).write v = true) : s.notice k v = s := if_pos h

theorem State.notice_taken {v : BitVec 32} (h : lowers (s.queue k).write v = false) :
    s.notice k v = s.modQueue k fun q => { q with write := v, stalled := false } := if_neg (ne_true_of_eq_false h)

theorem execNotifyWordRead_raises {x : Word} {s1 : State} (hserving : s.serving = true)
    (hen : (s.queue k).ctl.getLsbD 8 = true) (hdevn : (s.queue k).ctl.getLsbD 10 = true)
    (hread : s.l2Word (s.queue k).notifyAt = (some x, s1)) (hnew : x.setWidth 32 ≠ (s.queue k).write)
    (h : lowers (s.queue k).write (x.setWidth 32) = false) : execNotifyWordRead k s =
      .next ((s1.foundrySaw 0 (s.queue k).notifyAt 8 0 0).notice k (x.setWidth 32)) := by
  simp only [execNotifyWordRead, Queue.enabled, Queue.devn, hserving, hen, hdevn, hread]
  exact if_neg (not_or.2 ⟨hnew, ne_true_of_eq_false h⟩)

theorem execQctlWrite_bad {v : Word} (h : qctlBad v = true) :
    execQctlWrite k v s = .next (s.modQueue k fun q => { q with status := 0x02 }) := if_pos h

theorem execQctlWrite_good {v : Word} (h : ¬ qctlBad v = true) :
    execQctlWrite k v s = .next (s.modQueue k fun q => { q with ctl := v, status := 0 }) := if_neg h

theorem execQstatErrClear_none (h : (s.queue k).err = false) : execQstatErrClear k s = .next s := if_pos (by rw [h]; rfl)

theorem execQstatErrClear_skips (h : (s.queue k).err = true) : execQstatErrClear k s =
    .next (s.modQueue k fun q => { q with err := false, read := q.read + 1, passed := [], stalled := false }) :=
  if_neg (by rw [h]; decide)

/-! ## Decode in the queue's turn (R270, R271, R273) -/

section

variable (hheld : s.heldPacket k = none) (hturn : s.nextQueue (homeHub k.ctx) = some k)
include hheld hturn

theorem State.packetEvent_turn {kind : Nat} {name : String} {bs : List Byte} {s1 : State}
    (hslot : s.ringSlot (s.queue k) = (some bs, s1)) : s.packetEvent k kind name =
      if !validOf bs then .next (s1.modQueue k fun q => { q with stalled := true })
      else if kindOf bs != kind then .refused (.eventNotPending name)
      else match s1.decodePacket k bs with
        | some s2 => .next s2
        | none => .refused (.eventNotPending name) := by
  simp only [State.packetEvent, hheld, hturn, hslot, bne_self_eq_false, Bool.false_eq_true, if_false] <;> rfl

theorem State.packetEvent_stops {kind : Nat} {name : String} {bs : List Byte} {s1 : State}
    (hslot : s.ringSlot (s.queue k) = (some bs, s1)) (h : validOf bs = false) :
    s.packetEvent k kind name = .next (s1.modQueue k fun q => { q with stalled := true }) :=
  (State.packetEvent_turn hheld hturn hslot).trans (if_pos (by rw [h]; rfl))

theorem State.packetEvent_decodes {kind : Nat} {name : String} {bs : List Byte} {s1 s2 : State}
    (hslot : s.ringSlot (s.queue k) = (some bs, s1)) (h : validOf bs = true) (hs2 : s1.decodePacket k bs = some s2)
    (hkind : kindOf bs = kind) : s.packetEvent k kind name = .next s2 := by
  rw [State.packetEvent_turn hheld hturn hslot, if_neg (by rw [h]; decide), if_neg (by simp [hkind]), hs2]

variable (hroom : s.fqRoom k.ctx = true)
include hroom

theorem execBadKind_decodes {bs : List Byte} {s1 s2 : State} (hslot : s.ringSlot (s.queue k) = (some bs, s1))
    (h : validOf bs = true) (hs2 : s1.decodePacket k bs = some s2) (hkind : kindOf bs = 0 ∨ 5 < kindOf bs) :
    execBadKind k s = .next s2 := by
  have hreserved : ¬ (1 ≤ kindOf bs ∧ kindOf bs ≤ 5) := by omega
  simp [execBadKind, hheld, hturn, hroom, hslot, h, hs2, hreserved]

theorem execBadKind_unreadable {s1 : State} (hslot : s.ringSlot (s.queue k) = (none, s1)) :
    execBadKind k s = .next (((s1.endHeld k 0).rejectPacket k 0x09 0).turned k) := by
  simp [execBadKind, hheld, hturn, hroom, hslot]

end

/-- A packet held behind BARRIER begins at the event of its KIND, once its barrier is open. -/
theorem State.packetEvent_begins {p : PacketRun} (hheld : s.heldPacket k = some p) (hserving : s.serving = true)
    (hbegun : p.begun = false) (hopen : s.barrierOpen p = true) {kind : Nat} {name : String} (hkind : p.kind = kind) :
    s.packetEvent k kind name = .next (s.beginPacket p) := by
  simp only [State.packetEvent, hheld, hserving, hbegun, hopen, hkind, beq_self_eq_true]
  rfl

/-- With no unfinished SIGNAL or CAST packet, those events decode like the others. -/
theorem execSignalPacket_decodes (h : s.unfinished k 4 = none) : execSignalPacket k s = s.packetEvent k 4 "SIGNAL" := by
  simp [execSignalPacket, h]

theorem execCastPacket_decodes (h : s.unfinished k 5 = none) : execCastPacket k s = s.packetEvent k 5 "CAST" := by
  simp [execCastPacket, h]

/-! ## Work under way (R273, R353, R355) -/

theorem execSignalPacket_runs {p : PacketRun} (hserving : s.serving = true) (hp : s.unfinished k 4 = some p)
    (h : (s.runSignal p.id).packets ≠ s.packets) : execSignalPacket k s = .next (s.runSignal p.id) := by
  simp [execSignalPacket, hserving, hp, h]

theorem execCastPacket_runs {p : PacketRun} (hserving : s.serving = true) (hp : s.unfinished k 5 = some p)
    (h : s.castDue p = true) : execCastPacket k s = .next (s.runCast p.id) := by
  simp [execCastPacket, hserving, hp, h]

end

section

variable {s : State} {id : Nat} {p : PacketRun} (hp : s.packet? id = some p)
include hp

section

variable {c : CastRun} (hc : p.cast = some c)
include hc

theorem State.runCast_places (hplaced : c.placed = false) (hrestore : c.restore = false) :
    s.runCast id = s.castPlace p c := by
  simp [State.runCast, hp, hc, hplaced, hrestore]

theorem State.runCast_checks (hplaced : c.placed = false) (hrestore : c.restore = true) :
    s.runCast id = if (s.castCheck p c).1 then (s.castCheck p c).2 else (s.castCheck p c).2.completeId id := by
  simp [State.runCast, hp, hc, hplaced, hrestore]

variable (hplaced : c.placed = true)
include hplaced

theorem State.runCast_copies (hcopied : c.copied = false) : s.runCast id = s.castCopy p c := by
  simp [State.runCast, hp, hc, hplaced, hcopied]

variable (hcopied : c.copied = true)
include hcopied

theorem State.runCast_finishes (hrestore : c.restore = true) : s.runCast id = (s.castFinish p c).completeId id := by
  simp [State.runCast, hp, hc, hplaced, hcopied, hrestore]

theorem State.runCast_seals (hrestore : c.restore = false) (hparity : s.parityDone p = true) :
    s.runCast id = (s.castManifest p c).completeId id := by
  simp [State.runCast, hp, hc, hplaced, hcopied, hrestore, hparity]

end

theorem execWaitPacketSatisfied_completes (hkind : p.kind = 3) (hstarted : p.started = true) (hserving : s.serving = true)
    (h : if p.orWait then ∃ b ∈ (s.readWaits p).1, b = true else ∀ b ∈ (s.readWaits p).1, b = true) :
    execWaitPacketSatisfied id s = .next ((s.readWaits p).2.completeId id) := by
  have hsatisfied : (if p.orWait then (s.readWaits p).1.any (· == true) else (s.readWaits p).1.all (· == true)) = true := by
    cases hor : p.orWait <;> simpa [hor] using h
  simp only [execWaitPacketSatisfied, hp, hkind, hstarted, hserving]
  exact if_pos hsatisfied

end

/-! ## Partial waves (R282) -/

theorem execGatherTimeout_forms {s : State} {ctx firing node : Nat} {f : Firing} {x : Node}
    (hf : (s.ctx ctx).firing? firing = some f) (hx : f.nodes[node]? = some x) (hserving : s.serving = true)
    (hlane : x.lane = true) (hpending : x.pending ≠ []) (h : x.last + 100 * x.timeout ≤ s.clock) :
    execGatherTimeout ctx firing node s = .next (s.formLaunch ctx f node x 32) := by
  simp [execGatherTimeout, hf, hx, hserving, hlane, hpending, h]

/-- A launch that is formed is put last. -/
theorem State.formLaunch_launches (s : State) (ctx : Nat) (f : Firing) (n : Nat) (x : Node) (m : Nat) :
    (s.formLaunch ctx f n x m).launches = s.launches ++ [x.launch s.nextId ctx f.packet f.id n (x.pending.take m)] := by
  unfold State.formLaunch
  dsimp only
  split <;> rfl

theorem Context.firing?_id {c : Context} {id : Nat} {f : Firing} (h : c.firing? id = some f) : f.id = id := by
  have hfound := List.find?_some h
  exact beq_iff_eq.1 hfound

/-- Settles O50: every event is due when its clause holds, and answers the state that the clause gives. -/
theorem queueEvents : Obligations.QueueEvents := by
  intro s k q
  refine ⟨fun v => ⟨fun h => ?lowered, fun h => ?taken⟩, fun x s1 => execNotifyWordRead_raises,
    fun v => ⟨fun h => ?bad, fun h => ?good⟩, execQstatErrClear_none, execQstatErrClear_skips,
    fun hheld hturn => ⟨fun bs s1 => State.packetEvent_stops hheld hturn, fun bs s1 hslot h s2 hs2 => ?decodes,
      fun s1 hslot hroom => execBadKind_unreadable hheld hturn hroom hslot⟩, fun p hp hserving hbegun hopen => ?begins,
    fun p => execSignalPacket_runs, fun p => execCastPacket_runs, fun id p c hp hc => ?casts,
    fun id p => execWaitPacketSatisfied_completes, fun ctx firing node f x hf hx hserving hlane hpending h => ?wave⟩
  case lowered => exact congrArg _ (State.notice_lowered h)
  case taken => exact congrArg _ (State.notice_taken h)
  case bad => exact execQctlWrite_bad (qctlBad_iff.2 h)
  case good => exact execQctlWrite_good (mt qctlBad_iff.1 h)
  case decodes =>
    have hdecodes {kind : Nat} {name : String} (hkind : kindOf bs = kind) : s.packetEvent k kind name = .next s2 :=
      State.packetEvent_decodes hheld hturn hslot h hs2 hkind
    exact ⟨hdecodes, hdecodes, hdecodes, fun hkind hnone => (execSignalPacket_decodes hnone).trans (hdecodes hkind),
      fun hkind hnone => (execCastPacket_decodes hnone).trans (hdecodes hkind),
      fun hkind hroom => execBadKind_decodes hheld hturn hroom hslot h hs2 hkind⟩
  case begins =>
    have hbegins {kind : Nat} {name : String} (hkind : p.kind = kind) : s.packetEvent k kind name = .next (s.beginPacket p) :=
      State.packetEvent_begins hp hserving hbegun hopen hkind
    exact ⟨hbegins, hbegins, hbegins⟩
  case casts =>
    exact ⟨State.runCast_places hp hc, State.runCast_checks hp hc, State.runCast_copies hp hc,
      State.runCast_finishes hp hc, State.runCast_seals hp hc⟩
  case wave =>
    exact ⟨execGatherTimeout_forms hf hx hserving hlane hpending h, _, s.formLaunch_launches .., rfl, rfl, rfl,
      congrArg some (Context.firing?_id hf)⟩

end Sys2Proof.Machine
end

section
/-!
SUPPORT. The collective instructions (R301, R305 to R311).
-/

namespace Sys2Proof.Machine

/-! ## The checks of a data operation (R305) -/

theorem mfield_eq (o : Ops (BitVec 16)) (lo n : Nat) : mfield o lo n = o.mod.toNat / 2 ^ lo % 2 ^ n := by
  rw [mfield, BitVec.extractLsb'_toNat, Nat.shiftRight_eq_div_pow]

/-- A slice is in units of 16 bytes, at most 2^24 bytes long, and inside its buffer. -/
theorem Collective.sliceOk_iff {c : Collective} {buf off len : Nat} : c.sliceOk buf off len = true ↔
    off % 16 = 0 ∧ len % 16 = 0 ∧ len ≤ 2 ^ 24 ∧ off + len ≤ c.sizes.getD buf 0 := by
  simp [Collective.sliceOk, and_assoc]

theorem Collective.peerOk_switch_iff {c : Collective} {p : Nat} : c.peerOk p true = true ↔
    (p = 2 ^ 32 - 1 ∧ c.isr = true) ∨ (p < c.nranks ∧ p ≠ c.rank) := by
  simp [Collective.peerOk, switchRank]

theorem Collective.peerOk_rank_iff {c : Collective} {p : Nat} : c.peerOk p false = true ↔ p < c.nranks ∧ p ≠ c.rank := by
  simp [Collective.peerOk]

/-- A slice is checked before the peer, and the peer before the operation is issued. -/
def Env.sliceThenPeer (e : Env) (slice peer : Bool) (off : Nat) (issue : Act) : Act :=
  if !slice then e.relayTrap 0x02 off else if !peer then e.relayTrap 0x01 off else issue

theorem Env.sliceThenPeer_slice {e : Env} {slice peer : Bool} {off : Nat} {issue : Act} (h : ¬ slice = true) :
    e.sliceThenPeer slice peer off issue = e.relayTrap 0x02 off := if_pos (by simpa using h)

theorem Env.sliceThenPeer_peer {e : Env} {peer : Bool} {off : Nat} {issue : Act} (h : ¬ peer = true) :
    e.sliceThenPeer true peer off issue = e.relayTrap 0x01 off :=
  (if_neg (by decide)).trans (if_pos (by simpa using h))

/-- No data operation waits at issue: fewer than 64 of the warp are incomplete, and its LD, ST and SP counters are 0. -/
def Env.RelayReady (e : Env) : Prop :=
  (e.s.relayOf e.k).length < 64 ∧ e.w.counter .ld = 0 ∧ e.w.counter .st = 0 ∧ e.w.counter .sp = 0

section

variable {e : Env} {c : Collective} (hc : e.coll = some c)
include hc

theorem Env.relayData_ready (h : e.RelayReady) (f : Collective → Act) : e.relayData f = f c := by
  obtain ⟨hops, hld, hst, hsp⟩ := h
  have hpath : e.w.openPath = none := by simp [Warp.openPath, hld, hst, hsp]
  have hfew : decide (64 ≤ (e.s.relayOf e.k).length) = false := decide_eq_false (Nat.not_le.2 hops)
  simp only [Env.relayData, hc, hpath, hfew]

/-- With few enough operations incomplete, a join invalidates the L1 and goes on. -/
theorem Env.join_done {n : Nat} (h : (e.s.relayOf e.k).length ≤ n) (sig : Word) (f : Env → Act) :
    e.join n sig f = f { e with s := e.s.flashInvalidate e.w.core } := by
  simp only [Env.join, hc, if_neg (Nat.not_lt.2 h)]

end

/-- A `ccopy` checks its source slice, then its destination slice. -/
def Env.localCopy (e : Env) (o : Ops (BitVec 16)) (c : Collective) : Act :=
  let dst := (e.scalar o.d).toNat
  let src := (e.scalar o.a).toNat
  let len := (e.scalar o.b).toNat
  if !c.sliceOk (mfield o 2 2) src len then e.relayTrap 0x02 src
  else if !c.sliceOk (mfield o 0 2) dst len then e.relayTrap 0x02 dst
  else e.fork c .copy 0 0 none src (c.slice (mfield o 2 2) src) (c.slice (mfield o 0 2) dst) len 0 .z64 dst

theorem exec_ccopy_localCopy (o : Ops (BitVec 16)) (s : State) :
    exec (.ccopy o) s = runSeq (.ccopy o) s fun e => e.relayData (e.localCopy o) := rfl

theorem Env.fork_next (e : Env) (c : Collective) (kind : RelayKind) (slot peer : Nat) (fwd : Option Nat) (off : Nat)
    (src dst : Word) (len : Nat) (op : BitVec 2) (ty : Typ) (offD : Nat) :
    ∃ t, e.fork c kind slot peer fwd off src dst len op ty offD = .next t := ⟨_, rfl⟩

/-! ## Joins (R309) -/

/-- The step completion of a `cwait.sig` whose operations are done. -/
def Env.stepComplete (e : Env) (o : Ops (BitVec 16)) (c : Collective) : Act :=
  e.signal (.cwait o) o.a .atomic fun e va r => e.afterRelease .dv fun e =>
    .next (((e.signalAdd va r (BitVec.allOnes 64)).dropLines c e.w.relayWritten).modWarp e.k fun w =>
      { w with relayWritten := [] })

section

variable {e : Env} {g : Sig} {o : Ops (BitVec 16)}

theorem Env.traps_cwait_sig (hm : o.mod = 1) {code : Nat} (h : e.signalBad (e.scalar o.a) = some code) :
    e.Traps (.cwait o) g code 255 (e.scalar o.a) :=
  Env.traps_of_runSeq (exec_cwait · o) ((if_pos hm).trans (by simp only [h]))

variable {c : Collective} (hc : e.coll = some c)
include hc

theorem Env.does_cwait (hm : o.mod = 0) (h : (e.s.relayOf e.k).length ≤ o.imm.toNat) :
    e.Does (.cwait o) g (e.s.flashInvalidate e.w.core) :=
  Env.does_of_runSeq (exec_cwait · o) ((if_neg (by simp [hm])).trans (Env.join_done hc h _ _))

theorem Env.does_cwait_sig (hm : o.mod = 1) (hgood : e.signalBad (e.scalar o.a) = none)
    (h : (e.s.relayOf e.k).length ≤ o.imm.toNat) {t : State}
    (ht : Env.stepComplete { e with s := e.s.flashInvalidate e.w.core } o c = .next t) : e.Does (.cwait o) g t := by
  have hcoll : ({ e with s := e.s.flashInvalidate e.w.core } : Env).coll = some c := hc
  refine Env.does_of_runSeq (exec_cwait · o) ((if_pos hm).trans ?_)
  simp only [hgood, Env.join_done hc h, hcoll]
  exact ht

theorem Env.enters_cdone (h : e.s.relayOf e.k = []) :
    e.Enters (.cdone o) g (((e.s.flashInvalidate e.w.core).endWait e.k).exitWarp e.k) :=
  Env.enters_of_runRaw (exec_cdone · o) (Env.join_done hc (by rw [h]; exact Nat.le_refl 0) _ _)

/-! ## Ranks and barriers (R311) -/

theorem Env.traps_cpeer (hm : o.mod ≠ 0) (hcols : c.cols = 0) : e.Traps (.cpeer o) g 0x1D 255 (atBit 6 0 ||| atBit 0 8) :=
  Env.traps_of_runSeq (exec_cpeer · o) (by simp only [hc, if_pos (And.intro hm hcols)]; rfl)

theorem Env.sets_cpeer (h : o.mod = 0 ∨ c.cols ≠ 0) :
    e.Sets (.cpeer o) g o.d (BitVec.ofNat 64 (peerOf c o.mod.toNat (e.scalar o.a).toInt)) :=
  Env.does_of_runSeq (exec_cpeer · o) (by
    have hcols : ¬ (o.mod ≠ 0 ∧ c.cols = 0) := fun hbad => h.elim hbad.1 (absurd hbad.2)
    simp only [hc, if_neg hcols])

theorem Env.sets_crank : e.Sets (.crank o) g o.d (BitVec.ofNat 64 (
    if o.mod.toNat = 0 then c.rank else if o.mod.toNat = 1 then c.nranks else if o.mod.toNat = 2 then c.cols
    else (if c.isr then 1 else 0) + 2 * (if c.e2e then 1 else 0))) := by
  refine Env.does_of_runSeq (exec_crank · o) ?_
  simp only [hc]
  generalize o.mod.toNat = form
  rcases form with _ | _ | _ | _ <;> rfl

end

/-- Settles O42: the data operations share their checks; every other instruction by its own. -/
theorem collectiveInstructionResults : Obligations.CollectiveInstructionResults := by
  intro g e o c hc openOps ready m slot sliceOk rank peerOk relay a b len va data
  have hslice (buf off len : Nat) : c.sliceOk buf off len = true ↔ sliceOk buf off len := Collective.sliceOk_iff
  have hbuf : mfield o 0 2 = m % 4 := by simp [mfield_eq, m]
  have hbuf2 : mfield o 2 2 = m / 4 % 4 := by simp [mfield_eq, m]
  have hslot : mfield o 2 6 = slot := by simp [mfield_eq, slot, m]
  have hdata {i : Instr} {peers : Prop} {peer : Bool} {issued : Act} {f : Env → Act} (hx : ∀ s, exec i s = runSeq i s f)
      (hf : ready → f e = e.sliceThenPeer (c.sliceOk (m % 4) b len) peer b issued) (hp : peer = true ↔ peers)
      (hi : ∃ t, issued = .next t) : data i peers issued := by
    intro hr
    have hact := hf hr
    rw [← hp, ← hslice]
    refine ⟨fun h => Env.traps_of_runSeq hx (hact.trans (Env.sliceThenPeer_slice h)),
      fun h h' => Env.traps_of_runSeq hx (by rw [hact, h]; exact Env.sliceThenPeer_peer h'), fun h h' => ?_⟩
    obtain ⟨t, ht⟩ := hi
    exact ⟨t, ht, Env.does_of_runSeq hx (by rw [hact, h, h']; exact ht)⟩
  refine ⟨hdata (exec_csend · o) (fun hr => ?send) Collective.peerOk_switch_iff (Env.fork_next ..),
    hdata (exec_crecv · o) (fun hr => ?recv) Collective.peerOk_switch_iff (Env.fork_next ..),
    hdata (peer := c.peerOk a false && (if o.mod.getLsbD 15 then some (e.scalar o.d).toNat else none).all (c.peerOk · false))
      (exec_crrs · o) (fun hr => ?reduce) ?reducePeers (Env.fork_next ..), fun hr => ?copy,
    ⟨Env.does_cwait hc, fun hm code => Env.traps_cwait_sig hm, fun hm hgood h t => Env.does_cwait_sig hc hm hgood h, Env.enters_cdone hc⟩,
    Env.traps_cpeer hc, ⟨fun hm _ => ?ring, fun hm hcols => ?row, fun hm hcols => ?column⟩, Env.sets_crank hc, ?barrier⟩
  case send => rw [← hbuf, ← hslot]; exact Env.relayData_ready hc hr _
  case recv => rw [← hbuf, ← hslot]; exact Env.relayData_ready hc hr _
  case reduce => rw [← hbuf, ← hslot]; exact Env.relayData_ready hc hr _
  case reducePeers =>
    rw [Bool.and_eq_true, Collective.peerOk_rank_iff, Option.all_eq_true]
    exact and_congr Iff.rfl (forall₂_congr fun p _ => Collective.peerOk_rank_iff)
  case copy =>
    have hact := Env.relayData_ready hc hr (e.localCopy o)
    rw [Env.localCopy, hbuf, hbuf2] at hact
    refine ⟨fun h => ?_, fun hsrc h => ?_, fun hsrc hdst => ?_⟩
    · rw [← hslice, Bool.not_eq_true] at h
      exact Env.traps_of_runSeq (exec_ccopy_localCopy o) (hact.trans (if_pos (by rw [h]; rfl)))
    · rw [← hslice] at hsrc
      rw [← hslice, Bool.not_eq_true] at h
      exact Env.traps_of_runSeq (exec_ccopy_localCopy o)
        (hact.trans ((if_neg (by rw [hsrc]; decide)).trans (if_pos (by rw [h]; rfl))))
    · rw [← hslice] at hsrc hdst
      exact ⟨_, rfl, Env.does_of_runSeq (exec_ccopy_localCopy o)
        (hact.trans ((if_neg (by rw [hsrc]; decide)).trans (if_neg (by rw [hdst]; decide))))⟩
  case ring =>
    have hring := Env.sets_cpeer (g := g) (o := o) hc (.inl hm)
    rwa [hm] at hring
  case row =>
    have hrow := Env.sets_cpeer (g := g) (o := o) hc (.inr hcols)
    rw [hm] at hrow
    exact hrow
  case column =>
    have hcolumn := Env.sets_cpeer (g := g) (o := o) hc (.inr hcols)
    rwa [hm] at hcolumn
  case barrier => exact Env.enters_of_runRaw (exec_cbar · o) (by simp only [hc]; rfl)

end Sys2Proof.Machine
end

section
/-!
SUPPORT. The messages of relay operations (R306).
-/

namespace Sys2Proof.Machine

/-- A message of a live collective whose relay teams are not halted, and that was not held, is answered after the
watchdog has restarted. -/
theorem State.arrived_answered {s : State} {tag : Word} {c : Collective} (hc : s.coll? tag = some c)
    (hgoing : s.collHalted tag = false) {x : LinkMsg} (hx : x ∉ c.held) (rank step : Nat) (name : String)
    (f : Collective → State → State) : s.arrived tag rank step x name f = .next (f c (s.heard tag rank step)) := by
  simp [State.arrived, hc, hgoing, hx]

section

variable {s : State} {m : RelayMsg} {c : Collective} (hc : s.coll? m.tag = some c) (hgoing : s.collHalted m.tag = false)
include hc hgoing

/-! ## A request to send meets its receive -/

/-- Does a request to send meet this operation of the collective? -/
def requestMeets (m : RelayMsg) (c : Collective) (o : RelayOp) : Bool :=
  (o.kind == .recv || o.kind == .reduce) && o.posted && !o.matched && o.failed.isNone && sameKey m (o.recvMsg c)

section

variable (hx : .sendRequest m ∉ c.held)
include hx

theorem execRelaySendRequest_matched {o : RelayOp}
    (ho : (s.heard m.tag m.src m.step).relayOps.find? (requestMeets m c) = some o) :
    execRelaySendRequest m s = .next ((s.heard m.tag m.src m.step).matchRecv c o m) := by
  unfold requestMeets at ho
  simp only [execRelaySendRequest, hc, Option.isNone_some, Bool.false_eq_true, if_false,
    State.arrived_answered hc hgoing hx, ho]

theorem execRelaySendRequest_waits (ho : (s.heard m.tag m.src m.step).relayOps.find? (requestMeets m c) = none) :
    execRelaySendRequest m s =
      .next ((s.heard m.tag m.src m.step).modColl m.tag fun c => { c with requests := c.requests ++ [m] }) := by
  unfold requestMeets at ho
  simp only [execRelaySendRequest, hc, Option.isNone_some, Bool.false_eq_true, if_false,
    State.arrived_answered hc hgoing hx, ho]

end

/-! ## A credit lets the payload move -/

section

variable (hx : .credit m ∉ c.held) {o : RelayOp} (ho : (s.heard m.tag m.dst m.step).senderOf c m = some o)
include hx ho

theorem execRendezvousCredit_repeated (h : o.sent = true) :
    execRendezvousCredit m s = .next (s.heard m.tag m.dst m.step) := by
  simp [execRendezvousCredit, State.arrived_answered hc hgoing hx, ho, h]

variable (hsent : o.sent = false)
include hsent

theorem execRendezvousCredit_mismatch (h : m.len ≠ o.len) :
    execRendezvousCredit m s = .next ((s.heard m.tag m.dst m.step).failRelay o.id 0x1D 0x03) := by
  simp [execRendezvousCredit, State.arrived_answered hc hgoing hx, ho, hsent, h]

/-- The state in which the operation's payload is on its way. -/
def State.sending (s : State) (o : RelayOp) : State := s.modRelayOp o.id fun o => { o with sent := true }

variable (hlen : m.len = o.len)
include hlen

theorem execRendezvousCredit_empty (h : o.len = 0) : execRendezvousCredit m s =
    .next (((s.heard m.tag m.dst m.step).sending o).tell c o.sendTo (.payload (o.sendMsg c) [])) := by
  simp [execRendezvousCredit, State.arrived_answered hc hgoing hx, ho, hsent, hlen, h, State.sending]

/-- The slice that an operation sends. -/
def RelayOp.sentSlice (o : RelayOp) : Word := if o.kind == .reduce then o.dst else o.src

section

variable (h : o.len ≠ 0) {t : State}
include h

theorem execRendezvousCredit_sends {bs : List Byte}
    (hr : ((s.heard m.tag m.dst m.step).sending o).readSlice o o.sentSlice = (.ok bs, t)) :
    execRendezvousCredit m s = .next (t.tell c o.sendTo (.payload (o.sendMsg c) bs)) := by
  unfold State.sending RelayOp.sentSlice at hr
  simp only [execRendezvousCredit, State.arrived_answered hc hgoing hx, ho, hsent, hlen, Bool.false_eq_true, ne_eq,
    not_true_eq_false, if_false, if_neg h, hr]

theorem execRendezvousCredit_fails {x : Nat × Nat × Option Nat}
    (hr : ((s.heard m.tag m.dst m.step).sending o).readSlice o o.sentSlice = (.error x, t)) :
    execRendezvousCredit m s = .next (t.failRelay o.id x.1 x.2.1 x.2.2) := by
  unfold State.sending RelayOp.sentSlice at hr
  simp only [execRendezvousCredit, State.arrived_answered hc hgoing hx, ho, hsent, hlen, Bool.false_eq_true, ne_eq,
    not_true_eq_false, if_false, if_neg h, hr]

end

end

/-! ## A payload and its acknowledgement -/

/-- Does a payload meet this operation of the collective? -/
def payloadMeets (m : RelayMsg) (c : Collective) (o : RelayOp) : Bool :=
  o.matched && !o.received && o.failed.isNone && sameKey m (o.recvMsg c)

section

variable {data : List Byte} (hx : .payload m data ∉ c.held) {o : RelayOp}
  (ho : (s.heard m.tag m.src m.step).relayOps.find? (payloadMeets m c) = some o) {t : State}
include hx ho

theorem execRelayPayload_fails {x : Nat × Nat × Option Nat}
    (hr : (s.heard m.tag m.src m.step).receive o data = (.error x, t)) :
    execRelayPayload m data s = .next (t.failRelay o.id x.1 x.2.1 x.2.2) := by
  unfold payloadMeets at ho
  simp [execRelayPayload, State.arrived_answered hc hgoing hx, ho, hr]

/-- A payload that is performed is acknowledged, and forwarded where that is asked. -/
theorem execRelayPayload_performs (hr : (s.heard m.tag m.src m.step).receive o data = (.ok (), t)) :
    let t1 := (t.tell c o.peer (.ack (o.recvMsg c))).modRelayOp o.id fun o => { o with received := true }
    execRelayPayload m data s = .next (if o.fwd.isSome then t1.askSend c { o with received := true } else t1) := by
  unfold payloadMeets at ho
  simp [execRelayPayload, State.arrived_answered hc hgoing hx, ho, hr]

end

section

variable (hx : .ack m ∉ c.held)
include hx

theorem execRelayAck_sender {o : RelayOp} (ho : (s.heard m.tag m.dst m.step).senderOf c m = some o) :
    execRelayAck m s = .next ((s.heard m.tag m.dst m.step).modRelayOp o.id fun o => { o with acked := true }) := by
  simp only [execRelayAck, State.arrived_answered hc hgoing hx, ho]

theorem execRelayAck_none (ho : (s.heard m.tag m.dst m.step).senderOf c m = none) :
    execRelayAck m s = .next (s.heard m.tag m.dst m.step) := by
  simp only [execRelayAck, State.arrived_answered hc hgoing hx, ho]

end

end

/-- Settles O52: each message by the operation that it meets, and by what that operation's slice answers. -/
theorem relayMessages : Obligations.RelayMessages := by
  intro s m c hc hgoing from_ back
  refine ⟨fun hx => ⟨fun o => execRelaySendRequest_matched hc hgoing hx, execRelaySendRequest_waits hc hgoing hx⟩,
    fun hx o ho => ⟨execRendezvousCredit_repeated hc hgoing hx ho, fun hsent =>
      ⟨execRendezvousCredit_mismatch hc hgoing hx ho hsent, fun hlen => ⟨execRendezvousCredit_empty hc hgoing hx ho hsent hlen,
        fun h => ⟨fun bs hr => ?sends, fun x hr => ?fails⟩⟩⟩⟩,
    fun data hx o ho => ⟨fun x hr => ?refused, fun hr => ?performed⟩,
    fun hx => ⟨fun o => execRelayAck_sender hc hgoing hx, execRelayAck_none hc hgoing hx⟩⟩
  case sends => exact execRendezvousCredit_sends hc hgoing hx ho hsent hlen h (Prod.ext hr rfl)
  case fails => exact execRendezvousCredit_fails hc hgoing hx ho hsent hlen h (Prod.ext hr rfl)
  case refused => exact execRelayPayload_fails hc hgoing hx ho (Prod.ext hr rfl)
  case performed =>
    have hdone := execRelayPayload_performs hc hgoing hx ho (Prod.ext hr rfl)
    exact ⟨fun hfwd => hdone.trans (congrArg _ (if_neg (by simp [hfwd]))),
      fun p hfwd => hdone.trans (congrArg _ (if_pos (by simp [hfwd])))⟩

end Sys2Proof.Machine
end

section
/-!
SUPPORT. Collectives start, proceed, are cancelled and partitioned (R295, R296, R299, R305, R311, R313).
-/

namespace Sys2Proof.Machine

variable {s : State}

/-! ## The start (R299) -/

/-- The relay teams of a collective, one per channel, where every one of them finds a relay core. -/
def State.placeRelays (s : State) (p : PacketRun) (c : Collective) : Option State :=
  (List.range c.chans).foldl (fun acc ch => acc.bind fun s => s.placeRelay p c ch) (some s)

/-- May the collective of a packet start now: the packet has begun and the context works, the tag is free, its leases are
held, and no other team is on a relay core? -/
structure State.MayStart (s : State) (p : PacketRun) (c : Collective) : Prop where
  serving : s.serving = true
  begun : p.begun = true
  noCast : p.cast = none
  tagFree : s.coll? c.tag = none
  notLost : (s.ctx c.ctx).lost = false
  notResetting : (s.ctx c.ctx).resetting = false
  leased : (s.ctx c.ctx).leasesAwaited c.progKernel = []
  code : ((s.ctx c.ctx).codeRegister c.progKernel).isSome = true
  coresFree : s.onRelayCores = []

theorem execCollectiveStart_places {id : Nat} {p : PacketRun} {c : Collective} (hp : s.packet? id = some p)
    (hc : s.collectives.find? (fun c => c.packet == id && !c.live) = some c) (h : s.MayStart p c) {s1 : State}
    (hs1 : s.placeRelays p c = some s1) : execCollectiveStart id s = .next (s1.goLive id c.tag) := by
  unfold State.placeRelays at hs1
  simp [execCollectiveStart, hp, hc, h.serving, h.begun, h.noCast, h.tagFree, h.notLost, h.notResetting, h.leased, h.code,
    h.coresFree, hs1]

/-! ## The completion of an operation (R305) -/

section

variable {id : Nat} {o : RelayOp} (ho : s.relayOps.find? (·.id == id) = some o)
include ho

theorem execRelayOpComplete_faults {x : Nat × Nat × Option Nat} (hx : o.failed = some x) (hroom : s.fqRoom o.key.ctx = true) :
    execRelayOpComplete id s = .next (s.faultRelay o x.1 x.2.1 x.2.2) := by
  simp [execRelayOpComplete, ho, hx, hroom]

variable (hok : o.failed = none)
include hok

theorem execRelayOpComplete_posts {c : Collective} (hposted : o.posted = false) (hc : s.coll? o.tag = some c)
    (hmay : s.mayPost o = true) : execRelayOpComplete id s = .next (s.postRelay c o) := by
  simp [execRelayOpComplete, ho, hok, hposted, hc, hmay]

variable (hposted : o.posted = true) (hdone : o.done = true)
include hposted hdone

theorem execRelayOpComplete_ends (h : o.kind ≠ .copy ∨ o.len = 0) : execRelayOpComplete id s = .next (s.endRelay o) := by
  have hnocopy : (o.kind == .copy && o.len != 0) = false := by
    obtain h | h := h <;> simp [h]
  simp [execRelayOpComplete, ho, hok, hposted, hdone, hnocopy]

section

variable (hkind : o.kind = .copy) (hlen : o.len ≠ 0) {bs : List Byte} {s1 s2 : State}
  (hread : s.readSlice o o.src = (.ok bs, s1))
include hkind hlen hread

theorem execRelayOpComplete_copies (hwrite : s1.writeSlice o o.dst bs = (.ok (), s2)) :
    execRelayOpComplete id s = .next (s2.endRelay o) := by
  simp [execRelayOpComplete, ho, hok, hposted, hdone, hkind, hlen, hread, hwrite]

theorem execRelayOpComplete_copy_fails {x : Nat × Nat × Option Nat} (hwrite : s1.writeSlice o o.dst bs = (.error x, s2)) :
    execRelayOpComplete id s =
      .next ((s2.failRelay o.id x.1 x.2.1 x.2.2).modRelayOp o.id fun o => { o with failedDst := true }) := by
  simp [execRelayOpComplete, ho, hok, hposted, hdone, hkind, hlen, hread, hwrite]

end

end

/-! ## Arrivals, the watchdog and cancellation (R311, R313) -/

section

variable {tag : Word} {c : Collective} (hc : s.coll? tag = some c)
include hc

theorem execCbarArrival_counts {rank : CbarFrom} {chan : Nat} (h : rank.rank ≠ c.rank) :
    let s1 := (s.heard tag rank.rank rank.step).modColl tag fun c => c.arrive rank.rank chan
    execCbarArrival tag rank chan s = .next ((s1.relayWarps tag).foldl State.wakeCbar s1) := by
  simp [execCbarArrival, hc, h]

section

variable (hdue : c.progress + c.wdt * 100000 ≤ s.clock) (hroom : s.fqRoom c.ctx = true)
include hdue hroom

theorem execCollWatchdog_names {x : Item} (hx : oldest (s.items c) = some x) : execCollWatchdog tag s =
    .next ((s.watchdogRecord c x).modColl tag fun c => { c with progress := s.clock, repeats := c.repeats + 1 }) := by
  simp [execCollWatchdog, hc, Nat.not_lt.2 hdue, hroom, hx]

theorem execCollWatchdog_idle (hx : oldest (s.items c) = none) :
    execCollWatchdog tag s = .next (s.modColl tag fun c => { c with progress := s.clock }) := by
  simp [execCollWatchdog, hc, Nat.not_lt.2 hdue, hroom, hx]

end

theorem execCollectiveCancel_stops :
    let h := ((s.packet? c.packet).map (·.scope)).getD 0
    let s1 := s.modScope c.ctx h fun e => { e with status := if e.status = 1 then 1 else 2 }
    let s2 := (s1.relayTeams tag).foldl
      (fun s t => (s.modTeam t.key fun t => { t with faulted := true }).discardTeam t.key)
      (s1.modColl tag fun c => { c with cancelled := true, requests := [] })
    execCollectiveCancel tag s = .next ((s2.settleCollective tag).settlePackets c.ctx) := by
  simp only [execCollectiveCancel, hc]

end

theorem execCollectiveCancel_none {tag : Word} (hc : s.coll? tag = none) : execCollectiveCancel tag s = .next s := by
  simp only [execCollectiveCancel, hc]

theorem execCbarArrival_kept {tag : Word} (hc : s.coll? tag = none) (rank : CbarFrom) (chan : Nat) :
    execCbarArrival tag rank chan s = .next { s with relayWaiting := s.relayWaiting ++ [.cbar tag rank chan] } := by
  simp only [execCbarArrival, hc]

/-! ## The partition (R295) -/

theorem execRelayPartitionWrite_idle (v : Word) (h : s.anyLive = false) : execRelayPartitionWrite v s =
    .next { s with mgmt := { s.mgmt with relayPart := v &&& 0xFFFFFFFF#64, relayHeld := none } } :=
  if_neg (ne_true_of_eq_false h)

theorem execRelayPartitionWrite_live (v : Word) (h : s.anyLive = true) : execRelayPartitionWrite v s =
    .next { s with mgmt := { s.mgmt with relayHeld := some (v &&& 0xFFFFFFFF#64) } } := if_pos h

theorem execRelayPartitionApply_held {v : Word} (h : s.anyLive = false) (hv : s.mgmt.relayHeld = some v) :
    execRelayPartitionApply s = .next { s with mgmt := { s.mgmt with relayPart := v, relayHeld := none } } := by
  simp [execRelayPartitionApply, hv, h]

/-- Settles O53: each event is due when its clause holds, and answers the state that the clause gives. -/
theorem collectiveEvents : Obligations.CollectiveEvents := by
  intro s
  refine ⟨fun id p c hp hc hserving hbegun hcast htag hlost hreset hleases hcode hcores s1 hs1 => ?start,
    fun id o ho => ⟨fun x => execRelayOpComplete_faults ho, fun c hok => execRelayOpComplete_posts ho hok,
      execRelayOpComplete_ends ho, fun hok hposted hdone hkind hlen bs s1 hread =>
        ⟨fun s2 => execRelayOpComplete_copies ho hok hposted hdone hkind hlen hread,
          fun x s2 => execRelayOpComplete_copy_fails ho hok hposted hdone hkind hlen hread⟩⟩,
    fun tag c hc => ⟨fun rank chan => execCbarArrival_counts hc, fun hdue hroom =>
      ⟨fun x => execCollWatchdog_names hc hdue hroom, execCollWatchdog_idle hc hdue hroom⟩, execCollectiveCancel_stops hc⟩,
    fun tag hc => ⟨execCollectiveCancel_none hc, execCbarArrival_kept hc⟩,
    fun v => ⟨execRelayPartitionWrite_idle v, execRelayPartitionWrite_live v, execRelayPartitionApply_held⟩⟩
  case start =>
    exact execCollectiveStart_places hp hc
      ⟨hserving, hbegun, hcast, htag, hlost, hreset, hleases, hcode, hcores⟩ hs1

end Sys2Proof.Machine
end

section
/-!
SUPPORT. `trap`, `bkpt` and `dbgh` (R336).
-/

namespace Sys2Proof.Machine

/-- A guard that is off skips the instruction: it issues and does nothing (R17, R63). -/
theorem exec_skips {i : Instr} {g : Sig} {e : Env} (hg : i.sig = some g) (hcur : e.s.cur = some e.k)
    (ht : e.s.team? e.k.team = some e.t) (hw : e.s.warp? e.k = some e.w) (hcheck : g.check e.t = none)
    (hmask : g.mask e.t e.w = none) : exec i e.s = .next ((e.s.advance e.k).issued e.k) := by
  obtain ⟨-, -, -, hskip⟩ := exec_of_gate (runs_of_sig hg) hg hcur ht hw
  exact hskip (gate_of_guard_off hcheck hmask)

section

variable {e : Env} {i : Instr} {g : Sig} {f : Env → Act}

/-- With room for its record, an instruction that halts its team takes its fault and resumes after itself (R315). -/
theorem Env.stops_of_runRaw (hx : ∀ s, exec i s = runRaw i s f) {code aux : Nat} (hf : f e = e.stopHere code aux)
    (hr : Ready i g e) (hroom : e.s.fqRoom e.k.ctx = true) :
    exec i e.s = .next (((e.s.countIssue e.k).takeFault e.k (e.w.faultAt code 255 0 aux) none).modWarp e.k fun w =>
      { w with pc := e.w.pc + 12 }) := by
  have hstop := Env.holds_of_runRaw hx (hf.trans (Env.stopHere_of_room hroom code aux)) hr
  rwa [State.trapped, if_pos hroom] at hstop

end

/-- Settles O16: the three instructions share their halt, and skip like every other where their guard is off. -/
theorem trapInstructions : Obligations.TrapInstructions := by
  intro g e o raises skips
  have hskips {i : Instr} : skips i := exec_skips
  refine ⟨fun code aux => ⟨rfl, rfl, rfl⟩, Env.stops_of_runRaw (exec_trap · o) rfl, Env.stops_of_runRaw (exec_bkpt · o) rfl,
    fun hattach hr hroom => ⟨e.w.faultAt 0x25, rfl, ?halts⟩, fun hattach => ⟨?nop, ?plain⟩, hskips, hskips, hskips⟩
  case halts => exact Env.stops_of_runRaw (exec_dbgh · o) (if_pos hattach) hr hroom
  case nop => exact Env.doesRaw_of_runRaw (exec_dbgh · o) (if_neg (ne_true_of_eq_false hattach))
  case plain => exact Env.does_of_runSeq (exec_nop · o) rfl

end Sys2Proof.Machine
end

section
/-!
SUPPORT. The commands of the debug window (R322, R318, R372).
-/

namespace Sys2Proof.Machine

variable {s : State}

/-- While an update of the foundry firmware runs, or earlier commands are held, a host command is held (R372). -/
theorem State.command_of_busy (h : s.mgmt.fwPhase ≠ .idle ∨ s.mgmt.heldCommands ≠ []) (c : HostCommand)
    (go : Host.Outcome State Fault Refusal) : s.command c go = .next (s.holdCommand c) := by
  refine if_neg ?_
  obtain h | h := h <;> simp [h]

/-- A command that cannot be performed now waits for room in the fault queue (R318). -/
theorem State.command_of_refused (hphase : s.mgmt.fwPhase = .idle) (hheld : s.mgmt.heldCommands = []) (c : HostCommand)
    (r : Refusal) : s.command c (.refused r) = .next (s.awaitRoom c) := by
  simp [State.command, hphase, hheld]

/-- What a command on team `k` leaves once it is performed: DONE, or BUSY while a step is under way, and the team's frame. -/
def State.debugged (k : TKey) (u : State) : State :=
  u.dbgDone k.ctx (if (u.team? k).any (·.stepping.isSome) then 1 else 0)
    (match u.team? k with | some t => if t.phase == .retired then 0 else t.frame | none => 0)

section

variable {k : TKey} {f : Team → Option State}

theorem TeamPhase.halts_iff {p : TeamPhase} : p.halts = true ↔ p = .running ∨ p = .draining := by
  simp [TeamPhase.halts]

theorem State.debug_no_team (h : s.team? k = none ∨ ∃ t, s.team? k = some t ∧ t.phase = .retired) :
    s.debug k f = s.dbgDone k.ctx 2 0 := by
  obtain h | ⟨t, ht, hphase⟩ := h
  · simp only [State.debug, h]
  · simp only [State.debug, ht, hphase, beq_self_eq_true, if_true]

section

variable {t : Team} (ht : s.team? k = some t) (hlive : t.phase ≠ .retired)
include ht hlive

theorem State.debug_wrong (h : f t = none) : s.debug k f = s.dbgDone k.ctx 3 t.frame := by
  simp only [State.debug, ht, beq_eq_false_iff_ne.2 hlive, Bool.false_eq_true, if_false, h]

theorem State.debug_done {u : State} (h : f t = some u) : s.debug k f = u.debugged k := by
  have hstep : ((u.team? k).map Team.inStep).getD false = (u.team? k).any (·.stepping.isSome) := by
    cases u.team? k <;> rfl
  simp only [State.debug, ht, beq_eq_false_iff_ne.2 hlive, Bool.false_eq_true, if_false, h, hstep]
  rfl

end

/-! ## HALT (R318, R322) -/

theorem dbgHalt_no_team (h : s.team? k = none ∨ ∃ t, s.team? k = some t ∧ t.phase = .retired) :
    dbgHalt k s = .next (s.dbgDone k.ctx 2 0) := by
  have hnohalt : ((s.team? k).any (·.phase.halts) && !s.fqRoom k.ctx) = false := by
    obtain h | ⟨t, ht, hphase⟩ := h
    · simp [h]
    · simp [ht, hphase, TeamPhase.halts]
  unfold dbgHalt
  rw [State.debug_no_team h, State.debug_no_team h, hnohalt]
  exact ite_self _

section

variable {t : Team} (ht : s.team? k = some t) (hlive : t.phase ≠ .retired)
include ht hlive

theorem dbgHalt_unattached (h : (s.ctx k.ctx).attach = false) : dbgHalt k s = .next (s.debugged k) :=
  (if_pos (by rw [h]; rfl)).trans (congrArg _ (State.debug_done ht hlive rfl))

variable (hattach : (s.ctx k.ctx).attach = true)
include hattach

theorem dbgHalt_wrong (h : t.phase ≠ .running) (h' : t.phase ≠ .draining) :
    dbgHalt k s = .next (s.dbgDone k.ctx 3 t.frame) := by
  have hno : t.phase.halts = false := by simp [TeamPhase.halts, h, h']
  have hroom : ¬ ((s.team? k).any (·.phase.halts) && !s.fqRoom k.ctx) = true := by simp [ht, hno]
  unfold dbgHalt
  rw [if_neg (by rw [hattach]; decide), if_neg hroom]
  exact congrArg _ (State.debug_wrong ht hlive (if_neg (ne_true_of_eq_false hno)))

variable (h : t.phase = .running ∨ t.phase = .draining)
include h

/-- With room for its record, a HALT records DEBUG_HALT and halts the team. -/
theorem dbgHalt_halts (hroom : s.fqRoom k.ctx = true) :
    dbgHalt k s = .next (((((s.recordFault t { code := 0x25, pc := 0, cause := t.cause } { halted := true }).modTeam k
      Team.beginHalt).haltRelays t).teamFaulted k 0).debugged k) := by
  unfold dbgHalt
  rw [if_neg (by rw [hattach]; decide), if_neg (by simp [hroom])]
  exact congrArg _ (State.debug_done ht hlive (if_pos (TeamPhase.halts_iff.2 h)))

omit hlive in
theorem dbgHalt_refused (hroom : s.fqRoom k.ctx = false) : dbgHalt k s = .refused (.eventNotPending "HALT") := by
  have hhalts : t.phase.halts = true := TeamPhase.halts_iff.2 h
  unfold dbgHalt
  rw [if_neg (by rw [hattach]; decide), if_pos (by simp [ht, hhalts, hroom])]

end

/-! ## The commands on a halted team -/

theorem dbg_no_team (h : s.team? k = none ∨ ∃ t, s.team? k = some t ∧ t.phase = .retired) :
    dbgResume k s = .next (s.dbgDone k.ctx 2 0) ∧ (∀ w, dbgStep k w s = .next (s.dbgDone k.ctx 2 0)) ∧
      dbgSnap k s = .next (s.dbgDone k.ctx 2 0) ∧ dbgLoad k s = .next (s.dbgDone k.ctx 2 0) ∧
      dbgDiscard k s = .next (s.dbgDone k.ctx 2 0) :=
  ⟨congrArg _ (State.debug_no_team h), fun _ => congrArg _ (State.debug_no_team h), congrArg _ (State.debug_no_team h),
    congrArg _ (State.debug_no_team h), congrArg _ (State.debug_no_team h)⟩

section

variable {t : Team} (ht : s.team? k = some t) (hlive : t.phase ≠ .retired)
include ht hlive

theorem dbgResume_running (h : t.phase ≠ .halted) : dbgResume k s = .next (s.dbgDone k.ctx 3 t.frame) :=
  congrArg _ (State.debug_wrong ht hlive (if_neg h))

theorem dbgDiscard_running (h : t.phase ≠ .halted) : dbgDiscard k s = .next (s.dbgDone k.ctx 3 t.frame) :=
  congrArg _ (State.debug_wrong ht hlive (if_neg h))

theorem dbgSnap_wrong (h : t.phase ≠ .halted ∨ t.stepping.isSome = true) :
    dbgSnap k s = .next (s.dbgDone k.ctx 3 t.frame) := by
  refine congrArg _ (State.debug_wrong ht hlive (if_neg ?_))
  obtain h | h := h <;> simp [h, Team.inStep]

theorem dbgStep_wrong {w : Nat} (h : (t.phase ≠ .halted ∨ t.stepping.isSome = true) ∨
    ∀ x ∈ t.warps, x.num = w → x.live = false) : dbgStep k w s = .next (s.dbgDone k.ctx 3 t.frame) := by
  refine congrArg _ (State.debug_wrong ht hlive (if_neg ?_))
  obtain (h | h) | h := h
  · simp [h]
  · simp [h, Team.inStep]
  · have hnone : (t.warps.any fun x => x.num == w && x.live) = false := by simpa using h
    simp [hnone]

theorem dbgLoad_wrong (h : (t.phase ≠ .halted ∨ t.stepping.isSome = true) ∨ (s.readFrame t).2.1 = true) :
    dbgLoad k s = .next (s.dbgDone k.ctx 3 t.frame) := by
  refine congrArg _ (State.debug_wrong ht hlive ?_)
  by_cases hwrong : (t.phase ≠ .halted ∨ t.inStep = true)
  · exact if_pos (by simpa using hwrong)
  · exact (if_neg (by simpa using hwrong)).trans (if_pos (h.resolve_left hwrong))

variable (hphase : t.phase = .halted)
include hphase

theorem dbgResume_halted : dbgResume k s = .next ((s.resumeTeam k).debugged k) :=
  congrArg _ (State.debug_done ht hlive (if_pos hphase))

theorem dbgDiscard_halted : dbgDiscard k s = .next ((s.discardTeam k).debugged k) :=
  congrArg _ (State.debug_done ht hlive (if_pos hphase))

variable (hstep : t.stepping = none)
include hstep

theorem dbgStep_issues {w : Nat} (h : ∃ x ∈ t.warps, x.num = w ∧ x.live = true) :
    dbgStep k w s = .next (((s.modTeam k fun t => { t.modWarp w (fun x => { x with halted := false }) with
      stepping := some w }).resumeWait ⟨k.ctx, k.tid, w⟩).debugged k) := by
  have hwarp : (t.warps.any fun x => x.num == w && x.live) = true := by simpa using h
  exact congrArg _ (State.debug_done ht hlive (if_pos (by simp [hphase, Team.inStep, hstep, hwarp])))

theorem dbgSnap_halted : dbgSnap k s = .next ((s.writeFrame t true true).debugged k) :=
  congrArg _ (State.debug_done ht hlive (if_pos (by simp [hphase, Team.inStep, hstep])))

theorem dbgLoad_halted (h : (s.readFrame t).2.1 = false) :
    dbgLoad k s = .next (((s.readFrame t).2.2.modTeam k fun _ => (s.readFrame t).1).debugged k) :=
  congrArg _ (State.debug_done ht hlive
    ((if_neg (by simp [hphase, Team.inStep, hstep])).trans (if_neg (ne_true_of_eq_false h))))

end

end

/-- Settles O55: a command is held, or performed on its team; each by the team's phase. -/
theorem debugCommands : Obligations.DebugCommands := by
  intro s k done
  refine ⟨fun attach => rfl, fun hbusy => ?held, fun hphase hheld => ?performed⟩
  case held =>
    have hheld := State.command_of_busy hbusy
    exact ⟨hheld (.halt k) (dbgHalt k s), hheld (.resume k) (dbgResume k s), fun w => hheld (.step k w) (dbgStep k w s),
      hheld (.snap k) (dbgSnap k s), hheld (.load k) (dbgLoad k s), hheld (.discard k) (dbgDiscard k s),
      fun v => hheld (.badDebug k.ctx v) (dbgcmdUndefinedOp k.ctx v s)⟩
  case performed =>
    have hperform (c : HostCommand) {go : Host.Outcome State Fault Refusal} {t : State} (h : go = .next t) :
        s.command c go = .next t := h ▸ State.command_of_idle hphase hheld c t
    refine ⟨fun v => ?undefined, fun hnone => ?noTeam, fun t ht hlive => ⟨fun h => ?unattached, fun hattach => ⟨fun h =>
      ⟨fun hroom => ?halts, fun hroom => ?waits⟩, fun h h' => ?haltWrong⟩, fun h => ?halted, fun h => ?running,
      fun h => ?stepping⟩⟩
    case undefined =>
      have htid : (v.extractLsb' 0 32).toNat = fieldOf v 31 0 := (fieldOf_eq_extractLsb' v 31 0).symm
      rw [htid]
      exact hperform (.badDebug k.ctx v) rfl
    case noTeam =>
      obtain ⟨hresume, hstep, hsnap, hload, hdiscard⟩ := dbg_no_team hnone
      exact ⟨hperform (.halt k) (dbgHalt_no_team hnone), hperform (.resume k) hresume,
        fun w => hperform (.step k w) (hstep w), hperform (.snap k) hsnap, hperform (.load k) hload,
        hperform (.discard k) hdiscard⟩
    case unattached => exact hperform (.halt k) (dbgHalt_unattached ht hlive h)
    case halts => exact hperform (.halt k) (dbgHalt_halts ht hlive hattach h hroom)
    case waits =>
      exact (congrArg (s.command (.halt k)) (dbgHalt_refused ht hattach h hroom)).trans
        (State.command_of_refused hphase hheld ..)
    case haltWrong => exact hperform (.halt k) (dbgHalt_wrong ht hlive hattach h h')
    case halted =>
      exact ⟨hperform (.resume k) (dbgResume_halted ht hlive h), hperform (.discard k) (dbgDiscard_halted ht hlive h),
        fun hstep => ⟨fun w => ⟨fun hw => hperform (.step k w) (dbgStep_issues ht hlive h hstep hw),
          fun hw => hperform (.step k w) (dbgStep_wrong ht hlive (.inr hw))⟩,
          hperform (.snap k) (dbgSnap_halted ht hlive h hstep),
          fun hgood => hperform (.load k) (dbgLoad_halted ht hlive h hstep hgood),
          fun hbad => hperform (.load k) (dbgLoad_wrong ht hlive (.inr hbad))⟩⟩
    case running =>
      exact ⟨hperform (.resume k) (dbgResume_running ht hlive h), hperform (.discard k) (dbgDiscard_running ht hlive h)⟩
    case stepping =>
      exact ⟨fun w => hperform (.step k w) (dbgStep_wrong ht hlive (.inl h)), hperform (.snap k) (dbgSnap_wrong ht hlive h),
        hperform (.load k) (dbgLoad_wrong ht hlive (.inl h))⟩

end Sys2Proof.Machine
end

section
/-!
SUPPORT. The fields of words that the model writes as alternatives of shifted numbers (Tables 15-2, 15-10, 16-2).
-/

namespace Sys2Proof.Machine

/-- A field of alternatives is the alternative of the fields. -/
theorem fieldOf_or (x y : Word) (hi lo : Nat) : fieldOf (x ||| y) hi lo = fieldOf x hi lo ||| fieldOf y hi lo := by
  rw [fieldOf, BitVec.toNat_or, Nat.shiftRight_or_distrib, Nat.or_mod_two_pow]
  rfl

theorem fieldOf_atBit {n at_ hi lo : Nat} (h : hi < 64) (hlo : lo ≤ hi) :
    fieldOf (atBit n at_) hi lo = (n <<< at_) >>> lo % 2 ^ (hi + 1 - lo) := by
  have hsplit : 2 ^ 64 = 2 ^ lo * 2 ^ (64 - lo) := by rw [← Nat.pow_add, Nat.add_sub_cancel' (by omega)]
  rw [fieldOf, atBit, BitVec.toNat_ofNat, Nat.shiftRight_eq_div_pow, Nat.shiftRight_eq_div_pow, hsplit,
    Nat.mod_mul_right_div_self, Nat.mod_mod_of_dvd _ (Nat.pow_dvd_pow 2 (by omega))]

/-- A number reads back from the field that it was written to. -/
theorem fieldOf_atBit_same {n hi lo : Nat} (h : hi < 64) (hlo : lo ≤ hi) (hn : n < 2 ^ (hi + 1 - lo)) :
    fieldOf (atBit n lo) hi lo = n := by
  rw [fieldOf_atBit h hlo, Nat.shiftLeft_shiftRight, Nat.mod_eq_of_lt hn]

/-- A field below the place of a number reads 0 of it. -/
theorem fieldOf_atBit_above {n at_ hi lo : Nat} (h : hi < 64) (hlo : lo ≤ hi) (hat : hi < at_) :
    fieldOf (atBit n at_) hi lo = 0 := by
  obtain ⟨d, rfl⟩ := Nat.exists_eq_add_of_lt hat
  have hshift : n <<< (hi + d + 1) = 2 ^ (hi + 1 - lo) * (n * 2 ^ d) * 2 ^ lo := by
    rw [Nat.shiftLeft_eq, show hi + d + 1 = (hi + 1 - lo) + d + lo by omega, Nat.pow_add, Nat.pow_add]
    ring
  rw [fieldOf_atBit h hlo, hshift, Nat.shiftRight_eq_div_pow, Nat.mul_div_cancel _ (Nat.two_pow_pos lo),
    Nat.mul_mod_right]

/-- A field above the last bit of a number reads 0 of it. -/
theorem fieldOf_atBit_below {n at_ hi lo : Nat} (h : hi < 64) (hlo : lo ≤ hi) (hat : at_ ≤ lo) (hn : n < 2 ^ (lo - at_)) :
    fieldOf (atBit n at_) hi lo = 0 := by
  have hsmall : n <<< at_ < 2 ^ lo := by
    rw [Nat.shiftLeft_eq, ← Nat.sub_add_cancel hat, Nat.pow_add]
    exact Nat.mul_lt_mul_of_pos_right hn (Nat.two_pow_pos at_)
  rw [fieldOf_atBit h hlo, Nat.shiftRight_eq_div_pow, Nat.div_eq_of_lt hsmall, Nat.zero_mod]

theorem b2n_lt_two (b : Bool) : b2n b < 2 := by cases b <;> decide

/-- A bit is the field of its one place. -/
theorem getLsbD_of_fieldOf {w : Word} {i : Nat} {b : Bool} (h : fieldOf w i i = b2n b) : w.getLsbD i = b := by
  rw [fieldOf, Nat.add_sub_cancel_left, Nat.shiftRight_eq_div_pow] at h
  rw [← BitVec.testBit_toNat, Nat.testBit_eq_decide_div_mod_eq, ← Nat.pow_one 2, h]
  cases b <;> rfl

end Sys2Proof.Machine
end

section
/-!
SUPPORT. Taking a halting fault (R315, R316, R327) and the words of its record (R319, Table 15-2).
-/

namespace Sys2Proof.Machine

/-! ## Posting a record: only watch slots of warps change (R261, R318) -/

/-- A warp without its watch slots, and a team without those of its warps. -/
def Warp.unwatched (w : Warp) : Warp := { w with watch := [] }
def Team.unwatched (t : Team) : Team := { t with warps := t.warps.map Warp.unwatched }

/-- The teams of a state, without the watch slots of their warps. -/
def State.unwatched (s : State) : List Team := s.teams.map Team.unwatched

theorem State.unwatched_of_teams {s t : State} (h : t.teams = s.teams) : t.unwatched = s.unwatched :=
  congrArg (List.map Team.unwatched) h

/-- Folding changes that touch no more of the teams than watch slots touches no more of them. -/
theorem foldl_unwatched {α β : Type} {f : β → α → β} {st : β → State}
    (h : ∀ b a, (st (f b a)).unwatched = (st b).unwatched) (l : List α) (b : β) :
    (st (l.foldl f b)).unwatched = (st b).unwatched :=
  List.foldlRecOn l f (motive := fun c => (st c).unwatched = (st b).unwatched) rfl fun c hc a _ => (h c a).trans hc

theorem State.modWarp_unwatched (s : State) (k : WKey) {f : Warp → Warp} (h : ∀ w, (f w).unwatched = w.unwatched) :
    (s.modWarp k f).unwatched = s.unwatched := by
  have hwarps (t : Team) : (t.modWarp k.w f).unwatched = t.unwatched := by
    simp only [Team.modWarp, Team.unwatched, updIf, List.map_map]
    congr 1
    refine List.map_congr_left fun w _ => ?_
    simp only [Function.comp_apply]
    split
    · exact h w
    · rfl
  simp only [State.unwatched, State.modWarp, State.modTeam, updIf, List.map_map]
  refine List.map_congr_left fun t _ => ?_
  simp only [Function.comp_apply]
  split
  · exact hwarps t
  · rfl

@[simp] theorem State.modCtx_unwatched (s : State) (n : Nat) (f : Context → Context) :
    (s.modCtx n f).unwatched = s.unwatched := rfl

@[simp] theorem State.draw_unwatched (s : State) : s.draw.2.unwatched = s.unwatched := rfl

@[simp] theorem State.countNoRing_unwatched (s : State) (ctx : Nat) : (s.countNoRing ctx).unwatched = s.unwatched := rfl

@[simp] theorem State.emit_unwatched (s : State) (src : Src) (kind aux : Nat) (cid parent : Word) (payload : List Word) :
    (s.emit src kind aux cid parent payload).unwatched = s.unwatched := State.unwatched_of_teams (State.emit_teams ..)

@[simp] theorem State.watchEvent_unwatched (s : State) (t : Team) (w : Warp) (k : Nat) (p : Party) (kind at_ : Nat) :
    (s.watchEvent t w k p kind at_).unwatched = s.unwatched := by
  unfold State.watchEvent
  refine (State.modWarp_unwatched _ _ ?_).trans (State.emit_unwatched ..)
  exact fun _ => rfl

@[simp] theorem State.watchL2_unwatched (s : State) (p : Party) (kind ia n : Nat) (lane : Option Nat) :
    (s.watchL2 p kind ia n lane).2.unwatched = s.unwatched := by
  refine foldl_unwatched (st := Prod.snd) (fun acc t => ?_) _ _
  dsimp only
  split
  · rfl
  · refine foldl_unwatched (st := Prod.snd) (fun acc w => foldl_unwatched (st := Prod.snd) (fun acc x => ?_) _ _) _ _
    obtain ⟨i, slot⟩ := x
    dsimp only
    repeat' split
    all_goals simp

@[simp] theorem State.foundrySaw_unwatched (s : State) (kind ia n : Nat) (cause parent : Word) :
    (s.foundrySaw kind ia n cause parent).unwatched = s.unwatched := State.watchL2_unwatched ..

@[simp] theorem State.raiseCtx_unwatched (s : State) (ctx : Nat) : (s.raiseCtx ctx).unwatched = s.unwatched := by
  unfold State.raiseCtx
  split <;> rfl

@[simp] theorem State.ringFailed_unwatched (s : State) (ctx : Nat) : (s.ringFailed ctx).unwatched = s.unwatched := by
  simp [State.ringFailed]

@[simp] theorem State.l2Store_unwatched (s : State) (x : L2Sector) (data : List Byte) (mask : BitVec 128) (poison : Bool)
    (owner : Option TKey) (cause : BitVec 20) : (s.l2Store x data mask poison owner cause).unwatched = s.unwatched := rfl

@[simp] theorem State.ringWrite_unwatched (s : State) (ctx : Nat) (ws : List Word) :
    (s.ringWrite ctx ws).unwatched = s.unwatched := by
  have hbring {sec : Nat} {r : Except Walk L2Sector} {s1 : State} (h : s.l2Bring false sec = (r, s1)) :
      s1.unwatched = s.unwatched := by
    have hteams := s.l2Bring_teams false sec
    rw [h] at hteams
    exact State.unwatched_of_teams hteams
  unfold State.ringWrite
  dsimp only
  split
  next h => rw [State.ringFailed_unwatched, hbring h]
  next h =>
    split
    · rw [State.ringFailed_unwatched, hbring h]
    · simp [hbring h]

@[simp] theorem State.postRecord_unwatched (s : State) (ctx hub : Nat) (ws : List Word) (cid parent : Word) :
    (s.postRecord ctx hub ws cid parent).unwatched = s.unwatched := by
  unfold State.postRecord
  dsimp only
  repeat' split
  all_goals simp

/-! ## A warp stops where it is (R327) -/

/-- A warp without its wait, its sleep and its watch slots. -/
def Warp.still (w : Warp) : Warp := { w with wait := none, stopped := none, sleepLeft := 0, sleepFrom := 0, watch := [] }

theorem Team.warp?_unwatched (t : Team) (n : Nat) : t.unwatched.warp? n = (t.warp? n).map Warp.unwatched :=
  List.find?_map ..

/-- `u` is `t` but for the wait and sleep of warp `n`, and for watch slots. -/
structure Team.SameButWait (n : Nat) (t u : Team) : Prop where
  fields : ∃ warps, u = { t with warps := warps }
  own : (u.warp? n).map Warp.still = (t.warp? n).map Warp.still
  others : ∀ m, m ≠ n → (u.warp? m).map Warp.unwatched = (t.warp? m).map Warp.unwatched

namespace Team.SameButWait

variable {n : Nat} {t u v : Team}

theorem refl (t : Team) : SameButWait n t t := ⟨⟨t.warps, rfl⟩, rfl, fun _ _ => rfl⟩

theorem trans (h : SameButWait n t u) (h' : SameButWait n u v) : SameButWait n t v := by
  obtain ⟨warps, hv⟩ := h'.fields
  obtain ⟨_, hu⟩ := h.fields
  exact ⟨⟨warps, by rw [hv, hu]⟩, h'.own.trans h.own, fun m hm => (h'.others m hm).trans (h.others m hm)⟩

theorem modWarp (t : Team) {f : Warp → Warp} (h : ∀ w, (f w).still = w.still) : SameButWait n t (t.modWarp n f) := by
  have hnum (w : Warp) : (f w).num = w.num := (congrArg Warp.num (h w) : (f w).still.num = w.still.num)
  refine ⟨⟨_, rfl⟩, ?_, fun m hm => congrArg (Option.map _) ?_⟩
  · have hfound : (t.modWarp n f).warp? n = (t.warp? n).map f := find_updIf _ f _ fun w hw => by simpa [hnum] using hw
    rw [hfound, Option.map_map]
    exact congrArg (Option.map · (t.warp? n)) (funext h)
  · refine find_updIf_other _ _ f _ fun w hw => ?_
    have hn : w.num = n := by simpa using hw
    simp [hnum, hn, Ne.symm hm]

theorem of_unwatched (h : u.unwatched = t.unwatched) : SameButWait n t u := by
  have hwarp (m : Nat) : (u.warp? m).map Warp.unwatched = (t.warp? m).map Warp.unwatched := by
    rw [← Team.warp?_unwatched, ← Team.warp?_unwatched, h]
  refine ⟨⟨u.warps, ?_⟩, ?_, fun m _ => hwarp m⟩
  · exact congrArg (fun x : Team => { x with warps := u.warps }) h
  · have hstill := congrArg (Option.map Warp.still) (hwarp n)
    rw [Option.map_map, Option.map_map] at hstill
    exact hstill

end Team.SameButWait

/-- A team that has faulted, and a warp that its fault stops at once or after its round trip. -/
def Team.marked (t : Team) : Team := { t with faulted := true }
def Warp.faulted (trip : Bool) (skid : Nat) (w : Warp) : Warp := { w with halted := !trip, stopping := trip, skid := skid }

section

variable {s : State} {k : WKey} {t : Team} (ht : s.team? k.team = some t)
include ht

theorem State.dropWait_team : ∃ u, (s.dropWait k).team? k.team = some u ∧ t.SameButWait k.w u := by
  unfold State.dropWait
  split
  next u w hu hw =>
    split
    · exact ⟨t, ht, .refl t⟩
    · have hemit (src : Src) (ctx : Nat) (cid parent serial : Word) (x : WaitEntry) :
          (s.emitWaitEnd src ctx cid parent serial x).team? k.team = some t := by
        rw [State.team?, State.emitWaitEnd, State.emit_teams]
        exact ht
      refine ⟨_, (State.modWarp_team? ..).trans (congrArg _ (hemit ..)), .modWarp t fun _ => rfl⟩
  · exact ⟨t, ht, .refl t⟩

theorem State.suspendWait_team : ∃ u, (s.suspendWait k).team? k.team = some u ∧ t.SameButWait k.w u := by
  unfold State.suspendWait
  split
  · exact ⟨t, ht, .refl t⟩
  · obtain ⟨u, hu, hsame⟩ := State.dropWait_team ht
    exact ⟨_, (State.modWarp_team? ..).trans (congrArg _ hu), hsame.trans (.modWarp u fun _ => rfl)⟩

theorem State.recordFault_team (t0 : Team) (f : FaultInfo) (g : RecordFlags) :
    ∃ u, (s.recordFault t0 f g).team? k.team = some u ∧ t.SameButWait k.w u := by
  have hteams : (s.recordFault t0 f g).unwatched = s.unwatched := State.postRecord_unwatched ..
  have hfind (s : State) : s.unwatched.find? (·.is k.team) = (s.team? k.team).map Team.unwatched := List.find?_map ..
  have hteam : ((s.recordFault t0 f g).team? k.team).map Team.unwatched = some t.unwatched := by
    rw [← hfind, hteams, hfind, ht, Option.map_some]
  obtain ⟨u, hu, hsame⟩ := Option.map_eq_some_iff.1 hteam
  exact ⟨u, hu, .of_unwatched hsame⟩

theorem State.teamFaulted_team (serial : Word) :
    (s.teamFaulted k.team serial).team? k.team = some t.marked := by
  have hscopes : (t.scopes.foldl (fun s h => s.scopeFault k.team.ctx h serial) s).teams = s.teams :=
    List.foldlRecOn t.scopes _ (motive := fun b : State => b.teams = s.teams) rfl fun _ hb _ _ => hb
  unfold State.teamFaulted
  rw [ht]
  dsimp only
  by_cases hf : t.faulted = true
  · rw [if_pos hf, ht, Team.marked, ← hf]
  · rw [if_neg hf]
    refine (State.modTeam_team? _ k.team Team.marked fun _ h => h).trans ?_
    rw [State.team?, hscopes, ← State.team?, ht, Option.map_some]

/-- R315, R327: the warp's wait is dropped, unless its round trip goes on; the team is told to halt, and has faulted. -/
theorem State.takeFault_team {w : Warp} (hw : s.warp? k = some w) (f : FaultInfo) (ia : Option Nat)
    (hroom : s.fqRoom k.ctx = true) (hrelay : t.relay = none) (h19 : f.code ≠ 0x19) (h1b : f.code ≠ 0x1B) :
    ∃ t1, (s.takeFault k f ia).team? k.team =
        some (t1.haltAt k.w (s.cur != some k && w.inTrip) f.skid).marked ∧ t.SameButWait k.w t1 := by
  have htrip : (s.warp? k).any Warp.inTrip = w.inTrip := by rw [hw, Option.any_some]
  unfold State.takeFault
  rw [ht]
  dsimp only
  rw [htrip, hroom, Bool.not_true, if_neg Bool.false_ne_true, if_neg (not_or.2 ⟨h19, h1b⟩), State.haltRelays, hrelay]
  dsimp only
  obtain ⟨t0, ht0, hsame0⟩ : ∃ u, (if (s.cur != some k && w.inTrip) = true then s else s.suspendWait k).team? k.team =
      some u ∧ t.SameButWait k.w u := by
    split
    · exact ⟨t, ht, .refl t⟩
    · exact State.suspendWait_team ht
  obtain ⟨t1, ht1, hsame1⟩ := State.recordFault_team ht0 t f
    (if t.phase = .retired then { retired := true }
      else { halted := t.phase.live && !(t.phase == .saving && t.saveHalted),
             skid := !(t.phase.live && !(t.phase == .saving && t.saveHalted)) })
  refine ⟨t1, State.teamFaulted_team ?_ f.serial, hsame0.trans hsame1⟩
  refine (State.modTeam_team? _ k.team (fun u => u.haltAt k.w (s.cur != some k && w.inTrip) f.skid) fun u hu =>
    (u.beginHalt_is k.team).trans hu).trans ?_
  rw [ht1, Option.map_some]

end

/-! ## The halted team and its warps -/

section

variable (t : Team) (n : Nat) (trip : Bool) (skid : Nat)

theorem Team.haltAt_warp? :
    (t.haltAt n trip skid).warp? n = (t.warp? n).map (Warp.faulted trip skid) :=
  find_updIf _ _ _ fun _ h => h

theorem Team.haltAt_warp?_other {m : Nat} (hm : m ≠ n) : (t.haltAt n trip skid).warp? m = t.warp? m := by
  refine find_updIf_other _ _ _ _ fun w hw => ?_
  have hn : w.num = n := by simpa using hw
  simp [hn, Ne.symm hm]

theorem Team.haltAt_stepping : (t.haltAt n trip skid).stepping = t.stepping := by
  simp only [Team.haltAt, Team.beginHalt]
  split <;> rfl

theorem Team.haltAt_saveHalted (h : t.phase = .saving) : (t.haltAt n trip skid).saveHalted = true := by
  simp only [Team.haltAt, Team.beginHalt, h]

theorem Team.beginHalt_phase {t : Team} (h : t.phase.live = true) :
    t.beginHalt.phase = if t.phase = .saving then .saving else .halting := by
  unfold Team.beginHalt
  cases hphase : t.phase
  case saving | starting | running | draining => rfl
  all_goals
    rw [hphase] at h
    cases h

theorem Team.haltAt_phase (h : t.phase.live = true) :
    (t.haltAt n trip skid).phase = if t.phase = .saving ∧ t.stepping = none then .saving else .halting := by
  simp only [Team.haltAt, Team.beginHalt_phase h]
  cases t.stepping with
  | none => simp
  | some w => simp

end

/-- R315, R319, R327: the fault is taken, and the team halts at its warp. -/
theorem State.takeFault_halts {s : State} {k : WKey} {t : Team} {w : Warp} (ht : s.team? k.team = some t)
    (hw : s.warp? k = some w) (f : FaultInfo) (ia : Option Nat) (hroom : s.fqRoom k.ctx = true)
    (hlive : t.phase.live = true) (hrelay : t.relay = none) (h19 : f.code ≠ 0x19) (h1b : f.code ≠ 0x1B) :
    ∃ u x, (s.takeFault k f ia).team? k.team = some u ∧ u.warp? k.w = some x ∧
      u.phase = (if t.phase = .saving ∧ t.stepping = none then .saving else .halting) ∧
      (t.phase = .saving → u.saveHalted = true) ∧ u.faulted = true ∧ u.stepping = t.stepping ∧
      (∃ y : Warp, y.still = w.still ∧ x = y.faulted (s.cur != some k && w.inTrip) f.skid) ∧
      ∀ n, n ≠ k.w → (u.warp? n).map Warp.unwatched = (t.warp? n).map Warp.unwatched := by
  obtain ⟨t1, hu, hfields, hown, hothers⟩ := State.takeFault_team ht hw f ia hroom hrelay h19 h1b
  have hwt : t.warp? k.w = some w := by
    rw [State.warp?, ht] at hw
    exact hw
  rw [hwt, Option.map_some] at hown
  obtain ⟨y, hy, hstill⟩ := Option.map_eq_some_iff.1 hown
  obtain ⟨warps, ht1⟩ := hfields
  have hphase : t1.phase = t.phase := by rw [ht1]
  have hstepping : t1.stepping = t.stepping := by rw [ht1]
  generalize (s.cur != some k && w.inTrip) = trip at hu ⊢
  refine ⟨_, y.faulted trip f.skid, hu, ?_, ?_, ?_, rfl, ?_, ⟨y, hstill, rfl⟩, ?_⟩
  case refine_1 => exact (Team.haltAt_warp? ..).trans (congrArg _ hy)
  case refine_2 => exact (Team.haltAt_phase t1 k.w trip f.skid (hphase ▸ hlive)).trans (by rw [hphase, hstepping])
  case refine_3 => exact fun hs => Team.haltAt_saveHalted t1 k.w trip f.skid (hphase.trans hs)
  case refine_4 => exact (Team.haltAt_stepping t1 k.w trip f.skid).trans hstepping
  case refine_5 => exact fun n hn => (congrArg _ (Team.haltAt_warp?_other t1 k.w trip f.skid hn)).trans (hothers n hn)

/-! ## The words of a fault record (R319, Table 15-2) -/

/-- The first three words of a fault record. -/
def faultHead (ctx hub : Nat) (f : FaultInfo) (g : RecordFlags) : Word :=
  atBit f.code 0 ||| atBit ctx 8 ||| atBit hub 14 ||| atBit (b2n f.precise) 24 ||| atBit (b2n f.deferred) 25 |||
    atBit (b2n f.late) 26 ||| atBit (b2n g.retired) 27 ||| atBit (b2n g.skid) 28 ||| atBit (b2n g.halted) 29 |||
    atBit (b2n g.lost) 30 ||| atBit (b2n g.flushed) 31
def faultPlace (tid : Nat) (f : FaultInfo) : Word :=
  atBit f.lane 8 ||| atBit f.warp 16 ||| atBit f.wkind 24 ||| atBit (f.aux % 65536) 32 ||| atBit (tid % 65536) 48
def faultSerial (tid : Nat) (f : FaultInfo) : Word := atBit (tid / 65536 % 65536) 0 ||| (f.serial <<< 16)

theorem faultWords_eq (time : Word) (ctx tid hub : Nat) (f : FaultInfo) (g : RecordFlags) :
    faultWords time ctx tid hub f g =
      [faultHead ctx hub f g, faultPlace tid f, faultSerial tid f, f.wobj, f.addr, f.pc, f.cause, time] := rfl

theorem faultHead_fields {ctx hub : Nat} {f : FaultInfo} {g : RecordFlags} (hcode : f.code < 2 ^ 8) (hctx : ctx < 2 ^ 6)
    (hhub : hub < 2 ^ 2) :
    let w := faultHead ctx hub f g
    fieldOf w 7 0 = f.code ∧ fieldOf w 13 8 = ctx ∧ fieldOf w 15 14 = hub ∧ fieldOf w 23 16 = 0 ∧
      fieldOf w 24 24 = b2n f.precise ∧ fieldOf w 25 25 = b2n f.deferred ∧ fieldOf w 26 26 = b2n f.late ∧
      fieldOf w 27 27 = b2n g.retired ∧ fieldOf w 28 28 = b2n g.skid ∧ fieldOf w 29 29 = b2n g.halted ∧
      fieldOf w 30 30 = b2n g.lost ∧ fieldOf w 31 31 = b2n g.flushed ∧ fieldOf w 63 32 = 0 := by
  have hprecise := b2n_lt_two f.precise
  have hdeferred := b2n_lt_two f.deferred
  have hlate := b2n_lt_two f.late
  have hretired := b2n_lt_two g.retired
  have hskid := b2n_lt_two g.skid
  have hhalted := b2n_lt_two g.halted
  have hlost := b2n_lt_two g.lost
  have hflushed := b2n_lt_two g.flushed
  simp (disch := omega) only [faultHead, fieldOf_or, fieldOf_atBit_same, fieldOf_atBit_below, fieldOf_atBit_above,
    Nat.or_zero, Nat.zero_or, and_self]

theorem faultPlace_fields {tid : Nat} {f : FaultInfo} (hlane : f.lane < 2 ^ 8) (hwarp : f.warp < 2 ^ 8)
    (hwkind : f.wkind < 2 ^ 8) (haux : f.aux < 2 ^ 16) :
    let w := faultPlace tid f
    fieldOf w 7 0 = 0 ∧ fieldOf w 15 8 = f.lane ∧ fieldOf w 23 16 = f.warp ∧ fieldOf w 31 24 = f.wkind ∧
      fieldOf w 47 32 = f.aux ∧ fieldOf w 63 48 = tid % 65536 := by
  have hauxEq : f.aux % 65536 = f.aux := Nat.mod_eq_of_lt haux
  have htid : tid % 65536 < 65536 := Nat.mod_lt _ (by decide)
  simp (disch := omega) only [faultPlace, hauxEq, fieldOf_or, fieldOf_atBit_same, fieldOf_atBit_below, fieldOf_atBit_above,
    Nat.or_zero, Nat.zero_or, and_self]

theorem faultSerial_tid {tid : Nat} {f : FaultInfo} : fieldOf (faultSerial tid f) 15 0 = tid / 65536 % 65536 := by
  have htid : tid / 65536 % 65536 < 65536 := Nat.mod_lt _ (by decide)
  have hserial : fieldOf (f.serial <<< 16) 15 0 = 0 := by
    rw [fieldOf, BitVec.toNat_shiftLeft]
    omega
  simp (disch := omega) only [faultSerial, fieldOf_or, fieldOf_atBit_same, hserial, Nat.or_zero]

theorem faultSerial_serial {tid : Nat} {f : FaultInfo} :
    (faultSerial tid f).extractLsb' 16 48 = f.serial.extractLsb' 0 48 := by
  have htid : (atBit (tid / 65536 % 65536) 0).extractLsb' 16 48 = 0#48 := by
    have hfield : fieldOf (atBit (tid / 65536 % 65536) 0) 63 16 = 0 :=
      fieldOf_atBit_below (by decide) (by decide) (by decide) (Nat.mod_lt _ (by decide))
    rw [fieldOf_eq_extractLsb'] at hfield
    exact BitVec.eq_of_toNat_eq hfield
  rw [faultSerial, BitVec.extractLsb'_or, htid, BitVec.zero_or]
  ext i hi
  simp [show 16 + i < 64 by omega, show i < 64 by omega]

/-- Settles O9: the warp stops and its team halts with the record written; the record's fields are those of Table 15-2. -/
theorem takingAFault : Obligations.TakingAFault := by
  unfold Obligations.TakingAFault
  refine ⟨fun s k t w f ia ht hw => ⟨s.takeFault_no_room k f ia, fun hroom hlive hrelay h19 h1b => ?_⟩, ?_⟩
  · obtain ⟨u, x, hu, hx, hphase, hsave, hfaulted, hstepping, ⟨y, hstill, rfl⟩, hothers⟩ :=
      State.takeFault_halts ht hw f ia hroom hlive hrelay h19 h1b
    have hkept {α : Type} (field : Warp → α) (h : ∀ z : Warp, field z.still = field z) : field y = field w := by
      rw [← h y, hstill, h w]
    exact ⟨u, _, hu, hx, hphase, hsave, hfaulted, hstepping, ⟨rfl, rfl⟩, hkept Warp.pc fun _ => rfl,
      hkept Warp.s fun _ => rfl, hkept Warp.v fun _ => rfl, hkept Warp.p fun _ => rfl, hkept Warp.x fun _ => rfl,
      hkept Warp.flags fun _ => rfl, hkept Warp.stack fun _ => rfl, hkept Warp.loops fun _ => rfl, hothers⟩
  · intro time ctx tid hub f g hcode hctx hhub hlane hwarp hwkind haux htid r w0 w1 w2
    obtain ⟨h0code, h0ctx, h0hub, h0zero, hprecise, hdeferred, hlate, hretired, hskid, hhalted, hlost, hflushed, h0top⟩ :=
      faultHead_fields (f := f) (g := g) hcode hctx hhub
    obtain ⟨h1zero, h1lane, h1warp, h1wkind, h1aux, h1tid⟩ := faultPlace_fields (tid := tid) hlane hwarp hwkind haux
    have h2tid := faultSerial_tid (tid := tid) (f := f)
    rw [fieldOf_eq_extractLsb'] at h0code h0ctx h0hub h0zero h0top h1zero h1lane h1warp h1wkind h1aux h1tid h2tid
    refine ⟨rfl, h0code, h0ctx, h0hub, BitVec.eq_of_toNat_eq h0zero, getLsbD_of_fieldOf hprecise,
      getLsbD_of_fieldOf hdeferred, getLsbD_of_fieldOf hlate, getLsbD_of_fieldOf hretired, getLsbD_of_fieldOf hskid,
      getLsbD_of_fieldOf hhalted, getLsbD_of_fieldOf hlost, getLsbD_of_fieldOf hflushed, BitVec.eq_of_toNat_eq h0top,
      BitVec.eq_of_toNat_eq h1zero, h1lane, h1warp, h1wkind, h1aux, ?_, faultSerial_serial, rfl⟩
    have hsplit : tid % 65536 + 2 ^ 16 * (tid / 65536 % 65536) = tid := by omega
    exact (congrArg₂ (fun a b => a + 2 ^ 16 * b) h1tid h2tid).trans hsplit

end Sys2Proof.Machine
end

section
/-!
SUPPORT. The system and recorder instructions (R336 to R339, R365), and the words that they read (Tables 15-10, 16-2).
-/

namespace Sys2Proof.Machine

/-! ## System registers (R337) -/

theorem fieldOf_lt (w : Word) (hi lo : Nat) : fieldOf w hi lo < 2 ^ (hi + 1 - lo) := Nat.mod_lt _ (Nat.two_pow_pos _)

/-- A field at or above the place of a number is a part of the number. -/
theorem fieldOf_atBit_part {n at_ hi lo : Nat} (h : hi < 64) (hlo : lo ≤ hi) (hat : at_ ≤ lo) :
    fieldOf (atBit n at_) hi lo = n / 2 ^ (lo - at_) % 2 ^ (hi + 1 - lo) := by
  rw [fieldOf_atBit h hlo]
  obtain ⟨d, rfl⟩ := Nat.exists_eq_add_of_le hat
  rw [Nat.shiftRight_add, Nat.shiftLeft_shiftRight, Nat.add_sub_cancel_left, Nat.shiftRight_eq_div_pow]

theorem Kernel.widthCode_lt (k : Kernel) : k.widthCode < 4 := by
  unfold Kernel.widthCode
  repeat' split
  all_goals decide

theorem Env.sysReg_kernel_fields {e : Env} (hn : e.t.kernel.n < 512) (hg : e.t.kernel.g < 512)
    (hwarps : e.t.kernel.warps < 128) (htiles : e.t.kernel.tiles < 32) (hscratch : e.t.kernel.scratch / 16 < 2 ^ 21) :
    fieldOf (e.sysReg 0) 8 0 = e.t.kernel.n ∧ fieldOf (e.sysReg 0) 17 9 = e.t.kernel.g ∧
      fieldOf (e.sysReg 0) 19 18 = e.t.kernel.widthCode ∧ fieldOf (e.sysReg 0) 26 20 = e.t.kernel.warps ∧
      fieldOf (e.sysReg 0) 31 27 = e.t.kernel.tiles ∧ fieldOf (e.sysReg 0) 52 32 = e.t.kernel.scratch / 16 ∧
      fieldOf (e.sysReg 0) 63 53 = b2n e.t.kernel.paired := by
  have hwidth := e.t.kernel.widthCode_lt
  have hpaired := b2n_lt_two e.t.kernel.paired
  simp (disch := omega) only [Env.sysReg, fieldOf_or, fieldOf_atBit_same, fieldOf_atBit_below, fieldOf_atBit_above,
    Nat.or_zero, Nat.zero_or, and_self]

theorem Env.sysReg_context_fields {e : Env} (hcls : e.ctx.cls < 8) :
    fieldOf (e.sysReg 1) 2 0 = e.ctx.cls ∧ fieldOf (e.sysReg 1) 3 3 = b2n e.ctx.warn ∧
      fieldOf (e.sysReg 1) 4 4 = b2n e.ctx.verified ∧ fieldOf (e.sysReg 1) 5 5 = b2n e.ctx.attach ∧
      fieldOf (e.sysReg 1) 13 6 = fieldOf e.ctx.control 31 24 ∧ fieldOf (e.sysReg 1) 63 14 = 0 := by
  have hwarn := b2n_lt_two e.ctx.warn
  have hverified := b2n_lt_two e.ctx.verified
  have hattach := b2n_lt_two e.ctx.attach
  have hcontrol := fieldOf_lt e.ctx.control 31 24
  simp (disch := omega) only [Env.sysReg, fieldOf_or, fieldOf_atBit_same, fieldOf_atBit_below, fieldOf_atBit_above,
    Nat.or_zero, Nat.zero_or, and_self]

theorem Env.sysReg_count_fields (e : Env) :
    fieldOf (e.sysReg 4) 15 0 = e.t.saves % 2 ^ 16 ∧ fieldOf (e.sysReg 4) 31 16 = e.t.drains % 2 ^ 16 ∧
      fieldOf (e.sysReg 4) 47 32 = e.t.flushes % 2 ^ 16 ∧ fieldOf (e.sysReg 4) 63 48 = 0 := by
  have hsaves : e.t.saves % 65536 < 65536 := Nat.mod_lt _ (by decide)
  have hdrains : e.t.drains % 65536 < 65536 := Nat.mod_lt _ (by decide)
  have hflushes : e.t.flushes % 65536 < 65536 := Nat.mod_lt _ (by decide)
  simp (disch := omega) only [Env.sysReg, fieldOf_or, fieldOf_atBit_same, fieldOf_atBit_below, fieldOf_atBit_above,
    Nat.or_zero, Nat.zero_or]
  exact ⟨rfl, rfl, rfl, trivial⟩

/-! ## The capacity word (Table 16-2) -/

/-- USABLE of a core. -/
def Core.usable (c : Core) : Nat := if c.gret = 0 then 4 else 3

theorem Core.usable_lt (c : Core) : c.usable < 16 := by
  unfold Core.usable
  split <;> decide

/-- RETFR of the device. -/
def State.framesRetired (s : State) : Nat :=
  ((List.range 4).map fun h => (s.hub h).retiredFrames.length + (s.hub h).unlisted).sum

theorem State.capacityTop_eq (s : State) : s.capacityTop =
    32 * ((List.range 4).filter fun h => (s.hub h).decTed).length * 2 ^ 24 +
      (576 - (s.cores.filter (·.retired)).length) * 2 ^ 14 + min s.framesRetired 16383 := by
  have hsum : (List.range 4).foldl (fun n h => n + (s.hub h).retiredFrames.length + (s.hub h).unlisted) 0 =
      s.framesRetired := by
    simp only [State.framesRetired, List.sum_eq_foldl, List.foldl_map, Nat.add_assoc]
  rw [State.capacityTop, hsum]
  rfl

/-- GRET, DEGR and RBANK of a core. -/
theorem Core.capacity_eq (c : Core) : c.capacity = c.gret.toNat * 2 ^ 20 + c.degr.toNat * 2 ^ 16 +
    (c.rbank.getD 0 0 % 8 * 2 ^ 4 + c.rbank.getD 1 0 % 8 * 2 ^ 7 + c.rbank.getD 2 0 % 8 * 2 ^ 10 +
      c.rbank.getD 3 0 % 8 * 2 ^ 13) + c.usable := rfl

theorem Core.capacity_lt (c : Core) : c.capacity < 2 ^ 24 := by
  have hgret := c.gret.isLt
  have hdegr := c.degr.isLt
  have husable := c.usable_lt
  rw [Core.capacity_eq]
  omega

theorem Core.capacity_fields (c : Core) : c.capacity / 2 ^ 20 % 2 ^ 4 = c.gret.toNat ∧
    c.capacity / 2 ^ 16 % 2 ^ 4 = c.degr.toNat ∧ (∀ q < 4, c.capacity / 2 ^ (4 + 3 * q) % 2 ^ 3 = c.rbank.getD q 0 % 8) ∧
    c.capacity % 2 ^ 4 = c.usable := by
  have hgret := c.gret.isLt
  have hdegr := c.degr.isLt
  have husable := c.usable_lt
  rw [Core.capacity_eq]
  refine ⟨by omega, by omega, fun q hq => ?_, by omega⟩
  interval_cases q <;> omega

theorem State.capacityTop_fields (s : State) :
    s.capacityTop / 2 ^ 24 % 2 ^ 8 = 32 * ((List.range 4).filter fun h => (s.hub h).decTed).length ∧
      s.capacityTop / 2 ^ 14 % 2 ^ 10 = 576 - (s.cores.filter (·.retired)).length ∧
      s.capacityTop % 2 ^ 14 = min s.framesRetired 16383 := by
  have hhubs : ((List.range 4).filter fun h => (s.hub h).decTed).length ≤ 4 := List.length_filter_le ..
  rw [State.capacityTop_eq]
  omega

section

variable {s : State} {c hi lo : Nat}

theorem State.capacityWord_top (h : hi < 64) (hlo : 32 ≤ lo) (hle : lo ≤ hi) :
    fieldOf (s.capacityWord c) hi lo = s.capacityTop / 2 ^ (lo - 32) % 2 ^ (hi + 1 - lo) := by
  have hlow : fieldOf (atBit (s.core c).capacity 0) hi lo = 0 :=
    fieldOf_atBit_below h hle (Nat.zero_le _) ((s.core c).capacity_lt.trans_le (Nat.pow_le_pow_right (by decide) (by omega)))
  rw [State.capacityWord, fieldOf_or, hlow, Nat.or_zero, fieldOf_atBit_part h hle hlo]

theorem State.capacityWord_low (h : hi < 32) (hle : lo ≤ hi) :
    fieldOf (s.capacityWord c) hi lo = (s.core c).capacity / 2 ^ lo % 2 ^ (hi + 1 - lo) := by
  rw [State.capacityWord, fieldOf_or, fieldOf_atBit_above (by omega) hle h, Nat.zero_or,
    fieldOf_atBit_part (by omega) hle (Nat.zero_le _), Nat.sub_zero]

end

theorem State.capacityWord_fields (s : State) (c : Nat) :
    fieldOf (s.capacityWord c) 63 56 = 32 * ((List.range 4).filter fun h => (s.hub h).decTed).length ∧
      fieldOf (s.capacityWord c) 55 46 = 576 - (s.cores.filter (·.retired)).length ∧
      fieldOf (s.capacityWord c) 45 32 = min s.framesRetired 16383 ∧ fieldOf (s.capacityWord c) 31 24 = 0 ∧
      fieldOf (s.capacityWord c) 23 20 = (s.core c).gret.toNat ∧ fieldOf (s.capacityWord c) 19 16 = (s.core c).degr.toNat ∧
      (∀ q < 4, fieldOf (s.capacityWord c) (6 + 3 * q) (4 + 3 * q) = (s.core c).rbank.getD q 0 % 8) ∧
      fieldOf (s.capacityWord c) 3 0 = (s.core c).usable := by
  obtain ⟨hl2dt, hcores, hframes⟩ := s.capacityTop_fields
  obtain ⟨hgret, hdegr, hbank, husable⟩ := (s.core c).capacity_fields
  have hsmall := (s.core c).capacity_lt
  refine ⟨?_, ?_, ?_, ?_, ?_, ?_, fun q hq => ?_, ?_⟩
  case refine_1 => exact (State.capacityWord_top (by decide) (by decide) (by decide)).trans hl2dt
  case refine_2 => exact (State.capacityWord_top (by decide) (by decide) (by decide)).trans hcores
  case refine_3 => exact (State.capacityWord_top (by decide) (by decide) (by decide)).trans ((Nat.div_one _).symm ▸ hframes)
  case refine_4 =>
    refine (State.capacityWord_low (by decide) (by decide)).trans ?_
    rw [Nat.div_eq_of_lt hsmall, Nat.zero_mod]
  case refine_5 => exact (State.capacityWord_low (by decide) (by decide)).trans hgret
  case refine_6 => exact (State.capacityWord_low (by decide) (by decide)).trans hdegr
  case refine_7 =>
    have hwidth : 6 + 3 * q + 1 - (4 + 3 * q) = 3 := by omega
    refine (State.capacityWord_low (by omega) (by omega)).trans ?_
    rw [hwidth, hbank q hq]
  case refine_8 => exact (State.capacityWord_low (by decide) (by decide)).trans ((Nat.div_one _).symm ▸ husable)

/-! ## `icinv` (R338) -/

section

variable {g : Sig} {e : Env} {o : Ops (BitVec 16)}

/-- An instruction that traps after a part of its effect is held with that trap, if there is room for its record. -/
theorem Env.holds_of_trapAfter {i : Instr} {f : Env → Act} {t : State} {x : FaultInfo} {ia : Option Nat}
    (hx : ∀ s, exec i s = runRaw i s f) (hf : f e = .trapAfter t x ia) :
    e.Holds i g (if e.s.fqRoom e.k.ctx then t.trapped e.k x ia else e.s) := fun hr => by
  rw [hx, runRaw, runWith_ready hr, hf]

section

variable {r : Range} {va : Word} {n : Nat}

theorem Env.codeRange_outside (h : e.ctx.findRange va n = none) : e.codeRange va n = .error 0x10 := by
  simp only [Env.codeRange, h]

variable (h : e.ctx.findRange va n = some r)
include h

theorem Env.codeRange_unleased (hkind : r.kind = 0) (hlease : e.t.leases.getLsbD r.idx = false) :
    e.codeRange va n = .error 0x11 := by
  simp [Env.codeRange, h, hkind, hlease]

variable (hmay : r.kind ≠ 0 ∨ e.t.leases.getLsbD r.idx = true)
include hmay

theorem Env.codeRange_noExec (hpex : r.pex = false) : e.codeRange va n = .error 0x12 := by
  rcases hmay with hmay | hmay <;> simp [Env.codeRange, h, hmay, hpex]

theorem Env.codeRange_ok (hpex : r.pex = true) : e.codeRange va n = .ok (r.target va) := by
  rcases hmay with hmay | hmay <;> simp [Env.codeRange, h, hmay, hpex]

end

theorem Env.doesRaw_icinv_empty (hn : (e.scalar o.b).toNat = 0) : e.DoesRaw (.icinv o) g (e.s.advance e.k) :=
  Env.doesRaw_of_runRaw (exec_icinv · o) (if_pos hn)

variable {t : State} (hn : (e.scalar o.b).toNat ≠ 0) (hrel : e.release .dv = .ok t)
include hn hrel

theorem Env.holds_icinv_traps {c : Nat}
    (hrange : ({ e with s := t } : Env).codeRange (e.scalar o.a) (e.scalar o.b).toNat = .error c) :
    e.Holds (.icinv o) g (if e.s.fqRoom e.k.ctx then t.trapped e.k (e.w.faultAt c 255 (e.scalar o.a) 0) none else e.s) :=
  Env.holds_of_trapAfter (exec_icinv · o) (by simp only [if_neg hn, Env.afterRelease_done hrel, hrange])

theorem Env.enters_icinv {ia : Nat}
    (hrange : ({ e with s := t } : Env).codeRange (e.scalar o.a) (e.scalar o.b).toNat = .ok ia) :
    e.Enters (.icinv o) g (t.enterWait e.k (.icinv ia (e.scalar o.b).toNat)
      (roundTrip (Instr.opcode (.icinv o)) (e.scalar o.a) (BitVec.ofNat 64 (e.scalar o.b).toNat))) :=
  Env.enters_of_runRaw (exec_icinv · o) (by simp only [if_neg hn, Env.afterRelease_done hrel, hrange])

end

/-- Settles O33: the registers by the fields of their words, `icinv` by its checks in order, the others by their runs. -/
theorem systemAndRecorderResults : Obligations.SystemAndRecorderResults := by
  unfold Obligations.SystemAndRecorderResults
  intro g e o
  refine ⟨?sysr, ⟨?kernel, ?context, ?capacity, rfl, e.sysReg_count_fields⟩, ?expect, ?unflush, ⟨?empty, ?icinv⟩, ?power,
    ?clock, ⟨?evt, ?evtp⟩, ?time, ?uncertainty⟩
  case sysr => exact Env.does_of_runSeq (exec_sysr · o) rfl
  case kernel => exact Env.sysReg_kernel_fields
  case context => exact Env.sysReg_context_fields
  case capacity => exact ⟨rfl, e.s.capacityWord_fields e.w.core⟩
  case expect => exact fun h => Env.does_of_runSeq (exec_sysw · o) (if_pos h)
  case unflush => exact fun h => Env.does_of_runSeq (exec_sysw · o) (if_neg (by rw [h]; decide))
  case empty => exact Env.doesRaw_icinv_empty
  case icinv =>
    intro hn t hrel stops c
    exact ⟨fun h => Env.holds_icinv_traps hn hrel (Env.codeRange_outside h), fun r h =>
      ⟨fun hkind hlease => Env.holds_icinv_traps hn hrel (Env.codeRange_unleased h hkind hlease), fun hmay =>
        ⟨fun hpex => Env.holds_icinv_traps hn hrel (Env.codeRange_noExec h hmay hpex), fun hpex =>
          Env.enters_icinv hn hrel (Env.codeRange_ok h hmay hpex)⟩⟩⟩
  case power => exact fun h => Env.does_of_runSeq (exec_pwrq · o) (if_pos h)
  case clock => exact fun h => Env.does_of_runSeq (exec_pwrq · o) (if_neg h)
  case evt => exact Env.does_of_runSeq (exec_evt · o) rfl
  case evtp => exact Env.does_of_runSeq (exec_evtp · o) rfl
  case time =>
    exact fun h => ⟨Env.does_of_runSeq (exec_clkr · o) (by rw [if_pos h]), Env.does_of_runSeq (exec_causer · o) (by rw [if_pos h])⟩
  case uncertainty =>
    exact fun h => ⟨Env.does_of_runSeq (exec_clkr · o) (by rw [if_neg h]), Env.does_of_runSeq (exec_causer · o) (by rw [if_neg h])⟩

end Sys2Proof.Machine
end

section
/-!
SUPPORT. The management controller at work (R342, R343, R348, R349, R356, R362, R373).
-/

namespace Sys2Proof.Machine

/-! ## Risk (R348, R349) -/

section

variable {s : State} {temp : Nat}

/-- The risk of a sample at this temperature, and the state with it, before a crossing is looked at. -/
def State.riskAt (s : State) (temp : Nat) : Nat := min 255 (s.riskTerms (105 - temp)).sum
def State.sampled (s : State) (temp : Nat) : State :=
  State.riskPost (State.riskDecoded { s with mgmt :=
    { s.mgmt with risk := BitVec.ofNat 8 (s.riskAt temp), samples := (s.riskAt temp :: s.mgmt.samples).take 1000
                  riskEvents := s.mgmt.riskEvents.filter fun x => decide (s.clock ≤ x.1 + 600000000000) } })

/-- The risk meets a threshold that each of the last 1,000 samples was below. -/
def State.crosses (s : State) (temp : Nat) : Prop :=
  s.mgmt.riskTh ≠ 0 ∧ s.mgmt.riskTh ≤ s.riskAt temp ∧ s.mgmt.samples.length = 1000 ∧
    ∀ x ∈ s.mgmt.samples, x < s.mgmt.riskTh

theorem State.crosses_iff : s.crosses temp ↔
    (s.mgmt.riskTh != 0 && decide (s.mgmt.riskTh ≤ s.riskAt temp) && s.mgmt.samples.length == 1000 &&
      s.mgmt.samples.all fun x => decide (x < s.mgmt.riskTh)) = true := by
  simp [State.crosses, and_assoc]

theorem execRiskSample_eq : execRiskSample temp s =
    .next (if s.mgmt.riskTh != 0 && decide (s.mgmt.riskTh ≤ s.riskAt temp) && s.mgmt.samples.length == 1000 &&
        s.mgmt.samples.all fun x => decide (x < s.mgmt.riskTh) then
      (s.sampled temp).crossing (s.riskTerms (105 - temp)) (s.riskAt temp) else s.sampled temp) := by
  have hrisk : Nat.min 255 ((s.riskTerms (105 - temp)).foldl (· + ·) 0) = s.riskAt temp := by
    rw [State.riskAt, List.sum_eq_foldl]
  simp only [execRiskSample, throttlePoint, hrisk]
  rfl

theorem execRiskSample_crosses (h : s.crosses temp) :
    execRiskSample temp s = .next ((s.sampled temp).crossing (s.riskTerms (105 - temp)) (s.riskAt temp)) := by
  rw [execRiskSample_eq, if_pos (State.crosses_iff.1 h)]

theorem execRiskSample_quiet (h : ¬ s.crosses temp) : execRiskSample temp s = .next (s.sampled temp) := by
  rw [execRiskSample_eq, if_neg fun hc => h (State.crosses_iff.2 hc)]

end

/-! ## Power (R373, R374) -/

section

variable {s : State} {r : PowerReading}

theorem clampNat_eq {lo hi : Nat} (h : lo ≤ hi) (n : Nat) : clampNat lo hi n = max lo (min hi n) := by
  have hle : clampNat lo hi n = min hi (max lo n) := rfl
  omega

/-- The step that a die's own power and temperature ask for (Table 16-10). -/
theorem Mgmt.throttleStep_eq (m : Mgmt) (r : PowerReading) : m.throttleStep r =
    if max 100 (min 1100 (m.dieCap.getD r.die 1100)) < r.diePower then some (false, 0)
    else if 105 < r.temp then some (false, 2)
    else if 100 * r.peakPower < 95 * max 100 (min 1100 (m.dieCap.getD r.die 1100)) then some (true, 3) else none := by
  rw [Mgmt.throttleStep, clampNat_eq (by decide)]
  rfl

theorem Mgmt.overModule_iff (m : Mgmt) (r : PowerReading) :
    m.overModule r = true ↔ max 3000 (min 6000 m.modCap) < r.modulePower := by
  rw [Mgmt.overModule, clampNat_eq (by decide), decide_eq_true_iff]

/-- The cause of a die's step while the module is above its cap: its own, where it has one, else 1. -/
def throttleCause (own : Option (Bool × Nat)) (die d : Nat) : Nat :=
  match own with
  | some (false, c) => if d = die then c else 1
  | _ => 1

theorem execThrottle_module (h : max 3000 (min 6000 s.mgmt.modCap) < r.modulePower) :
    execThrottle r s = .next ((List.range 8).foldl (fun t d =>
      t.stepDie d false (throttleCause (s.mgmt.throttleStep r) r.die d)) s) :=
  if_pos ((s.mgmt.overModule_iff r).2 h)

section

variable (h : ¬ max 3000 (min 6000 s.mgmt.modCap) < r.modulePower)
include h

theorem execThrottle_none (hown : s.mgmt.throttleStep r = none) : execThrottle r s = .next s := by
  simp [execThrottle, hown, mt (s.mgmt.overModule_iff r).1 h]

theorem execThrottle_die {x : Bool × Nat} (hown : s.mgmt.throttleStep r = some x) :
    execThrottle r s = .next (s.stepDie r.die x.1 x.2) := by
  simp [execThrottle, hown, mt (s.mgmt.overModule_iff r).1 h]

end

/-- The next clock of a die: 25 MHz up or down, between 800 and 1,900. -/
def nextClk (clk : Nat) (up : Bool) : Nat := if up then min 1900 (clk + 25) else max 800 (clk - 25)

theorem State.stepDie_eq {die : Nat} {up : Bool} {cause : Nat} (h : die < 8) : s.stepDie die up cause =
    if nextClk (s.mgmt.dieClk.getD die 1900) up = s.mgmt.dieClk.getD die 1900 then s
    else State.emit { s with mgmt := { s.mgmt with
        dieClk := s.mgmt.dieClk.set die (nextClk (s.mgmt.dieClk.getD die 1900) up)
        throttleSteps := s.mgmt.throttleSteps + 1 } }
      mgmtSrc 0x020 0 0 0 [atBit (nextClk (s.mgmt.dieClk.getD die 1900) up) 0 ||| atBit die 16 ||| atBit cause 24] := by
  have hnew : (if up then Nat.min 1900 (s.mgmt.dieClk.getD die 1900 + 25)
      else if s.mgmt.dieClk.getD die 1900 ≤ 825 then 800 else s.mgmt.dieClk.getD die 1900 - 25) =
      nextClk (s.mgmt.dieClk.getD die 1900) up := by
    unfold nextClk
    cases up with
    | true => rfl
    | false =>
      rw [if_neg Bool.false_ne_true, if_neg Bool.false_ne_true]
      split <;> omega
  rw [State.stepDie]
  simp only [hnew, Bool.or_eq_true, decide_eq_true_eq, ge_iff_le, not_le.2 h, false_or]

end

/-! ## The L2 code (R343) -/

section

variable {s : State} {hub mv : Nat}

theorem execL2ModeChangeComplete_eq {d : Bool} (h : (s.hub hub).changing = some d) :
    execL2ModeChangeComplete hub s = .next (if (s.hub hub).reverse then
      (s.modHub hub fun u => { u with decTed := d, changing := none, reverse := false }).beginChange hub (!d)
    else s.modHub hub fun u => { u with decTed := d, changing := none, reverse := false }) := by
  simp only [execL2ModeChangeComplete, h]

section

variable (hhub : hub < 4)
include hhub

theorem execL2Mode_unasked (hw : wantedCode mv = none) :
    execL2Mode hub mv s = .next (s.modHub hub fun u => { u with rail := mv }) := by
  simp [execL2Mode, hhub, hw]

variable {w : Bool} (hw : wantedCode mv = some w)
include hw

theorem execL2Mode_reverses {d : Bool} (hd : ((s.modHub hub fun u => { u with rail := mv }).hub hub).changing = some d) :
    execL2Mode hub mv s =
      .next ((s.modHub hub fun u => { u with rail := mv }).modHub hub fun u => { u with reverse := w != d }) := by
  simp only [execL2Mode, ge_iff_le, if_neg (not_le.2 hhub), hw, hd]

theorem execL2Mode_changes (hd : ((s.modHub hub fun u => { u with rail := mv }).hub hub).changing = none) :
    execL2Mode hub mv s = .next (if w == ((s.modHub hub fun u => { u with rail := mv }).hub hub).decTed then
      s.modHub hub fun u => { u with rail := mv }
    else (s.modHub hub fun u => { u with rail := mv }).beginChange hub w) := by
  simp only [execL2Mode, ge_iff_le, if_neg (not_le.2 hhub), hw, hd]

end

end

/-- Settles O58: each piece of the controller's work by the branches of its event. -/
theorem managementEvents : Obligations.ManagementEvents := by
  unfold Obligations.ManagementEvents
  intro s
  refine ⟨fun temp => ⟨execRiskSample_crosses, execRiskSample_quiet⟩, ?throttle, ?step, ?code,
    fun hub d => execL2ModeChangeComplete_eq, fun pa => ⟨rfl, rfl, rfl⟩, fun point offset unc => rfl, ?lockLoss, ?stele⟩
  case throttle =>
    intro r cap tooMuch own
    have hown : s.mgmt.throttleStep r = own := s.mgmt.throttleStep_eq r
    exact ⟨fun h => (execThrottle_module h).trans (hown ▸ rfl), fun h hnone => execThrottle_none h (hown.trans hnone),
      fun h x hx => execThrottle_die h (hown.trans hx)⟩
  case step =>
    exact fun die up cause hdie => ⟨fun h => (State.stepDie_eq hdie).trans (if_pos h),
      fun h => (State.stepDie_eq hdie).trans (if_neg h)⟩
  case code =>
    exact fun hub mv hhub => ⟨execL2Mode_unasked hhub, fun w hw => ⟨fun d => execL2Mode_reverses hhub hw,
      fun hd hsame => (execL2Mode_changes hhub hw hd).trans (by rw [if_pos (beq_iff_eq.2 hsame)]),
      fun hd hother => (execL2Mode_changes hhub hw hd).trans (by rw [if_neg (mt beq_iff_eq.1 hother)])⟩⟩
  case lockLoss => exact fun point h => ⟨_, if_neg (by rw [h]; decide)⟩
  case stele => exact fun e h => if_neg (by rwa [List.isEmpty_iff])

end Sys2Proof.Machine
end

section
/-!
SUPPORT. Erasure of the stele, device reset and power (R364, R374, R375).
-/

namespace Sys2Proof.Machine

variable {s : State}

/-! ## Erasure of the stele (R364) -/

theorem execSteleErase_held (h : s.mgmt.inReset = true) :
    execSteleErase s = .next { s with mgmt := { s.mgmt with steleErasing := true, steleRej := false } } := if_pos h

theorem execSteleErase_rejected (h : s.mgmt.inReset = false) :
    execSteleErase s = .next { s with mgmt := { s.mgmt with steleRej := true } } := if_neg (ne_true_of_eq_false h)

/-- Every segment of the stele is empty, with STHEAD 0. -/
def State.steleEmpty (s : State) : Prop := ∀ u ∈ s.hubs, u.stele.records = [] ∧ u.stele.head = 0

theorem State.steleEmpty_of_map {l : List Hub} (f : Hub → Hub) (hhubs : s.hubs = l.map f)
    (h : ∀ u, (f u).stele.records = [] ∧ (f u).stele.head = 0) : s.steleEmpty := by
  intro u hu
  rw [hhubs] at hu
  obtain ⟨v, -, rfl⟩ := List.mem_map.1 hu
  exact h v

theorem execSteleEraseComplete_empties (h : s.mgmt.steleErasing = true) :
    ∃ t, execSteleEraseComplete s = .next t ∧ t.mgmt.steleErasing = false ∧ t.steleEmpty :=
  ⟨_, if_neg (by rw [h]; decide), rfl,
    State.steleEmpty_of_map (fun u => { u with stele := { u.stele with records := [], head := 0 } }) rfl fun _ => ⟨rfl, rfl⟩⟩

/-! ## Device reset (R375) -/

/-- The first records of the segments change the hubs alone. -/
theorem State.resetRecords_hubs (s : State) (cause : Nat) : ∃ hubs, s.resetRecords cause = { s with hubs := hubs } := by
  refine List.foldlRecOn (List.range 4) _ (motive := fun t : State => ∃ hubs, t = { s with hubs := hubs }) ⟨s.hubs, rfl⟩ ?_
  rintro _ ⟨hubs, rfl⟩ h -
  exact ⟨_, rfl⟩

/-- A restart begins with step 2, and leaves nothing of teams, packets, operations, memory and collectives. -/
theorem State.restart_cleared (s : State) (cause : Nat) : (s.restart cause false).mgmt.started = 2 ∧
    (s.restart cause false).teams = [] ∧ (s.restart cause false).packets = [] ∧ (s.restart cause false).ops = [] ∧
    (s.restart cause false).mem = [] ∧ (s.restart cause false).l2 = [] ∧ (s.restart cause false).tlb = [] ∧
    (s.restart cause false).collectives = [] := by
  obtain ⟨hubs, h⟩ := State.resetRecords_hubs _ cause
  rw [State.restart, h]
  exact ⟨rfl, rfl, rfl, rfl, rfl, rfl, rfl, rfl⟩

theorem execDeviceReset_restarts (hpower : s.mgmt.powered = true) (cause : Nat) :
    execDeviceReset cause s = .next (s.restart (cause % 256) false) := if_pos hpower

theorem execThermalReset_eq (hpower : s.mgmt.powered = true) (temp : Nat) :
    execThermalReset temp s = if temp < 115 then .next s else .next (s.restart 1 true) := if_neg (by rw [hpower]; decide)

/-! ## Power (R364, R375) -/

theorem execPowerOn_boots (hpower : s.mgmt.powered = false) :
    execPowerOn s = .next { s with mgmt := { s.mgmt with
      powered := true, started := 2, fwActive := (bootSlot s.mgmt.fwSlots s.mgmt.fwActive s.mgmt.fwSelect).1
      fwSelect := none, mgActive := (bootSlot s.mgmt.mgSlots s.mgmt.mgActive s.mgmt.mgSelect).1, mgSelect := none
      fwBootFallback := (bootSlot s.mgmt.fwSlots s.mgmt.fwActive s.mgmt.fwSelect).2 ||
        (bootSlot s.mgmt.mgSlots s.mgmt.mgActive s.mgmt.mgSelect).2
      measured := [s.mgmt.fwDigest (bootSlot s.mgmt.fwSlots s.mgmt.fwActive s.mgmt.fwSelect).1] } } :=
  if_neg (ne_true_of_eq_false hpower)

/-- What the step of the start changes beside the count: nothing, the tags, or the contexts. -/
theorem State.startStep_eq (s : State) : s.startStep = .next { s with
    mgmt := { s.mgmt with started := s.mgmt.started + 1 }
    tags := if s.mgmt.started + 1 = 4 then [] else s.tags
    ctxs := if s.mgmt.started + 1 = 6 then s.ctxs.map Context.afterReset else s.ctxs } := by
  unfold State.startStep
  by_cases h4 : s.mgmt.started + 1 = 4
  · have h6 : s.mgmt.started + 1 ≠ 6 := by omega
    simp only [if_pos h4, if_neg h6]
  · by_cases h6 : s.mgmt.started + 1 = 6
    · simp only [if_neg h4, if_pos h6]
    · simp only [if_neg h4, if_neg h6]

/-- Settles O59: each event by its branches; a restart leaves what its fields say. -/
theorem resetAndPower : Obligations.ResetAndPower := by
  unfold Obligations.ResetAndPower
  intro s
  refine ⟨execSteleErase_held, execSteleErase_rejected, execSteleEraseComplete_empties, fun hpower => ?reset, ?loss,
    execPowerOn_boots, ?start⟩
  case reset =>
    exact ⟨fun cause => ⟨_, execDeviceReset_restarts hpower cause, rfl, s.restart_cleared _⟩,
      fun temp h => (execThermalReset_eq hpower temp).trans (if_pos h),
      fun temp h => (execThermalReset_eq hpower temp).trans (if_neg (not_lt.2 h))⟩
  case loss =>
    exact ⟨_, rfl, rfl, rfl, rfl, rfl, rfl, rfl, rfl, rfl, rfl, rfl, rfl,
      State.steleEmpty_of_map (fun u => { num := u.num, retiredFrames := u.retiredFrames }) rfl fun _ => ⟨rfl, rfl⟩⟩
  case start => exact ⟨_, s.startStep_eq, rfl, by simp [Mgmt.ready, Bool.beq_eq_decide_eq], fun h => if_pos h, fun h => if_pos h⟩

end Sys2Proof.Machine
end

section
/-!
SUPPORT. The update of the foundry firmware (R372).
-/

namespace Sys2Proof.Machine

variable {s : State}

theorem b2n_not (b : Bool) : b2n (!b) = if b then 0 else 1 := by cases b <;> rfl

/-! ## Commands -/

theorem execFirmwareCmdIgnored_other {op : BitVec 4} (h1 : op ≠ 1) (h2 : op ≠ 2) : execFirmwareCmdIgnored op s = .next s :=
  if_pos (Bool.or_eq_true_iff.2 (.inr (Bool.and_eq_true_iff.2 ⟨bne_iff_ne.2 h1, bne_iff_ne.2 h2⟩)))

/-- The slots of the selected kind: with the staged image put into the inactive one, or as they were. -/
def putSlot (put : Bool) (slot : FwSlot) (active : Bool) (l : List FwSlot) : List FwSlot :=
  if put then l.set (if active then 0 else 1) slot else l

/-- One free bit names the kind whose slot is selected; another, of an image that could be read, whether it is put there
(assumption 132). -/
theorem execFirmwareSlotSelect_eq (h : s.mgmt.fwResult ≠ 1) :
    let r := s.draw.2.stagedImage
    let x := r.2.freeSlot (r.1.getD [])
    let n := x.2.mgmt
    let put := r.1.isSome && s.draw.1.testBit 1
    execFirmwareSlotSelect s = .next { x.2 with mgmt :=
      if s.draw.1 % 2 = 0 then
        { n with fwSelect := some !n.fwActive, fwSlots := putSlot put x.1 n.fwActive n.fwSlots }
      else { n with mgSelect := some !n.mgActive, mgSlots := putSlot put x.1 n.mgActive n.mgSlots } } := by
  intro r x n put
  simp only [putSlot, ← b2n_not]
  exact if_neg h

theorem execFirmwareSlotSelect_selects (h : s.mgmt.fwResult ≠ 1) :
    let r := s.draw.2.stagedImage
    let x := r.2.freeSlot (r.1.getD [])
    let n := x.2.mgmt
    ∃ l, ∃ put : Bool, (put = true → r.1.isSome = true) ∧
      ((l = putSlot put x.1 n.fwActive n.fwSlots ∧ execFirmwareSlotSelect s =
          .next { x.2 with mgmt := { n with fwSelect := some !n.fwActive, fwSlots := l } }) ∨
        (l = putSlot put x.1 n.mgActive n.mgSlots ∧ execFirmwareSlotSelect s =
          .next { x.2 with mgmt := { n with mgSelect := some !n.mgActive, mgSlots := l } })) := by
  intro r x n
  have hput : (r.1.isSome && s.draw.1.testBit 1) = true → r.1.isSome = true := fun h => (Bool.and_eq_true_iff.1 h).1
  have heq := execFirmwareSlotSelect_eq h
  by_cases heven : s.draw.1 % 2 = 0
  · exact ⟨_, _, hput, .inl ⟨rfl, heq.trans (by rw [if_pos heven])⟩⟩
  · exact ⟨_, _, hput, .inr ⟨rfl, heq.trans (by rw [if_neg heven])⟩⟩

/-! ## The verdict on the staged image -/

section

variable {v : FwVerdict} (hphase : s.mgmt.fwPhase = .verify)
include hphase

theorem execFirmwareVerifyComplete_unread (h : s.stagedImage.1 = none) :
    execFirmwareVerifyComplete v s = .next (s.stagedImage.2.resumeService 4) := by
  obtain ⟨t, hread⟩ : ∃ t, s.stagedImage = (none, t) := ⟨_, Prod.ext h rfl⟩
  simp only [execFirmwareVerifyComplete, hphase, hread, ne_eq, not_true_eq_false, if_false]

variable {image : List Byte} (hread : s.stagedImage.1 = some image)
include hread

/-- The image is a genuine one of the foundry's firmware, of at most 8 MiB. -/
def Mgmt.genuine (m : Mgmt) (v : FwVerdict) : Prop :=
  v.signatureGood = true ∧ v.foundryKind = true ∧ m.fwLen.toNat ≤ 2 ^ 23

theorem execFirmwareVerifyComplete_eq : execFirmwareVerifyComplete v s =
    if !(v.signatureGood && v.foundryKind) || decide (imageLimit < s.stagedImage.2.mgmt.fwLen.toNat) then
      .next (s.stagedImage.2.resumeService 4)
    else if v.svn < s.stagedImage.2.mgmt.running.svn then .next (s.stagedImage.2.resumeService 5)
    else if s.stagedImage.2.mgmt.handover < v.handLo || v.handHi < s.stagedImage.2.mgmt.handover then
      .next (s.stagedImage.2.resumeService 6)
    else .next { s.stagedImage.2 with mgmt := { s.stagedImage.2.mgmt with
      fwSlots := s.stagedImage.2.mgmt.fwSlots.set (if s.stagedImage.2.mgmt.fwActive then 0 else 1)
        ⟨v.major, v.minor, v.svn, s.stagedImage.2.mgmt.handover, true, some (sha256 image)⟩
      fwCandidate := some v, fwPhase := .heartbeat, fwStarted := s.stagedImage.2.clock
      measured := s.stagedImage.2.mgmt.measuredNow ++ [sha256 image] } } := by
  obtain ⟨t, hread⟩ : ∃ t, s.stagedImage = (some image, t) := ⟨_, Prod.ext hread rfl⟩
  simp only [execFirmwareVerifyComplete, hphase, hread, ne_eq, not_true_eq_false, if_false, b2n_not]

theorem execFirmwareVerifyComplete_false (h : ¬ s.stagedImage.2.mgmt.genuine v) :
    execFirmwareVerifyComplete v s = .next (s.stagedImage.2.resumeService 4) := by
  refine (execFirmwareVerifyComplete_eq hphase hread).trans (if_pos ?_)
  by_contra hbad
  simp only [Bool.not_eq_true, Bool.or_eq_false_iff, Bool.not_eq_false', Bool.and_eq_true, decide_eq_false_iff_not,
    not_lt] at hbad
  obtain ⟨⟨hsignature, hkind⟩, hlen⟩ := hbad
  exact h ⟨hsignature, hkind, hlen⟩

variable (hgenuine : s.stagedImage.2.mgmt.genuine v)
include hgenuine

theorem execFirmwareVerifyComplete_genuine : execFirmwareVerifyComplete v s =
    if v.svn < s.stagedImage.2.mgmt.running.svn then .next (s.stagedImage.2.resumeService 5)
    else if s.stagedImage.2.mgmt.handover < v.handLo || v.handHi < s.stagedImage.2.mgmt.handover then
      .next (s.stagedImage.2.resumeService 6)
    else .next { s.stagedImage.2 with mgmt := { s.stagedImage.2.mgmt with
      fwSlots := s.stagedImage.2.mgmt.fwSlots.set (if s.stagedImage.2.mgmt.fwActive then 0 else 1)
        ⟨v.major, v.minor, v.svn, s.stagedImage.2.mgmt.handover, true, some (sha256 image)⟩
      fwCandidate := some v, fwPhase := .heartbeat, fwStarted := s.stagedImage.2.clock
      measured := s.stagedImage.2.mgmt.measuredNow ++ [sha256 image] } } := by
  obtain ⟨hsignature, hkind, hlen⟩ := hgenuine
  refine (execFirmwareVerifyComplete_eq hphase hread).trans (if_neg ?_)
  rw [hsignature, hkind, imageLimit, decide_eq_false (not_lt.2 hlen)]
  decide

theorem execFirmwareVerifyComplete_old (h : v.svn < s.stagedImage.2.mgmt.running.svn) :
    execFirmwareVerifyComplete v s = .next (s.stagedImage.2.resumeService 5) :=
  (execFirmwareVerifyComplete_genuine hphase hread hgenuine).trans (if_pos h)

variable (hsvn : s.stagedImage.2.mgmt.running.svn ≤ v.svn)
include hsvn

theorem execFirmwareVerifyComplete_handover
    (h : s.stagedImage.2.mgmt.handover < v.handLo ∨ v.handHi < s.stagedImage.2.mgmt.handover) :
    execFirmwareVerifyComplete v s = .next (s.stagedImage.2.resumeService 6) :=
  (execFirmwareVerifyComplete_genuine hphase hread hgenuine).trans
    ((if_neg (not_lt.2 hsvn)).trans (if_pos (by simpa using h)))

theorem execFirmwareVerifyComplete_starts (hlo : v.handLo ≤ s.stagedImage.2.mgmt.handover)
    (hhi : s.stagedImage.2.mgmt.handover ≤ v.handHi) :
    execFirmwareVerifyComplete v s = .next { s.stagedImage.2 with mgmt := { s.stagedImage.2.mgmt with
      fwSlots := s.stagedImage.2.mgmt.fwSlots.set (if s.stagedImage.2.mgmt.fwActive then 0 else 1)
        ⟨v.major, v.minor, v.svn, s.stagedImage.2.mgmt.handover, true, some (sha256 image)⟩
      fwCandidate := some v, fwPhase := .heartbeat, fwStarted := s.stagedImage.2.clock
      measured := s.stagedImage.2.mgmt.measuredNow ++ [sha256 image] } } :=
  (execFirmwareVerifyComplete_genuine hphase hread hgenuine).trans
    ((if_neg (not_lt.2 hsvn)).trans (if_neg (by simp [hlo, hhi])))

end

/-! ## The first heartbeat -/

section

variable (hphase : s.mgmt.fwPhase = .heartbeat)
include hphase

theorem execFirstHeartbeat_eq : execFirstHeartbeat s = if s.mgmt.fwStarted + 20000000 < s.clock then .next s
    else .next (State.resumeService { s with mgmt := { s.mgmt with fwActive := !s.mgmt.fwActive } } 2) :=
  if_neg (not_not.2 hphase)

theorem execHeartbeatTimeout_due (h : s.mgmt.fwStarted + 20000000 ≤ s.clock) :
    execHeartbeatTimeout s = .next (State.resumeService { s with mgmt := { s.mgmt with
      fwSlots := s.mgmt.fwSlots.set (if s.mgmt.fwActive then 0 else 1)
        { slotOf s.mgmt.fwSlots (!s.mgmt.fwActive) with valid := false }
      measured := s.mgmt.measuredNow ++ [s.mgmt.fwDigest s.mgmt.fwActive] } } 3) := by
  rw [← b2n_not]
  exact if_neg (by simp [hphase, heartbeatNs, not_lt.2 h])

end

/-- Settles O57: each event of the update by its branches, in their order. -/
theorem firmwareUpdate : Obligations.FirmwareUpdate := by
  unfold Obligations.FirmwareUpdate
  intro s m
  refine ⟨fun hbusy => ⟨if_pos hbusy, if_pos hbusy, fun op => if_pos (by rw [hbusy]; rfl)⟩,
    fun hidle => ⟨if_neg hidle, execFirmwareSlotSelect_selects hidle, fun op => execFirmwareCmdIgnored_other⟩,
    fun hphase v => ⟨execFirmwareVerifyComplete_unread hphase, fun image hread => ?verdict⟩, fun hphase => ?heartbeat⟩
  case verdict =>
    exact ⟨execFirmwareVerifyComplete_false hphase hread, execFirmwareVerifyComplete_old hphase hread,
      execFirmwareVerifyComplete_handover hphase hread, execFirmwareVerifyComplete_starts hphase hread⟩
  case heartbeat =>
    exact ⟨fun h => (execFirstHeartbeat_eq hphase).trans (if_neg (not_lt.2 h)),
      fun h => (execFirstHeartbeat_eq hphase).trans (if_pos h), execHeartbeatTimeout_due hphase⟩

end Sys2Proof.Machine
end

section
/-!
SUPPORT. The SPDM requests (R366, R370, R371).
-/

namespace Sys2Proof.Machine

variable {s : State}

/-! ## Signed answers (R371) -/

/-- What a request that is answered with a signature leaves: ERROR Unspecified when no index is left; else the next index
is committed, and the answer waits to be released. -/
structure State.Signs (s : State) (req : Nat) (body nonce : List Byte) (t : State) : Prop where
  exhausted : 2 ^ 15 ≤ s.mgmt.sigTop → t = s.spdmError req spdmUnspecified
  signed : s.mgmt.sigTop < 2 ^ 15 →
    t = { s with mgmt := { s.mgmt with
      sigTop := t.mgmt.sigTop, sigLow := t.mgmt.sigLow
      signing := s.mgmt.signing ++ [⟨req, body, nonce ++ body, s.mgmt.sigTop, s.mgmt.sigLow⟩] } } ∧
    (s.mgmt.sigLow < 2 ^ 15 → t.mgmt.sigLow < 2 ^ 15 ∧
      t.mgmt.sigTop * 2 ^ 15 + t.mgmt.sigLow = s.mgmt.sigTop * 2 ^ 15 + s.mgmt.sigLow + 1)

theorem Mgmt.exhausted_iff (m : Mgmt) : m.exhausted = true ↔ 2 ^ 15 ≤ m.sigTop := decide_eq_true_iff

/-- The index of a commit is the next one over both stores. -/
theorem Mgmt.commitIndex_next (m : Mgmt) (h : m.sigLow < 2 ^ 15) : m.commitIndex.sigLow < 2 ^ 15 ∧
    m.commitIndex.sigTop * 2 ^ 15 + m.commitIndex.sigLow = m.sigTop * 2 ^ 15 + m.sigLow + 1 := by
  unfold Mgmt.commitIndex treeLeaves lmsHeight
  split
  · dsimp only
    omega
  · dsimp only
    omega

theorem Mgmt.commitIndex_eq (m : Mgmt) :
    m.commitIndex = { m with sigTop := m.commitIndex.sigTop, sigLow := m.commitIndex.sigLow } := by
  unfold Mgmt.commitIndex
  split <;> rfl

theorem State.signed_of_exhausted {req : Nat} {body nonce : List Byte} (h : 2 ^ 15 ≤ s.mgmt.sigTop) :
    s.signed req body nonce = s.spdmError req spdmUnspecified := if_pos (s.mgmt.exhausted_iff.2 h)

theorem State.signed_commits {req : Nat} {body nonce : List Byte} (h : s.mgmt.sigTop < 2 ^ 15) :
    s.signed req body nonce = { s with mgmt := { s.mgmt.commitIndex with
      signing := s.mgmt.signing ++ [⟨req, body, nonce ++ body, s.mgmt.sigTop, s.mgmt.sigLow⟩] } } :=
  if_neg (mt s.mgmt.exhausted_iff.1 (not_le.2 h))

theorem State.signed_signs (s : State) (req : Nat) (body nonce : List Byte) :
    s.Signs req body nonce (s.signed req body nonce) where
  exhausted := State.signed_of_exhausted
  signed h := by
    rw [State.signed_commits h]
    refine ⟨?_, s.mgmt.commitIndex_next⟩
    conv_lhs => rw [s.mgmt.commitIndex_eq]

theorem State.releaseSigned_eq {a : SignedAnswer} {l : List SignedAnswer} (h : s.mgmt.signing = a :: l) :
    s.releaseSigned = .next (State.answer { s with mgmt := { s.mgmt with signing := l } } a.req
      (a.body ++ hssSign a.top a.low a.message)) := by
  simp only [State.releaseSigned, h]

/-! ## Algorithms and measurements (R370) -/

theorem execNegotiateAlgorithms_hss {offer : List SpdmAlg} (h : .hssLms ∈ offer) :
    execNegotiateAlgorithms offer s =
      .next (State.answer { s with mgmt := { s.mgmt with negotiated := true } } spdmNegotiate []) :=
  if_pos (List.contains_iff_mem.2 h)

theorem execNegotiateAlgorithms_none {offer : List SpdmAlg} (h : .hssLms ∉ offer) :
    execNegotiateAlgorithms offer s = .next (s.spdmError spdmNegotiate spdmUnsupported) :=
  if_neg (mt List.contains_iff_mem.1 h)

theorem Mgmt.measurementOf_none (m : Mgmt) {i : Nat} (h : i = 0 ∨ 5 < i) : m.measurementOf i = none := by
  rcases h with rfl | h
  · rfl
  · obtain ⟨n, rfl⟩ := Nat.exists_eq_add_of_le' (Nat.succ_le_of_lt h)
    rfl

theorem execGetMeasurements_invalid {i : Nat} {sign : Bool} {nonce : List Byte} (h : i = 0 ∨ 5 < i) :
    execGetMeasurements i sign nonce s = .next (s.spdmError spdmGetMeasurements spdmInvalidRequest) := by
  simp only [execGetMeasurements, s.mgmt.measurementOf_none h]

theorem execGetMeasurements_of {i : Nat} {sign : Bool} {nonce d : List Byte} (h : s.mgmt.measurementOf i = some d) :
    execGetMeasurements i sign nonce s =
      .next (if sign then s.signed spdmGetMeasurements d nonce else s.answer spdmGetMeasurements d) := by
  simp only [execGetMeasurements, h]

/-! ## Sessions (R370) -/

theorem execKeyExchange_eq (id : Nat) (ex : List Byte) : execKeyExchange id ex s = .next
    (if 2 ^ 15 ≤ s.mgmt.sigTop then s.signed spdmKeyExchange [] ex
    else { s.signed spdmKeyExchange [] ex with mgmt := { (s.signed spdmKeyExchange [] ex).mgmt with
      sessions := (id, false) :: s.mgmt.sessions.filter (·.1 != id) } }) := by
  by_cases h : 2 ^ 15 ≤ s.mgmt.sigTop
  · rw [if_pos h]
    exact if_pos (s.mgmt.exhausted_iff.2 h)
  · have hsessions : (s.signed spdmKeyExchange [] ex).mgmt.sessions = s.mgmt.sessions := by
      rw [State.signed_commits (not_le.1 h), s.mgmt.commitIndex_eq]
    rw [if_neg h, ← hsessions]
    exact if_neg (mt s.mgmt.exhausted_iff.1 h)

section

variable {id : Nat}

theorem sessions_any_iff {l : List (Nat × Bool)} : l.any (·.1 == id) = true ↔ ∃ x ∈ l, x.1 = id := by
  simp only [List.any_eq_true, beq_iff_eq]

theorem sessions_any_none {l : List (Nat × Bool)} (h : ∀ x ∈ l, x.1 ≠ id) : l.any (·.1 == id) = false := by
  refine Bool.eq_false_iff.2 (mt sessions_any_iff.1 ?_)
  rintro ⟨x, hx, hid⟩
  exact h x hx hid

theorem execSpdmFinish_unknown (h : ∀ x ∈ s.mgmt.sessions, x.1 ≠ id) (d : List Byte) :
    execSpdmFinish id d s = .next (s.spdmError spdmFinishCode spdmInvalidSession) :=
  if_pos (by rw [sessions_any_none h]; rfl)

theorem execEndSession_unknown (h : ∀ x ∈ s.mgmt.sessions, x.1 ≠ id) :
    execEndSession id s = .next (s.spdmError spdmEndSession spdmInvalidSession) :=
  if_pos (by rw [sessions_any_none h]; rfl)

variable (h : ∃ x ∈ s.mgmt.sessions, x.1 = id)
include h

/-- Whether FINISH verifies is a free bit. -/
theorem execSpdmFinish_known (d : List Byte) : execSpdmFinish id d s = if s.draw.1 % 2 = 0 then
      .next (State.answer { s.draw.2 with mgmt := { s.mgmt with
        sessions := s.mgmt.sessions.map fun x => if x.1 == id then (x.1, true) else x } } spdmFinishCode [])
    else .next (s.draw.2.spdmError spdmFinishCode spdmUnspecified) :=
  if_neg (by rw [sessions_any_iff.2 h]; decide)

theorem execSpdmFinish_cases (d : List Byte) : ∃ t, execSpdmFinish id d s = .next t ∧
    (t = s.draw.2.spdmError spdmFinishCode spdmUnspecified ∨
     t = State.answer { s.draw.2 with mgmt := { s.mgmt with
       sessions := s.mgmt.sessions.map fun x => if x.1 == id then (x.1, true) else x } } spdmFinishCode []) := by
  rw [execSpdmFinish_known h]
  split
  · exact ⟨_, rfl, .inr rfl⟩
  · exact ⟨_, rfl, .inl rfl⟩

theorem execEndSession_known : execEndSession id s = .next (State.answer { s with mgmt := { s.mgmt with
    sessions := s.mgmt.sessions.filter (·.1 != id) } } spdmEndSession []) :=
  if_neg (by rw [sessions_any_iff.2 h]; decide)

end

/-! ## Keys of the link's encryption (R366) -/

section

variable {x : KeyMessage} {l : List KeyMessage} (hmsg : s.mgmt.keyMessages = x :: l)
include hmsg

theorem State.takeKeyMessage_dropped (h : (x.session, true) ∉ s.mgmt.sessions) :
    s.takeKeyMessage = .next { s with mgmt := { s.mgmt with keyMessages := l } } := by
  simp only [State.takeKeyMessage, hmsg, List.contains_iff_mem, if_neg h]

theorem State.takeKeyMessage_taken (h : (x.session, true) ∈ s.mgmt.sessions) :
    s.takeKeyMessage = .next { s with mgmt := { s.mgmt with
      keyMessages := l, ide := s.mgmt.ide.modify x.stream (IdeStream.take · x.op) } } := by
  simp only [State.takeKeyMessage, hmsg, List.contains_iff_mem, if_pos h]

end

/-- Settles O60: each request by its branches; what all signed answers share is `State.Signs`. -/
theorem attestationRequests : Obligations.AttestationRequests := by
  unfold Obligations.AttestationRequests
  intro s sign
  have hsign (req : Nat) (body nonce : List Byte) : sign req body nonce (s.signed req body nonce) :=
    ⟨(s.signed_signs req body nonce).exhausted, (s.signed_signs req body nonce).signed⟩
  refine ⟨fun a l => State.releaseSigned_eq, rfl, rfl,
    fun offer => ⟨execNegotiateAlgorithms_hss, execNegotiateAlgorithms_none⟩, rfl, fun off len => rfl,
    fun nonce => ⟨_, rfl, hsign ..⟩, fun i nonce => ⟨fun h b => execGetMeasurements_invalid h, ?measured⟩, ?exchange,
    fun id h => ⟨execSpdmFinish_unknown h, execEndSession_unknown h⟩,
    fun id h => ⟨execSpdmFinish_cases h, execEndSession_known h⟩,
    fun x l hmsg => ⟨State.takeKeyMessage_dropped hmsg, State.takeKeyMessage_taken hmsg⟩⟩
  case measured =>
    exact fun d h => ⟨execGetMeasurements_of h, _, execGetMeasurements_of h, hsign ..⟩
  case exchange => exact fun id ex => ⟨_, _, execKeyExchange_eq id ex, hsign .., rfl⟩

end Sys2Proof.Machine
end

section
/-!
SUPPORT. The host windows (R367 to R369).
-/

namespace Sys2Proof.Machine

variable {s : State}

/-! ## Window B (R368) -/

section

variable {a : HostAccess}

/-- An access through window B: by PA or by IA, its size and address, whether it leaves the window or the address space,
and its performing. -/
def State.hostPhys (s : State) (a : HostAccess) : Bool := a.fn == 0 && (s.mgmt.wbBaseOf a.fn).getLsbD 63
def hostSize (a : HostAccess) : Nat := match a.write with | some bs => bs.length | none => a.len
def State.hostAddr (s : State) (a : HostAccess) : Nat :=
  ((s.mgmt.wbBaseOf a.fn).extractLsb' 0 52).toNat / 65536 * 65536 + a.off
def State.hostOutside (s : State) (a : HostAccess) : Prop :=
  (s.mgmt.wbLimitOf a.fn).toNat < a.off + hostSize a ∨
    (if s.hostPhys a then Config.memTop else Config.iaTop) < s.hostAddr a + hostSize a
def State.hostDone (s : State) (a : HostAccess) : Bool × State :=
  match a.write with
  | some bs => s.hostWrite a.fn (s.hostPhys a) (s.hostAddr a) bs
  | none => s.hostRead a.fn (s.hostPhys a) (s.hostAddr a) (hostSize a)

theorem State.hostOutside_iff : s.hostOutside a ↔
    (decide ((s.mgmt.wbLimitOf a.fn).toNat < a.off + hostSize a) ||
      decide ((if s.hostPhys a then Config.memTop else Config.iaTop) < s.hostAddr a + hostSize a)) = true := by
  rw [Bool.or_eq_true, decide_eq_true_iff, decide_eq_true_iff, State.hostOutside]

theorem execHostWindowBAccess_outside (h : s.hostOutside a) :
    execHostWindowBAccess a s = .next (s.output (.windowB false [])) := if_pos (State.hostOutside_iff.1 h)

theorem execHostWindowBAccess_inside (h : ¬ s.hostOutside a) : execHostWindowBAccess a s =
    if s.hostPhys a || !(s.hostDone a).1 then .next (s.hostDone a).2
    else .next ((s.hostDone a).2.watchL2 hostParty (if a.write.isSome then 1 else 0) (s.hostAddr a) (hostSize a) none).2 :=
  if_neg (mt State.hostOutside_iff.2 h)

theorem execHostWindowBAccess_unwatched (h : ¬ s.hostOutside a) (hpa : s.hostPhys a = true ∨ (s.hostDone a).1 = false) :
    execHostWindowBAccess a s = .next (s.hostDone a).2 :=
  (execHostWindowBAccess_inside h).trans (if_pos (by rcases hpa with hpa | hpa <;> simp [hpa]))

theorem execHostWindowBAccess_watched (h : ¬ s.hostOutside a) (hia : s.hostPhys a = false) (hdone : (s.hostDone a).1 = true) :
    execHostWindowBAccess a s = .next
      ((s.hostDone a).2.watchL2 hostParty (if a.write.isSome then 1 else 0) (s.hostAddr a) (hostSize a) none).2 :=
  (execHostWindowBAccess_inside h).trans (if_neg (by simp [hia, hdone]))

end

/-! ## Window A (R369) -/

section

variable {fn off : Nat}

theorem wholeRegister_false {n : Nat} (h : off % 8 ≠ 0 ∨ n ≠ 8) : wholeRegister off n = false := by
  rcases h with h | h <;> simp [wholeRegister, h]

theorem wholeRegister_true {n : Nat} (hoff : off % 8 = 0) (hn : n = 8) : wholeRegister off n = true := by
  simp [wholeRegister, hoff, hn]

theorem State.readWindowA_part {n : Nat} (h : off % 8 ≠ 0 ∨ n ≠ 8) : s.readWindowA fn off n = none :=
  if_pos (by rw [wholeRegister_false h]; rfl)

theorem State.placeOf_device (h : off < 0x01000000) : s.placeOf fn off = some (.device off) := if_pos h

theorem State.placeOf_page (h : 0x01000000 ≤ off) : s.placeOf fn off =
    ((s.boundTo fn)[(off - 0x01000000) / 0x40000]?).map fun c => .page c ((off - 0x01000000) % 0x40000) :=
  if_neg (not_lt.2 h)

variable {data : List Byte}

theorem execRegisterWrite_part (h : off % 8 ≠ 0 ∨ data.length ≠ 8) :
    execRegisterWrite fn off data s = .next (s.output (.windowB false [])) :=
  if_pos (by rw [wholeRegister_false h]; rfl)

section

variable (hoff : off % 8 = 0) (hlen : data.length = 8)
include hoff hlen

theorem execRegisterWrite_device {o : Nat} (h : s.placeOf fn off = some (.device o)) :
    execRegisterWrite fn off data s = if fn = 0 then s.writeDevice o (wordOf data) else .next s := by
  simp only [execRegisterWrite, wholeRegister_true hoff hlen, h, Bool.not_true, Bool.false_eq_true, if_false]

theorem execRegisterWrite_page {c : Nat} (h : (s.boundTo fn)[(off - 0x01000000) / 0x40000]? = some c)
    (hpage : 0x01000000 ≤ off) :
    execRegisterWrite fn off data s = s.writePage c ((off - 0x01000000) % 0x40000) (wordOf data) := by
  have hplace := State.placeOf_page (s := s) (fn := fn) hpage
  rw [h, Option.map_some] at hplace
  simp only [execRegisterWrite, wholeRegister_true hoff hlen, hplace, Bool.not_true, Bool.false_eq_true, if_false]

theorem execRegisterWrite_unbound (hpage : 0x01000000 ≤ off) (h : (s.boundTo fn)[(off - 0x01000000) / 0x40000]? = none) :
    execRegisterWrite fn off data s = .next s := by
  have hplace := State.placeOf_page (s := s) (fn := fn) hpage
  rw [h, Option.map_none] at hplace
  simp only [execRegisterWrite, wholeRegister_true hoff hlen, hplace, Bool.not_true, Bool.false_eq_true, if_false]

end

end

/-! ## Registers of a context's page (Table 18-8) -/

section

variable {c reg : Nat} {v : Word}

/-- Beyond the single registers of a page lie its arrays. -/
theorem State.writePage_array (h : 0x400 < reg) : s.writePage c reg v = s.writePageArray c reg v := by
  unfold State.writePage
  split
  case h_11 => rfl
  all_goals omega

theorem indexIn_some {off base step n : Nat} (h : base ≤ off) (hstep : (off - base) % step = 0) (hn : (off - base) / step < n) :
    indexIn off base step n = some ((off - base) / step) := if_pos ⟨h, hstep, hn⟩

theorem indexIn_above {off base step n : Nat} (hn : n ≤ (off - base) / step) : indexIn off base step n = none :=
  if_neg fun h => not_lt.2 hn h.2.2

/-- Word w of the registers of queue q. -/
theorem State.writePage_queue {q w : Nat} (hq : q < 64) (hw : w < 8) :
    s.writePage c (0x2000 + 64 * q + 8 * w) v = s.writeQueue ⟨c, q⟩ (8 * w) v := by
  have hcores : indexIn (0x2000 + 64 * q + 8 * w) 0x40 8 9 = none := indexIn_above (by omega)
  have hranges : indexIn (0x2000 + 64 * q + 8 * w) 0x1000 8 64 = none := indexIn_above (by omega)
  have hqueues : indexIn (0x2000 + 64 * q + 8 * w) 0x2000 8 512 = some (8 * q + w) :=
    (indexIn_some (by omega) (by omega) (by omega)).trans (congrArg some (by omega))
  have hnumber : (8 * q + w) / 8 = q := by omega
  have hword : (8 * q + w) % 8 = w := by omega
  rw [State.writePage_array (by omega)]
  simp only [State.writePageArray, hcores, hranges, hqueues, hnumber, hword]

end

/-! ## Window C (R363, R364) -/

theorem State.readWindowC_denied {fn off n : Nat} (h : fn ≠ 0 ∨ 2 ^ 37 < off + n) : s.readWindowC fn off n = none :=
  if_neg fun ⟨hfn, hend⟩ => h.elim (· hfn) (not_lt.2 hend)

/-- The first 64 GiB are the four segments of the stele, of 16 GiB each. -/
theorem State.windowCByte_record {a : Nat} (h : a < 2 ^ 36) :
    s.windowCByte a = byteOf (s.steleRecord (a / 2 ^ 34) (a % 2 ^ 34 / 64)) (a % 64) := if_pos h

theorem State.readWindowC_records {off n : Nat} (h : off + n ≤ 2 ^ 36) :
    s.readWindowC 0 off n = some ((List.range n).map fun k =>
      byteOf (s.steleRecord ((off + k) / 2 ^ 34) ((off + k) % 2 ^ 34 / 64)) ((off + k) % 64)) := by
  have hread : s.readWindowC 0 off n = some ((List.range n).map fun k => s.windowCByte (off + k)) :=
    if_pos ⟨rfl, by omega⟩
  rw [hread]
  refine congrArg some (List.map_congr_left fun k hk => State.windowCByte_record ?_)
  have hlt := List.mem_range.1 hk
  omega

/-- Settles O56: window B by its checks, window A by the place of the offset, window C by its bytes. -/
theorem hostWindows : Obligations.HostWindows := by
  unfold Obligations.HostWindows
  intro s
  refine ⟨?windowB, fun fn off data => execRegisterWrite_part,
    fun fn off data hoff hlen => ⟨fun hdev hfn => ?vf, execRegisterWrite_unbound hoff hlen, fun c hc hpage => ?page⟩,
    fun data hlen => ?device, fun fn off n => State.readWindowA_part, fun fn off n => State.readWindowC_denied,
    fun off n => State.readWindowC_records⟩
  case windowB =>
    intro a base phys n addr outside done
    exact ⟨execHostWindowBAccess_outside, execHostWindowBAccess_unwatched, execHostWindowBAccess_watched⟩
  case vf => exact (execRegisterWrite_device hoff hlen (State.placeOf_device hdev)).trans (if_neg hfn)
  case page =>
    intro reg
    have hwrite : exec (.registerWrite fn off data) s = s.writePage c reg (wordOf data) := execRegisterWrite_page hoff hlen hc hpage
    refine ⟨fun h => ?_, fun h hv => ?_, fun h => ?_, fun h => ?_, fun h => ?_, fun q hq h => ?_⟩ <;> rw [hwrite, h]
    case refine_1 => rfl
    case refine_2 => exact if_pos hv
    case refine_3 => rfl
    case refine_4 => rfl
    case refine_5 => rfl
    case refine_6 =>
      have hplace : 0x2018 + 64 * q = 0x2000 + 64 * q + 8 * 3 := by omega
      rw [hplace, State.writePage_queue hq (by decide)]
      rfl
  case device =>
    exact ⟨execRegisterWrite_device (by decide) hlen (State.placeOf_device (by decide)),
      execRegisterWrite_device (by decide) hlen (State.placeOf_device (by decide))⟩

end Sys2Proof.Machine
end
